-- ==== Sys2Proof/Word.lean ====
section
/-! DEFINITION. The word types of the block: bytes as the manual's bit patterns, byte strings, and the sparse
map that every table, register file and memory of the state is held in. -/

namespace Sys2Proof

/-- One byte (R11: multi-byte fields are little-endian byte strings). -/
abbrev Byte := BitVec 8

/-- A byte string: a DOMAIN value, a frame, a queue entry, a buffer. -/
abbrev Bytes := List Byte

/-- A 32-bit register value (Notation: registers are 32 bits wide). -/
abbrev Word := BitVec 32

/-- A sparse map from natural keys: (key, value) pairs in rising key order, an absent key meaning the
default its reader names. Plain data, so that states can be compared. -/
abbrev SMap (α : Type) := List (Nat × α)

namespace SMap

variable {α : Type}

/-- The value at a key, if one is listed. -/
def get? : SMap α → Nat → Option α
  | [], _ => none
  | (k, v) :: t, j => if k = j then some v else get? t j

/-- The value at a key, or the default an unlisted key has. -/
def getD (m : SMap α) (k : Nat) (d : α) : α := (m.get? k).getD d

/-- List a value at a key, keeping the rising order. -/
def put : SMap α → Nat → α → SMap α
  | [], k, v => [(k, v)]
  | (j, w) :: t, k, v =>
    if k < j then (k, v) :: (j, w) :: t
    else if k = j then (k, v) :: t
    else (j, w) :: put t k v

/-- Remove a key. -/
def del : SMap α → Nat → SMap α
  | [], _ => []
  | (j, w) :: t, k => if j = k then del t k else (j, w) :: del t k

/-- Change the value at a key, starting from the default where it is unlisted. -/
def upd (m : SMap α) (k : Nat) (d : α) (f : α → α) : SMap α := m.put k (f (m.getD k d))

/-- Keys are strictly rising and none is below the bound. -/
def above : SMap α → Nat → Bool
  | [], _ => true
  | (k, _) :: t, b => decide (b ≤ k) && above t (k + 1)

/-- The canonical order: strictly rising keys. -/
def sorted (m : SMap α) : Bool := m.above 0

/-- Keep the pairs that satisfy a test. -/
def keep (m : SMap α) (p : Nat → α → Bool) : SMap α := m.filter fun kv => p kv.1 kv.2

end SMap

end Sys2Proof
end

