-- ==== Sys2Proof/Syntax.lean ====
section
/-! DEFINITION. The commands of the block: one constructor per row of spec/opcode_table.json, with the operands
that arrive with it. What the outside world supplies inside a step (bytes a host read returned, what an SSD
reported, a received frame) is an operand; what the device holds is in the state. -/

namespace Sys2Proof

/-- Who makes a dictionary request (R53): the mailbox of a function, a CAN port, or an Onsia session (the
triple of source address, source UDP port and SESSION, R45). -/
inductive Requester where
  | mailbox (fn : Nat)
  | can (port : Nat)
  | onsia (addr port session : Nat)
deriving DecidableEq, Repr, Inhabited

/-- What the reads of a command's host buffers returned (R165, R169): for each descriptor of the entry that is a
LIST in host memory, the listed descriptors (R525), then the data of the buffer the command takes in. A buffer in
LPDDR5 is read by the device itself and does not use this operand. -/
inductive HostRead where
  | bytes (lists : List Bytes) (data : Bytes)
  | timeout
  | error
deriving DecidableEq, Repr, Inhabited

/-- How an SQ fetch read is answered: the ring bytes from the head on, or not yet (a tracked read stays
outstanding under the tag given). -/
inductive FetchAnswer where
  | entry (b : Bytes)
  | outstanding
deriving DecidableEq, Repr, Inhabited

/-- A completion TLP (R169): data, poisoned data, or an error status. -/
inductive Cpl where
  | data (b : Bytes)
  | poisoned
  | unsupported
  | aborted
deriving DecidableEq, Repr, Inhabited

/-- An access to the boot window BAR2 (R67). -/
inductive WindowAccess where
  | read (off len : Nat)
  | write (off : Nat) (b : Bytes)
deriving DecidableEq, Repr, Inhabited

/-- The configuration fields without a row of their own that a configuration write can name (Tables 6-1, 6-4
and 6-9 and the capabilities the base specification lays out). -/
inductive CfgField where
  | msiEnable | msixEnable | memorySpaceEnable | parityErrorResponse | serrEnable | interruptDisable
  | cacheLineSize | interruptLine | powerState
  | extendedTagEnable | tenBitTagEnable | relaxedOrderingEnable | maxPayloadSize | maxReadRequestSize
  | completionTimeoutValue | aspmL0sEnable | aspmL1Enable | aspmL11Enable | aspmL12Enable
  | ltrEnable | multipleMessageEnable | msiMask | msiAddress | msiData | msixFunctionMask
  | vfMemorySpaceEnable | ariHierarchy | vfTenBitTagEnable | numVfs | systemPageSize
  | aerUncorrectableStatus | aerCorrectableStatus | aerUncorrectableMask | aerCorrectableMask
  | aerUncorrectableSeverity | statusErrorBits
  | readOnly (offset : Nat)
deriving DecidableEq, Repr, Inhabited

/-- Where a register write lands: a BAR0 offset of the function or a field of its configuration space. -/
inductive RegSpace where
  | bar0 (off : Nat)
  | cfg (f : CfgField)
deriving DecidableEq, Repr, Inhabited

/-- A segment frame of a USDO transfer as the port received it (R41, R42): a frame with a command specifier that
CiA 1301 defines for the transfer, its toggle bit, whether it is the last, its bytes; or any other frame. -/
inductive UsdoFrame where
  | segment (toggle last : Bool) (data : Bytes)
  | undefined
deriving DecidableEq, Repr, Inhabited

/-- What one ember slot holds, as the ember ROM finds it (R88). -/
structure EmberSlot where
  magicOk : Bool
  crcOk : Bool
  keyHash : Bytes
  signatureOk : Bool
  sequence : Nat
deriving DecidableEq, Repr, Inhabited

/-- One namespace as the catalogue lists it (R244, R251, R291). `found` is how many blocks from CP on the
forward read found written or void with a matching check. -/
structure CatalogueEntry where
  number : Nat
  evidence : Bool
  owner : Nat
  reader : Option Nat
  size : Nat
  rp : Nat
  cp : Nat
  found : Nat
  streamId : Nat
  lease : Nat
  deleting : Bool
deriving DecidableEq, Repr, Inhabited

/-- What step 4 of Table 9-2 finds. -/
inductive Catalogue where
  | absent
  | invalid
  | valid (mapMode : Bool) (entries : List CatalogueEntry)
deriving DecidableEq, Repr, Inhabited

/-- What an SSD reports of itself (Table 9-1). -/
structure SsdIdentity where
  version : Nat
  namespaceManagement : Bool
  namespaceCount : Nat
  datasetManagement : Bool
  writeZeroes : Bool
  dlfeat : Nat
  mdts : Nat
  queuePairs : Nat
  mqes : Nat
  capTo : Nat
  format4k : Bool
  metadataBytes : Nat
  capacityBlocks : Nat
  fnaBit0 : Bool
  model : Bytes
  catalogue : Catalogue
deriving DecidableEq, Repr, Inhabited

/-- One 4 KiB block as the SSD returns it: whether it could be read, its data and its metadata (Table 9-5). -/
structure BlockRead where
  readable : Bool
  data : Bytes
  metadata : Bytes
deriving DecidableEq, Repr, Inhabited

/-- How an NVMe back-end command ended. -/
inductive BackendResult where
  | ok (blocks : List BlockRead)
  | failed (blocks : List BlockRead)
deriving DecidableEq, Repr, Inhabited

/-- A Zelud control frame's common tag fields (Table 12-9). -/
structure ZeludSource where
  device : Nat
  domain : Nat
  hops : Nat
  ttl : Nat
deriving DecidableEq, Repr, Inhabited

/-- A PTP message as the hearth's PTP instance takes it (R382): what the standard derives from it. -/
inductive PtpMessage where
  | sync (twoStep : Bool) (offset : Int)
  | followUp (offset : Int)
  | announce (grandmaster : Nat) (better : Bool)
  | pdelayReq
  | pdelayResp (delay : Nat)
  | delayReq
  | delayResp (delay : Nat)
deriving DecidableEq, Repr, Inhabited

/-- The activity of one instance in one tick (R127). -/
structure TickActivity where
  inst : Nat
  slots : List Nat
  busyCycles : Nat
  storageBytes : Nat
  dramBytes : Nat
deriving DecidableEq, Repr, Inhabited

/-- What the damper's meters and sensors show for the tick just ended (R118): µJ of the fourteen domains, µJ of
the two root-port SerDes, bytes written on each root port with the kiln's part, the activity of each instance,
the total activity, the evidence queues' shares of STOR and CIPHER, the eight sensors in m°C and the averaged
VSENSE. -/
structure TickInput where
  domainUj : List Nat
  serdesUj : List Nat
  kilnBytes : List Nat
  portBytes : List Nat
  activity : List TickActivity
  totalSlots : List Nat
  totalBusy : Nat
  totalStorage : Nat
  totalDram : Nat
  evidenceStorUj : Nat
  evidenceCipherUj : Nat
  sensors : List Int
  vsenseAverage : Nat
deriving DecidableEq, Repr, Inhabited

/-- A physical or data link layer error, or a malformed TLP, of the host link (Table 6-11). -/
inductive LinkError where
  | receiverError | badTlp | badDllp | replayNumRollover | replayTimerTimeout
  | dataLinkProtocol | flowControlProtocol | receiverOverflow | malformedTlp
deriving DecidableEq, Repr, Inhabited

/-- A DTMCS or DMI operation (R515). -/
inductive DmiOp where
  | dtmcs (value : Nat)
  | read (addr : Nat)
  | write (addr value : Nat)
deriving DecidableEq, Repr, Inhabited

/-- The commands: one constructor for each row of the table, those with operands first, each part in the table's order (the
compiled form of a constructor with operands numbers it below 245). -/
inductive Instr where
  -- the dictionary service and its paths
  | dictRead (who : Requester) (index sub : Nat)
  | dictWrite (who : Requester) (index sub : Nat) (data : Bytes)
  | dictInfo (who : Requester) (index sub : Nat)
  | dictNext (who : Requester) (index sub : Nat)
  | dictReadShadow (who : Requester) (index sub : Nat)
  | onsiaDatagram (srcAddr srcPort dstAddr vlan : Nat) (payload : Bytes)
  | onsiaSessionTimeout (addr port session : Nat)
  | usdoInitiateUpload (port index sub : Nat)
  | usdoInitiateDownload (port index sub size : Nat) (data : Bytes)
  | usdoSegment (port : Nat) (frame : UsdoFrame)
  | usdoTransferTimeout (port : Nat)
  | groupCommit (who : Requester) (group : Nat)
  | groupDiscard (who : Requester) (group : Nat)
  | groupApply (group : Nat)
  | shadowTimeout (group : Nat)
  | writeMaskWrite (who : Requester) (inst mask : Nat)
  -- supplies, resets, links, start-up
  | aoPowerOn (tinderStraps : Nat) (testMode : Bool)
  | emberRestart (who : Requester)
  | hostLinkUp (width speed : Nat)
  | bootWindowAccess (access : WindowAccess)
  | bootGo (value : Word)
  | pllLockTimeout (pll : Nat)
  | lpddr5TrainingDone (failedChannel : Option Nat)
  | emberFwWrite (readBackOk : Bool)
  -- power states
  | requestBlaze (who : Requester)
  | requestGlow (who : Requester)
  | requestBanked (who : Requester)
  | requestEmber (who : Requester)
  | ssdShutdownComplete (port : Nat)
  | wakeEdge (pin : Nat)
  | tinderAddressMatch (address : Nat) (isRead : Bool)
  | tinderTransferTaken (count : Nat)
  | tinderRegisterWrite (data : Bytes)
  | managerVote (who : Requester) (domain value : Nat)
  | domainPowerUpStart (domain : Nat)
  | domainPowerGood (domain : Nat) (measureOk : List Nat)
  | domainPowerGoodTimeout (domain : Nat)
  | hysteresisExpiry (domain : Nat)
  | domainPowerDownDone (domain : Nat)
  -- the damper
  | damperTick (input : TickInput)
  | capReleaseHoldExpiry (inst : Nat)
  | shedPortSearch (port : Nat) (partner : Bool)
  | meterSampleTimeout (domain : Nat)
  | forceStep (who : Requester) (value : Nat)
  | snapshot (who : Requester) (value : Nat)
  | vsenseSample (code : Nat)
  -- the PCI Express endpoint
  | busMasterEnableClear (fn : Nat)
  | busMasterEnableSet (fn : Nat)
  | functionLevelReset (fn : Nat)
  | flrQuiesceComplete (inst : Nat)
  | interruptModeEnable (fn : Nat) (msix : Bool)
  | vectorUnmask (fn vector : Nat)
  | completionReceived (fn tag : Nat) (cpl : Cpl)
  | completionTimeout (fn tag : Nat)
  | quarantineWindowClose (fn tag : Nat)
  | hostBufferDoubleBitError (fn queue tag : Nat)
  | registerWrite (fn : Nat) (space : RegSpace) (value : Nat)
  | engineTake (fn engine : Nat)
  | engineRelease (fn engine : Nat)
  -- work queues and queue admin
  | sqTailDoorbell (fn queue value : Nat)
  | cqHeadDoorbell (fn queue value : Nat)
  | sqFetch (fn queue : Nat) (answer : FetchAnswer)
  | createCq (fn tag : Nat)
  | createSq (fn tag : Nat)
  | deleteSq (fn tag : Nat)
  | deleteCq (fn tag : Nat)
  | restartQueue (fn tag : Nat)
  | getErrorLog (fn tag : Nat) (buf : HostRead)
  | abort (fn tag : Nat)
  | setModeration (fn tag : Nat)
  | getQueueStatus (fn tag : Nat)
  | adminEnable (fn : Nat)
  | adminDisable (fn : Nat)
  | adminRestart (fn : Nat)
  | aggTimeExpiry (fn queue : Nat)
  -- tenant admin
  | createInstance (tag : Nat) (record : HostRead)
  | modifyInstance (tag : Nat) (record : HostRead)
  | quiesceInstance (tag : Nat)
  | quiesceComplete (inst : Nat)
  | quiesceTimeout (inst : Nat)
  | resumeInstance (tag : Nat)
  | resetInstance (tag : Nat)
  | destroyInstance (tag : Nat)
  | rearmInstance (tag : Nat)
  | getInstance (tag : Nat) (buf : HostRead)
  -- storage
  | nsCreate (fn tag : Nat)
  | nsDelete (fn tag : Nat)
  | nsIdentify (fn tag : Nat) (buf : HostRead)
  | nsErase (fn tag : Nat)
  | evidenceRelease (fn tag : Nat)
  | ssdPrepare (fn tag : Nat)
  | ssdDetach (fn tag : Nat)
  | ssdAttach (fn tag : Nat)
  | read (fn queue tag : Nat) (buf : HostRead)
  | write (fn queue tag : Nat) (data : HostRead)
  | flush (fn queue tag : Nat)
  | deallocate (fn queue tag : Nat)
  | writeZeroes (fn queue tag : Nat)
  | verify (fn queue tag : Nat)
  | evidenceAppend (fn queue tag : Nat) (data : HostRead)
  | rootPortLinkUp (port : Nat)
  | rootPortLinkDown (port : Nat)
  | controllerReady (port : Nat) (identity : SsdIdentity)
  | controllerReadyTimeout (port : Nat)
  | backendCompletion (port command : Nat) (result : BackendResult)
  | backendTimeout (port command : Nat)
  | ssdAsyncEvent (port warning : Nat)
  | catalogueCheckpoint (ns : Nat)
  -- the kiln path
  | kilnStreamCreate (tag : Nat) (record : HostRead)
  | kilnStreamOpen (tag : Nat)
  | kilnStreamClose (tag : Nat)
  | kilnStreamKeys (tag : Nat) (list : HostRead)
  | kilnStreamDelete (tag : Nat)
  | kilnStreamGet (tag : Nat) (buf : HostRead)
  | kilnStreamIndex (tag : Nat)
  | kilnAdmission (stream : Nat)
  | segmentAgeExpiry (stream : Nat)
  | runAgeExpiry (stream : Nat)
  | leaseWritten (stream : Nat) (ok : Bool)
  -- cipher jobs, keys, checks
  | gcmEncrypt (fn queue tag : Nat)
  | gcmDecrypt (fn queue tag : Nat)
  | ccmEncrypt (fn queue tag : Nat)
  | ccmDecrypt (fn queue tag : Nat)
  | ctr (fn queue tag : Nat)
  | cbcEncrypt (fn queue tag : Nat)
  | cbcDecrypt (fn queue tag : Nat)
  | xtsEncrypt (fn queue tag : Nat)
  | xtsDecrypt (fn queue tag : Nat)
  | chacha20Poly1305Encrypt (fn queue tag : Nat)
  | chacha20Poly1305Decrypt (fn queue tag : Nat)
  | cmacGenerate (fn queue tag : Nat)
  | cmacVerify (fn queue tag : Nat)
  | sha256 (fn queue tag : Nat)
  | sha384 (fn queue tag : Nat)
  | hmacGenerate (fn queue tag : Nat)
  | hmacVerify (fn queue tag : Nat)
  | cipherJobStart (fn queue tag : Nat)
  | cipherJobDone (engine : Nat)
  | keyGenerate (fn queue tag : Nat)
  | keyImport (fn queue tag : Nat) (blob : HostRead)
  | keyExport (fn queue tag : Nat) (buf : HostRead)
  | keyClear (fn queue tag : Nat)
  | keyInfo (fn queue tag : Nat) (buf : HostRead)
  | keySetLimit (fn queue tag : Nat)
  | vaultWriteDone (ok : Bool)
  | keyStoreDoubleBitError (slot : Nat)
  | checkCompute (fn queue tag : Nat)
  | checkBlocks (fn queue tag : Nat)
  | checkVerifyBlocks (fn queue tag : Nat)
  | checkSliceDone (unit : Nat) (payload array : HostRead)
  -- the packet pipeline, its table, virtual ports, Zelud and time
  | frameReceived (port : Nat) (frame : Bytes) (fcsOk : Bool) (stamp : Nat)
  | ageingSweep (bucket : Nat)
  | tblInsert (fn queue tag : Nat) (entry : HostRead)
  | tblDelete (fn queue tag : Nat) (key : HostRead)
  | tblLookup (fn queue tag : Nat) (key : HostRead)
  | tblLock (fn queue tag : Nat) (key : HostRead)
  | tblStage (fn queue tag : Nat) (entry : HostRead)
  | tblUnlock (fn queue tag : Nat)
  | tblRead (fn queue tag : Nat) (buf : HostRead)
  | lockHoldExpiry (handle : Nat)
  | tableDoubleBitError (bucket : Nat)
  | vpSend (fn queue tag : Nat) (frame : HostRead)
  | vpRxBind (fn queue tag : Nat) (area : HostRead)
  | vpRxReturn (fn queue tag : Nat)
  | portLinkUp (port rate : Nat)
  | portLinkDown (port : Nat)
  | keepaliveTimer (port : Nat)
  | hello (port : Nat) (src : ZeludSource) (serial ring side t1 echoT1 echoT2 echoT3 arrived : Nat)
  | topology (port : Nat) (src : ZeludSource) (serial eastDelay eastRate : Nat) (reach : List Nat)
  | fault (port : Nat) (src : ZeludSource) (side : Nat)
  | restore (port : Nat) (src : ZeludSource) (side : Nat)
  | leave (port : Nat) (src : ZeludSource)
  | ringPortFail (port : Nat)
  | ringPortSilence (port : Nat)
  | steerHoldExpiry (ring : Nat)
  | restoreHoldExpiry (port : Nat)
  | ptpMessage (port : Nat) (msg : PtpMessage)
  | timeSet (who : Requester) (value : Nat)
  -- egress scheduling
  | frameTransmitDone (port : Nat)
  | gateIntervalEnd (port : Nat)
  | gateListChange (port : Nat)
  -- flow cores
  | threadInstruction (thread : Nat)
  | trWait (thread rd rs1 : Nat)
  | trRxf (thread rd rs1 rs2 : Nat)
  | trTxf (thread rd rs1 : Nat)
  | trDma (thread rd rs1 : Nat)
  | trClaim (thread rd rs1 : Nat)
  | trPut (thread rd rs1 rs2 : Nat)
  | trCommit (thread rd rs1 : Nat)
  | trRecv (thread rd rs1 : Nat)
  | trDrop (thread rd rs1 : Nat)
  | ttimerWrite (thread value : Nat)
  | tpetWrite (thread : Nat)
  | ttimerExpiry (thread : Nat)
  | threadWatchdogExpiry (thread : Nat)
  | receiveCopyDone (thread : Nat)
  | dmaDone (thread tag : Nat)
  | txfDone (thread : Nat)
  | groupStart (who : Requester) (group : Nat)
  | groupStop (who : Requester) (group : Nat)
  | groupRestart (who : Requester) (group : Nat)
  | groupDelete (who : Requester) (group : Nat)
  | groupStopComplete (group : Nat)
  | restartGroup (who : Requester) (inst group : Nat)
  | stallDetected (group : Nat)
  | threadFaultHandling (thread : Nat)
  | sliceDoubleBitError (thread : Nat)
  | coreFault (core : Nat)
  | coreReloadDone (core : Nat) (measureOk : Bool)
  | deliveryThreadWrite (who : Requester) (core thread : Nat)
  | debugHalt (thread : Nat)
  | debugResume (thread : Nat)
  | claimRelease (thread : Nat)
  -- the event gatherer
  | egClaim (target : Nat)
  | egEoi (target source : Nat)
  | egTctrlClear (target : Nat)
  | clearTarget (who : Requester) (target : Nat)
  | egPset (k : Nat) (mask : Word)
  | egPclr (k : Nat) (mask : Word) (firing : List Nat)
  | egSrcWrite (source : Nat) (value : Word)
  | sourceMap (who : Requester) (data : Bytes)
  -- the ash log, alarms and peat
  | admissionTokenGain (cls : Nat)
  | logClear (who : Requester)
  | firstOfKindClear (who : Requester)
  | exportPull (who : Requester)
  | alarmAck (who : Requester) (alarm : Nat)
  | ackAll (who : Requester)
  | alarmDefine (who : Requester) (alarm sub value : Nat)
  | alarmInhibitExpiry (alarm : Nat)
  | peatOff (who : Requester)
  | peatRing (who : Requester)
  | peatOneShot (who : Requester)
  | peatCheckpoint (hearthMemory : Bytes)
  | trigger (who : Requester)
  | peatWindowWrite (who : Requester) (data : Bytes)
  | replayArm (who : Requester)
  -- JTAG and debug
  | dmiAccess (op : DmiOp)
  -- completions and expiries of the rows above
  | emberStartComplete (slot0 slot1 : EmberSlot)
  | syncIntervalExpiry (port : Nat)
  | ppsOutEdge (rising : Bool)
  | hostLinkError (err : LinkError)
  | correctedInternalError (fn : Nat)
  -- commands without operands
  | heartbeat
  | emberWatchdogExpiry
  | mainPgRise
  | mainPgTimeout
  | mainEnRetryExpiry
  | mainPgLoss
  | perstNAssert
  | perstNRelease
  | hostLinkDown
  | hotReset
  | hearthWatchdogExpiry
  | drainComplete
  | drainTimeout
  | ssdShutdownTimeout
  | emberWakeHoldExpiry
  | ignRise
  | ignFall
  | wakeAlarm
  | tinderStretchLimit
  | bankedMaxExpiry
  | vsenseEmberHoldExpiry
  | ignOffTimerExpiry
  | ignOffRetryExpiry
  | thermalTrip
  | thermalTripShutdown
  | descentHoldExpiry
  | ignOffAllowanceReached
  | pf0FunctionLevelReset
  | vfEnableSet
  | vfEnableClear
  | powerStateD3hot
  | powerStateD0
  | linkLossHoldExpiry
  | l0sEntry
  | l1IdleExpiry
  | ltrIdleExpiry
  | flushGatherExpiry
  | pfail
  | pfSequenceBoundExpiry
  | pfailReleaseExpiry
  | vaultRestore
  | learnInsert
  | helloTimer
  | topologyTimer
  | leaveWaitExpiry
  | syncTimeout
  | ppsInEdge
  | ppsInTimeout
  | shaperRefresh
  | admissionSummary
  | udpPush
  | canExport
  | peatFreeze
  | debugSessionAttach
  | debugSessionDetach
  | resetReq
  | peatTrigger
  | egressDrainExpiry
  | mainPgFall
  | pfailRelease
  | slowclk1024Cycles
deriving DecidableEq, Repr

end Sys2Proof
end

