-- ==== Sys2Proof/Machine/Bits.lean ====
section
/-! DEFINITION. Byte strings, bit fields and the check sums used by more than one block: little-endian fields (R11),
the CRC-32C of the Scope chapter, and small list helpers. -/

namespace Sys2Proof.Machine

/-- The k bytes of a number, least significant first (R11). -/
def leBytes : Nat → Nat → Bytes
  | 0, _ => []
  | k + 1, n => BitVec.ofNat 8 n :: leBytes k (n / 256)

/-- The k bytes of a number, most significant first. -/
def beBytes (k n : Nat) : Bytes := (leBytes k n).reverse

/-- The number that little-endian bytes give. -/
def leNat : Bytes → Nat
  | [] => 0
  | b :: t => b.toNat + 256 * leNat t

/-- The number that big-endian bytes give. -/
def beNat (b : Bytes) : Nat := leNat b.reverse

/-- `len` bytes from `off` on, short where the string ends. -/
def sub (b : Bytes) (off len : Nat) : Bytes := (b.drop off).take len

/-- The little-endian number at an offset; bytes past the end read as zero. -/
def leAt (b : Bytes) (off len : Nat) : Nat := leNat (sub b off len)

/-- The big-endian number at an offset. -/
def beAt (b : Bytes) (off len : Nat) : Nat := beNat (sub b off len)

/-- One byte of a string as a number; zero past the end. -/
def byteAt (b : Bytes) (off : Nat) : Nat := (b.getD off 0).toNat

/-- A string of zero bytes. -/
def zeros (n : Nat) : Bytes := List.replicate n 0

/-- A string brought to a length: cut, or filled with zeros. -/
def padTo (n : Nat) (b : Bytes) : Bytes := b.take n ++ zeros (n - b.length)

/-- Bytes written over a string at an offset, the string keeping its length. -/
def overlay (b : Bytes) (off : Nat) (w : Bytes) : Bytes :=
  (b.take off ++ w ++ b.drop (off + w.length)).take b.length

/-- Bits [lo+w-1 : lo] of a number. -/
def bits (n lo w : Nat) : Nat := n / 2 ^ lo % 2 ^ w

/-- One bit of a number. -/
def bit (n k : Nat) : Bool := n.testBit k

/-- A number with one bit set or cleared. -/
def setBit (n k : Nat) (v : Bool) : Nat :=
  if bit n k == v then n else if v then n + 2 ^ k else n - 2 ^ k

/-- A number's field [lo+w-1 : lo] replaced. -/
def setBits (n lo w v : Nat) : Nat := n - bits n lo w * 2 ^ lo + (v % 2 ^ w) * 2 ^ lo

/-- A Boolean as 0 or 1. -/
def b2n (b : Bool) : Nat := if b then 1 else 0

/-- How many bits of a number below a width are set. -/
def popcount : Nat → Nat → Nat
  | 0, _ => 0
  | w + 1, n => n % 2 + popcount w (n / 2)

/-- Every byte of a string is zero. -/
def allZero (b : Bytes) : Bool := b.all (· == 0)

/-- A number's two's complement in a width, from an integer. -/
def ofInt (w : Nat) (i : Int) : Nat := (i % (2 ^ w : Nat)).toNat

/-- The integer a two's complement number of a width stands for. -/
def toInt (w n : Nat) : Int :=
  if n % 2 ^ w < 2 ^ (w - 1) then (n % 2 ^ w : Nat) else (n % 2 ^ w : Nat) - (2 ^ w : Nat)

/-- Sum of a list of numbers. -/
def sumNat (l : List Nat) : Nat := l.foldl (· + ·) 0

/-- Integer division rounded up; zero for a zero divisor. -/
def ceilDiv (a b : Nat) : Nat := (a + b - 1) / b

/-- The list without the element at an index. -/
def dropAt {α : Type} (l : List α) (i : Nat) : List α := l.take i ++ l.drop (i + 1)

/-- One step of a reflected CRC over the eight bits of a byte. -/
def crcBits (poly : Nat) : Nat → Nat → Nat
  | 0, c => c
  | k + 1, c => crcBits poly k (if c % 2 = 1 then Nat.xor (c / 2) poly else c / 2)

/-- The CRC-32C register run over bytes, without initial value and final XOR. -/
def crcRun (c : Nat) (b : Bytes) : Nat := b.foldl (fun c x => crcBits 0x82F63B78 8 (Nat.xor c x.toNat)) c

/-- CRC-32C (polynomial 0x1EDC_6F41 reflected, initial value and final XOR all ones) over a byte string. -/
def crc32c (b : Bytes) : Nat :=
  Nat.xor (crcRun 0xFFFFFFFF b) 0xFFFFFFFF

/-- Cut a byte string into pieces of n bytes (fuel bounds the number of pieces). -/
def chunks (n : Nat) : Nat → Bytes → List Bytes
  | 0, _ => []
  | f + 1, b => if b.isEmpty then [] else b.take n :: chunks n f (b.drop n)

/-- A byte string as its pieces of n bytes. -/
def chunksOf (n : Nat) (b : Bytes) : List Bytes := chunks n (b.length + 1) b

/-- The numbers a, a + 1, … of which there are n. -/
def upFrom (a n : Nat) : List Nat := (List.range n).map (a + ·)

end Sys2Proof.Machine
end

