-- ==== Sys2Proof/Machine/Types.lean ====
section
/-! DEFINITION. The names shared by every block: the status codes (Tables 0-9, 2-17 and the chapters' additions), the
severities and log codes of the ash log, and what a row of the object dictionary is. -/

namespace Sys2Proof.Machine

/-- The status codes (R14, R16): every code the manual defines. -/
inductive Status where
  | ok
  | unknownIndexOrOpcode | unknownSubindex | lengthMismatch | readOnly | writeOnly | outOfRange | groupConflict
  | notInThisState | notYourInstance | fieldInvalid | mediaUnsuitable | protocolError
  | poolExhausted | tableFull | engineLocked | channelBusy | groupHeld | wakePending | notDrained | evidenceFull
  | backendUnavailable | channelFull | transferTimeout
  | queueFrozen | instanceNotQuiesced | aborted | abortNotCaught | hostAccessLost | hostReadTimeout | hostReadError | bufferListInvalid
  | checkMismatch | authTagMismatch | mediaError | paddingBad
  | keySpent | keyRevoked | versionTooLow | signatureBad | bundleCrcBad | keyUnknown | measureMismatch | keyEmpty
  | keyUsage | crcTableBad
  | internalFault | priorityStackFault | stallDetected | threadFault | replayDiverged
deriving DecidableEq, Repr, Inhabited

/-- The 16-bit code of a status (Table 0-9 and the tables of added codes). -/
def Status.code : Status → Nat
  | .ok => 0x0000
  | .unknownIndexOrOpcode => 0x0101 | .unknownSubindex => 0x0102 | .lengthMismatch => 0x0103
  | .readOnly => 0x0104 | .writeOnly => 0x0105 | .outOfRange => 0x0106 | .groupConflict => 0x0107
  | .notInThisState => 0x0108 | .notYourInstance => 0x0109 | .fieldInvalid => 0x010A
  | .mediaUnsuitable => 0x010B | .protocolError => 0x010C
  | .poolExhausted => 0x0201 | .tableFull => 0x0202 | .engineLocked => 0x0203 | .channelBusy => 0x0204
  | .groupHeld => 0x0205 | .wakePending => 0x0206 | .notDrained => 0x0207 | .evidenceFull => 0x0208
  | .backendUnavailable => 0x0209 | .channelFull => 0x020A | .transferTimeout => 0x020B
  | .queueFrozen => 0x0301 | .instanceNotQuiesced => 0x0302 | .aborted => 0x0303 | .abortNotCaught => 0x0304
  | .hostAccessLost => 0x0305 | .hostReadTimeout => 0x0306 | .hostReadError => 0x0307 | .bufferListInvalid => 0x0308
  | .checkMismatch => 0x0401 | .authTagMismatch => 0x0402 | .mediaError => 0x0403 | .paddingBad => 0x0404
  | .keySpent => 0x0501 | .keyRevoked => 0x0502 | .versionTooLow => 0x0503 | .signatureBad => 0x0504
  | .bundleCrcBad => 0x0505 | .keyUnknown => 0x0506 | .measureMismatch => 0x0507 | .keyEmpty => 0x0508
  | .keyUsage => 0x0509 | .crcTableBad => 0x050A
  | .internalFault => 0x0601 | .priorityStackFault => 0x0602 | .stallDetected => 0x0603
  | .threadFault => 0x0604 | .replayDiverged => 0x0605

/-- The class of a status, its high byte (Table 0-8). -/
def Status.cls (s : Status) : Nat := s.code / 256

/-- Severities (Table 16-2), as their numbers: a lower number is more severe. -/
inductive Severity where
  | fatal | critical | error | warning | notice | trace
deriving DecidableEq, Repr, Inhabited

/-- The number of a severity (Table 16-2). -/
def Severity.num : Severity → Nat
  | .fatal => 0 | .critical => 1 | .error => 2 | .warning => 3 | .notice => 4 | .trace => 5

/-- The types of dictionary entries (Table 2-1). -/
inductive DTy where
  | bool | u8 | u16 | u32 | u64 | i32 | domain | vstr
deriving DecidableEq, Repr, Inhabited

/-- The code of a type in INFO answers (Table 2-1). -/
def DTy.code : DTy → Nat
  | .bool => 1 | .u8 => 2 | .u16 => 3 | .u32 => 4 | .u64 => 5 | .i32 => 6 | .domain => 7 | .vstr => 8

/-- The length of a fixed-length type (Table 2-1); zero for DOMAIN and VISIBLE_STRING. -/
def DTy.len : DTy → Nat
  | .bool => 1 | .u8 => 1 | .u16 => 2 | .u32 => 4 | .u64 => 8 | .i32 => 4 | .domain => 0 | .vstr => 0

/-- The access codes (Table 2-2). -/
inductive DAcc where
  | ro | rw | wo | rwc | const
deriving DecidableEq, Repr, Inhabited

/-- The INFO code of an access code (Table 2-2). -/
def DAcc.code : DAcc → Nat
  | .ro => 1 | .rw => 2 | .wo => 3 | .rwc => 4 | .const => 5

/-- The value an entry holds: a number (the unsigned reading of its bytes) or a byte string. -/
inductive DVal where
  | num (n : Nat)
  | bytes (b : Bytes)
deriving DecidableEq, Repr, Inhabited

/-- The number of a value (a byte string read little-endian). -/
def DVal.nat : DVal → Nat
  | .num n => n
  | .bytes b => leNat b

/-- The bytes of a value of a type (R11, Table 2-1). -/
def DVal.enc (t : DTy) : DVal → Bytes
  | .num n => leBytes t.len n
  | .bytes b => b

/-- The value that bytes of a type give. -/
def DVal.dec (t : DTy) (b : Bytes) : DVal :=
  match t with
  | .domain => .bytes b
  | .vstr => .bytes b
  | _ => .num (leNat b)

/-- One row of the dictionary: `count` indexes from `base` on, `stride` apart, sub-indexes `lo` to `hi`; the commit
group of the first index (0 for none) and its step from index to index; the values admitted (none listed: every value
of the type); the greatest length in bytes. -/
structure DRow where
  base : Nat
  count : Nat
  stride : Nat
  lo : Nat
  hi : Nat
  ty : DTy
  acc : DAcc
  group : Nat
  gstep : Nat
  dflt : DVal
  range : List (Nat × Nat)
  maxLen : Nat
deriving DecidableEq, Repr, Inhabited

/-- Which of a row's indexes an index is. -/
def DRow.pos (r : DRow) (idx : Nat) : Option Nat :=
  if idx < r.base then none
  else if r.stride = 0 then (if idx = r.base then some 0 else none)
  else if (idx - r.base) % r.stride = 0 ∧ (idx - r.base) / r.stride < r.count then some ((idx - r.base) / r.stride)
  else none

/-- The row covers the entry. -/
def DRow.covers (r : DRow) (idx sub : Nat) : Bool := (r.pos idx).isSome && r.lo ≤ sub && sub ≤ r.hi

/-- The commit group of an entry of the row. -/
def DRow.groupOf (r : DRow) (idx : Nat) : Nat :=
  if r.group = 0 then 0 else r.group + r.gstep * (r.pos idx).getD 0

end Sys2Proof.Machine
end

