-- ==== Sys2Proof/Machine/DictRows.lean ====
section
/-! DEFINITION. The object dictionary's rows (R59, R239, R467, R498 and the entry tables of every chapter), as a
table: which indexes and sub-indexes a row covers, its type, access code, commit group, default, the values its range
admits and its maximum length. A row that stands earlier wins where two cover one entry. -/

namespace Sys2Proof.Machine

open DTy DAcc

/-- A default that is a number. -/
abbrev DRow.n (k : Nat) : DVal := .num k
/-- A default that is a byte string. -/
abbrev DRow.bs (l : List Nat) : DVal := .bytes (l.map (BitVec.ofNat 8))
/-- A default that is a text. -/
def DRow.str (t : String) : DVal := .bytes (t.toList.map fun c => BitVec.ofNat 8 c.toNat)
/-- 512 bytes with the bit of VID 1 set (the default of the VLAN entries). -/
def DRow.vlan1 : DVal := .bytes (2 :: List.replicate 511 0)
/-- The default gate list: entry 0 of 1,000,000 ns with every gate open. -/
def DRow.gate0 : DVal := .bytes ([0x40, 0x42, 0x0F, 0x00, 0xFF, 0, 0, 0] ++ List.replicate 2040 0)

open DRow

/-- Rows 1 to 36 of the table. -/
def dictRows1 : List DRow := [
  ⟨0x1011, 1, 0x0, 1, 1, .u8, .rw, 0, 0, (n 96), [(1, 127)], 1⟩, -- CAN1_NODE_ID
  ⟨0x1011, 1, 0x0, 2, 2, .u32, .rwc, 2, 0, (n 500000), [(125000, 125000), (250000, 250000), (500000, 500000), (1000000, 1000000)], 4⟩, -- CAN1_NOMINAL_RATE
  ⟨0x1011, 1, 0x0, 3, 3, .u32, .rwc, 2, 0, (n 2500000), [(0, 0), (1000000, 1000000), (2500000, 2500000), (5000000, 5000000)], 4⟩, -- CAN1_DATA_RATE
  ⟨0x1011, 1, 0x0, 4, 4, .u8, .rw, 0, 0, (n 1), [(0, 2)], 1⟩, -- CAN1_RIGHTS
  ⟨0x1011, 1, 0x0, 5, 5, .u16, .ro, 0, 0, (n 0), [], 2⟩, -- CAN1_LAST_ABORT
  ⟨0x1FC0, 1, 0x0, 1, 1, .u64, .const, 0, 0, (n 0xFFFFFFFFFFFFFFFF), [], 8⟩, -- WRITE_MASK of instance 0
  ⟨0x2010, 1, 0x0, 2, 2, .bool, .const, 0, 0, (n 0), [], 1⟩, -- MANAGER_VOTE of a fixed domain
  ⟨0x2010, 1, 0x0, 3, 3, .u32, .const, 0, 0, (n 0), [], 4⟩, -- HYSTERESIS of a fixed domain
  ⟨0x2011, 1, 0x0, 2, 2, .bool, .const, 0, 0, (n 0), [], 1⟩, -- MANAGER_VOTE of a fixed domain
  ⟨0x2011, 1, 0x0, 3, 3, .u32, .const, 0, 0, (n 0), [], 4⟩, -- HYSTERESIS of a fixed domain
  ⟨0x201A, 1, 0x0, 2, 2, .bool, .const, 0, 0, (n 0), [], 1⟩, -- MANAGER_VOTE of a fixed domain
  ⟨0x201A, 1, 0x0, 3, 3, .u32, .const, 0, 0, (n 0), [], 4⟩, -- HYSTERESIS of a fixed domain
  ⟨0x2012, 4, 0x1, 3, 3, .u32, .rw, 0, 0, (n 10000), [(100, 100000)], 4⟩, -- HYSTERESIS, FLOWC0-3
  ⟨0x2016, 1, 0x0, 3, 3, .u32, .rw, 0, 0, (n 1000), [(100, 100000)], 4⟩, -- HYSTERESIS, PIPE
  ⟨0x2017, 1, 0x0, 3, 3, .u32, .rw, 0, 0, (n 100), [(100, 100000)], 4⟩, -- HYSTERESIS, KILN
  ⟨0x2018, 1, 0x0, 3, 3, .u32, .rw, 0, 0, (n 1000), [(100, 100000)], 4⟩, -- HYSTERESIS, CIPHER
  ⟨0x2019, 1, 0x0, 3, 3, .u32, .rw, 0, 0, (n 50000), [(100, 100000)], 4⟩, -- HYSTERESIS, STOR
  ⟨0x201B, 2, 0x1, 3, 3, .u32, .rw, 0, 0, (n 100000), [(100, 100000)], 4⟩, -- HYSTERESIS, TRUNK and EDGE
  ⟨0x201D, 1, 0x0, 3, 3, .u32, .rw, 0, 0, (n 1000), [(100, 100000)], 4⟩, -- HYSTERESIS, DRAM
  ⟨0x2140, 1, 0x0, 1, 1, .u8, .const, 0, 0, (n 1), [], 1⟩, -- CLASS of instance 0
  ⟨0x2840, 1, 0x0, 1, 1, .bool, .const, 0, 0, (n 1), [], 1⟩, -- CLEAR_IMPORT of instance 0
  ⟨0x3000, 4, 0x10, 2, 2, .u8, .rwc, 5, 1, (n 1), [(1, 2)], 1⟩, -- MODE of a trunk port
  ⟨0x3000, 4, 0x10, 3, 3, .u8, .rwc, 5, 1, (n 2), [(0, 2)], 1⟩, -- FEC of a trunk port
  ⟨0x3040, 16, 0x10, 2, 2, .u8, .rwc, 9, 1, (n 3), [(3, 5)], 1⟩, -- MODE of an edge port
  ⟨0x3040, 16, 0x10, 3, 3, .u8, .rwc, 9, 1, (n 0), [(0, 0)], 1⟩, -- FEC of an edge port
  ⟨0x3180, 1, 0x0, 8, 8, .u8, .rw, 0, 0, (n 248), [], 1⟩, -- PRIORITY2
  ⟨0x3A03, 1, 0x0, 15, 15, .u8, .rw, 0, 0, (n 4), [(0, 2)], 1⟩, -- MIN_SEVERITY of class 14
  ⟨0x3A20, 1, 0x0, 1, 1, .bool, .rw, 0, 0, (n 1), [], 1⟩, -- ENABLE of the mailbox export path
  ⟨0x3A40, 1, 0x0, 1, 1, .u16, .rw, 0, 0, (n 0x0501), [], 2⟩, -- alarm 0 CODE
  ⟨0x3A40, 1, 0x0, 2, 2, .u8, .rw, 0, 0, (n 6), [(0, 15), (255, 255)], 1⟩, -- alarm 0 CLASS
  ⟨0x3A40, 1, 0x0, 3, 3, .u8, .rw, 0, 0, (n 1), [(0, 5)], 1⟩, -- alarm 0 MATCH_SEVERITY
  ⟨0x3A40, 1, 0x0, 4, 4, .u8, .rw, 0, 0, (n 1), [(0, 5)], 1⟩, -- alarm 0 SEVERITY
  ⟨0x3A41, 1, 0x0, 1, 1, .u16, .rw, 0, 0, (n 0x0208), [], 2⟩, -- alarm 1 CODE
  ⟨0x3A41, 1, 0x0, 2, 2, .u8, .rw, 0, 0, (n 6), [(0, 15), (255, 255)], 1⟩, -- alarm 1 CLASS
  ⟨0x3A41, 1, 0x0, 3, 3, .u8, .rw, 0, 0, (n 3), [(0, 5)], 1⟩, -- alarm 1 MATCH_SEVERITY
  ⟨0x3A41, 1, 0x0, 4, 4, .u8, .rw, 0, 0, (n 1), [(0, 5)], 1⟩ -- alarm 1 SEVERITY
]

/-- Rows 37 to 72 of the table. -/
def dictRows2 : List DRow := [
  ⟨0x3A42, 1, 0x0, 1, 1, .u16, .rw, 0, 0, (n 0x800A), [], 2⟩, -- alarm 2 CODE
  ⟨0x3A42, 1, 0x0, 2, 2, .u8, .rw, 0, 0, (n 6), [(0, 15), (255, 255)], 1⟩, -- alarm 2 CLASS
  ⟨0x3A42, 1, 0x0, 3, 3, .u8, .rw, 0, 0, (n 3), [(0, 5)], 1⟩, -- alarm 2 MATCH_SEVERITY
  ⟨0x3A42, 1, 0x0, 4, 4, .u8, .rw, 0, 0, (n 3), [(0, 5)], 1⟩, -- alarm 2 SEVERITY
  ⟨0x3A43, 1, 0x0, 1, 1, .u16, .rw, 0, 0, (n 0x0403), [], 2⟩, -- alarm 3 CODE
  ⟨0x3A43, 1, 0x0, 2, 2, .u8, .rw, 0, 0, (n 5), [(0, 15), (255, 255)], 1⟩, -- alarm 3 CLASS
  ⟨0x3A43, 1, 0x0, 3, 3, .u8, .rw, 0, 0, (n 2), [(0, 5)], 1⟩, -- alarm 3 MATCH_SEVERITY
  ⟨0x3A43, 1, 0x0, 4, 4, .u8, .rw, 0, 0, (n 2), [(0, 5)], 1⟩, -- alarm 3 SEVERITY
  ⟨0x3A44, 1, 0x0, 1, 1, .u16, .rw, 0, 0, (n 0x0401), [], 2⟩, -- alarm 4 CODE
  ⟨0x3A44, 1, 0x0, 2, 2, .u8, .rw, 0, 0, (n 255), [(0, 15), (255, 255)], 1⟩, -- alarm 4 CLASS
  ⟨0x3A44, 1, 0x0, 3, 3, .u8, .rw, 0, 0, (n 2), [(0, 5)], 1⟩, -- alarm 4 MATCH_SEVERITY
  ⟨0x3A44, 1, 0x0, 4, 4, .u8, .rw, 0, 0, (n 2), [(0, 5)], 1⟩, -- alarm 4 SEVERITY
  ⟨0x3A45, 1, 0x0, 1, 1, .u16, .rw, 0, 0, (n 0x0602), [], 2⟩, -- alarm 5 CODE
  ⟨0x3A45, 1, 0x0, 2, 2, .u8, .rw, 0, 0, (n 14), [(0, 15), (255, 255)], 1⟩, -- alarm 5 CLASS
  ⟨0x3A45, 1, 0x0, 3, 3, .u8, .rw, 0, 0, (n 1), [(0, 5)], 1⟩, -- alarm 5 MATCH_SEVERITY
  ⟨0x3A45, 1, 0x0, 4, 4, .u8, .rw, 0, 0, (n 1), [(0, 5)], 1⟩, -- alarm 5 SEVERITY
  ⟨0x3A46, 1, 0x0, 1, 1, .u16, .rw, 0, 0, (n 0x0604), [], 2⟩, -- alarm 6 CODE
  ⟨0x3A46, 1, 0x0, 2, 2, .u8, .rw, 0, 0, (n 13), [(0, 15), (255, 255)], 1⟩, -- alarm 6 CLASS
  ⟨0x3A46, 1, 0x0, 3, 3, .u8, .rw, 0, 0, (n 2), [(0, 5)], 1⟩, -- alarm 6 MATCH_SEVERITY
  ⟨0x3A46, 1, 0x0, 4, 4, .u8, .rw, 0, 0, (n 2), [(0, 5)], 1⟩, -- alarm 6 SEVERITY
  ⟨0x3A47, 1, 0x0, 1, 1, .u16, .rw, 0, 0, (n 0x0603), [], 2⟩, -- alarm 7 CODE
  ⟨0x3A47, 1, 0x0, 2, 2, .u8, .rw, 0, 0, (n 13), [(0, 15), (255, 255)], 1⟩, -- alarm 7 CLASS
  ⟨0x3A47, 1, 0x0, 3, 3, .u8, .rw, 0, 0, (n 2), [(0, 5)], 1⟩, -- alarm 7 MATCH_SEVERITY
  ⟨0x3A47, 1, 0x0, 4, 4, .u8, .rw, 0, 0, (n 2), [(0, 5)], 1⟩, -- alarm 7 SEVERITY
  ⟨0x3A48, 1, 0x0, 1, 1, .u16, .rw, 0, 0, (n 0x8004), [], 2⟩, -- alarm 8 CODE
  ⟨0x3A48, 1, 0x0, 2, 2, .u8, .rw, 0, 0, (n 1), [(0, 15), (255, 255)], 1⟩, -- alarm 8 CLASS
  ⟨0x3A48, 1, 0x0, 3, 3, .u8, .rw, 0, 0, (n 2), [(0, 5)], 1⟩, -- alarm 8 MATCH_SEVERITY
  ⟨0x3A48, 1, 0x0, 4, 4, .u8, .rw, 0, 0, (n 2), [(0, 5)], 1⟩, -- alarm 8 SEVERITY
  ⟨0x3A49, 1, 0x0, 1, 1, .u16, .rw, 0, 0, (n 0x0601), [], 2⟩, -- alarm 9 CODE
  ⟨0x3A49, 1, 0x0, 2, 2, .u8, .rw, 0, 0, (n 255), [(0, 15), (255, 255)], 1⟩, -- alarm 9 CLASS
  ⟨0x3A49, 1, 0x0, 3, 3, .u8, .rw, 0, 0, (n 1), [(0, 5)], 1⟩, -- alarm 9 MATCH_SEVERITY
  ⟨0x3A49, 1, 0x0, 4, 4, .u8, .rw, 0, 0, (n 1), [(0, 5)], 1⟩, -- alarm 9 SEVERITY
  ⟨0x6000, 64, 0x40, 1, 1, .u16, .ro, 0, 0, (n 0), [], 2⟩, -- MAX_SQ
  ⟨0x6000, 64, 0x40, 2, 2, .u16, .ro, 0, 0, (n 0), [], 2⟩, -- MAX_CQ
  ⟨0x6000, 64, 0x40, 3, 3, .u32, .ro, 0, 0, (n 0), [], 4⟩, -- RESERVE
  ⟨0x6000, 64, 0x40, 4, 4, .u16, .ro, 0, 0, (n 0), [], 2⟩ -- CONTEXTS
]

/-- Rows 73 to 108 of the table. -/
def dictRows3 : List DRow := [
  ⟨0x6001, 64, 0x40, 1, 1, .u16, .ro, 0, 0, (n 0), [], 2⟩, -- KEY_BASE
  ⟨0x6001, 64, 0x40, 2, 2, .u16, .ro, 0, 0, (n 0), [], 2⟩, -- KEY_COUNT
  ⟨0x6002, 64, 0x40, 1, 1, .u8, .ro, 0, 0, (n 0), [], 1⟩, -- MAX_LOCKED
  ⟨0x6007, 64, 0x40, 1, 1, .u8, .ro, 0, 0, (n 0), [], 1⟩, -- MAX_NAMESPACES
  ⟨0x6003, 64, 0x40, 1, 1, .domain, .ro, 0, 0, (bs []), [], 32⟩, -- THREAD_MASK
  ⟨0x6004, 64, 0x40, 1, 1, .u32, .ro, 0, 0, (n 0), [], 4⟩, -- DRAM_BASE_MIB
  ⟨0x6004, 64, 0x40, 2, 2, .u32, .ro, 0, 0, (n 0), [], 4⟩, -- DRAM_SIZE_MIB
  ⟨0x6005, 64, 0x40, 1, 1, .u32, .ro, 0, 0, (n 0), [], 4⟩, -- FWD_QUOTA
  ⟨0x6006, 64, 0x40, 1, 1, .u16, .ro, 0, 0, (n 0), [], 2⟩, -- METER_BASE
  ⟨0x6006, 64, 0x40, 2, 2, .u16, .ro, 0, 0, (n 0), [], 2⟩, -- METER_COUNT
  ⟨0x603F, 64, 0x40, 1, 1, .u8, .rw, 0, 0, (n 0), [(1, 2)], 1⟩, -- block COMMIT
  ⟨0x603F, 64, 0x40, 2, 2, .u8, .ro, 0, 0, (n 0), [], 1⟩, -- block STATE
  ⟨0x603F, 64, 0x40, 3, 3, .u32, .ro, 0, 0, (n 0), [], 4⟩, -- block HOLDER
  ⟨0x603F, 64, 0x40, 4, 4, .u16, .ro, 0, 0, (n 0), [], 2⟩, -- block LAST_STATUS
  ⟨0x603F, 64, 0x40, 5, 5, .u32, .ro, 0, 0, (n 0), [], 4⟩, -- block CONFLICT_FIRST
  ⟨0x603F, 64, 0x40, 6, 6, .u32, .ro, 0, 0, (n 0), [], 4⟩, -- block APPLY_COUNT
  ⟨0x3780, 1, 0x0, 1, 1, .u16, .rwc, 46, 0, (n 0), [(0, 4095)], 2⟩, -- meter window METER_SELECT
  ⟨0x602A, 64, 0x40, 1, 1, .u16, .rwc, 0x100, 1, (n 0), [(0, 4095)], 2⟩, -- block meter window METER_SELECT
  ⟨0x3780, 1, 0x0, 2, 2, .u8, .rwc, 46, 0, (n 0), [(0, 2)], 1⟩, -- meter window MODE
  ⟨0x602A, 64, 0x40, 2, 2, .u8, .rwc, 0x100, 1, (n 0), [(0, 2)], 1⟩, -- block meter window MODE
  ⟨0x3780, 1, 0x0, 3, 3, .u8, .rwc, 46, 0, (n 0), [(0, 2)], 1⟩, -- meter window COLOUR
  ⟨0x602A, 64, 0x40, 3, 3, .u8, .rwc, 0x100, 1, (n 0), [(0, 2)], 1⟩, -- block meter window COLOUR
  ⟨0x3780, 1, 0x0, 4, 4, .u32, .rwc, 46, 0, (n 0), [(0, 100000000)], 4⟩, -- meter window CIR
  ⟨0x602A, 64, 0x40, 4, 4, .u32, .rwc, 0x100, 1, (n 0), [(0, 100000000)], 4⟩, -- block meter window CIR
  ⟨0x3780, 1, 0x0, 5, 5, .u32, .rwc, 46, 0, (n 0), [(0, 16777215)], 4⟩, -- meter window CBS
  ⟨0x602A, 64, 0x40, 5, 5, .u32, .rwc, 0x100, 1, (n 0), [(0, 16777215)], 4⟩, -- block meter window CBS
  ⟨0x3780, 1, 0x0, 6, 6, .u32, .rwc, 46, 0, (n 0), [(0, 100000000)], 4⟩, -- meter window EIR_PIR
  ⟨0x602A, 64, 0x40, 6, 6, .u32, .rwc, 0x100, 1, (n 0), [(0, 100000000)], 4⟩, -- block meter window EIR_PIR
  ⟨0x3780, 1, 0x0, 7, 7, .u32, .rwc, 46, 0, (n 0), [(0, 16777215)], 4⟩, -- meter window EBS_PBS
  ⟨0x602A, 64, 0x40, 7, 7, .u32, .rwc, 0x100, 1, (n 0), [(0, 16777215)], 4⟩, -- block meter window EBS_PBS
  ⟨0x3780, 1, 0x0, 8, 8, .u8, .rwc, 46, 0, (n 0), [(0, 1), (4, 5)], 1⟩, -- meter window ACTIONS
  ⟨0x602A, 64, 0x40, 8, 8, .u8, .rwc, 0x100, 1, (n 0), [(0, 1), (4, 5)], 1⟩, -- block meter window ACTIONS
  ⟨0x3606, 20, 0x10, 1, 1, .bool, .ro, 0, 0, (n 0), [], 1⟩, -- OPER_ENABLE
  ⟨0x3606, 20, 0x10, 2, 2, .u64, .ro, 0, 0, (n 0), [], 8⟩, -- OPER_BASE
  ⟨0x3606, 20, 0x10, 3, 3, .u32, .ro, 0, 0, (n 0), [], 4⟩, -- OPER_CYCLE
  ⟨0x3606, 20, 0x10, 4, 4, .u16, .ro, 0, 0, (n 0), [], 2⟩ -- OPER_COUNT
]

/-- Rows 109 to 144 of the table. -/
def dictRows4 : List DRow := [
  ⟨0x3606, 20, 0x10, 5, 5, .domain, .ro, 0, 0, (bs []), [], 2048⟩, -- OPER_LIST
  ⟨0x1000, 1, 0x0, 0, 0, .u32, .const, 0, 0, (n 0), [], 4⟩, -- DEVICE_TYPE
  ⟨0x1008, 1, 0x0, 0, 0, .vstr, .const, 0, 0, (str "TR960-HB"), [], 8⟩, -- DEVICE_NAME
  ⟨0x1009, 1, 0x0, 0, 0, .vstr, .const, 0, 0, (str "B0"), [], 2⟩, -- HW_VERSION
  ⟨0x100A, 1, 0x0, 0, 0, .vstr, .const, 0, 0, (bs []), [], 16⟩, -- SW_VERSION
  ⟨0x1017, 1, 0x0, 0, 0, .u16, .rw, 0, 0, (n 0), [(0, 0), (100, 10000)], 2⟩, -- HEARTBEAT_TIME
  ⟨0x1018, 1, 0x0, 1, 1, .u32, .const, 0, 0, (n 8099), [], 4⟩, -- VENDOR_ID
  ⟨0x1018, 1, 0x0, 2, 2, .u32, .const, 0, 0, (n 2400), [], 4⟩, -- PRODUCT_CODE
  ⟨0x1018, 1, 0x0, 3, 3, .u32, .const, 0, 0, (n 131072), [], 4⟩, -- REVISION
  ⟨0x1018, 1, 0x0, 4, 4, .u32, .const, 0, 0, (n 0), [], 4⟩, -- SERIAL_LOW
  ⟨0x1019, 1, 0x0, 0, 0, .u64, .const, 0, 0, (n 0), [], 8⟩, -- SERIAL
  ⟨0x1010, 1, 0x0, 1, 1, .u8, .rw, 0, 0, (n 96), [(1, 127)], 1⟩, -- CAN0_NODE_ID
  ⟨0x1010, 1, 0x0, 2, 2, .u32, .rwc, 1, 0, (n 500000), [(125000, 125000), (250000, 250000), (500000, 500000), (1000000, 1000000)], 4⟩, -- CAN0_NOMINAL_RATE
  ⟨0x1010, 1, 0x0, 3, 3, .u32, .rwc, 1, 0, (n 2500000), [(0, 0), (1000000, 1000000), (2500000, 2500000), (5000000, 5000000)], 4⟩, -- CAN0_DATA_RATE
  ⟨0x1010, 1, 0x0, 4, 4, .u8, .rw, 0, 0, (n 1), [(0, 2)], 1⟩, -- CAN0_RIGHTS
  ⟨0x1010, 1, 0x0, 5, 5, .u16, .ro, 0, 0, (n 0), [], 2⟩, -- CAN0_LAST_ABORT
  ⟨0x1040, 1, 0x0, 1, 1, .u32, .rwc, 3, 0, (n 0), [], 4⟩, -- MGMT_ADDRESS
  ⟨0x1040, 1, 0x0, 2, 2, .u8, .rwc, 3, 0, (n 24), [(8, 30)], 1⟩, -- MGMT_PREFIX
  ⟨0x1040, 1, 0x0, 3, 3, .u32, .rwc, 3, 0, (n 0), [], 4⟩, -- MGMT_GATEWAY
  ⟨0x1040, 1, 0x0, 4, 4, .u16, .rwc, 3, 0, (n 0), [(0, 4094)], 2⟩, -- MGMT_VLAN
  ⟨0x1041, 1, 0x0, 1, 1, .u16, .const, 0, 0, (n 50960), [], 2⟩, -- ONSIA_PORT
  ⟨0x1041, 1, 0x0, 2, 2, .u8, .rw, 0, 0, (n 1), [(0, 2)], 1⟩, -- ONSIA_RIGHTS
  ⟨0x1041, 1, 0x0, 3, 3, .u8, .const, 0, 0, (n 16), [], 1⟩, -- ONSIA_SESSIONS_MAX
  ⟨0x1041, 1, 0x0, 4, 4, .u32, .rw, 0, 0, (n 5000), [(1000, 60000)], 4⟩, -- ONSIA_SESSION_TIMEOUT
  ⟨0x1041, 1, 0x0, 5, 5, .u32, .ro, 0, 0, (n 0), [], 4⟩, -- ONSIA_SERVED
  ⟨0x1041, 1, 0x0, 6, 6, .u32, .ro, 0, 0, (n 0), [], 4⟩, -- ONSIA_DROPPED
  ⟨0x1F00, 1, 0x0, 1, 1, .u8, .const, 0, 0, (n 47), [], 1⟩, -- GROUP_COUNT
  ⟨0x1F00, 1, 0x0, 2, 2, .u32, .rw, 0, 0, (n 5000), [(100, 60000)], 4⟩, -- SHADOW_TIMEOUT
  ⟨0x1F01, 47, 0x1, 1, 1, .u8, .rw, 0, 0, (n 0), [(1, 2)], 1⟩, -- COMMIT
  ⟨0x1F01, 47, 0x1, 2, 2, .u8, .ro, 0, 0, (n 0), [], 1⟩, -- STATE
  ⟨0x1F01, 47, 0x1, 3, 3, .u32, .ro, 0, 0, (n 0), [], 4⟩, -- HOLDER
  ⟨0x1F01, 47, 0x1, 4, 4, .u16, .ro, 0, 0, (n 0), [], 2⟩, -- LAST_STATUS
  ⟨0x1F01, 47, 0x1, 5, 5, .u32, .ro, 0, 0, (n 0), [], 4⟩, -- CONFLICT_FIRST
  ⟨0x1F01, 47, 0x1, 6, 6, .u32, .ro, 0, 0, (n 0), [], 4⟩, -- APPLY_COUNT
  ⟨0x1FC0, 64, 0x1, 1, 1, .u64, .rw, 0, 0, (n 0xFFFFFFFFFFFF0000), [], 8⟩, -- WRITE_MASK
  ⟨0x1FC0, 64, 0x1, 2, 2, .u32, .ro, 0, 0, (n 0), [], 4⟩ -- DENIED_WRITES
]

/-- Rows 145 to 180 of the table. -/
def dictRows5 : List DRow := [
  ⟨0x2200, 1, 0x0, 1, 1, .u8, .ro, 0, 0, (n 0), [], 1⟩, -- START_CAUSE
  ⟨0x2200, 1, 0x0, 2, 2, .u8, .ro, 0, 0, (n 0), [], 1⟩, -- WAKE_SOURCE
  ⟨0x2200, 1, 0x0, 3, 3, .u8, .ro, 0, 0, (n 0), [], 1⟩, -- SECURITY_VERSION
  ⟨0x2200, 1, 0x0, 4, 4, .u8, .ro, 0, 0, (n 0), [], 1⟩, -- SIGNING_SLOT
  ⟨0x2200, 1, 0x0, 5, 5, .u32, .ro, 0, 0, (n 0), [], 4⟩, -- GO_TO_READY
  ⟨0x2200, 1, 0x0, 6, 6, .u8, .ro, 0, 0, (n 0), [], 1⟩, -- REFUSED_ATTEMPTS
  ⟨0x2200, 1, 0x0, 7, 7, .domain, .ro, 0, 0, (bs []), [], 48⟩, -- MANIFEST_HASH
  ⟨0x2201, 1, 0x0, 1, 4, .u8, .ro, 0, 0, (n 0), [], 1⟩, -- KEY_SLOT_STATE
  ⟨0x2201, 1, 0x0, 5, 5, .u8, .ro, 0, 0, (n 0), [], 1⟩, -- MIN_VERSION
  ⟨0x2201, 1, 0x0, 6, 6, .u8, .ro, 0, 0, (n 0), [], 1⟩, -- LIFECYCLE
  ⟨0x2201, 1, 0x0, 7, 10, .domain, .ro, 0, 0, (bs []), [], 48⟩, -- KEY_SLOT_HASH
  ⟨0x2202, 1, 0x0, 1, 1, .u16, .ro, 0, 0, (n 0), [], 2⟩, -- SEAL_CMD_STATUS
  ⟨0x2202, 1, 0x0, 2, 2, .u8, .ro, 0, 0, (n 0), [], 1⟩, -- SEAL_CMD_FAILED_AT
  ⟨0x2203, 1, 0x0, 1, 1, .u8, .ro, 0, 0, (n 0), [], 1⟩, -- EMBER_RUNNING_SLOT
  ⟨0x2203, 1, 0x0, 2, 2, .u32, .ro, 0, 0, (n 0), [], 4⟩, -- EMBER_SEQ_SLOT0
  ⟨0x2203, 1, 0x0, 3, 3, .u32, .ro, 0, 0, (n 0), [], 4⟩, -- EMBER_SEQ_SLOT1
  ⟨0x2203, 1, 0x0, 4, 4, .u8, .ro, 0, 0, (n 0), [], 1⟩, -- EMBER_UPDATE_STATE
  ⟨0x2203, 1, 0x0, 5, 5, .u32, .ro, 0, 0, (n 0), [], 4⟩, -- EMBER_UPDATE_PROGRESS
  ⟨0x2203, 1, 0x0, 6, 6, .u8, .wo, 0, 0, (n 0), [(1, 1)], 1⟩, -- EMBER_RESTART
  ⟨0x2000, 1, 0x0, 1, 1, .u8, .ro, 0, 0, (n 1), [], 1⟩, -- POWER_STATE
  ⟨0x2000, 1, 0x0, 2, 2, .u8, .wo, 0, 0, (n 0), [(0, 3)], 1⟩, -- REQUEST_STATE
  ⟨0x2000, 1, 0x0, 3, 3, .u8, .ro, 0, 0, (n 0), [], 1⟩, -- TRANSITION
  ⟨0x2000, 1, 0x0, 4, 4, .u16, .ro, 0, 0, (n 0), [], 2⟩, -- LAST_TRANSITION_STATUS
  ⟨0x2000, 1, 0x0, 5, 5, .u32, .rw, 0, 0, (n 50), [(1, 1000)], 4⟩, -- DRAIN_TIMEOUT
  ⟨0x2000, 1, 0x0, 6, 6, .u32, .ro, 0, 0, (n 0), [], 4⟩, -- BANKED_ENTRIES
  ⟨0x2000, 1, 0x0, 7, 7, .u32, .ro, 0, 0, (n 0), [], 4⟩, -- FRAMES_DROPPED_AT_ENTRY
  ⟨0x2000, 1, 0x0, 8, 8, .u64, .ro, 0, 0, (n 0), [], 8⟩, -- LAST_BANKED_NS
  ⟨0x2001, 1, 0x0, 1, 1, .u8, .rw, 0, 0, (n 2), [(0, 0), (2, 3)], 1⟩, -- IGN_OFF_ACTION
  ⟨0x2001, 1, 0x0, 2, 2, .u32, .rw, 0, 0, (n 300), [(0, 86400)], 4⟩, -- IGN_OFF_DELAY
  ⟨0x2001, 1, 0x0, 3, 3, .u32, .rw, 0, 0, (n 14400), [(0, 0), (60, 604800)], 4⟩, -- BANKED_MAX
  ⟨0x2002, 1, 0x0, 1, 1, .u16, .rw, 0, 0, (n 0), [(0, 0), (6000, 36000)], 2⟩, -- VSENSE_EMBER
  ⟨0x2002, 1, 0x0, 2, 2, .u16, .rw, 0, 0, (n 1000), [(100, 60000)], 2⟩, -- VSENSE_EMBER_HOLD
  ⟨0x2003, 1, 0x0, 1, 1, .u8, .rw, 0, 0, (n 191), [(0, 63), (128, 191)], 1⟩, -- WAKE_ENABLE
  ⟨0x2003, 1, 0x0, 2, 2, .u8, .rw, 0, 0, (n 0), [(0, 15)], 1⟩, -- WAKE_POLARITY
  ⟨0x2003, 1, 0x0, 3, 3, .u8, .rw, 0, 0, (n 33), [(1, 255)], 1⟩, -- DEBOUNCE
  ⟨0x2003, 1, 0x0, 4, 4, .u64, .rw, 0, 0, (n 0), [], 8⟩ -- ALARM
]

/-- Rows 181 to 216 of the table. -/
def dictRows6 : List DRow := [
  ⟨0x2003, 1, 0x0, 5, 5, .u64, .ro, 0, 0, (n 0), [], 8⟩, -- SLOW_COUNT
  ⟨0x2004, 1, 0x0, 1, 1, .u8, .ro, 0, 0, (n 0), [], 1⟩, -- TINDER_ADDRESS
  ⟨0x2004, 1, 0x0, 2, 2, .u32, .ro, 0, 0, (n 0), [], 4⟩, -- TINDER_MATCHES
  ⟨0x2004, 1, 0x0, 3, 3, .u16, .ro, 0, 0, (n 0), [], 2⟩, -- TINDER_STRETCH_MAX
  ⟨0x2005, 1, 0x0, 1, 1, .u8, .ro, 0, 0, (n 0), [], 1⟩, -- LAST_WAKE_SOURCE
  ⟨0x2005, 1, 0x0, 2, 2, .u8, .ro, 0, 0, (n 0), [], 1⟩, -- LAST_WAKE_LATCHED
  ⟨0x2005, 1, 0x0, 3, 3, .u64, .ro, 0, 0, (n 0), [], 8⟩, -- LAST_WAKE_TIME
  ⟨0x2005, 1, 0x0, 4, 4, .domain, .ro, 0, 0, (bs []), [], 128⟩, -- WAKE_HISTORY
  ⟨0x2010, 14, 0x1, 1, 1, .u32, .ro, 0, 0, (n 0), [], 4⟩, -- VOTES
  ⟨0x2010, 14, 0x1, 2, 2, .bool, .rw, 0, 0, (n 0), [], 1⟩, -- MANAGER_VOTE
  ⟨0x2010, 14, 0x1, 3, 3, .u32, .rw, 0, 0, (n 0), [(100, 100000)], 4⟩, -- HYSTERESIS
  ⟨0x2010, 14, 0x1, 4, 4, .u8, .ro, 0, 0, (n 0), [], 1⟩, -- DOMAIN_STATE
  ⟨0x2010, 14, 0x1, 5, 5, .u32, .ro, 0, 0, (n 0), [], 4⟩, -- UP_COUNT
  ⟨0x2100, 1, 0x0, 1, 1, .u32, .rwc, 4, 0, (n 45000), [(1000, 45000)], 4⟩, -- POWER_LIMIT
  ⟨0x2100, 1, 0x0, 2, 2, .u32, .rw, 0, 0, (n 4500), [(450, 45000)], 4⟩, -- BUCKET_DEPTH
  ⟨0x2100, 1, 0x0, 3, 3, .u32, .ro, 0, 0, (n 0), [], 4⟩, -- BUDGET_NOW
  ⟨0x2100, 1, 0x0, 4, 4, .i32, .ro, 0, 0, (n 0), [], 4⟩, -- BUCKET_LEVEL
  ⟨0x2100, 1, 0x0, 5, 5, .u8, .ro, 0, 0, (n 0), [], 1⟩, -- LADDER_STEP
  ⟨0x2100, 1, 0x0, 6, 6, .u8, .rw, 0, 0, (n 0), [(0, 8)], 1⟩, -- LADDER_MAX
  ⟨0x2100, 1, 0x0, 7, 7, .u32, .rw, 0, 0, (n 10), [(1, 1000)], 4⟩, -- RELEASE_HOLD
  ⟨0x2100, 1, 0x0, 8, 8, .u8, .ro, 0, 0, (n 0), [], 1⟩, -- LIMITING_INPUT
  ⟨0x2100, 1, 0x0, 9, 9, .u64, .ro, 0, 0, (n 0), [], 8⟩, -- CLAMPED_ENERGY
  ⟨0x2100, 1, 0x0, 10, 10, .u32, .ro, 0, 0, (n 0), [], 4⟩, -- BREACH_TICKS
  ⟨0x2100, 1, 0x0, 11, 11, .u8, .rw, 0, 0, (n 0), [(0, 8)], 1⟩, -- FORCE_STEP
  ⟨0x2101, 1, 0x0, 1, 1, .u32, .rwc, 4, 0, (n 6400), [(0, 12000)], 4⟩, -- EVIDENCE_FLOOR
  ⟨0x2101, 1, 0x0, 2, 2, .u32, .rwc, 4, 0, (n 12000), [(500, 40000)], 4⟩, -- BASE_RESERVE
  ⟨0x2101, 1, 0x0, 3, 3, .u32, .ro, 0, 0, (n 0), [], 4⟩, -- EVIDENCE_DRAW
  ⟨0x2101, 1, 0x0, 5, 5, .u32, .rw, 0, 0, (n 0), [], 4⟩, -- BASE_HIGH_WATER
  ⟨0x2102, 1, 0x0, 1, 1, .u16, .rwc, 4, 0, (n 0), [(0, 0), (6000, 36000)], 2⟩, -- VSENSE_LOW
  ⟨0x2102, 1, 0x0, 2, 2, .u32, .rwc, 4, 0, (n 45000), [(1000, 45000)], 4⟩, -- BATTERY_CAP
  ⟨0x2102, 1, 0x0, 3, 3, .u16, .ro, 0, 0, (n 0), [], 2⟩, -- VSENSE_NOW
  ⟨0x2102, 1, 0x0, 4, 4, .u16, .rw, 0, 0, (n 10), [(1, 1000)], 2⟩, -- VSENSE_FILTER
  ⟨0x2102, 1, 0x0, 5, 5, .u16, .rw, 0, 0, (n 65535), [], 2⟩, -- VSENSE_MIN
  ⟨0x2103, 1, 0x0, 1, 1, .u8, .rwc, 4, 0, (n 105), [(85, 115)], 1⟩, -- THERMAL_SOFT
  ⟨0x2103, 1, 0x0, 2, 2, .u8, .rwc, 4, 0, (n 120), [(90, 122)], 1⟩, -- THERMAL_HARD
  ⟨0x2103, 1, 0x0, 3, 3, .i32, .ro, 0, 0, (n 0), [], 4⟩ -- TJ_NOW
]

/-- Rows 217 to 252 of the table. -/
def dictRows7 : List DRow := [
  ⟨0x2103, 1, 0x0, 4, 4, .i32, .rw, 0, 0, (n 4294694296), [], 4⟩, -- TJ_MAX
  ⟨0x2104, 1, 0x0, 1, 14, .u64, .ro, 0, 0, (n 0), [], 8⟩, -- DOMAIN_ENERGY
  ⟨0x2104, 1, 0x0, 15, 15, .u64, .ro, 0, 0, (n 0), [], 8⟩, -- DEVICE_ENERGY
  ⟨0x2105, 1, 0x0, 1, 1, .u64, .ro, 0, 0, (n 0), [], 8⟩, -- SEALED_BYTES
  ⟨0x2105, 1, 0x0, 2, 2, .u64, .ro, 0, 0, (n 0), [], 8⟩, -- KILN_ENERGY
  ⟨0x2105, 1, 0x0, 4, 4, .u64, .ro, 0, 0, (n 0), [], 8⟩, -- KILN_FOM_1S
  ⟨0x2105, 1, 0x0, 5, 5, .u8, .wo, 0, 0, (n 0), [(1, 1)], 1⟩, -- SNAPSHOT
  ⟨0x2105, 1, 0x0, 6, 6, .u64, .ro, 0, 0, (n 0), [], 8⟩, -- SNAP_TIME
  ⟨0x2105, 1, 0x0, 7, 7, .u64, .ro, 0, 0, (n 0), [], 8⟩, -- SNAP_SEALED
  ⟨0x2105, 1, 0x0, 8, 8, .u64, .ro, 0, 0, (n 0), [], 8⟩, -- SNAP_KILN_ENERGY
  ⟨0x2105, 1, 0x0, 9, 9, .u64, .ro, 0, 0, (n 0), [], 8⟩, -- SNAP_DEVICE_ENERGY
  ⟨0x2106, 1, 0x0, 1, 1, .u64, .ro, 0, 0, (n 0), [], 8⟩, -- ENERGY_SINCE_IGN_OFF
  ⟨0x2106, 1, 0x0, 2, 2, .u32, .rw, 0, 0, (n 0), [(0, 1000000)], 4⟩, -- IGN_OFF_ALLOWANCE
  ⟨0x2106, 1, 0x0, 3, 3, .u8, .rw, 0, 0, (n 0), [(0, 1)], 1⟩, -- ALLOWANCE_ACTION
  ⟨0x2107, 1, 0x0, 1, 1, .u16, .ro, 0, 0, (n 256), [], 2⟩, -- SHAPE_SCALE_NOW
  ⟨0x2107, 1, 0x0, 2, 2, .u16, .rw, 0, 0, (n 2), [(1, 100)], 2⟩, -- FLUSH_WINDOW
  ⟨0x2107, 1, 0x0, 3, 3, .u32, .rw, 0, 0, (n 0), [(0, 1048575)], 4⟩, -- SHEDDABLE_PORTS
  ⟨0x2140, 64, 0x1, 1, 1, .u8, .rw, 0, 0, (n 0), [(0, 1)], 1⟩, -- CLASS
  ⟨0x2140, 64, 0x1, 2, 2, .u32, .rw, 0, 0, (n 0), [(0, 0), (10, 45000)], 4⟩, -- ENERGY_CAP
  ⟨0x2140, 64, 0x1, 3, 3, .u64, .ro, 0, 0, (n 0), [], 8⟩, -- ENERGY_USED
  ⟨0x2140, 64, 0x1, 4, 4, .u32, .ro, 0, 0, (n 0), [], 4⟩, -- DRAW_1MS
  ⟨0x2140, 64, 0x1, 5, 5, .u32, .ro, 0, 0, (n 0), [], 4⟩, -- CAP_EPISODES
  ⟨0x6030, 64, 0x40, 1, 1, .u8, .ro, 0, 0, (n 0), [], 1⟩, -- PRESSURE
  ⟨0x6030, 64, 0x40, 2, 2, .u8, .ro, 0, 0, (n 0), [], 1⟩, -- LADDER_STEP
  ⟨0x6030, 64, 0x40, 3, 3, .u64, .ro, 0, 0, (n 0), [], 8⟩, -- OWN_ENERGY
  ⟨0x6030, 64, 0x40, 4, 4, .u32, .ro, 0, 0, (n 0), [], 4⟩, -- OWN_CAP
  ⟨0x2300, 1, 0x0, 1, 1, .u8, .ro, 0, 0, (n 0), [], 1⟩, -- LINK_SPEED
  ⟨0x2300, 1, 0x0, 2, 2, .u8, .ro, 0, 0, (n 0), [], 1⟩, -- LINK_WIDTH
  ⟨0x2300, 1, 0x0, 3, 3, .u32, .ro, 0, 0, (n 0), [], 4⟩, -- LINK_DOWN_COUNT
  ⟨0x2300, 1, 0x0, 4, 4, .u32, .ro, 0, 0, (n 0), [], 4⟩, -- RECOVERY_COUNT
  ⟨0x2300, 1, 0x0, 5, 5, .u32, .ro, 0, 0, (n 0), [], 4⟩, -- HOT_RESETS
  ⟨0x2301, 1, 0x0, 1, 1, .u32, .rw, 0, 0, (n 64), [(8, 100000)], 4⟩, -- L1_IDLE
  ⟨0x2301, 1, 0x0, 3, 3, .u32, .rw, 0, 0, (n 10), [(1, 10000)], 4⟩, -- LTR_IDLE
  ⟨0x2301, 1, 0x0, 4, 4, .u32, .rw, 0, 0, (n 40), [(1, 1000)], 4⟩, -- LTR_ACTIVE
  ⟨0x2301, 1, 0x0, 5, 5, .u32, .ro, 0, 0, (n 0), [], 4⟩, -- L1_ENTRIES
  ⟨0x2301, 1, 0x0, 6, 6, .u32, .ro, 0, 0, (n 0), [], 4⟩ -- L12_ENTRIES
]

/-- Rows 253 to 288 of the table. -/
def dictRows8 : List DRow := [
  ⟨0x2301, 1, 0x0, 7, 7, .u64, .ro, 0, 0, (n 0), [], 8⟩, -- L1_RESIDENCY
  ⟨0x2302, 1, 0x0, 1, 1, .u32, .ro, 0, 0, (n 40000), [], 4⟩, -- CT_NOW
  ⟨0x2302, 1, 0x0, 2, 2, .u32, .ro, 0, 0, (n 0), [], 4⟩, -- TIMEOUTS
  ⟨0x2302, 1, 0x0, 3, 3, .u32, .ro, 0, 0, (n 0), [], 4⟩, -- UNEXPECTED_CPL
  ⟨0x2302, 1, 0x0, 4, 4, .u16, .ro, 0, 0, (n 0), [], 2⟩, -- QUARANTINED_NOW
  ⟨0x2302, 1, 0x0, 5, 5, .u32, .ro, 0, 0, (n 0), [], 4⟩, -- DISCARDED_CPL
  ⟨0x2303, 1, 0x0, 1, 1, .u32, .rw, 0, 0, (n 10000), [(0, 600000)], 4⟩, -- LINK_LOSS_HOLD
  ⟨0x2303, 1, 0x0, 2, 2, .bool, .ro, 0, 0, (n 0), [], 1⟩, -- HOLDING
  ⟨0x2303, 1, 0x0, 3, 3, .u32, .ro, 0, 0, (n 0), [], 4⟩, -- HOLD_EXPIRIES
  ⟨0x2340, 64, 0x1, 1, 1, .u32, .ro, 0, 0, (n 0), [], 4⟩, -- FLR_COUNT
  ⟨0x2340, 64, 0x1, 2, 2, .u32, .ro, 0, 0, (n 0), [], 4⟩, -- BME_CLEARS
  ⟨0x2340, 64, 0x1, 3, 3, .u32, .ro, 0, 0, (n 0), [], 4⟩, -- ACCESS_LOST_CPL
  ⟨0x2340, 64, 0x1, 4, 4, .u32, .ro, 0, 0, (n 0), [], 4⟩, -- READ_ERRORS
  ⟨0x2400, 1, 0x0, 1, 1, .u16, .ro, 0, 0, (n 4096), [], 2⟩, -- SQ_FREE
  ⟨0x2400, 1, 0x0, 2, 2, .u16, .ro, 0, 0, (n 4096), [], 2⟩, -- CQ_FREE
  ⟨0x2400, 1, 0x0, 3, 3, .u32, .ro, 0, 0, (n 64512), [], 4⟩, -- RESERVE_FREE
  ⟨0x2400, 1, 0x0, 4, 4, .u32, .ro, 0, 0, (n 0), [], 4⟩, -- FREEZES
  ⟨0x2400, 1, 0x0, 5, 5, .u32, .ro, 0, 0, (n 0), [], 4⟩, -- CQ_STALLS
  ⟨0x2400, 1, 0x0, 6, 6, .u16, .ro, 0, 0, (n 0), [], 2⟩, -- CONTEXTS_IN_USE
  ⟨0x2400, 1, 0x0, 7, 7, .u32, .ro, 0, 0, (n 0), [], 4⟩, -- STRAY_DOORBELLS
  ⟨0x2440, 64, 0x1, 1, 1, .u16, .ro, 0, 0, (n 0), [], 2⟩, -- SQ_COUNT
  ⟨0x2440, 64, 0x1, 2, 2, .u16, .ro, 0, 0, (n 0), [], 2⟩, -- CQ_COUNT
  ⟨0x2440, 64, 0x1, 3, 3, .u32, .ro, 0, 0, (n 0), [], 4⟩, -- RESERVE_HELD
  ⟨0x2440, 64, 0x1, 4, 4, .u32, .ro, 0, 0, (n 0), [], 4⟩, -- FREEZES
  ⟨0x2440, 64, 0x1, 5, 5, .u32, .ro, 0, 0, (n 0), [], 4⟩, -- CQ_STALLS
  ⟨0x2440, 64, 0x1, 6, 6, .u32, .ro, 0, 0, (n 0), [], 4⟩, -- ENGINE_HOLDS
  ⟨0x6010, 64, 0x40, 1, 1, .u8, .ro, 0, 0, (n 0), [], 1⟩, -- STATE
  ⟨0x6010, 64, 0x40, 2, 2, .u32, .ro, 0, 0, (n 0), [], 4⟩, -- GENERATION
  ⟨0x6010, 64, 0x40, 3, 3, .u8, .ro, 0, 0, (n 0), [], 1⟩, -- LAST_FENCE_CAUSE
  ⟨0x6011, 64, 0x40, 1, 1, .u16, .ro, 0, 0, (n 0), [], 2⟩, -- KEYS_IN_USE
  ⟨0x6011, 64, 0x40, 2, 2, .u8, .ro, 0, 0, (n 0), [], 1⟩, -- ENGINES_LOCKED
  ⟨0x6011, 64, 0x40, 3, 3, .u16, .ro, 0, 0, (n 0), [], 2⟩, -- THREADS_RUNNING
  ⟨0x6011, 64, 0x40, 4, 4, .u32, .ro, 0, 0, (n 0), [], 4⟩, -- FWD_USED
  ⟨0x6011, 64, 0x40, 5, 5, .u32, .ro, 0, 0, (n 0), [], 4⟩, -- FWD_FULL
  ⟨0x6011, 64, 0x40, 6, 6, .u8, .ro, 0, 0, (n 0), [], 1⟩, -- NAMESPACES
  ⟨0x6011, 64, 0x40, 7, 7, .u32, .ro, 0, 0, (n 0), [], 4⟩ -- RESERVE_FREE
]

/-- Rows 289 to 324 of the table. -/
def dictRows9 : List DRow := [
  ⟨0x2500, 1, 0x0, 1, 1, .u8, .ro, 0, 0, (n 1), [], 1⟩, -- INSTANCES
  ⟨0x2500, 1, 0x0, 2, 11, .u32, .ro, 0, 0, (n 0), [], 4⟩, -- UNGRANTED
  ⟨0x2500, 1, 0x0, 12, 12, .u32, .ro, 0, 0, (n 0), [], 4⟩, -- DRAM_POOL
  ⟨0x2500, 1, 0x0, 13, 13, .u32, .ro, 0, 0, (n 0), [], 4⟩, -- DRAM_UNGRANTED
  ⟨0x2500, 1, 0x0, 14, 14, .u32, .ro, 0, 0, (n 0), [], 4⟩, -- STATE_CHANGES
  ⟨0x2600, 1, 0x0, 1, 1, .u32, .rw, 0, 0, (n 8000), [(1000, 60000)], 4⟩, -- BACKEND_TIMEOUT
  ⟨0x2600, 1, 0x0, 2, 2, .u16, .ro, 0, 0, (n 0), [], 2⟩, -- LOCKS_IN_USE
  ⟨0x2600, 1, 0x0, 3, 3, .u16, .rw, 0, 0, (n 0), [(0, 4096)], 2⟩, -- LOCKS_HIGH_WATER
  ⟨0x2600, 1, 0x0, 4, 4, .u32, .ro, 0, 0, (n 0), [], 4⟩, -- LOCK_WAITS
  ⟨0x2600, 1, 0x0, 5, 5, .u32, .ro, 0, 0, (n 0), [], 4⟩, -- LOCK_TABLE_FULL
  ⟨0x2600, 1, 0x0, 6, 6, .u32, .ro, 0, 0, (n 0), [], 4⟩, -- FLUSHES_GATHERED
  ⟨0x2600, 1, 0x0, 7, 7, .u8, .ro, 0, 0, (n 0), [], 1⟩, -- NAMESPACES
  ⟨0x2601, 2, 0x1, 1, 1, .u8, .ro, 0, 0, (n 0), [], 1⟩, -- PORT_STATE
  ⟨0x2601, 2, 0x1, 2, 2, .bool, .rw, 0, 0, (n 0), [], 1⟩, -- PLP_DECLARED
  ⟨0x2601, 2, 0x1, 3, 3, .u8, .ro, 0, 0, (n 0), [], 1⟩, -- MODE
  ⟨0x2601, 2, 0x1, 4, 4, .u64, .ro, 0, 0, (n 0), [], 8⟩, -- CAPACITY
  ⟨0x2601, 2, 0x1, 5, 5, .u64, .ro, 0, 0, (n 0), [], 8⟩, -- FREE
  ⟨0x2601, 2, 0x1, 6, 6, .u32, .ro, 0, 0, (n 0), [], 4⟩, -- CONTROLLER_RESETS
  ⟨0x2601, 2, 0x1, 7, 7, .u32, .ro, 0, 0, (n 0), [], 4⟩, -- MEDIA_ERRORS
  ⟨0x2601, 2, 0x1, 8, 8, .u64, .ro, 0, 0, (n 0), [], 8⟩, -- KILN_BYTES
  ⟨0x2601, 2, 0x1, 9, 9, .u64, .ro, 0, 0, (n 0), [], 8⟩, -- HOST_BYTES
  ⟨0x2601, 2, 0x1, 10, 10, .vstr, .ro, 0, 0, (bs []), [], 40⟩, -- MODEL
  ⟨0x2601, 2, 0x1, 11, 11, .u8, .ro, 0, 0, (n 0), [], 1⟩, -- CRITICAL_WARNING
  ⟨0x2610, 128, 0x1, 1, 1, .u8, .ro, 0, 0, (n 0), [], 1⟩, -- STATE
  ⟨0x2610, 128, 0x1, 2, 2, .u8, .ro, 0, 0, (n 0), [], 1⟩, -- CLASS
  ⟨0x2610, 128, 0x1, 3, 3, .u8, .ro, 0, 0, (n 0), [], 1⟩, -- PORT
  ⟨0x2610, 128, 0x1, 4, 4, .u8, .ro, 0, 0, (n 0), [], 1⟩, -- OWNER
  ⟨0x2610, 128, 0x1, 5, 5, .u8, .ro, 0, 0, (n 255), [], 1⟩, -- READER
  ⟨0x2610, 128, 0x1, 6, 6, .u64, .ro, 0, 0, (n 0), [], 8⟩, -- SIZE
  ⟨0x2610, 128, 0x1, 7, 7, .u64, .ro, 0, 0, (n 0), [], 8⟩, -- RP
  ⟨0x2610, 128, 0x1, 8, 8, .u64, .ro, 0, 0, (n 0), [], 8⟩, -- CP
  ⟨0x2610, 128, 0x1, 9, 9, .u64, .ro, 0, 0, (n 0), [], 8⟩, -- AP
  ⟨0x2610, 128, 0x1, 10, 10, .u32, .ro, 0, 0, (n 0), [], 4⟩, -- CHECK_MISMATCHES
  ⟨0x6018, 64, 0x40, 1, 1, .domain, .ro, 0, 0, (bs []), [], 16⟩, -- OWNED
  ⟨0x6018, 64, 0x40, 2, 2, .domain, .ro, 0, 0, (bs []), [], 16⟩, -- READABLE
  ⟨0x6019, 64, 0x40, 1, 1, .u64, .ro, 0, 0, (n 0), [], 8⟩ -- COMMANDS
]

/-- Rows 325 to 360 of the table. -/
def dictRows10 : List DRow := [
  ⟨0x6019, 64, 0x40, 2, 2, .u64, .ro, 0, 0, (n 0), [], 8⟩, -- BYTES_READ
  ⟨0x6019, 64, 0x40, 3, 3, .u64, .ro, 0, 0, (n 0), [], 8⟩, -- BYTES_WRITTEN
  ⟨0x6019, 64, 0x40, 4, 4, .u32, .ro, 0, 0, (n 0), [], 4⟩, -- CHECK_MISMATCHES
  ⟨0x6019, 64, 0x40, 5, 5, .u32, .ro, 0, 0, (n 0), [], 4⟩, -- MEDIA_ERRORS
  ⟨0x6019, 64, 0x40, 6, 6, .u32, .ro, 0, 0, (n 0), [], 4⟩, -- LOCK_WAITS
  ⟨0x2700, 1, 0x0, 1, 1, .u8, .ro, 0, 0, (n 0), [], 1⟩, -- STREAMS_BOUND
  ⟨0x2700, 1, 0x0, 2, 2, .u16, .ro, 0, 0, (n 2048), [], 2⟩, -- STAGE_FREE
  ⟨0x2700, 1, 0x0, 3, 3, .u16, .rw, 0, 0, (n 0), [], 2⟩, -- STAGE_HIGH_WATER
  ⟨0x2700, 1, 0x0, 4, 4, .u32, .ro, 0, 0, (n 0), [], 4⟩, -- PF_SEQUENCES
  ⟨0x2700, 1, 0x0, 5, 5, .u32, .ro, 0, 0, (n 0), [], 4⟩, -- PF_LAST_DURATION
  ⟨0x2700, 1, 0x0, 6, 6, .u16, .ro, 0, 0, (n 0), [], 2⟩, -- PF_LAST_SEGMENTS
  ⟨0x2700, 1, 0x0, 7, 7, .u16, .rw, 0, 0, (n 0), [], 2⟩, -- UNWRITTEN_MAX
  ⟨0x2700, 1, 0x0, 8, 8, .u16, .ro, 0, 0, (n 0), [], 2⟩, -- RATE_DECLARED
  ⟨0x2700, 1, 0x0, 9, 9, .u32, .const, 0, 0, (n 1048576), [], 4⟩, -- LEASE_STEP
  ⟨0x2701, 1, 0x0, 1, 4, .u16, .ro, 0, 0, (n 0), [], 2⟩, -- ENGINE_RATE
  ⟨0x2710, 64, 0x1, 1, 1, .u8, .ro, 0, 0, (n 0), [], 1⟩, -- STATE
  ⟨0x2710, 64, 0x1, 2, 2, .u16, .ro, 0, 0, (n 0), [], 2⟩, -- CAUSE
  ⟨0x2710, 64, 0x1, 3, 3, .u8, .ro, 0, 0, (n 0), [], 1⟩, -- NAMESPACE
  ⟨0x2710, 64, 0x1, 4, 4, .u32, .ro, 0, 0, (n 0), [], 4⟩, -- STREAM_ID
  ⟨0x2710, 64, 0x1, 5, 5, .u8, .ro, 0, 0, (n 255), [], 1⟩, -- SEAL_ENGINE
  ⟨0x2710, 64, 0x1, 6, 6, .u16, .ro, 0, 0, (n 65535), [], 2⟩, -- KEY_SLOT
  ⟨0x2710, 64, 0x1, 7, 7, .u64, .ro, 0, 0, (n 0), [], 8⟩, -- NEXT_SEQUENCE
  ⟨0x2710, 64, 0x1, 8, 8, .u64, .ro, 0, 0, (n 0), [], 8⟩, -- LEASE
  ⟨0x2710, 64, 0x1, 9, 9, .u64, .ro, 0, 0, (n 0), [], 8⟩, -- FRAMES
  ⟨0x2710, 64, 0x1, 10, 10, .u64, .ro, 0, 0, (n 0), [], 8⟩, -- PAYLOAD_BYTES
  ⟨0x2710, 64, 0x1, 11, 11, .u64, .ro, 0, 0, (n 0), [], 8⟩, -- FRAMES_DROPPED
  ⟨0x2710, 64, 0x1, 12, 12, .u64, .ro, 0, 0, (n 0), [], 8⟩, -- SEGMENTS
  ⟨0x2710, 64, 0x1, 13, 13, .u32, .ro, 0, 0, (n 0), [], 4⟩, -- INDEX_UNPOSTED
  ⟨0x2710, 64, 0x1, 14, 14, .u32, .rw, 0, 0, (n 0), [], 4⟩, -- QUEUE_HIGH_WATER
  ⟨0x2710, 64, 0x1, 15, 15, .u8, .ro, 0, 0, (n 0), [], 1⟩, -- KEYS_LEFT
  ⟨0x2710, 64, 0x1, 16, 16, .u64, .ro, 0, 0, (n 0), [], 8⟩, -- LAST_COMMIT_TIME
  ⟨0x2710, 64, 0x1, 17, 17, .u8, .ro, 0, 0, (n 0), [], 1⟩, -- INDEX_BINDING
  ⟨0x2800, 1, 0x0, 1, 1, .u8, .const, 0, 0, (n 16), [], 1⟩, -- ENGINES
  ⟨0x2800, 1, 0x0, 2, 2, .u16, .const, 0, 0, (n 4096), [], 2⟩, -- KEY_SLOTS
  ⟨0x2800, 1, 0x0, 3, 3, .u16, .ro, 0, 0, (n 0), [], 2⟩, -- SLOTS_LIVE
  ⟨0x2800, 1, 0x0, 4, 4, .u16, .ro, 0, 0, (n 0), [], 2⟩ -- SLOTS_SPENT
]

/-- Rows 361 to 396 of the table. -/
def dictRows11 : List DRow := [
  ⟨0x2800, 1, 0x0, 5, 5, .u16, .ro, 0, 0, (n 0), [], 2⟩, -- VAULT_USED
  ⟨0x2800, 1, 0x0, 6, 6, .u16, .ro, 0, 0, (n 0), [], 2⟩, -- VAULT_STATUS
  ⟨0x2801, 1, 0x0, 1, 16, .u8, .ro, 0, 0, (n 0), [], 1⟩, -- ENGINE_OWNER
  ⟨0x2802, 1, 0x0, 1, 16, .u8, .ro, 0, 0, (n 1), [], 1⟩, -- ENGINE_DIVIDER
  ⟨0x2803, 1, 0x0, 1, 16, .u64, .ro, 0, 0, (n 0), [], 8⟩, -- ENGINE_BYTES
  ⟨0x2840, 64, 0x1, 1, 1, .bool, .rw, 0, 0, (n 0), [], 1⟩, -- CLEAR_IMPORT
  ⟨0x2900, 1, 0x0, 1, 1, .u8, .const, 0, 0, (n 8), [], 1⟩, -- CHECK_UNITS
  ⟨0x2900, 1, 0x0, 2, 2, .u32, .const, 0, 0, (n 1048576), [], 4⟩, -- SLICE_BYTES
  ⟨0x2900, 1, 0x0, 3, 3, .u64, .ro, 0, 0, (n 0), [], 8⟩, -- CHECK_JOBS
  ⟨0x2900, 1, 0x0, 4, 4, .u32, .ro, 0, 0, (n 0), [], 4⟩, -- CHECK_MISMATCHES
  ⟨0x2900, 1, 0x0, 5, 5, .u16, .rw, 0, 0, (n 0), [], 2⟩, -- WAITING_HIGH_WATER
  ⟨0x601C, 64, 0x40, 1, 1, .u64, .ro, 0, 0, (n 0), [], 8⟩, -- CIPHER_JOBS
  ⟨0x601C, 64, 0x40, 2, 2, .u64, .ro, 0, 0, (n 0), [], 8⟩, -- CIPHER_BYTES
  ⟨0x601C, 64, 0x40, 3, 3, .u32, .ro, 0, 0, (n 0), [], 4⟩, -- AUTH_FAILS
  ⟨0x601C, 64, 0x40, 4, 4, .u32, .ro, 0, 0, (n 0), [], 4⟩, -- KEYS_SPENT
  ⟨0x601D, 64, 0x40, 1, 1, .u64, .ro, 0, 0, (n 0), [], 8⟩, -- CHECK_JOBS
  ⟨0x601D, 64, 0x40, 2, 2, .u64, .ro, 0, 0, (n 0), [], 8⟩, -- CHECK_BYTES
  ⟨0x601D, 64, 0x40, 3, 3, .u32, .ro, 0, 0, (n 0), [], 4⟩, -- CHECK_MISMATCHES
  ⟨0x3000, 20, 0x10, 1, 1, .bool, .rw, 0, 0, (n 0), [], 1⟩, -- ENABLE
  ⟨0x3000, 20, 0x10, 2, 2, .u8, .rwc, 5, 1, (n 0), [], 1⟩, -- MODE
  ⟨0x3000, 20, 0x10, 3, 3, .u8, .rwc, 5, 1, (n 0), [], 1⟩, -- FEC
  ⟨0x3000, 20, 0x10, 4, 4, .u16, .rwc, 5, 1, (n 2048), [(1518, 9600)], 2⟩, -- MTU
  ⟨0x3000, 20, 0x10, 5, 5, .bool, .rw, 0, 0, (n 1), [], 1⟩, -- LEARN
  ⟨0x3000, 20, 0x10, 6, 6, .u16, .rw, 0, 0, (n 1), [(1, 4094)], 2⟩, -- PVID
  ⟨0x3001, 20, 0x10, 1, 1, .u8, .ro, 0, 0, (n 3), [], 1⟩, -- LINK
  ⟨0x3001, 20, 0x10, 2, 2, .u16, .ro, 0, 0, (n 0), [], 2⟩, -- RATE
  ⟨0x3001, 20, 0x10, 3, 3, .u32, .ro, 0, 0, (n 0), [], 4⟩, -- LINK_DOWNS
  ⟨0x3001, 20, 0x10, 4, 5, .u64, .ro, 0, 0, (n 0), [], 8⟩, -- FEC_CORRECTED, FEC_UNCORRECTABLE
  ⟨0x3002, 20, 0x10, 1, 2, .u64, .ro, 0, 0, (n 0), [], 8⟩, -- RX_FRAMES, RX_BYTES
  ⟨0x3002, 20, 0x10, 3, 6, .u64, .ro, 0, 0, (n 0), [], 8⟩, -- RX_FCS, RX_LENGTH, RX_PAUSE, RX_DISCARDS
  ⟨0x3002, 20, 0x10, 7, 8, .u64, .ro, 0, 0, (n 0), [], 8⟩, -- TX_FRAMES, TX_BYTES
  ⟨0x3003, 20, 0x10, 1, 1, .domain, .rw, 0, 0, (vlan1), [], 512⟩, -- VLAN_MEMBERS
  ⟨0x3003, 20, 0x10, 2, 2, .domain, .rw, 0, 0, (vlan1), [], 512⟩, -- VLAN_UNTAGGED
  ⟨0x3004, 20, 0x10, 1, 1, .u8, .rw, 0, 0, (n 0), [(0, 3)], 1⟩, -- PTP_PROFILE
  ⟨0x3004, 20, 0x10, 2, 3, .i32, .rw, 0, 0, (n 0), [(0, 100000), (4294867296, 4294967295)], 4⟩, -- INGRESS_COMP, EGRESS_COMP
  ⟨0x3004, 20, 0x10, 4, 4, .u8, .ro, 0, 0, (n 0), [], 1⟩ -- PORT_ROLE
]

/-- Rows 397 to 432 of the table. -/
def dictRows12 : List DRow := [
  ⟨0x3004, 20, 0x10, 5, 5, .u8, .rw, 0, 0, (n 0), [(0, 3)], 1⟩, -- FORCED_ROLE
  ⟨0x3004, 20, 0x10, 6, 6, .u32, .ro, 0, 0, (n 0), [], 4⟩, -- MEAN_LINK_DELAY
  ⟨0x3004, 20, 0x10, 7, 7, .i32, .rw, 0, 0, (n 4294967293), [(0, 1), (4294967289, 4294967295)], 4⟩, -- LOG_SYNC_INTERVAL
  ⟨0x3180, 1, 0x0, 1, 1, .u64, .ro, 0, 0, (n 0), [], 8⟩, -- DOMAIN_TIME
  ⟨0x3180, 1, 0x0, 2, 2, .u8, .ro, 0, 0, (n 0), [], 1⟩, -- SYNC_STATE
  ⟨0x3180, 1, 0x0, 3, 3, .i32, .ro, 0, 0, (n 0), [], 4⟩, -- OFFSET
  ⟨0x3180, 1, 0x0, 4, 4, .i32, .ro, 0, 0, (n 0), [], 4⟩, -- RATE_ADJ
  ⟨0x3180, 1, 0x0, 5, 5, .u32, .ro, 0, 0, (n 0), [], 4⟩, -- STEPS
  ⟨0x3180, 1, 0x0, 6, 6, .u64, .ro, 0, 0, (n 0), [], 8⟩, -- GM_IDENTITY
  ⟨0x3180, 1, 0x0, 7, 8, .u8, .rw, 0, 0, (n 0), [], 1⟩, -- PRIORITY1, PRIORITY2
  ⟨0x3180, 1, 0x0, 9, 9, .u8, .rw, 0, 0, (n 0), [(0, 127)], 1⟩, -- DOMAIN_NUMBER
  ⟨0x3180, 1, 0x0, 10, 10, .bool, .rw, 0, 0, (n 0), [], 1⟩, -- EXTERNAL_CONFIG
  ⟨0x3180, 1, 0x0, 11, 11, .u8, .rw, 0, 0, (n 0), [(0, 2)], 1⟩, -- PPS_IN_MODE
  ⟨0x3180, 1, 0x0, 12, 12, .u64, .ro, 0, 0, (n 0), [], 8⟩, -- PPS_IN_LAST
  ⟨0x3180, 1, 0x0, 13, 13, .u32, .rw, 0, 0, (n 0), [(0, 0), (1000, 500000000)], 4⟩, -- PPS_OUT_WIDTH
  ⟨0x3180, 1, 0x0, 14, 14, .u64, .wo, 0, 0, (n 0), [], 8⟩, -- TIME_SET
  ⟨0x3400, 1, 0x0, 1, 1, .u32, .ro, 0, 0, (n 0), [], 4⟩, -- ENTRIES_USED
  ⟨0x3400, 1, 0x0, 2, 2, .u8, .ro, 0, 0, (n 0), [], 1⟩, -- STASH_USED
  ⟨0x3400, 1, 0x0, 3, 3, .u32, .rw, 0, 0, (n 100), [(10, 100000)], 4⟩, -- SWEEP_PERIOD
  ⟨0x3400, 1, 0x0, 4, 4, .u32, .rw, 0, 0, (n 100), [(10, 1000)], 4⟩, -- LOCK_HOLD_MAX
  ⟨0x3400, 1, 0x0, 5, 5, .u64, .ro, 0, 0, (n 0), [], 8⟩, -- LEARN_DROPS
  ⟨0x3400, 1, 0x0, 6, 6, .u32, .ro, 0, 0, (n 0), [], 4⟩, -- TABLE_FULLS
  ⟨0x3400, 1, 0x0, 7, 7, .u64, .ro, 0, 0, (n 0), [], 8⟩, -- RELOCATIONS
  ⟨0x3400, 1, 0x0, 8, 8, .u64, .ro, 0, 0, (n 0), [], 8⟩, -- AGED
  ⟨0x3400, 1, 0x0, 9, 9, .u64, .ro, 0, 0, (n 0), [], 8⟩, -- STATION_MOVES
  ⟨0x3400, 1, 0x0, 10, 10, .u32, .ro, 0, 0, (n 0), [], 4⟩, -- LOCKS_EXPIRED
  ⟨0x3400, 1, 0x0, 11, 11, .u64, .const, 0, 0, (n 0), [], 8⟩, -- MGMT_MAC
  ⟨0x3400, 1, 0x0, 12, 12, .u16, .rw, 0, 0, (n 0), [(0, 4096)], 2⟩, -- LEARN_FIFO_HIGH_WATER
  ⟨0x3400, 1, 0x0, 13, 13, .u64, .ro, 0, 0, (n 0), [], 8⟩, -- HEARTH_PATH_DROPS
  ⟨0x3401, 1, 0x0, 1, 64, .domain, .rw, 0, 0, (bs []), [], 16⟩, -- PORT_SET
  ⟨0x3500, 1, 0x0, 1, 1, .bool, .rwc, 25, 0, (n 0), [], 1⟩, -- ENABLE
  ⟨0x3500, 1, 0x0, 2, 2, .u16, .rwc, 25, 0, (n 0), [(0, 1023)], 2⟩, -- DEVICE_ID
  ⟨0x3500, 1, 0x0, 3, 3, .u8, .rwc, 25, 0, (n 0), [], 1⟩, -- DOMAIN_ID
  ⟨0x3500, 1, 0x0, 4, 4, .u8, .rwc, 25, 0, (n 16), [], 1⟩, -- RING_A_PORTS
  ⟨0x3500, 1, 0x0, 5, 5, .u8, .rwc, 25, 0, (n 255), [], 1⟩, -- RING_B_PORTS
  ⟨0x3500, 1, 0x0, 6, 6, .u16, .rwc, 25, 0, (n 2048), [(1536, 2048)], 2⟩ -- RING_MTU
]

/-- Rows 433 to 468 of the table. -/
def dictRows13 : List DRow := [
  ⟨0x3500, 1, 0x0, 7, 7, .u16, .rw, 0, 0, (n 1000), [(10, 10000)], 2⟩, -- RESTORE_HOLD
  ⟨0x3500, 1, 0x0, 8, 8, .bool, .rw, 0, 0, (n 1), [], 1⟩, -- STEER_HOLD
  ⟨0x3500, 1, 0x0, 9, 9, .u32, .const, 0, 0, (n 8000), [], 4⟩, -- LOOP_LIMIT
  ⟨0x3501, 2, 0x1, 1, 1, .u8, .ro, 0, 0, (n 0), [], 1⟩, -- STATE
  ⟨0x3501, 2, 0x1, 2, 2, .u8, .ro, 0, 0, (n 0), [], 1⟩, -- MEMBERS
  ⟨0x3501, 2, 0x1, 3, 3, .u32, .ro, 0, 0, (n 0), [], 4⟩, -- LOOP_BOUND
  ⟨0x3501, 2, 0x1, 4, 4, .u32, .ro, 0, 0, (n 0), [], 4⟩, -- FAULTS
  ⟨0x3501, 2, 0x1, 5, 5, .u64, .ro, 0, 0, (n 0), [], 8⟩, -- LAST_FAULT_TIME
  ⟨0x3501, 2, 0x1, 6, 6, .u64, .ro, 0, 0, (n 0), [], 8⟩, -- WRAPPED_FRAMES
  ⟨0x3503, 1, 0x0, 1, 1, .u16, .ro, 0, 0, (n 0), [], 2⟩, -- DEVICES_KNOWN
  ⟨0x3503, 1, 0x0, 2, 2, .u32, .ro, 0, 0, (n 0), [], 4⟩, -- DOMAIN_LOOPS
  ⟨0x3503, 1, 0x0, 3, 3, .u64, .ro, 0, 0, (n 0), [], 8⟩, -- TTL_OR_UNKNOWN_DROPS
  ⟨0x3503, 1, 0x0, 4, 4, .u64, .ro, 0, 0, (n 0), [], 8⟩, -- FOREIGN_DROPS
  ⟨0x3503, 1, 0x0, 5, 5, .u64, .ro, 0, 0, (n 0), [], 8⟩, -- RING_MTU_DROPS
  ⟨0x6020, 64, 0x40, 1, 1, .u64, .rwc, 0x100, 1, (n 0), [(0, 281474976710655)], 8⟩, -- VP_MAC
  ⟨0x6020, 64, 0x40, 2, 2, .bool, .rwc, 0x100, 1, (n 1), [], 1⟩, -- SA_FILTER
  ⟨0x6020, 64, 0x40, 3, 3, .bool, .rwc, 0x100, 1, (n 0), [], 1⟩, -- LEARN
  ⟨0x6020, 64, 0x40, 4, 4, .u16, .rwc, 0x100, 1, (n 1), [(1, 4094)], 2⟩, -- PVID
  ⟨0x6021, 64, 0x40, 1, 1, .domain, .rwc, 0x100, 1, (vlan1), [], 512⟩, -- VLAN_MEMBERS
  ⟨0x6021, 64, 0x40, 2, 2, .domain, .rwc, 0x100, 1, (vlan1), [], 512⟩, -- VLAN_UNTAGGED
  ⟨0x6022, 64, 0x40, 1, 4, .u64, .ro, 0, 0, (n 0), [], 8⟩, -- SENT_FRAMES, SENT_BYTES, RX_FRAMES, RX_BYTES
  ⟨0x6022, 64, 0x40, 5, 8, .u64, .ro, 0, 0, (n 0), [], 8⟩, -- RX_NO_BUFFER, RX_CQ_STALLED, SA_FILTERED, QUIESCED_DROPS
  ⟨0x6023, 64, 0x40, 1, 1, .u16, .ro, 0, 0, (n 0), [], 2⟩, -- RX_BOUND_CQ
  ⟨0x6023, 64, 0x40, 2, 2, .u16, .ro, 0, 0, (n 0), [], 2⟩, -- RX_BUFFERS_FREE
  ⟨0x3600, 20, 0x10, 1, 1, .u8, .rw, 0, 0, (n 128), [], 1⟩, -- STRICT_MASK
  ⟨0x3600, 20, 0x10, 2, 2, .domain, .rw, 0, 0, (bs [1,0,2,3,4,5,6,7]), [], 8⟩, -- PCP_MAP
  ⟨0x3600, 20, 0x10, 3, 3, .u8, .rw, 0, 0, (n 0), [(0, 1)], 1⟩, -- GUARD_MODE
  ⟨0x3600, 20, 0x10, 4, 4, .u32, .rwc, 26, 1, (n 0), [(0, 0), (64, 25000000)], 4⟩, -- PORT_RATE
  ⟨0x3600, 20, 0x10, 5, 5, .u32, .rwc, 26, 1, (n 16384), [(64, 16777215)], 4⟩, -- PORT_BURST
  ⟨0x3601, 20, 0x10, 1, 8, .u8, .rw, 0, 0, (n 1), [(1, 127)], 1⟩, -- WEIGHT
  ⟨0x3602, 20, 0x10, 1, 8, .u32, .rwc, 26, 1, (n 0), [(0, 0), (64, 25000000)], 4⟩, -- SHAPE_RATE
  ⟨0x3603, 20, 0x10, 1, 8, .u32, .rwc, 26, 1, (n 16384), [(64, 16777215)], 4⟩, -- SHAPE_BURST
  ⟨0x3604, 20, 0x10, 1, 1, .u8, .rwc, 26, 1, (n 0), [], 1⟩, -- BUDGET_SHAPED
  ⟨0x3605, 20, 0x10, 1, 1, .bool, .rwc, 26, 1, (n 0), [], 1⟩, -- GATE_ENABLE
  ⟨0x3605, 20, 0x10, 2, 2, .u64, .rwc, 26, 1, (n 0), [], 8⟩, -- ADMIN_BASE
  ⟨0x3605, 20, 0x10, 3, 3, .u32, .rwc, 26, 1, (n 1000000), [(1000, 1000000000)], 4⟩ -- ADMIN_CYCLE
]

/-- Rows 469 to 504 of the table. -/
def dictRows14 : List DRow := [
  ⟨0x3605, 20, 0x10, 4, 4, .u16, .rwc, 26, 1, (n 1), [(1, 256)], 2⟩, -- ADMIN_COUNT
  ⟨0x3605, 20, 0x10, 5, 5, .domain, .rwc, 26, 1, (gate0), [], 2048⟩, -- ADMIN_LIST
  ⟨0x3606, 20, 0x10, 6, 6, .u64, .ro, 0, 0, (n 0), [], 8⟩, -- CHANGE_TIME
  ⟨0x3606, 20, 0x10, 7, 7, .u16, .ro, 0, 0, (n 0), [], 2⟩, -- CURRENT_ENTRY
  ⟨0x3606, 20, 0x10, 8, 8, .u32, .ro, 0, 0, (n 0), [], 4⟩, -- LIST_CHANGES
  ⟨0x3606, 20, 0x10, 9, 9, .u32, .ro, 0, 0, (n 0), [], 4⟩, -- GUARD_NS
  ⟨0x3607, 20, 0x10, 1, 8, .u32, .rw, 0, 0, (n 0), [], 4⟩, -- HIGH_WATER
  ⟨0x3607, 20, 0x10, 9, 9, .u32, .rw, 0, 0, (n 0), [], 4⟩, -- PORT_HIGH_WATER
  ⟨0x3608, 20, 0x10, 1, 8, .u64, .ro, 0, 0, (n 0), [], 8⟩, -- DROPS
  ⟨0x3609, 20, 0x10, 1, 8, .u32, .rw, 0, 0, (n 262144), [(2048, 16777216)], 4⟩, -- QUEUE_LIMIT
  ⟨0x360A, 20, 0x10, 1, 8, .u64, .ro, 0, 0, (n 0), [], 8⟩, -- GATE_DROPS
  ⟨0x360A, 20, 0x10, 9, 9, .u64, .ro, 0, 0, (n 0), [], 8⟩, -- OVERSIZE_DROPS
  ⟨0x3781, 1, 0x0, 1, 3, .u64, .ro, 0, 0, (n 0), [], 8⟩, -- GREEN_BYTES, YELLOW_BYTES, RED_BYTES
  ⟨0x3781, 1, 0x0, 4, 4, .u64, .ro, 0, 0, (n 0), [], 8⟩, -- RED_DROPPED
  ⟨0x3782, 1, 0x0, 1, 1, .domain, .rw, 0, 0, (bs []), [], 64⟩, -- DSCP_COLOUR
  ⟨0x3783, 1, 0x0, 1, 1, .u8, .rw, 0, 0, (n 6), [(0, 7)], 1⟩, -- MGMT_CLASS
  ⟨0x3783, 1, 0x0, 2, 2, .u32, .ro, 0, 0, (n 0), [], 4⟩, -- BUFFER_FREE
  ⟨0x3783, 1, 0x0, 3, 3, .u32, .rw, 0, 0, (n 4294967295), [], 4⟩, -- BUFFER_LOW_WATER
  ⟨0x3783, 1, 0x0, 4, 4, .u64, .ro, 0, 0, (n 0), [], 8⟩, -- BUFFER_FULL_DROPS
  ⟨0x6028, 64, 0x40, 1, 1, .u32, .rwc, 0x100, 1, (n 0), [(0, 0), (64, 25000000)], 4⟩, -- TX_RATE
  ⟨0x6028, 64, 0x40, 2, 2, .u32, .rwc, 0x100, 1, (n 16384), [(64, 16777215)], 4⟩, -- TX_BURST
  ⟨0x6028, 64, 0x40, 3, 3, .bool, .rwc, 0x100, 1, (n 0), [], 1⟩, -- TX_BUDGET_SHAPED
  ⟨0x6029, 64, 0x40, 1, 1, .u64, .ro, 0, 0, (n 0), [], 8⟩, -- TX_SHAPED_SENDS
  ⟨0x602B, 64, 0x40, 1, 4, .u64, .ro, 0, 0, (n 0), [], 8⟩, -- METER_COUNTS
  ⟨0x3800, 1, 0x0, 1, 1, .u8, .const, 0, 0, (n 32), [], 1⟩, -- CORES
  ⟨0x3800, 1, 0x0, 2, 2, .u16, .const, 0, 0, (n 256), [], 2⟩, -- THREADS
  ⟨0x3800, 1, 0x0, 3, 3, .u16, .ro, 0, 0, (n 0), [], 2⟩, -- GROUPS_USED
  ⟨0x3800, 1, 0x0, 4, 4, .u32, .ro, 0, 0, (n 0), [], 4⟩, -- STALLS
  ⟨0x3800, 1, 0x0, 5, 5, .u32, .ro, 0, 0, (n 0), [], 4⟩, -- THREAD_FAULTS
  ⟨0x3800, 1, 0x0, 6, 6, .u32, .ro, 0, 0, (n 0), [], 4⟩, -- TAKEOVERS
  ⟨0x3800, 1, 0x0, 7, 7, .u32, .ro, 0, 0, (n 0), [], 4⟩, -- CORE_RELOADS
  ⟨0x3800, 1, 0x0, 8, 8, .u32, .ro, 0, 0, (n 0), [], 4⟩, -- FORCE_RELEASES
  ⟨0x3801, 1, 0x0, 1, 1, .u8, .rwc, 47, 0, (n 0), [], 1⟩, -- GROUP_SELECT
  ⟨0x3801, 1, 0x0, 2, 2, .u8, .rwc, 47, 0, (n 0), [(0, 63)], 1⟩, -- INSTANCE
  ⟨0x3801, 1, 0x0, 3, 3, .u8, .rwc, 47, 0, (n 0), [(0, 31)], 1⟩, -- CORE
  ⟨0x3801, 1, 0x0, 4, 4, .u8, .rwc, 47, 0, (n 0), [], 1⟩ -- THREADS
]

/-- Rows 505 to 540 of the table. -/
def dictRows15 : List DRow := [
  ⟨0x3801, 1, 0x0, 5, 5, .u8, .rwc, 47, 0, (n 0), [], 1⟩, -- SPARES
  ⟨0x3801, 1, 0x0, 6, 6, .u32, .rwc, 47, 0, (n 0), [(0, 65534)], 4⟩, -- ENTRY
  ⟨0x3801, 1, 0x0, 7, 7, .domain, .rwc, 47, 0, (bs [1,1,1,1,1,1,1,1]), [], 8⟩, -- WEIGHTS
  ⟨0x3801, 1, 0x0, 8, 8, .u16, .rwc, 47, 0, (n 64), [(16, 1024)], 2⟩, -- QUEUE_KIB
  ⟨0x3801, 1, 0x0, 9, 9, .u16, .rwc, 47, 0, (n 65535), [(0, 255), (65535, 65535)], 2⟩, -- STANDBY
  ⟨0x3801, 1, 0x0, 10, 10, .u8, .rwc, 47, 0, (n 0), [(0, 0)], 1⟩, -- —
  ⟨0x3801, 1, 0x0, 11, 11, .u32, .rwc, 47, 0, (n 0), [(0, 0), (10, 1000000)], 4⟩, -- WATCHDOG
  ⟨0x3801, 1, 0x0, 12, 12, .u8, .rwc, 47, 0, (n 1), [(0, 3)], 1⟩, -- STALL_ACTION
  ⟨0x3801, 1, 0x0, 13, 13, .u8, .rwc, 47, 0, (n 4), [(1, 100)], 1⟩, -- FAULT_LIMIT
  ⟨0x3801, 1, 0x0, 14, 14, .u8, .ro, 0, 0, (n 0), [], 1⟩, -- STATE
  ⟨0x3801, 1, 0x0, 15, 15, .u64, .ro, 0, 0, (n 0), [], 8⟩, -- RX_DROPS
  ⟨0x3801, 1, 0x0, 16, 16, .u32, .ro, 0, 0, (n 0), [], 4⟩, -- GROUP_STALLS
  ⟨0x3801, 1, 0x0, 17, 17, .u32, .ro, 0, 0, (n 0), [], 4⟩, -- GROUP_FAULTS
  ⟨0x3801, 1, 0x0, 18, 18, .domain, .ro, 0, 0, (bs []), [], 64⟩, -- STEERING
  ⟨0x3802, 1, 0x0, 1, 1, .u16, .wo, 0, 0, (n 0), [], 2⟩, -- GROUP_CONTROL
  ⟨0x3803, 1, 0x0, 1, 1, .domain, .ro, 0, 0, (bs []), [], 256⟩, -- GROUP_STATES
  ⟨0x3840, 32, 0x1, 1, 8, .u8, .ro, 0, 0, (n 1), [], 1⟩, -- THREAD_STATE
  ⟨0x3840, 32, 0x1, 9, 9, .u64, .ro, 0, 0, (n 0), [], 8⟩, -- IDLE_SLOTS
  ⟨0x3840, 32, 0x1, 10, 10, .u8, .rw, 0, 0, (n 0), [(0, 7)], 1⟩, -- DELIVERY_THREAD
  ⟨0x3840, 32, 0x1, 11, 11, .u8, .ro, 0, 0, (n 1), [], 1⟩, -- CORE_STATE
  ⟨0x3840, 32, 0x1, 12, 12, .u32, .ro, 0, 0, (n 0), [], 4⟩, -- RELOADS
  ⟨0x602C, 64, 0x40, 1, 1, .domain, .ro, 0, 0, (bs []), [], 32⟩, -- GROUPS
  ⟨0x602C, 64, 0x40, 2, 2, .u64, .ro, 0, 0, (n 0), [], 8⟩, -- SLOTS_USED
  ⟨0x602C, 64, 0x40, 3, 3, .u32, .ro, 0, 0, (n 0), [], 4⟩, -- FAULTS
  ⟨0x602C, 64, 0x40, 4, 4, .u32, .ro, 0, 0, (n 0), [], 4⟩, -- STALLS
  ⟨0x602C, 64, 0x40, 5, 5, .u64, .ro, 0, 0, (n 0), [], 8⟩, -- RX_DROPS
  ⟨0x602D, 64, 0x40, 1, 1, .u8, .wo, 0, 0, (n 0), [(0, 255)], 1⟩, -- RESTART_GROUP
  ⟨0x3900, 1, 0x0, 1, 1, .u16, .const, 0, 0, (n 640), [], 2⟩, -- SOURCES
  ⟨0x3900, 1, 0x0, 2, 2, .u8, .const, 0, 0, (n 33), [], 1⟩, -- TARGETS
  ⟨0x3900, 1, 0x0, 3, 3, .u8, .const, 0, 0, (n 16), [], 1⟩, -- STACK_DEPTH
  ⟨0x3900, 1, 0x0, 4, 4, .u32, .ro, 0, 0, (n 0), [], 4⟩, -- STACK_FAULTS
  ⟨0x3900, 1, 0x0, 5, 5, .u8, .rw, 0, 0, (n 0), [(0, 1)], 1⟩, -- STACK_FAULT_ACTION
  ⟨0x3900, 1, 0x0, 6, 6, .u32, .ro, 0, 0, (n 0), [], 4⟩, -- EOI_IGNORED
  ⟨0x3900, 1, 0x0, 7, 7, .u64, .ro, 0, 0, (n 0), [], 8⟩, -- FROZEN_TARGETS
  ⟨0x3900, 1, 0x0, 8, 8, .u8, .wo, 0, 0, (n 0), [(0, 32)], 1⟩, -- CLEAR_TARGET
  ⟨0x3901, 1, 0x0, 1, 1, .domain, .rw, 0, 0, (bs []), [], 1280⟩ -- SOURCE_MAP
]

/-- Rows 541 to 576 of the table. -/
def dictRows16 : List DRow := [
  ⟨0x3901, 1, 0x0, 2, 2, .domain, .ro, 0, 0, (bs []), [], 80⟩, -- PENDING
  ⟨0x3902, 1, 0x0, 1, 33, .u32, .ro, 0, 0, (n 4096), [], 4⟩, -- TARGET_STATE
  ⟨0x3903, 1, 0x0, 1, 33, .u64, .ro, 0, 0, (n 0), [], 8⟩, -- CLAIMS
  ⟨0x3A00, 1, 0x0, 1, 1, .u16, .ro, 0, 0, (n 0), [], 2⟩, -- STORED
  ⟨0x3A00, 1, 0x0, 2, 2, .u32, .ro, 0, 0, (n 1), [], 4⟩, -- NEXT_SEQ
  ⟨0x3A00, 1, 0x0, 3, 3, .u8, .wo, 0, 0, (n 0), [(1, 2)], 1⟩, -- CLEAR
  ⟨0x3A00, 1, 0x0, 4, 4, .u64, .ro, 0, 0, (n 0), [], 8⟩, -- NOT_STORED
  ⟨0x3A00, 1, 0x0, 5, 5, .u64, .ro, 0, 0, (n 0), [], 8⟩, -- REMOVED
  ⟨0x3A00, 1, 0x0, 6, 6, .u16, .ro, 0, 0, (n 0), [], 2⟩, -- FOK_USED
  ⟨0x3A00, 1, 0x0, 7, 7, .u32, .ro, 0, 0, (n 0), [], 4⟩, -- FOK_MISSED
  ⟨0x3A01, 1, 0x0, 1, 16, .u32, .rw, 0, 0, (n 500), [(1, 100000)], 4⟩, -- ADMIT_RATE
  ⟨0x3A02, 1, 0x0, 1, 16, .u16, .rw, 0, 0, (n 64), [(1, 8192)], 2⟩, -- ADMIT_BURST
  ⟨0x3A03, 1, 0x0, 1, 16, .u8, .rw, 0, 0, (n 4), [(0, 5)], 1⟩, -- MIN_SEVERITY
  ⟨0x3A04, 1, 0x0, 1, 16, .u64, .ro, 0, 0, (n 0), [], 8⟩, -- REFUSED
  ⟨0x3A10, 1, 0x0, 1, 1, .u32, .rw, 0, 0, (n 1), [], 4⟩, -- WINDOW_SEQ
  ⟨0x3A10, 1, 0x0, 2, 2, .domain, .ro, 0, 0, (bs []), [], 4096⟩, -- WINDOW
  ⟨0x3A11, 1, 0x0, 1, 2, .domain, .ro, 0, 0, (bs []), [], 4096⟩, -- FIRST_OF_KIND
  ⟨0x3A20, 3, 0x1, 1, 1, .bool, .rw, 0, 0, (n 0), [], 1⟩, -- ENABLE
  ⟨0x3A20, 3, 0x1, 2, 2, .u8, .rw, 0, 0, (n 4), [(0, 5)], 1⟩, -- MIN_SEVERITY
  ⟨0x3A20, 3, 0x1, 3, 3, .u16, .ro, 0, 0, (n 0), [], 2⟩, -- BACKLOG
  ⟨0x3A20, 3, 0x1, 4, 6, .u64, .ro, 0, 0, (n 0), [], 8⟩, -- DROPS_TRACE, DROPS_NOTICE, DROPS_WARNING
  ⟨0x3A20, 3, 0x1, 7, 7, .u64, .ro, 0, 0, (n 0), [], 8⟩, -- OVERRUNS
  ⟨0x3A20, 3, 0x1, 8, 8, .u64, .ro, 0, 0, (n 0), [], 8⟩, -- SENT
  ⟨0x3A20, 1, 0x0, 9, 9, .domain, .ro, 0, 0, (bs []), [], 4096⟩, -- PULL
  ⟨0x3A21, 1, 0x0, 9, 9, .u32, .rw, 0, 0, (n 0), [], 4⟩, -- UDP_ADDRESS
  ⟨0x3A21, 1, 0x0, 10, 10, .u16, .rw, 0, 0, (n 100), [(1, 1000)], 2⟩, -- UDP_RATE
  ⟨0x3A21, 1, 0x0, 11, 11, .u16, .rw, 0, 0, (n 50961), [(1, 65535)], 2⟩, -- UDP_PORT
  ⟨0x3A22, 1, 0x0, 9, 9, .u16, .rw, 0, 0, (n 0), [(0, 2047)], 2⟩, -- CAN_ID
  ⟨0x3A22, 1, 0x0, 10, 10, .u16, .rw, 0, 0, (n 50), [(1, 500)], 2⟩, -- CAN_RATE
  ⟨0x3A22, 1, 0x0, 11, 11, .u8, .rw, 0, 0, (n 0), [(0, 1)], 1⟩, -- CAN_PORT
  ⟨0x3A30, 1, 0x0, 1, 1, .u16, .rw, 0, 0, (n 100), [(10, 60000)], 2⟩, -- ALARM_INHIBIT
  ⟨0x3A30, 1, 0x0, 2, 2, .u8, .rw, 0, 0, (n 1), [(0, 3)], 1⟩, -- ALARM_CAN_PORTS
  ⟨0x3A30, 1, 0x0, 3, 3, .u8, .wo, 0, 0, (n 0), [(1, 1)], 1⟩, -- ACK_ALL
  ⟨0x3A30, 1, 0x0, 4, 4, .u8, .ro, 0, 0, (n 0), [], 1⟩, -- RAISED
  ⟨0x3A40, 128, 0x1, 1, 1, .u16, .rw, 0, 0, (n 0), [], 2⟩, -- CODE
  ⟨0x3A40, 128, 0x1, 2, 2, .u8, .rw, 0, 0, (n 0), [(0, 15), (255, 255)], 1⟩ -- CLASS
]

/-- Rows 577 to 610 of the table. -/
def dictRows17 : List DRow := [
  ⟨0x3A40, 128, 0x1, 3, 3, .u8, .rw, 0, 0, (n 0), [(0, 5)], 1⟩, -- MATCH_SEVERITY
  ⟨0x3A40, 128, 0x1, 4, 4, .u8, .rw, 0, 0, (n 0), [(0, 5)], 1⟩, -- SEVERITY
  ⟨0x3A40, 128, 0x1, 5, 5, .u32, .ro, 0, 0, (n 0), [], 4⟩, -- COUNT
  ⟨0x3A40, 128, 0x1, 6, 7, .u64, .ro, 0, 0, (n 0), [], 8⟩, -- FIRST_TIME, LAST_TIME
  ⟨0x3A40, 128, 0x1, 8, 8, .u8, .wo, 0, 0, (n 0), [(1, 1)], 1⟩, -- ACK
  ⟨0x3A40, 128, 0x1, 9, 9, .u32, .ro, 0, 0, (n 0), [], 4⟩, -- LAST_COUNT
  ⟨0x3A40, 128, 0x1, 10, 10, .u8, .ro, 0, 0, (n 0), [], 1⟩, -- STATE
  ⟨0x3B00, 1, 0x0, 1, 1, .u8, .rw, 0, 0, (n 0), [(0, 2)], 1⟩, -- MODE
  ⟨0x3B00, 1, 0x0, 2, 2, .u16, .rw, 0, 0, (n 64), [(4, 256)], 2⟩, -- REGION_MIB
  ⟨0x3B00, 1, 0x0, 3, 3, .u8, .ro, 0, 0, (n 0), [], 1⟩, -- STATE
  ⟨0x3B00, 1, 0x0, 4, 4, .domain, .rw, 0, 0, (bs []), [], 32⟩, -- HARTS
  ⟨0x3B00, 1, 0x0, 5, 5, .u16, .rw, 0, 0, (n 1000), [(100, 10000)], 2⟩, -- CHECKPOINT_INTERVAL
  ⟨0x3B00, 1, 0x0, 6, 6, .u64, .ro, 0, 0, (n 0), [], 8⟩, -- BYTES_WRITTEN
  ⟨0x3B00, 1, 0x0, 7, 7, .u64, .ro, 0, 0, (n 0), [], 8⟩, -- STALL_NS
  ⟨0x3B01, 1, 0x0, 1, 1, .u8, .wo, 0, 0, (n 0), [(1, 1)], 1⟩, -- TRIGGER
  ⟨0x3B01, 1, 0x0, 2, 2, .u8, .rw, 0, 0, (n 1), [(0, 5), (255, 255)], 1⟩, -- TRIGGER_SEVERITY
  ⟨0x3B01, 1, 0x0, 3, 3, .u16, .rw, 0, 0, (n 0), [], 2⟩, -- TRIGGER_CODE
  ⟨0x3B01, 1, 0x0, 4, 4, .u8, .rw, 0, 0, (n 25), [(0, 100)], 1⟩, -- POST_PERCENT
  ⟨0x3B01, 1, 0x0, 5, 5, .u64, .ro, 0, 0, (n 0), [], 8⟩, -- TRIGGER_TIME
  ⟨0x3B01, 1, 0x0, 6, 6, .u8, .ro, 0, 0, (n 0), [], 1⟩, -- TRIGGER_CAUSE
  ⟨0x3B02, 1, 0x0, 1, 1, .u8, .wo, 0, 0, (n 0), [(1, 1)], 1⟩, -- REPLAY_ARM
  ⟨0x3B02, 1, 0x0, 2, 2, .u16, .ro, 0, 0, (n 0), [], 2⟩, -- IMAGE_CHECK
  ⟨0x3B10, 1, 0x0, 1, 1, .u32, .rw, 0, 0, (n 0), [], 4⟩, -- OFFSET
  ⟨0x3B10, 1, 0x0, 2, 2, .domain, .rw, 0, 0, (bs []), [], 4096⟩, -- WINDOW
  ⟨0x3C00, 1, 0x0, 1, 8, .i32, .ro, 0, 0, (n 0), [], 4⟩, -- TJ_SENSOR
  ⟨0x3C01, 1, 0x0, 1, 1, .u16, .ro, 0, 0, (n 0), [], 2⟩, -- VSENSE_CODE
  ⟨0x3C02, 1, 0x0, 1, 8, .u16, .ro, 0, 0, (n 0), [], 2⟩, -- RAIL_MV
  ⟨0x3C03, 1, 0x0, 1, 1, .u32, .const, 0, 0, (n 546704437), [], 4⟩, -- IDCODE
  ⟨0x3C03, 1, 0x0, 2, 2, .vstr, .const, 0, 0, (str "FCBGA1296"), [], 9⟩, -- PACKAGE
  ⟨0x3C10, 1, 0x0, 1, 1, .bool, .rw, 0, 0, (n 0), [], 1⟩, -- DEBUG_ENABLE
  ⟨0x3C10, 1, 0x0, 2, 2, .bool, .ro, 0, 0, (n 0), [], 1⟩, -- DEBUG_ATTACHED
  ⟨0x3C10, 1, 0x0, 3, 3, .u32, .ro, 0, 0, (n 0), [], 4⟩, -- DEBUG_SESSIONS
  ⟨0x3C11, 1, 0x0, 1, 1, .u32, .ro, 0, 0, (n 0), [], 4⟩, -- MAIN_PG_LOSSES
  ⟨0x3C11, 1, 0x0, 2, 2, .u32, .ro, 0, 0, (n 0), [], 4⟩ -- PERST_HELD
]

/-- Every row of the dictionary. -/
def dictRows : List DRow :=
  dictRows1 ++ dictRows2 ++ dictRows3 ++ dictRows4 ++ dictRows5 ++ dictRows6 ++ dictRows7 ++ dictRows8 ++ dictRows9 ++ dictRows10 ++ dictRows11 ++ dictRows12 ++ dictRows13 ++ dictRows14 ++ dictRows15 ++ dictRows16 ++ dictRows17

end Sys2Proof.Machine
end

