-- ==== Sys2Proof/Config.lean ====
section
/-! DEFINITION. What the manual leaves to the part, to the bundle or open: constants without a body, so that nothing
can be proved about their values (notes/assumptions names each). -/

namespace Sys2Proof.Config

/-- A free value of the manual: the k-th one the machine draws. Nothing constrains it. -/
opaque freeNat : Nat → Nat

/-- A free byte string: the k-th draw's byte at a position. -/
opaque freeByte : Nat → Nat → Byte

/-- The result of the random-bit source behind the key store (R326), byte by byte. -/
opaque randomByte : Nat → Nat → Byte

/-- The serial number of the part (`0x1019:00`, per part). -/
opaque serial : Nat

/-- The device unique key of the seal store (per part). -/
opaque deviceKeyByte : Nat → Byte

/-- The hash of the Aflerid production key that key-hash slot 0 is shipped with (Table 3-14), byte by byte. -/
opaque productionKeyByte : Nat → Byte

/-- The priority and the target that DICT_DEFAULTS of the running bundle gives a source (R464). -/
opaque defaultPriority : Nat → Nat

/-- The target that DICT_DEFAULTS gives a routable source. -/
opaque defaultTarget : Nat → Nat

/-- The installed LPDDR5 size in MiB (per board). -/
opaque dramMib : Nat

end Sys2Proof.Config
end

