-- ==== Sys2Proof/Machine/StBase.lean ====
section
/-! DEFINITION. The state of the watchers: what the device emits, domain time and the slow count, the event gatherer,
the ash log and its alarms, and the peat recorder (Chapters 1, 15 and 16). -/

namespace Sys2Proof.Machine

/-- Bytes of a memory as (address, byte) cells in rising order; an unlisted address reads as zero and no listed byte
is zero. -/
abbrev Mem := SMap Byte

/-- What the device sends out, in the order it sends it: the model's own record of the effects that leave the part. -/
inductive Out where
  /-- A memory write to the host: function, host address, bytes (data, completion entries). -/
  | hostWrite (fn addr : Nat) (data : Bytes)
  /-- A memory read request to the host: function, tag, address, length. -/
  | hostRead (fn tag addr len : Nat)
  /-- An MSI or MSI-X message of a function: vector. -/
  | message (fn vector : Nat)
  /-- An INTx assertion or deassertion of PF0. -/
  | intx (assert : Bool)
  /-- A PCI Express message: its code (ERR_COR, LTR and the like) and value. -/
  | pcieMessage (code value : Nat)
  /-- A completion with an error status, or the data of a host read of the device. -/
  | pcieCompletion (ok : Bool) (data : Bytes)
  /-- A frame transmitted on a physical port, with its FCS left out. -/
  | frame (port : Nat) (data : Bytes)
  /-- A PTP message of a type of IEEE 1588 sent on a port; its content is the standard's. -/
  | ptp (port type : Nat)
  /-- A UDP datagram from the management address: destination address and port, payload. -/
  | datagram (addr port vlan : Nat) (data : Bytes)
  /-- A CAN FD frame: port, identifier, data. -/
  | canFrame (port id : Nat) (data : Bytes)
  /-- A USDO answer: port, whether it is an abort, the data bytes. -/
  | usdo (port : Nat) (abort : Bool) (data : Bytes)
  /-- An NVMe command to an SSD: port, command number, opcode, namespace number, first block, block count, data (for
  each block its 4,096 bytes, then each block's 8 metadata bytes). Opcodes below 0x100 are NVMe's; the others are the
  model's names for what the storage service does in one piece: 0x100 shutdown (CC.SHN), 0x101 controller disabled and
  enabled, 0x102 controller enabled, 0x103 namespace created and attached, 0x104 namespace deleted, 0x105 Format NVM,
  0x106 catalogue written with FUA, 0x107 SSD prepared, 0x108 map written; 0x181 is a Write with FUA. -/
  | nvme (port command opcode ns lba blocks : Nat) (data : Bytes)
  /-- A change of an output pin: pin name, level. -/
  | pin (name : String) (level : Bool)
  /-- Bytes read by the Tinder master. -/
  | tinder (data : Bytes)
  /-- A DMI or DTM answer. -/
  | dmi (ok : Bool) (value : Nat)
  /-- A dictionary answer to a mailbox, as the device writes it. -/
  | mailbox (fn : Nat) (status : Nat) (data : Bytes)
  /-- A command to the quad-SPI NOR: 0x20 erases a sector, 0x02 programs a page (R513). -/
  | nor (cmd addr : Nat) (data : Bytes)
  /-- The value a CLAIM read of a target returned (Table 15-7). -/
  | claimed (target value : Nat)
deriving DecidableEq, Repr, Inhabited

/-- Domain time and the other counts (R26, R27, R29, Table 3-x). -/
structure TimeBase where
  /-- Domain time, ns. -/
  ns : Nat
  /-- The part of a domain-time nanosecond that the rate change of R27 has gathered, in 10⁻⁹ ns. -/
  frac : Nat
  /-- The rate change in force, ppb (two's complement reading as an integer). -/
  ppb : Int
  /-- An offset below 10 µs still to be removed by rate (R27). -/
  slew : Int
  /-- The 32.768 kHz count since AO power-on (48 bits). -/
  slow : Nat
  /-- The part of a slow tick gathered, in units of 1/64 ns. -/
  slowFrac : Nat
  /-- Elapsed ns since AO power-on, in every state: the model's reading of "at most once per second". -/
  elapsed : Nat
  /-- HCLK time in ns since the clock switch (R473); stops in Banked. -/
  hclkNs : Nat
  /-- The domain time and the slow count when the fast clocks last stopped (R29). -/
  stopNs : Nat
  stopSlow : Nat
deriving DecidableEq, Repr, Inhabited

/-- One source's routing (Table 15-4). -/
structure EgSrc where
  priority : Nat
  target : Nat
deriving DecidableEq, Repr, Inhabited

/-- One target: its running priority, its stack of (source, saved running priority) with the top first, frozen or not. -/
structure EgTarget where
  running : Nat
  stack : List (Nat × Nat)
  frozen : Bool
deriving DecidableEq, Repr, Inhabited

/-- The event gatherer (Chapter 15): routing of 640 sources, pending bits, 33 targets. -/
structure Gatherer where
  src : SMap EgSrc
  pending : SMap Unit
  targets : SMap EgTarget
deriving DecidableEq, Repr, Inhabited

/-- One 32-byte entry of the ash log (Table 16-1). -/
structure AshEntry where
  time : Nat
  source : Nat
  severity : Nat
  cls : Nat
  code : Nat
  count : Nat
  seq : Nat
  payload : Bytes
deriving DecidableEq, Repr, Inhabited

/-- What one class refused in the running 10 ms interval (R473). -/
structure AshInterval where
  refused : Nat
  first : Nat
  last : Nat
  worst : Nat
deriving DecidableEq, Repr, Inhabited

/-- An alarm object's state beside its entries (R482–R484): the class of its last match, the COUNT its last frame
carried, and whether its inhibit time runs. -/
structure Alarm where
  lastClass : Nat
  sentCount : Nat
  inhibit : Bool
deriving DecidableEq, Repr, Inhabited

/-- The ash log (R468–R484). Its counters and settings are the dictionary entries 0x3A00–0x3AFF. -/
structure Ash where
  log : List AshEntry
  nextSeq : Nat
  /-- Tokens in each class's bucket (unlisted: full, R472). -/
  tokens : SMap Nat
  /-- Refused since the last admitted entry of the class. -/
  refusedSince : SMap Nat
  interval : SMap AshInterval
  fok : List AshEntry
  fokFull : Bool
  /-- SEQs queued for the export paths 0, 1 and 2. -/
  back0 : List Nat
  back1 : List Nat
  back2 : List Nat
  /-- The datagram count of pushes (R480). -/
  pushSeq : Nat
  alarms : SMap Alarm
deriving DecidableEq, Repr, Inhabited

/-- The peat recorder (R486–R496) beside its entries 0x3B00–0x3B10. -/
structure Peat where
  /-- Offset in the region of the next record (from 4,096 on). -/
  writeOff : Nat
  wraps : Nat
  /-- Checkpoints in the region: offset and number, oldest first. -/
  checkpoints : List (Nat × Nat)
  nextCheckpoint : Nat
  /-- Bytes still to record after a trigger, once one has come. -/
  postLeft : Option Nat
  triggerSeq : Nat
  /-- Instructions retired by the recorded harts since their last START (thread number, or 256 for the hearth). -/
  icount : SMap Nat
  /-- A trigger or freeze has happened since the recorder was last started. -/
  triggered : Bool
  /-- The device has handed its harts to the replayer (R494). -/
  replay : Bool
  /-- The replayer reported REPLAY_DIVERGED: hart and ICOUNT. -/
  diverged : Option (Nat × Nat)
  /-- The replayer's harts are halted. -/
  replayHalted : Bool
  /-- The replay position of each hart: offset of its next record. -/
  replayPos : SMap Nat
deriving DecidableEq, Repr, Inhabited

/-- The entries of the dictionary that hold a value other than their default, keyed index × 256 + sub-index. -/
abbrev DictStore := SMap DVal

end Sys2Proof.Machine
end

