-- ==== Sys2Proof/Machine/StCipher.lean ====
section
/-! DEFINITION. The state of the cipher engines, the key store with its vault, and the check units (Chapter 11). -/

namespace Sys2Proof.Machine

/-- One key slot that is not EMPTY (R320, Table 11-11). It is SPENT when COUNT has reached LIMIT. -/
structure KeySlot where
  /-- Waiting for the key vault after a start. -/
  restoring : Bool
  type : Nat
  mode : Nat
  usage : Nat
  key : Bytes
  count : Nat
  limit : Nat
  /-- STREAM_ID of its first kiln segment, 0 for none (R292). -/
  stream : Nat
  /-- COUNT has reached 90 % of LIMIT and event 226 has fired. -/
  warned : Bool
  /-- The lease of its vault entry (R331). -/
  lease : Nat
deriving DecidableEq, Repr, Inhabited

/-- A write of the key vault under way or waiting (R331): its slot, the entry it writes (none: removed), whether the other
copy has been tried. -/
structure VaultWrite where
  slot : Nat
  entry : Option KeySlot
  retried : Bool
  /-- The key command that waits for it. -/
  cmd : Option (Nat × Nat × Nat)
  /-- The lease of a slot in use. -/
  lease : Option Nat
deriving DecidableEq, Repr, Inhabited

/-- A key command that has acted and waits to complete (R325, R327, R331): function, SQ, tag; the jobs that started before
it on its slot; whether a vault write is still to end; its status and RESULT0. -/
structure KeyWait where
  fn : Nat
  queue : Nat
  tag : Nat
  jobs : List (Nat × Nat × Nat)
  vault : Bool
  status : Status
  r0 : Nat
deriving DecidableEq, Repr, Inhabited

/-- One tracked read of a cipher job: which buffer (0 SRC, 1 DST, 2 AAD), whether it reads the buffer's list, the host
address and length, what it returned. -/
structure Fetch where
  buf : Nat
  isList : Bool
  addr : Nat
  len : Nat
  issued : Bool
  data : Option Bytes
deriving DecidableEq, Repr, Inhabited

/-- A cipher job from its checks to its end. -/
structure CJob where
  fn : Nat
  queue : Nat
  tag : Nat
  /-- The engine it names; none for ENGINE 31. -/
  named : Option Nat
  /-- The engine it runs on. -/
  on : Option Nat
  slot : Nat
  /-- The engine's copy of the key, and its KEY_TYPE. -/
  key : Bytes
  type : Nat
  /-- 0 reading lists, 1 reading data. -/
  phase : Nat
  reads : List Fetch
deriving DecidableEq, Repr, Inhabited

/-- A check job (R332–R335): the running value, the bytes done, what a verification has found. -/
structure KJob where
  fn : Nat
  queue : Nat
  tag : Nat
  unit : Option Nat
  value : Nat
  done : Nat
  fails : Nat
  firstFail : Option Nat
deriving DecidableEq, Repr, Inhabited

/-- The cipher and check blocks. -/
structure Cipher where
  /-- LOCK owners: engine to instance. -/
  locks : SMap Nat
  jobs : List CJob
  /-- The instance served last with ENGINE 31 (R314). -/
  turn : Nat
  keys : SMap KeySlot
  keyWaits : List KeyWait
  /-- The vault as the NOR holds it: slot to entry; copy last written (0 A, 1 B) and its sequence. -/
  vault : SMap KeySlot
  copy : Nat
  vaultSeq : Nat
  writes : List VaultWrite
  /-- The restore of this start is still to run. -/
  restore : Bool
  checks : List KJob
  checkTurn : Nat
deriving DecidableEq, Repr, Inhabited

/-- The cipher and check blocks at reset; the vault is empty on a new part. -/
def Cipher.reset : Cipher := ⟨[], [], 63, [], [], [], 1, 0, [], false, [], 63⟩

end Sys2Proof.Machine
end

