-- ==== Sys2Proof/Machine/StDamper.lean ====
section
/-! DEFINITION. The damper's state beside its entries 0x2100–0x217F (Chapter 5). -/

namespace Sys2Proof.Machine

/-- An instance's cap (R128): its draw over each of the last 100 ticks, whether its cap acts, whether its draw is below
90 % of the cap. -/
structure CapState where
  window : List Nat
  acting : Bool
  below : Bool
deriving DecidableEq, Repr, Inhabited

/-- The damper (R117–R139). Energies of the bucket are in units of 0.01 µJ, so that a limit of 1 mW adds 1 each tick. -/
structure Damper where
  level : Int
  /-- B of the last tick, mW. -/
  budget : Nat
  /-- The net of the last tick was negative. -/
  negative : Bool
  /-- Ticks since the step last engaged was engaged (R131). -/
  since : Nat
  /-- The level has stayed at or above 75 % since the hold began (R131). -/
  holding : Bool
  /-- The supply limit is in force (R120). -/
  supplyLow : Bool
  overSoft : Bool
  over125 : Bool
  breachRun : Bool
  /-- EVIDENCE and BASE energy of the last 100 ticks, newest first. -/
  evidence : List Nat
  base : List Nat
  caps : SMap CapState
  /-- Domain meters that give no sample (Table 5-7). -/
  lost : SMap Unit
  /-- The µJ and sealed bytes at the start of the running second, and its ticks. -/
  fomTicks : Nat
  fomSealed : Nat
  fomKiln : Nat
  /-- Energy since the ignition-off is being counted, and its allowance was reported (R139). -/
  ignCounting : Bool
  ignReached : Bool
  /-- Shed ports whose partner was found (R130). -/
  partner : SMap Unit
deriving DecidableEq, Repr, Inhabited

end Sys2Proof.Machine
end

