-- ==== Sys2Proof/Machine/StDebug.lean ====
section
/-! DEFINITION. The state of the JTAG debug module (R514–R516) and of the dictionary service (Chapter 2): open shadows, sessions,
transfers, and the requests that wait. -/

namespace Sys2Proof.Machine

/-- The debug module (R515): the registers of the RISC-V External Debug Support specification 0.13.2 that the manual names by
it, and DMI 0x72. -/
structure Dbg where
  /-- dmcontrol.dmactive. -/
  active : Bool
  hartsel : Nat
  data0 : Nat
  data1 : Nat
  cmderr : Nat
  /-- Harts whose last resume request was acknowledged. -/
  resumeAck : SMap Unit
  /-- Harts with dcsr.step set. -/
  step : SMap Unit
  /-- The hearth core is held halted (R516). -/
  hearthHalted : Bool
  /-- The domain number last written to DMI 0x72. -/
  vote : Nat
  /-- Ash log entries that the firmware owes while the hearth is held (R516), in order. -/
  owed : List AshEntry
deriving DecidableEq, Repr, Inhabited

/-- The operations of Table 2-3; other codes are unknown. -/
inductive DictOp where
  | read | write | info | next | readShadow | unknown
deriving DecidableEq, Repr, Inhabited

/-- How an answer travels beside its requester: as the path's plain answer, not at all (R40), as an Onsia answer that echoes a request's OP, SEQ,
FLAGS and OFFSET, or as the end of a USDO transfer of the port. -/
inductive Route where
  | plain
  | discard
  | onsia (op seq flags offset : Nat)
  | usdo (upload : Bool)
deriving DecidableEq, Repr, Inhabited

/-- A dictionary request (R36). -/
structure DictReq where
  who : Requester
  op : DictOp
  index : Nat
  sub : Nat
  data : Bytes
  route : Route
deriving DecidableEq, Repr, Inhabited

/-- The open shadow of a commit group (R52, R53): its holder, whether a commit was refused, the values by entry. -/
structure Shadow where
  holder : Requester
  refused : Bool
  vals : SMap DVal
deriving DecidableEq, Repr, Inhabited

/-- One Onsia session (R45, R46): the triple, the last SEQ and its kept answer, the partial value of a WRITE with the next offset's
entry, the copy that READs are served from. -/
structure OnsiaSession where
  addr : Nat
  port : Nat
  session : Nat
  seq : Option Nat
  answer : Bytes
  part : Option (Nat × Nat × Bytes)
  copy : Option (Nat × Nat × Bytes)
deriving DecidableEq, Repr, Inhabited

/-- A segmented USDO transfer of a CAN port (R41): upload or download, the entry, the size announced, the bytes (those taken in, or
those still to send), the toggle bit expected. -/
structure UsdoTransfer where
  upload : Bool
  index : Nat
  sub : Nat
  size : Nat
  data : Bytes
  toggle : Bool
deriving DecidableEq, Repr, Inhabited

/-- The dictionary service. Commit groups are keyed by number: 1–47, and 0x100 + n for the block of instance n. -/
structure Svc where
  /-- Requests that wait: for a transition to end (R36, R97), for a commit's apply (R35), for the hearth (R516). -/
  held : List DictReq
  /-- A commit that passed its check and waits for its apply point, with the request that it answers (R54). -/
  commit : Option (Nat × DictReq)
  shadows : SMap Shadow
  sessions : List OnsiaSession
  transfers : SMap UsdoTransfer
deriving DecidableEq, Repr, Inhabited

/-- The debug module at reset. -/
def Dbg.reset : Dbg := ⟨false, 0, 0, 0, 0, [], [], false, 0, []⟩

/-- The service at reset. -/
def Svc.reset : Svc := ⟨[], none, [], [], []⟩

end Sys2Proof.Machine
end

