-- ==== Sys2Proof/Machine/StFlow.lean ====
section
/-! DEFINITION. The state of the flow cores (Chapter 14): cores with their instruction memories, threads with their slices and
receive queues, thread groups, channels. -/

namespace Sys2Proof.Machine

/-- What a thread is doing (Table 14-12, THREAD_STATE), a halt apart. -/
inductive ThreadRun where
  | parked | running | waiting | faulted | spare | off
deriving DecidableEq, Repr, Inhabited

/-- A frame in a receive queue (R429): the steering entry it came by, the ingress port as numbered, the instance whose VP or
threads sent it, its stamp. -/
structure RxFrame where
  hash : Nat
  port : Nat
  sender : Option Nat
  stamp : Nat
  data : Bytes
deriving DecidableEq, Repr, Inhabited

/-- A thread DMA in flight (R431): tag, LPDDR5 address, slice offset, length, out of the slice. -/
structure ThreadDma where
  tag : Nat
  addr : Nat
  slice : Nat
  len : Nat
  outward : Bool
deriving DecidableEq, Repr, Inhabited

/-- One hardware thread (R411–R417). -/
structure Thread where
  run : ThreadRun
  halted : Bool
  pc : Nat
  /-- x1–x31; an unlisted register is zero. -/
  regs : SMap Nat
  tcause : Nat
  dmadone : Nat
  share : Bool
  /-- The FCLK time in ns at which the armed timer expires. -/
  timer : Option Nat
  /-- The FCLK time in ns at which its watchdog last restarted (Table 14-7, cause 8). -/
  petAt : Nat
  /-- Sticky sources: RXDONE, DMA, TIMER. -/
  rxdone : Bool
  dmaPend : Bool
  timerPend : Bool
  /-- The tr.wait in hand: its mask and rd. -/
  wait : Option (Nat × Nat)
  /-- The tr.txf that waits for buffer space: rd, DIRECT, frame. -/
  txf : Option (Nat × Bool × Bytes)
  /-- The receive copy in flight: slice offset and bytes. -/
  copy : Option (Nat × Bytes)
  dmas : List ThreadDma
  instret : Nat
  rxq : List RxFrame
  faultCause : Nat
  /-- Elapsed times of its faults in the last second. -/
  faults : List Nat
  /-- A fault waits for its handling. -/
  handling : Bool
  slice : SMap Byte
deriving DecidableEq, Repr, Inhabited

/-- One channel (R432–R436): committed messages with their writers, oldest first; the claimant (256 the hearth firmware); the
staged words. -/
structure Channel where
  msgs : List (Nat × List Nat)
  claimant : Option Nat
  staged : List Nat
deriving DecidableEq, Repr, Inhabited

/-- What follows a group stop (R419, R420, R437): nothing, or a start with a tcause. -/
inductive AfterStop where
  | stay
  | start (tcause : Nat)
deriving DecidableEq, Repr, Inhabited

/-- One thread group (R417–R421): its parameters and what it does. -/
structure Group where
  /-- 0 UNUSED, 1 STOPPED, 2 RUNNING, 3 STOPPING. -/
  st : Nat
  inst : Nat
  core : Nat
  threads : Nat
  spares : Nat
  entry : Nat
  weights : Bytes
  queueKib : Nat
  standby : Nat
  watchdog : Nat
  stallAction : Nat
  faultLimit : Nat
  /-- Entry k names a thread of the core; empty when no active thread remains. -/
  steering : List Nat
  /-- Threads (of the core) that are active: THREADS less the faulted ones for good, and the spares that took over, each with
  the weight it has. -/
  active : List (Nat × Nat)
  /-- Its steering has passed to its standby (R442). -/
  toStandby : Bool
  after : AfterStop
  /-- The stall detector has raised event 512 since the last start. -/
  stalled : Bool
  /-- RUNNING when its instance was quiesced (R420), or when its core failed (R442). -/
  resume : Bool
  rxDrops : Nat
  stalls : Nat
  faultCount : Nat
deriving DecidableEq, Repr, Inhabited

/-- One core: CORE_STATE (0 off, 1 running, 2 reloading, 3 failed), its instruction memory. -/
structure FlowCore where
  st : Nat
  imem : SMap Byte
deriving DecidableEq, Repr, Inhabited

/-- The flow cores. -/
structure Flow where
  cores : SMap FlowCore
  threads : SMap Thread
  groups : SMap Group
  channels : SMap Channel
  /-- FCLK time in ns: it stops with FCLK. -/
  fclkNs : Nat
deriving DecidableEq, Repr, Inhabited

/-- A thread of a core that has never run. -/
def Thread.reset : Thread :=
  ⟨.off, false, 0, [], 0, 0, false, none, 0, false, false, false, none, none, none, [], 0, [], 0, [], false, []⟩

/-- An UNUSED group, its parameters at their defaults (Table 14-12). -/
def Group.reset : Group :=
  ⟨0, 0, 0, 0, 0, 0, List.replicate 8 1, 64, 0xFFFF, 0, 1, 4, [], [], false, .stay, false, false, 0, 0, 0⟩

/-- An empty channel. -/
def Channel.reset : Channel := ⟨[], none, []⟩

/-- A core before the kindling loads it. -/
def FlowCore.reset : FlowCore := ⟨0, []⟩

/-- The flow cores at reset. -/
def Flow.reset : Flow := ⟨[], [], [], [], 0⟩

end Sys2Proof.Machine
end

