-- ==== Sys2Proof/Machine/StHost.lean ====
section
/-! DEFINITION. The state of the PCI Express endpoint and of the work queues (Chapters 6 and 7): per function its
configuration fields, vectors, tags, mailbox and admin registers; per queue its ring; the commands fetched and not
ended. -/

namespace Sys2Proof.Machine

/-- What a tracked read serves. -/
inductive TagOwner where
  /-- A command of an SQ: queue, tag, which piece of its buffers. -/
  | command (queue tag piece : Nat)
  /-- A fetch of submission entries of an SQ. -/
  | fetch (queue : Nat)
  /-- Nothing any more: the data will be discarded. -/
  | nobody
deriving DecidableEq, Repr, Inhabited

/-- A non-posted request of a function under a tag (R162, R164–R168). -/
structure TagRec where
  owner : TagOwner
  /-- In quarantine (R166). -/
  quarantined : Bool
  /-- Its timeout was reported. -/
  timedOut : Bool
deriving DecidableEq, Repr, Inhabited

/-- The dictionary mailbox of a function (Tables 2-4 to 2-8). -/
structure Mailbox where
  cmd : Nat
  len : Nat
  done : Bool
  busy : Bool
  code : Nat
  rlen : Nat
  irq : Nat
  data : Mem
deriving DecidableEq, Repr, Inhabited

/-- The TQ_ registers of a function (Tables 7-8 to 7-13). -/
structure TqRegs where
  asqb : Nat
  acqb : Nat
  aqs : Nat
  airq : Nat
  arest : Nat
  lastErr : Nat
  aerr : Bytes
  /-- ENABLE = 0 was written and commands are still in flight (R201). -/
  disabling : Bool
deriving DecidableEq, Repr, Inhabited

/-- One PCI Express function: PF0 or VF n. -/
structure Fn where
  bme : Bool
  msiEn : Bool
  msixEn : Bool
  /-- The other configuration fields, by CfgField.key; an unlisted field holds its reset value. -/
  cfg : SMap Nat
  /-- MSI-X table DWORDs by index; unlisted: zero, with the Mask bit of Vector Control set. -/
  msix : SMap Nat
  /-- Vectors pending. -/
  pend : SMap Unit
  epstat : Nat
  /-- ACCESS_HELD of HST_STATUS: the function may not master and completions are held (R171). -/
  accessHeld : Bool
  /-- HOLD of HST_STATUS: the instance is held after a loss of the link (R176). -/
  hold : Bool
  /-- An FLR quiesce is under way, with its cause (Table 8-9 LAST_FENCE_CAUSE). -/
  flr : Option Nat
  tags : SMap TagRec
  box : Mailbox
  tq : TqRegs
  errlog : List Bytes
  errSeq : Nat
deriving DecidableEq, Repr, Inhabited

/-- The link's power state (R157): its states that the device chooses between. -/
inductive Aspm where
  | l0 | l0s | l1 | l11 | l12
deriving DecidableEq, Repr, Inhabited

/-- The host link and what PF0 holds for all functions. -/
structure HostLink where
  up : Bool
  width : Nat
  speed : Nat
  aspm : Aspm
  /-- Elapsed time at the entry to L1, for L1_RESIDENCY. -/
  l1Since : Nat
  d3hot : Bool
  vfEnable : Bool
  /-- NumVFs at the loss of the link, for R177. -/
  prevVfs : Nat
  /-- An LTR message with both requirement bits clear was sent, and none since. -/
  ltrClear : Bool
deriving DecidableEq, Repr, Inhabited

/-- A submission queue (R182–R195); queue 0 of a function is its admin SQ. -/
structure Sq where
  base : Nat
  depth : Nat
  weight : Nat
  /-- 0 general, 1 evidence. -/
  cls : Nat
  cqid : Nat
  inflight : Nat
  head : Nat
  phase : Bool
  /-- The last valid tail, and the last doorbell value written. -/
  tail : Nat
  bell : Nat
  frozen : Bool
  /-- The tag of the DELETE_SQ that waits for it, and the units it discarded. -/
  deleting : Option (Nat × Nat)
  /-- A fetch read is outstanding under this tag. -/
  fetchTag : Option Nat
  /-- Commands fetched in the running round of the weighted round robin (R211). -/
  served : Nat
deriving DecidableEq, Repr, Inhabited

/-- A completion not yet written: its SQ (0xFFFF for an entry without a submission), its fields, whether it is
signalled at once, and the engine or check unit that holds it beyond the reserve share (R215). -/
structure Pend where
  sq : Nat
  tag : Nat
  status : Nat
  r0 : Nat
  r1 : Nat
  imm : Bool
  holder : Option Nat
  /-- SQ_HEAD of an entry without a submission whose chapter gives it. -/
  head : Option Nat := none
deriving DecidableEq, Repr, Inhabited

/-- A completion queue (R182–R217); queue 0 of a function is its admin CQ. -/
structure Cq where
  base : Nat
  depth : Nat
  irqEn : Bool
  vector : Nat
  aggCount : Nat
  aggTime : Nat
  reserve : Nat
  tail : Nat
  phase : Bool
  /-- The host's last valid head, and the last doorbell value written. -/
  head : Nat
  bell : Nat
  frozen : Bool
  stalled : Bool
  /-- The reserve share, then the results that commands hold beyond it, in the order in which they ended. -/
  share : List Pend
  held : List Pend
  /-- Entries written and not signalled. -/
  unsignalled : Nat
deriving DecidableEq, Repr, Inhabited

/-- A command fetched and not ended: its function, SQ, tag and entry; started says that its row has run. -/
structure Ctx where
  fn : Nat
  queue : Nat
  tag : Nat
  entry : Bytes
  started : Bool
deriving DecidableEq, Repr, Inhabited

/-- The work queues. Keys of queues are function × 65,536 + queue ID. -/
structure Queues where
  sqs : SMap Sq
  cqs : SMap Cq
  /-- Commands in flight, in the order of their fetch. -/
  ctxs : List Ctx
  /-- The function served last (R211). -/
  turn : Nat
  /-- The reserve pool stands below 10 % (event 43 was raised for it). -/
  low : Bool
deriving DecidableEq, Repr, Inhabited

/-- A mailbox at reset. -/
def Mailbox.reset : Mailbox := ⟨0, 0, false, false, 0, 0, 0, []⟩

/-- TQ_ registers at reset. -/
def TqRegs.reset : TqRegs := ⟨0, 0, 0, 0, 0, 0, zeros 64, false⟩

/-- A function at reset. -/
def Fn.reset : Fn :=
  ⟨false, false, false, [], [], [], 0, false, false, none, [], Mailbox.reset, TqRegs.reset, [], 0⟩

/-- The link before it trains. -/
def HostLink.reset : HostLink := ⟨false, 0, 0, .l0, 0, false, false, 0, false⟩

/-- No queue. -/
def Queues.reset : Queues := ⟨[], [], [], 63, false⟩

end Sys2Proof.Machine
end

