-- ==== Sys2Proof/Machine/StKiln.lean ====
section
/-! DEFINITION. The state of the kiln path (Chapter 10): streams with their ingress queues and segments, the index binding,
the power-fail sequence. -/

namespace Sys2Proof.Machine

/-- The states of a stream (Table 10-2). -/
inductive StreamState where
  | unused | closed | opened | paused | closing
deriving DecidableEq, Repr, Inhabited

/-- The value of a stream state (Table 10-2). -/
def StreamState.num : StreamState → Nat
  | .unused => 0 | .closed => 1 | .opened => 2 | .paused => 3 | .closing => 4

/-- A frame in a stream's ingress queue: the whole frame without FCS, its port, SOURCE and ingress timestamp. -/
structure QFrame where
  port : Nat
  source : Nat
  stamp : Nat
  data : Bytes
deriving DecidableEq, Repr, Inhabited

/-- A segment that is open or not yet committed (R287–R300). -/
structure Segment where
  seq : Nat
  pos : Nat
  openTime : Nat
  slot : Nat
  keyUse : Nat
  /-- The seal engine's copy of the key. -/
  key : Bytes
  rolled : Bool
  sync : Bool
  first : Bool
  prevTag : Bytes
  /-- The records so far. -/
  payload : Bytes
  records : Nat
  /-- FRAMES_DROPPED at the open, and the drops while open once closed. -/
  dropBase : Nat
  dropped : Nat
  /-- CLOSE_REASON once closed (Table 10-8). -/
  reason : Option Nat
  closeTime : Nat
  tag : Bytes
  /-- Blocks issued, header included; the trailer issued. -/
  issued : Nat
  trailer : Bool
  /-- Blocks whose write has ended. -/
  freed : Nat
  /-- A write of it failed: it will not be committed. -/
  failed : Bool
  /-- Closed by the power-fail sequence that runs. -/
  pf : Bool
deriving DecidableEq, Repr, Inhabited

/-- One stream (R278–R302). -/
structure Stream where
  st : StreamState
  cause : Nat
  /-- The stream record in force (Table 10-3). -/
  record : Bytes
  /-- The place of the key in use within the record's list; none before the first segment of an open. -/
  cur : Option Nat
  engine : Option Nat
  nextSeq : Nat
  lease : Nat
  /-- A lease write is under way, with the lease it writes. -/
  leaseWrite : Option Nat
  /-- The tag of the KILN_STREAM_OPEN or KILN_STREAM_CLOSE in hand. -/
  openTag : Option Nat
  closeTag : Option Nat
  queue : List QFrame
  /-- Frames dropped since the previous record; the next record carries GAP. -/
  gap : Nat
  /-- The physical ports that have delivered a frame to it since it was OPEN (R134). -/
  ports : List Nat
  gapNext : Bool
  /-- The open segment last, before it those not yet committed, oldest first. -/
  segs : List Segment
  first : Bool
  lastTag : Bytes
  lastCommitted : Nat
  /-- INDEX_BINDING: 0 none, 1 bound, 2 void; the CQ bound. -/
  bind : Nat
  bindFn : Nat
  bindCq : Nat
  /-- The first sequence not notified, while INDEX_UNPOSTED is not zero. -/
  unpostedFirst : Nat
  /-- A pause record not yet posted, with its status. -/
  pauseNote : Option Nat
deriving DecidableEq, Repr, Inhabited

/-- The kiln path. -/
structure Kiln where
  streams : SMap Stream
  /-- The power-fail sequence runs: elapsed time of its step 1, segments closed by it. -/
  pf : Option (Nat × Nat)
  /-- Namespaces whose power-fail Flush has not completed; flushes have been sent. -/
  pfFlush : List Nat
  pfFlushed : Bool
  /-- The bound of 1.5 ms has been reported. -/
  pfBound : Bool
  /-- PFAIL is asserted. -/
  pfail : Bool
  /-- The stops of step 1 of Table 10-11 hold. -/
  stopped : Bool
  /-- Namespaces bound when the sequence began. -/
  pfNs : List Nat
  /-- No free staging block is left (event 165 was raised); ports above 1,024 unwritten blocks (event 166). -/
  full : Bool
  past : SMap Unit
deriving DecidableEq, Repr, Inhabited

/-- A stream never created. -/
def Stream.none_ : Stream :=
  ⟨.unused, 0, zeros 64, none, none, 0, 0, none, none, none, [], 0, [], false, [], false, zeros 16, 0, 0, 0, 0, 0, none⟩

/-- The kiln path at reset. -/
def Kiln.reset : Kiln := ⟨[], none, [], false, false, false, false, [], false, []⟩

end Sys2Proof.Machine
end

