-- ==== Sys2Proof/Machine/StPipe.lean ====
section
/-! DEFINITION. The state of the packet pipeline (Chapters 12 and 13): the exact-match table with its handles and learning
FIFO, virtual ports, egress queues with shapers and gates, meters, the Zelud rings, the PTP instance. -/

namespace Sys2Proof.Machine

/-- A learning request in the FIFO (R356, R358): key, destination kind and number. -/
structure LearnReq where
  key : Bytes
  kind : Nat
  dest : Nat
deriving DecidableEq, Repr, Inhabited

/-- A handle of TBL_LOCK (R362–R364): its instance, its two buckets, the staged ops (kind and entry) in order. -/
structure TblHandle where
  owner : Nat
  h0 : Nat
  h1 : Nat
  ops : List (Nat × Bytes)
deriving DecidableEq, Repr, Inhabited

/-- A table command that waits at a locked bucket (R354, R362), with the bytes it took in. -/
structure TblWait where
  fn : Nat
  queue : Nat
  tag : Nat
  data : Bytes
  lists : List Bytes
deriving DecidableEq, Repr, Inhabited

/-- The exact-match table: entries of 64 bytes by entry index (R351–R364). -/
structure FwdTable where
  entries : SMap Bytes
  /-- Round-robin pointers of the buckets (R354). -/
  rr : SMap Nat
  fifo : List LearnReq
  handles : SMap TblHandle
  waits : List TblWait
  /-- Locked buckets that the running sweep has still to visit (R362). -/
  sweepDue : SMap Unit
  /-- The stash holds 48 entries or more. -/
  stash48 : Bool
  /-- Learning stopped at the quota; event 313 has fired. -/
  learnStop : Bool
deriving DecidableEq, Repr, Inhabited

/-- VPn's receive binding (R367): the CQ, the segments of the buffer area as (device memory, address, length), buffer count
and size in bytes, the next buffer to fill and how many are free. -/
structure VpBind where
  cqid : Nat
  area : List (Bool × Nat × Nat)
  count : Nat
  size : Nat
  next : Nat
  free : Nat
deriving DecidableEq, Repr, Inhabited

/-- A VP_SEND that waits for its shaper or for buffer space (R366, R406); counted as a shaped wait. -/
structure VpSend where
  fn : Nat
  queue : Nat
  tag : Nat
  frame : Bytes
  counted : Bool
deriving DecidableEq, Repr, Inhabited

/-- What travels on the control lane (R392): a Zelud control frame, or a PTP message of a type of the standard. -/
inductive CtlFrame where
  | frame (data : Bytes)
  | ptp (type : Nat)
deriving DecidableEq, Repr, Inhabited

/-- One physical port's egress: link, queues, the frame on the wire, shapers and the gate list's progress. -/
structure EgPort where
  up : Bool
  queues : SMap (List Bytes)
  control : List CtlFrame
  /-- The transmitter is sending. -/
  busy : Bool
  /-- Bucket levels of queues 0–7 and of the port (8), in bytes × 256,000,000; an unlisted bucket is full. -/
  level : SMap Nat
  /-- Deficits of the queues, the queue visited last, and whether its quantum of this visit was added. -/
  deficit : SMap Nat
  visit : Nat
  visiting : Bool
  /-- The pending admin list waits for CHANGE_TIME: its base, cycle, count and bytes. -/
  pendingList : Option (Nat × Nat × Nat × Bytes)
  /-- The domain time at which the entry in force began and at which it ends; the last entry's states hold beyond its
  interval. -/
  gateStart : Nat
  gateEnd : Nat
  holding : Bool
  /-- Domain time has stepped: the next cycle realigns (R399). -/
  realign : Bool
deriving DecidableEq, Repr, Inhabited

/-- One meter (R403): its parameters, its buckets in bytes × 8,000,000 with the time of their last fill, its counters. -/
structure Meter where
  mode : Nat
  colour : Nat
  cir : Nat
  cbs : Nat
  eir : Nat
  ebs : Nat
  actions : Nat
  tc : Nat
  te : Nat
  filled : Nat
  green : Nat
  yellow : Nat
  red : Nat
  redDropped : Nat
deriving DecidableEq, Repr, Inhabited

/-- A ring member by its last TOPOLOGY (R371, R372). -/
structure Member where
  serial : Nat
  /-- 63 less RING_HOPS on arrival: it lies that and one more hops to the west. -/
  dist : Nat
  delay : Nat
  rate : Nat
  reach : List Nat
deriving DecidableEq, Repr, Inhabited

/-- A ring port: failed (R375), kept out for a foreign domain (R379), HELLOs since the failure in each direction, the last
HELLO's T1 and its arrival, the link delay. -/
structure RingPort where
  failed : Bool
  foreign : Bool
  heard : Bool
  echoed : Bool
  lastT1 : Nat
  lastAt : Nat
  delay : Nat
deriving DecidableEq, Repr, Inhabited

/-- A Zelud ring (R369–R380). -/
structure ZRing where
  /-- The device is a member of it: its ports run. -/
  on : Bool
  east : Nat
  west : Nat
  eastPort : RingPort
  westPort : RingPort
  members : SMap Member
  /-- The number of members once the own TOPOLOGY has returned. -/
  closed : Option Nat
  /-- The loop bound has been computed: BOUNDED or OVERLONG. -/
  bounded : Bool
  past : Bool
  /-- Known faults of other members: device and side (0 east, 1 west). -/
  faults : List (Nat × Nat)
  /-- Another device carries this device's ID. -/
  blocked : Bool
  /-- LEAVE has been sent; the ring ports stop 20 µs later, for good or until the return from Banked. -/
  leaving : Bool
  removed : Bool
  stopped : Bool
  /-- Devices whose direction has changed, while the steering hold runs, and the frames held for them: device, class,
  frame without its Zelud tag. -/
  holdFor : List Nat
  held : List (Nat × Nat × Bytes)
deriving DecidableEq, Repr, Inhabited

/-- The pipeline's state. -/
structure Pipe where
  table : FwdTable
  binds : SMap VpBind
  sends : List VpSend
  /-- Levels of the VP transmit shapers, in the units of EgPort.level. -/
  vpLevel : SMap Nat
  ports : SMap EgPort
  meters : SMap Meter
  rings : SMap ZRing
  /-- The second in which frames to the hearth core are counted, and their number (R350). -/
  hearthAt : Nat
  hearthFrames : Nat
  /-- A value written to TIME_SET that waits for an edge. -/
  timeSet : Option Nat
  ppsOut : Bool
deriving DecidableEq, Repr, Inhabited

/-- An empty table. -/
def FwdTable.reset : FwdTable := ⟨[], [], [], [], [], [], false, false⟩

/-- A port at reset. -/
def EgPort.reset : EgPort := ⟨false, [], [], false, [], [], 7, false, none, 0, 0, false, false⟩

/-- A meter at its default. -/
def Meter.reset : Meter := ⟨0, 0, 0, 0, 0, 0, 0, 0, 0, 0, 0, 0, 0, 0⟩

/-- A ring port that has carried nothing. -/
def RingPort.reset : RingPort := ⟨false, false, false, false, 0, 0, 0⟩

/-- A ring of which the device is no member. -/
def ZRing.reset : ZRing :=
  ⟨false, 0, 0, RingPort.reset, RingPort.reset, [], none, false, false, [], false, false, false, false, [], []⟩

/-- The pipeline at reset. -/
def Pipe.reset : Pipe := ⟨FwdTable.reset, [], [], [], [], [], [], 0, 0, none, false⟩

end Sys2Proof.Machine
end

