-- ==== Sys2Proof/Machine/StPower.lean ====
section
/-! DEFINITION. The state of start-up and of the power states (Chapters 3, 4 and 17): boot registers, the seal store,
the bundle being started, supplies and resets, transitions, domains, wakes, the Tinder port. -/

namespace Sys2Proof.Machine

/-- The seal store's changeable contents (Table 3-14). -/
structure Seal where
  hashes : SMap Bytes
  revoked : Nat
  minVersion : Nat
  lifecycle : Nat
deriving DecidableEq, Repr, Inhabited

/-- A staging copy of a FLOW_IMAGE or FLOW_DATA section (R75). -/
structure FlowSection where
  isData : Bool
  mask : Nat
  dest : Nat
  hash : Bytes
  data : Bytes
deriving DecidableEq, Repr, Inhabited

/-- What the ROM and the kindling keep of the bundle they are starting (R76–R82). -/
structure BundleInfo where
  sealArm : Bool
  securityVersion : Nat
  slot : Nat
  version : Bytes
  manifestHash : Bytes
  sealCmd : Option Bytes
  emberFw : Option Bytes
  emberHash : Bytes
deriving DecidableEq, Repr, Inhabited

/-- Boot registers and memories the start fills (Tables 3-3 to 3-9, R67, R75). -/
structure Boot where
  phase : Nat
  attempts : Nat
  detail : Nat
  code : Nat
  bootLen : Nat
  /-- BOOT_SEAL as read at step 3 of Table 3-2. -/
  sealWord : Nat
  /-- The seal store read back consistent at step 3. -/
  sealOk : Bool
  cause : Nat
  wakeSrc : Nat
  wakePins : Nat
  ready : Bool
  /-- The packet buffer array behind BAR2 (16 MiB). -/
  window : Mem
  windowOpen : Bool
  goAt : Nat
  bundle : Option BundleInfo
  flowStage : List FlowSection
  pipeInit : Bytes
  sram : Mem
  /-- Bytes of the EMBER_FW section still to write after READY. -/
  emberFw : Option Bytes
deriving DecidableEq, Repr, Inhabited

/-- The device's power condition: before AO power-on, between a reset and READY (or with the core supplies coming),
and the four states of Table 4-1. -/
inductive Pw where
  | off | starting | blaze | glow | banked | ember
deriving DecidableEq, Repr, Inhabited

/-- One power domain: its DOMAIN_STATE (0 off, 1 powering up, 2 on, 3 in hysteresis, 4 powering down), the hysteresis
latched when its last vote went (R100), and whether its last power-up failed with the vote still standing. -/
structure Dom where
  st : Nat
  hyst : Nat
  failed : Bool
deriving DecidableEq, Repr, Inhabited

/-- Power states, supplies, wakes and the ember controller. -/
structure Power where
  st : Pw
  /-- TRANSITION: 0 none, 1 to Banked, 2 to Ember, 3 to Blaze. -/
  trans : Nat
  /-- Within a transition: 1 draining, 2 SSD shutdown, 3 MAIN_EN low, 4 MAIN_PG low and its 10 ms running. -/
  stage : Nat
  /-- The first 1 ms of the drain, in which egress queues still transmit (Table 4-6). -/
  egressDraining : Bool
  /-- The ports whose SSD has not reported shutdown complete. -/
  ssdWait : List Nat
  domains : SMap Dom
  mainEn : Bool
  mainPg : Bool
  /-- PERST_N is low. -/
  perst : Bool
  mainTries : Nat
  mainRetry : Bool
  /-- HOST_WAKE_N is driven low. -/
  hostWake : Bool
  straps : Nat
  testMode : Bool
  /-- SLOWCLK has run 1,024 cycles; until then ticks come from AO RC. -/
  slowOk : Bool
  /-- The internal main reset is asserted. -/
  mainReset : Bool
  /-- The cause that the next release of the main reset reports. -/
  nextCause : Nat
  /-- A wake latched from the end of step 1 of Table 4-8 on, kept until it is answered (R107). -/
  wakeKept : Bool
  emberRun : Bool
  emberBusy : Bool
  /-- The running slot (0xFF none) and the sequences found, as 0x2203:01–03 report them. -/
  emberSlot : Nat
  emberSeq0 : Nat
  emberSeq1 : Nat
  /-- Event sources of IGN and WAKE edges kept until the hearth firmware runs (R84). -/
  edgesKept : List Nat
  /-- Wakes that came during an ember start, handed over at its end (R91): source, latch bit, event. -/
  wakesLatched : List (Nat × Nat × Nat)
  ign : Bool
  ignTimer : Bool
  ignRetry : Bool
  ignWaiting : Bool
  /-- The copies of 0x2001–0x2003 that the ember controller acts on (R103). -/
  emberCopies : DictStore
  tinderPtr : Nat
  /-- A Tinder transfer that holds SCL: is it a read. -/
  tinderHeld : Option Bool
  /-- Elapsed time at which the held transfer's address matched. -/
  tinderAt : Nat
  /-- The last transfer was NACKed or answered 0xFF (R114). -/
  tinderRefused : Bool
  /-- A start held until the power-fail sequence ends: causes 1 or 5 (R506). -/
  heldStart : Option Nat
  thermalTrip : Bool
  /-- Slow count at Banked entry, and VSENSE's stay below VSENSE_EMBER. -/
  bankedSlow : Nat
  vsenseLow : Bool
  vsense : Nat
  vsenseCode : Nat
  /-- The last 16 wakes: slow count and source byte. -/
  wakeHist : List (Nat × Nat)
  lastWakeSrc : Nat
  lastWakeLatched : Nat
  lastWakeTime : Nat
  /-- WAKE0–WAKE3 levels latched at the wake. -/
  wakePins : Nat
  /-- Die sensors 1 to 8 in m°C as last read. -/
  sensors : List Int
deriving DecidableEq, Repr, Inhabited

end Sys2Proof.Machine
end

