-- ==== Sys2Proof/Machine/StStorage.lean ====
section
/-! DEFINITION. The state of the storage service (Chapter 9): ports, namespaces, jobs with their range locks, back-end
commands. -/

namespace Sys2Proof.Machine

/-- One namespace (R246, R248, R253). -/
structure Ns where
  evidence : Bool
  owner : Nat
  reader : Option Nat
  port : Nat
  size : Nat
  rp : Nat
  cp : Nat
  ap : Nat
  /-- Deleted, its back-end namespace not yet gone (R253). -/
  deleting : Bool
  /-- STREAM_ID first opened on it, 0 for none; the sequence lease (R291). -/
  streamId : Nat
  lease : Nat
  mismatches : Nat
  /-- Completed appends beyond CP: first position and count. -/
  done : List (Nat × Nat)
  /-- Positions owed a void block at the next attach (R272). -/
  owed : List (Nat × Nat)
  /-- Blocks appended since the last checkpoint (R251). -/
  unsaved : Nat
  /-- AP − RP has been above 90 % and not since below 80 % (R250). -/
  high : Bool
deriving DecidableEq, Repr, Inhabited

/-- Who a storage job serves. -/
inductive JobOwner where
  | command (fn queue tag : Nat)
  /-- A run of blocks of a kiln segment: stream, segment number in the stream, trailer or not. -/
  | kiln (stream seg : Nat) (trailer : Bool)
  /-- The storage service itself. -/
  | service
deriving DecidableEq, Repr, Inhabited

/-- A storage job in start order (R263): what it does, the range it locks, how far its back-end commands have got. -/
structure Job where
  id : Nat
  owner : JobOwner
  /-- Its opcode; 0x100 a void fill, 0x101 a kiln write, 0x102 a deletion of the service, 0x103 a power-fail flush, 0x104 a
  catalogue write, 0x105 the deallocation of a recovery. -/
  op : Nat
  ns : Nat
  port : Nat
  /-- Precedence at the root port (R266): 2 kiln, 1 evidence, 0 general. -/
  group : Nat
  first : Nat
  blocks : Nat
  /-- Blocks of one back-end command. -/
  unit : Nat
  /-- The range its lock covers: first and count. -/
  span : Nat × Nat
  /-- It takes a range lock; shared with other readers. -/
  locks : Bool
  shared : Bool
  /-- It has its lock, or needs none, and issues back-end commands. -/
  go : Bool
  /-- It has been counted as a waiter. -/
  counted : Bool
  /-- The next block to issue, and back-end commands outstanding. -/
  next : Nat
  outstanding : Nat
  fua : Bool
  data : Bytes
  lists : HostRead
  found : List (Nat × BlockRead)
  failed : Bool
  /-- Parts whose write failed, as offset and count. -/
  lost : List (Nat × Nat)
  stage : Nat
  /-- A flush held in the gather window (step 1 of the ladder). -/
  gathered : Bool
deriving DecidableEq, Repr, Inhabited

/-- A back-end command issued (R243, R273). -/
structure Backend where
  id : Nat
  job : Nat
  opcode : Nat
  off : Nat
  ns : Nat
  lba : Nat
  blocks : Nat
  data : Bytes
  reissued : Bool
deriving DecidableEq, Repr, Inhabited

/-- A root port and its SSD (Tables 9-2 and 9-15). -/
structure RootPort where
  /-- PORT_STATE: 0 ABSENT to 7 DETACHED. -/
  st : Nat
  linkUp : Bool
  /-- 0 none, 1 metadata, 2 map. -/
  mode : Nat
  ident : Option SsdIdentity
  /-- The state to return to after a controller reset. -/
  back : Nat
  cmds : List Backend
  nextCmd : Nat
  /-- The tag of the SSD_DETACH in hand, and its shutdown has been sent. -/
  detach : Option Nat
  shutdown : Bool
  /-- The tag of the SSD_ATTACH in hand. -/
  attach : Option Nat
  /-- Step 5 of Table 9-2 runs. -/
  recovering : Bool
deriving DecidableEq, Repr, Inhabited

/-- The storage service. -/
structure Storage where
  ports : SMap RootPort
  ns : SMap Ns
  /-- Jobs in start order. -/
  jobs : List Job
  nextJob : Nat
  /-- A command waits for a free lock (R264). -/
  lockFull : Bool
  /-- General namespaces whose deletion is owed at the next attach (R253). -/
  owed : List Nat
deriving DecidableEq, Repr, Inhabited

/-- A root port before its first attach. -/
def RootPort.reset : RootPort := ⟨0, false, 0, none, 2, [], 1, none, false, none, false⟩

/-- The storage service at reset. -/
def Storage.reset : Storage := ⟨[], [], [], 1, false, []⟩

end Sys2Proof.Machine
end

