-- ==== Sys2Proof/Machine/StTenant.lean ====
section
/-! DEFINITION. The state of the instances (Chapter 8). -/

namespace Sys2Proof.Machine

/-- The states of an instance (Table 8-3). -/
inductive InstState where
  | absent | active | quiescing | quiesced | fenced
deriving DecidableEq, Repr, Inhabited

/-- The value of a state in +0x10:01 (Table 8-3). -/
def InstState.num : InstState → Nat
  | .absent => 0 | .active => 1 | .quiescing => 2 | .quiesced => 3 | .fenced => 4

/-- One instance: its state, the record in force (Table 8-2, 128 bytes), and the QUIESCE_INSTANCE in hand (its tag on
PF0's admin SQ, and whether it is forced). -/
structure Inst where
  st : InstState
  record : Bytes
  quiesceTag : Option Nat
  forced : Bool
  /-- Where the running quiesce returns to at its timeout. -/
  noTimeout : Bool
deriving DecidableEq, Repr, Inhabited

/-- An instance that does not exist. -/
def Inst.none_ : Inst := ⟨.absent, zeros 128, none, false, false⟩

end Sys2Proof.Machine
end

