-- ==== Sys2Proof/Machine/State.lean ====
section
/-! DEFINITION. The state of the block (every part the manual names), why a command can stop, and the state at reset. -/

namespace Sys2Proof.Machine

/-- Why a command can fault. No command of this block faults: every error the manual names is an effect. -/
inductive Fault where
  /-- Raised by nobody; present because the interface asks for a type of faults. Safe. -/
  | none_
deriving DecidableEq, Repr, Inhabited

/-- Why a command can be refused. -/
inductive Refusal where
  /-- A command whose meaning is not written yet: raised by its arm in Dispatch. Safe. -/
  | notModelled (mnemonic : String)
  /-- VDD_AO ramped with TEST_MODE high (R501): the device then behaves as the manual does not describe. Raised by
  AO_POWER_ON. Safe. -/
  | testModeHigh
deriving DecidableEq, Repr, Inhabited

structure State where
  dict : DictStore
  time : TimeBase
  eg : Gatherer
  ash : Ash
  peat : Peat
  sealStore : Seal
  boot : Boot
  pow : Power
  damper : Damper
  host : HostLink
  fns : SMap Fn
  q : Queues
  insts : SMap Inst
  stor : Storage
  kiln : Kiln
  cipher : Cipher
  pipe : Pipe
  flow : Flow
  dbg : Dbg
  svc : Svc
  dram : Mem
  /-- The model's own counter of free values drawn. -/
  free : Nat
  /-- Elapsed time at which an event limited to once per second last fired, by a key. -/
  lastFire : SMap Nat
  out : List Out
  pending : List Instr
deriving DecidableEq, Repr

/-- Time before the AO supply comes. -/
def TimeBase.reset : TimeBase := ⟨0, 0, 0, 0, 0, 0, 0, 0, 0, 0⟩

/-- The event gatherer: no source pending, every target empty at running priority 16 (R450, R454). -/
def Gatherer.reset : Gatherer := ⟨[], [], []⟩

/-- An empty ash log, full buckets (R472). -/
def Ash.reset : Ash := ⟨[], 1, [], [], [], [], false, [], [], [], 0, []⟩

/-- The peat recorder, off. -/
def Peat.reset : Peat := ⟨4096, 0, [], 0, none, 0, [], false, false, none, false, []⟩

/-- The seal store as shipped (Table 3-14): the production key in slot 0, nothing revoked, minimum version 0, lifecycle FIELD. -/
def Seal.reset : Seal := ⟨[(0, (List.range 48).map Config.productionKeyByte)], 0, 0, 1⟩

/-- The boot registers at reset (Tables 3-3 to 3-9). -/
def Boot.reset : Boot := ⟨0, 0, 0, 0, 0, 0, true, 0, 0, 0, false, [], false, 0, none, [], [], [], none⟩

/-- The power state with no supply: nothing runs; PERST_N is high, HOST_WAKE_N high. -/
def Power.reset : Power where
  st := .off
  trans := 0
  stage := 0
  egressDraining := false
  ssdWait := []
  domains := []
  mainEn := false
  mainPg := false
  perst := false
  mainTries := 0
  mainRetry := false
  hostWake := false
  straps := 0
  testMode := false
  slowOk := false
  mainReset := true
  nextCause := 0
  wakeKept := false
  emberRun := false
  emberBusy := false
  emberSlot := 0xFF
  emberSeq0 := 0
  emberSeq1 := 0
  edgesKept := []
  wakesLatched := []
  ign := false
  ignTimer := false
  ignRetry := false
  ignWaiting := false
  emberCopies := []
  tinderPtr := 0
  tinderHeld := none
  tinderAt := 0
  tinderRefused := false
  heldStart := none
  thermalTrip := false
  bankedSlow := 0
  vsenseLow := false
  vsense := 0
  vsenseCode := 0
  wakeHist := []
  lastWakeSrc := 0
  lastWakeLatched := 0
  lastWakeTime := 0
  wakePins := 0
  sensors := List.replicate 8 0

/-- The damper at the start: its bucket at the default depth is set at READY (R119). -/
def Damper.reset : Damper where
  level := 0
  budget := 0
  negative := false
  since := 0
  holding := false
  supplyLow := false
  overSoft := false
  over125 := false
  breachRun := false
  evidence := []
  base := []
  caps := []
  lost := []
  fomTicks := 0
  fomSealed := 0
  fomKiln := 0
  ignCounting := false
  ignReached := false
  partner := []

/-- The block before the AO supply ramps: the first command that finds it alive is AO_POWER_ON. Every register holds its
reset value; where the manual gives none, the value is the model's (notes/assumptions). -/
def State.reset : State where
  dict := []
  time := TimeBase.reset
  eg := Gatherer.reset
  ash := Ash.reset
  peat := Peat.reset
  sealStore := Seal.reset
  boot := Boot.reset
  pow := Power.reset
  damper := Damper.reset
  host := HostLink.reset
  fns := []
  q := Queues.reset
  insts := []
  stor := Storage.reset
  kiln := Kiln.reset
  cipher := Cipher.reset
  pipe := Pipe.reset
  flow := Flow.reset
  dbg := Dbg.reset
  svc := Svc.reset
  dram := []
  free := 0
  lastFire := []
  out := []
  pending := []

end Sys2Proof.Machine
end

