-- ==== Sys2Proof/Machine/Ops.lean ====
section
/-! DEFINITION. The named operations on the state that every block uses: dictionary values, memories, what is emitted,
free values and the event gatherer's pending bits. -/

namespace Sys2Proof.Machine

/-- The time base, changed. -/
def State.withTime (s : State) (f : TimeBase → TimeBase) : State := { s with time := f s.time }

/-- The event gatherer, changed. -/
def State.withGatherer (s : State) (f : Gatherer → Gatherer) : State := { s with eg := f s.eg }

/-- The ash log, changed. -/
def State.withAsh (s : State) (f : Ash → Ash) : State := { s with ash := f s.ash }

/-- The peat recorder, changed. -/
def State.withPeat (s : State) (f : Peat → Peat) : State := { s with peat := f s.peat }

/-- The start, changed. -/
def State.withBoot (s : State) (f : Boot → Boot) : State := { s with boot := f s.boot }

/-- The power state, changed. -/
def State.withPow (s : State) (f : Power → Power) : State := { s with pow := f s.pow }

/-- The damper, changed. -/
def State.withDamper (s : State) (f : Damper → Damper) : State := { s with damper := f s.damper }

/-- The host link, changed. -/
def State.withHost (s : State) (f : HostLink → HostLink) : State := { s with host := f s.host }

/-- The queues, changed. -/
def State.withQ (s : State) (f : Queues → Queues) : State := { s with q := f s.q }

/-- Storage, changed. -/
def State.withStor (s : State) (f : Storage → Storage) : State := { s with stor := f s.stor }

/-- Kiln, changed. -/
def State.withKiln (s : State) (f : Kiln → Kiln) : State := { s with kiln := f s.kiln }

/-- The cipher blocks, changed. -/
def State.withCipher (s : State) (f : Cipher → Cipher) : State := { s with cipher := f s.cipher }

/-- The pipeline, changed. -/
def State.withPipe (s : State) (f : Pipe → Pipe) : State := { s with pipe := f s.pipe }

/-- The flow cores, changed. -/
def State.withFlow (s : State) (f : Flow → Flow) : State := { s with flow := f s.flow }

/-- The debug unit, changed. -/
def State.withDbg (s : State) (f : Dbg → Dbg) : State := { s with dbg := f s.dbg }

/-- The dictionary service, changed. -/
def State.withSvc (s : State) (f : Svc → Svc) : State := { s with svc := f s.svc }

/-- LPDDR5, changed. -/
def State.withDram (s : State) (f : Mem → Mem) : State := { s with dram := f s.dram }

/-- The functions, changed. -/
def State.withFns (s : State) (f : SMap Fn → SMap Fn) : State := { s with fns := f s.fns }

/-- The instances, changed. -/
def State.withInsts (s : State) (f : SMap Inst → SMap Inst) : State := { s with insts := f s.insts }

/-- The times of events limited to once per second, changed. -/
def State.withLastFire (s : State) (f : SMap Nat → SMap Nat) : State := { s with lastFire := f s.lastFire }

/-- The key of a dictionary entry in the store. -/
def dkey (idx sub : Nat) : Nat := idx * 256 + sub

/-- The row of an entry, if the dictionary has it (R59 and the entry tables). -/
def dictRow? (idx sub : Nat) : Option DRow := dictRows.find? fun r => r.covers idx sub

/-- The default of an entry (R31). -/
def dictDefault (idx sub : Nat) : DVal := ((dictRow? idx sub).map DRow.dflt).getD (.num 0)

/-- The value the store holds for an entry: what was last written, else its default. -/
def State.dval (s : State) (idx sub : Nat) : DVal := (s.dict.get? (dkey idx sub)).getD (dictDefault idx sub)

/-- The number an entry holds. -/
def State.dget (s : State) (idx sub : Nat) : Nat := (s.dval idx sub).nat

/-- The signed number an I32 entry holds. -/
def State.dint (s : State) (idx sub : Nat) : Int := toInt 32 (s.dget idx sub)

/-- The bytes a DOMAIN entry holds. -/
def State.dbytes (s : State) (idx sub : Nat) : Bytes :=
  match s.dval idx sub with
  | .bytes b => b
  | .num _ => []

/-- An entry set to a value. -/
def State.dsetv (s : State) (idx sub : Nat) (v : DVal) : State := { s with dict := s.dict.put (dkey idx sub) v }

/-- An entry set to a number. -/
def State.dset (s : State) (idx sub n : Nat) : State := s.dsetv idx sub (.num n)

/-- A counter raised by n, wrapping at its type's width (U16, U32 and U64 counters of the entry tables). -/
def State.dadd (s : State) (idx sub n : Nat) : State :=
  let w := match dictRow? idx sub with
    | some r => r.ty.len * 8
    | none => 32
  s.dset idx sub ((s.dget idx sub + n) % 2 ^ w)

/-- A counter raised by one. -/
def State.dinc (s : State) (idx sub : Nat) : State := s.dadd idx sub 1

/-- A high-water entry raised to a value it has not reached. -/
def State.dmax (s : State) (idx sub n : Nat) : State := if s.dget idx sub < n then s.dset idx sub n else s

/-- The first index of instance n's block, plus an offset. -/
def blk (n off : Nat) : Nat := 0x6000 + n * 0x40 + off

/-- Append what the device emits. -/
def State.emit (s : State) (o : Out) : State := { s with out := s.out ++ [o] }

/-- Draw a free value below a bound's power of two: nothing constrains it. -/
def State.drawBits (s : State) (w : Nat) : Nat × State :=
  (Config.freeNat s.free % 2 ^ w, { s with free := s.free + 1 })

/-- Draw n free bytes. -/
def State.drawBytes (s : State) (n : Nat) : Bytes × State :=
  ((List.range n).map (Config.freeByte s.free), { s with free := s.free + 1 })

/-- The byte at an address; an unlisted address reads as zero. -/
def Mem.read (m : Mem) (a : Nat) : Byte := SMap.getD m a 0

/-- One byte written, the canonical form kept: a zero byte is not listed. -/
def Mem.write (m : Mem) (a : Nat) (b : Byte) : Mem := if b = 0 then SMap.del m a else SMap.put m a b

/-- n bytes from an address on. -/
def Mem.readN (m : Mem) (a n : Nat) : Bytes := (List.range n).map fun i => Mem.read m (a + i)

/-- Bytes written from an address on. -/
def Mem.writeN (m : Mem) : Nat → Bytes → Mem
  | _, [] => m
  | a, b :: t => Mem.writeN (Mem.write m a b) (a + 1) t

/-- The bytes of a range all zero (R223). -/
def Mem.clear (m : Mem) (a n : Nat) : Mem := SMap.keep m fun k _ => !(decide (a ≤ k) && decide (k < a + n))

/-- The canonical form: addresses strictly rising, no listed byte zero. -/
def Mem.wf (m : Mem) : Bool := SMap.sorted m && m.all fun kv => kv.2 != 0

/-- The routing of a source (R450, R452): source 0 is fixed. -/
def Gatherer.route (g : Gatherer) (src : Nat) : EgSrc :=
  if src = 0 then ⟨0, 0⟩ else g.src.getD src ⟨0, 0⟩

/-- A target as the gatherer holds it; one never used is empty, at running priority 16. -/
def Gatherer.target (g : Gatherer) (t : Nat) : EgTarget := g.targets.getD t ⟨16, [], false⟩

/-- A source's pending bit. -/
def Gatherer.isPending (g : Gatherer) (src : Nat) : Bool := (g.pending.get? src).isSome

/-- An event of a block sets its source pending (R451); one already pending merges it. -/
def State.event (s : State) (src : Nat) : State := s.withGatherer fun g => { g with pending := g.pending.put src () }

/-- Fire an event that its rule limits to once per second, told apart by a key. -/
def State.eventLimited (s : State) (src key : Nat) : State :=
  match s.lastFire.get? (src * 0x10000 + key) with
  | some t => if s.time.elapsed < t + 1000000000 then s
      else (s.event src).withLastFire fun m => m.put (src * 0x10000 + key) s.time.elapsed
  | none => (s.event src).withLastFire fun m => m.put (src * 0x10000 + key) s.time.elapsed

/-- An output pin driven to a level. -/
def State.pin (s : State) (name : String) (level : Bool) : State := s.emit (.pin name level)

end Sys2Proof.Machine
end

