-- ==== Sys2Proof/Machine/PeatOps.lean ====
section
/-! DEFINITION. The peat recorder's shared operations (R486–R492): the region in LPDDR5, one record written, a trigger,
the freeze with its header. -/

namespace Sys2Proof.Machine

/-- The number by which records name the hearth (Table 16-10). -/
def hearthHart : Nat := 0x100

/-- Bytes of the peat region (R486). -/
def State.peatSize (s : State) : Nat := s.dget 0x3B00 2 <<< 20

/-- The region lies at the top of installed LPDDR5 (R486). -/
def State.peatBase (s : State) : Nat := Config.dramMib * 0x100000 - s.peatSize

/-- The recorder takes records: it is recording or in its post-trigger span. -/
def State.peatOn (s : State) : Bool := !s.peat.replay && (s.dget 0x3B00 3 == 1 || s.dget 0x3B00 3 == 2)

/-- A hart is recorded: the hearth always, a thread by its HARTS bit (R486). -/
def State.peatRecorded (s : State) (hart : Nat) : Bool :=
  if hart = hearthHart then true
  else bit (leNat (s.dbytes 0x3B00 4)) hart

/-- The header of the region (Table 16-12). -/
def State.peatHeader (s : State) (state : Nat) : Bytes :=
  let oldest := (s.peat.checkpoints.head?.map Prod.fst).getD 0
  let body := leBytes 4 0x54414550 ++ leBytes 2 1 ++ zeros 2 ++ leBytes 8 Config.serial
    ++ padTo 48 (s.dbytes 0x2200 7) ++ padTo 32 (s.dbytes 0x3B00 4) ++ leBytes 4 (s.dget 0x3B00 2)
    ++ leBytes 1 state ++ leBytes 1 (s.dget 0x3B01 6) ++ zeros 2 ++ leBytes 8 (s.dget 0x3B01 5)
    ++ leBytes 4 s.peat.triggerSeq ++ zeros 4 ++ leBytes 8 s.peat.writeOff ++ leBytes 8 oldest
    ++ leBytes 8 s.peat.wraps
  let full := padTo 4092 body
  full ++ leBytes 4 (crc32c full)

/-- The record freezes (R491): STATE 3, the header written, event 552. -/
def State.peatFreeze (s : State) : State :=
  let s := s.withDram fun m => m.writeN s.peatBase (s.peatHeader 3)
  ((s.dset 0x3B00 3 3).event 552)

/-- A record placed at the write offset. Checkpoints it overwrites leave the list; a ring wraps behind a PAD record,
a one-shot region that is full freezes with cause 0 (R487, R491). -/
def State.peatPlace (s : State) (rec : Bytes) : State :=
  let size := s.peatSize
  if s.peat.writeOff + rec.length ≤ size then
    let lo := s.peat.writeOff
    let hi := lo + rec.length
    let s := (s.withDram fun m => m.writeN (s.peatBase + lo) rec).withPeat fun p => { p with
      writeOff := hi
      checkpoints := p.checkpoints.filter fun c => !(decide (lo ≤ c.1) && decide (c.1 < hi)) }
    let s := s.dadd 0x3B00 6 rec.length
    match s.peat.postLeft with
    | none => s
    | some n =>
      if n ≤ rec.length then (s.withPeat fun p => { p with postLeft := none }).peatFreeze
      else s.withPeat fun p => { p with postLeft := some (n - rec.length) }
  else if s.dget 0x3B00 1 = 2 then (s.dset 0x3B01 6 0).peatFreeze
  else
    let room := size - s.peat.writeOff
    let pad : Bytes := leBytes 4 0 ++ leBytes 4 (room - 16) ++ zeros (room - 8)
    let s := s.withDram fun m => (m.writeN (s.peatBase + s.peat.writeOff) pad).writeN (s.peatBase + 4096) rec
    let s := s.withPeat fun p => { p with
      writeOff := 4096 + rec.length
      wraps := p.wraps + 1
      checkpoints := p.checkpoints.filter fun c => !(decide (p.writeOff ≤ c.1)) && !(decide (c.1 < 4096 + rec.length)) }
    s.dadd 0x3B00 6 (room + rec.length)

/-- One record of Table 16-10, its DATA padded to a multiple of 16 bytes. The hearth's instruction count is not
modelled: its stamp is a free value. -/
def State.peatRecord (s : State) (type hart : Nat) (data : Bytes) : State :=
  if s.peatOn && s.peatRecorded hart then
    let (ic, s) := if hart = hearthHart then s.drawBits 64 else (s.peat.icount.getD hart 0, s)
    s.peatPlace (leBytes 1 type ++ zeros 1 ++ leBytes 2 hart ++ leBytes 4 data.length ++ leBytes 8 ic
      ++ padTo (ceilDiv data.length 16 * 16) data)
  else s

/-- A trigger (R491): one TRIGGER record, the time and cause, event 551; recording goes on for POST_PERCENT of the
region, or freezes at once for cause 4. -/
def State.peatTrigger (s : State) (cause seq : Nat) : State :=
  if s.dget 0x3B00 3 = 1 || (s.dget 0x3B00 3 = 2 && cause = 4) then
    let s := s.peatRecord 9 hearthHart (leBytes 1 cause ++ zeros 3 ++ leBytes 4 seq)
    if s.peatOn then
      let s := ((s.dset 0x3B01 5 s.time.ns).dset 0x3B01 6 cause).event 551
      let s := s.withPeat fun p => { p with triggered := true, triggerSeq := seq }
      let post := s.peatSize * s.dget 0x3B01 4 / 100
      if cause = 4 || post = 0 then (s.withPeat fun p => { p with postLeft := none }).peatFreeze
      else (s.dset 0x3B00 3 2).withPeat fun p => { p with postLeft := some post }
    else s
  else s

/-- A BREAK record of a recorded hart (Table 16-11), with event 554. -/
def State.peatBreak (s : State) (hart cause : Nat) : State :=
  if s.peatOn && s.peatRecorded hart then (s.peatRecord 8 hart (leBytes 1 cause ++ zeros 7)).event 554 else s

end Sys2Proof.Machine
end

