-- ==== Sys2Proof/Machine/AshOps.lean ====
section
/-! DEFINITION. The ash log from submission to export (R468–R485): classes, severity filter, alarms, first-of-kind,
admission, storage, export, and the Onsia datagram's layout that pushes share (Table 2-9). -/

namespace Sys2Proof.Machine

/-- The class of an entry by its source (Table 16-3); the writing block's class where the table lists none (R521). -/
def ashClass (source block : Nat) : Nat :=
  if source = 0 then 14
  else if source ≤ 17 then 0
  else if source ≤ 25 then 1
  else if source = 26 then 2
  else if 32 ≤ source ∧ source ≤ 39 then 3
  else if 40 ≤ source ∧ source ≤ 95 then 4
  else if 96 ≤ source ∧ source ≤ 159 then 5
  else if 160 ≤ source ∧ source ≤ 223 then 6
  else if 224 ≤ source ∧ source ≤ 287 then 7
  else if 288 ≤ source ∧ source ≤ 307 then 8
  else if 308 ≤ source ∧ source ≤ 314 then 9
  else if source = 315 then 8
  else if 320 ≤ source ∧ source ≤ 329 then 10
  else if 330 ≤ source ∧ source ≤ 333 then 11
  else if 416 ≤ source ∧ source ≤ 479 then 12
  else if 480 ≤ source ∧ source ≤ 543 then 13
  else if 544 ≤ source ∧ source ≤ 639 then 15
  else block

/-- The 32 bytes of an entry (Table 16-1). -/
def AshEntry.bytes (e : AshEntry) : Bytes :=
  leBytes 8 e.time ++ leBytes 2 e.source ++ leBytes 1 (e.severity % 8) ++ leBytes 1 e.cls ++ leBytes 2 e.code
    ++ leBytes 2 e.count ++ leBytes 4 e.seq ++ padTo 12 e.payload

/-- An Onsia datagram (Table 2-9) with its CRC. -/
def onsiaBytes (op session seq index sub flags status offset : Nat) (payload : Bytes) : Bytes :=
  let b := leBytes 2 0xD960 ++ leBytes 1 1 ++ leBytes 1 op ++ leBytes 2 session ++ leBytes 2 seq ++ leBytes 2 index
    ++ leBytes 1 sub ++ leBytes 1 flags ++ leBytes 2 status ++ leBytes 2 payload.length ++ leBytes 4 offset ++ payload
  b ++ leBytes 4 (crc32c b)

/-- The backlog of an export path. -/
def Ash.backlog (a : Ash) (p : Nat) : List Nat := if p = 0 then a.back0 else if p = 1 then a.back1 else a.back2

/-- The backlog of an export path replaced. -/
def Ash.setBacklog (a : Ash) (p : Nat) (l : List Nat) : Ash :=
  if p = 0 then { a with back0 := l } else if p = 1 then { a with back1 := l } else { a with back2 := l }

/-- The alarm frame of alarm k (Table 16-6). -/
def State.alarmFrame (s : State) (k : Nat) : Bytes :=
  let al := s.ash.alarms.getD k ⟨0, 0, false⟩
  leBytes 2 (s.dget (0x3A40 + k) 1) ++ leBytes 1 (s.dget (0x3A40 + k) 4) ++ leBytes 1 k ++ leBytes 1 1
    ++ leBytes 1 al.lastClass ++ zeros 2 ++ leBytes 4 (s.dget (0x3A40 + k) 5) ++ zeros 4
    ++ leBytes 8 (s.dget (0x3A40 + k) 7)

/-- One alarm frame sent (R484): on each CAN port of ALARM_CAN_PORTS with the emergency identifier of the port's node,
and as an Onsia push with OP 0x86 when the UDP path is enabled. -/
def State.sendAlarm (s : State) (k : Nat) : State :=
  let f := s.alarmFrame k
  let ports := s.dget 0x3A30 2
  let s := if bit ports 0 then s.emit (.canFrame 0 (0x80 + s.dget 0x1010 1) f) else s
  let s := if bit ports 1 then s.emit (.canFrame 1 (0x80 + s.dget 0x1011 1) f) else s
  let s := if s.dget 0x3A21 1 = 1 then
      (s.emit (.datagram (s.dget 0x3A21 9) (s.dget 0x3A21 0x0B) (s.dget 0x1040 4)
          (onsiaBytes 0x86 0 s.ash.pushSeq (0x3A40 + k) 0 0 0 0 f))).withAsh fun a =>
        { a with pushSeq := (a.pushSeq + 1) % 0x10000 }
    else s
  let al := s.ash.alarms.getD k ⟨0, 0, false⟩
  (s.withAsh fun a => { a with alarms := a.alarms.put k { al with sentCount := s.dget (0x3A40 + k) 5, inhibit := true } })

/-- An entry matches alarm k (R482). -/
def State.alarmMatches (s : State) (k sev cls code : Nat) : Bool :=
  let c := s.dget (0x3A40 + k) 1
  let ac := s.dget (0x3A40 + k) 2
  c != 0 && code == c && (cls == ac || ac == 0xFF) && decide (sev ≤ s.dget (0x3A40 + k) 3)

/-- ALARM_RAISE: one alarm takes a matching entry (R482, R484). -/
def State.alarmHit (s : State) (k cls time : Nat) : State :=
  let s := s.dset (0x3A40 + k) 5 (min (s.dget (0x3A40 + k) 5 + 1) 0xFFFFFFFF)
  let s := s.dset (0x3A40 + k) 7 time
  let al := s.ash.alarms.getD k ⟨0, 0, false⟩
  let s := s.withAsh fun a => { a with alarms := a.alarms.put k { al with lastClass := cls } }
  if s.dget (0x3A40 + k) 10 = 0 then
    (((s.dset (0x3A40 + k) 10 1).dset (0x3A40 + k) 6 time).event 549).sendAlarm k
  else if al.inhibit then s
  else s.sendAlarm k

/-- Every defined alarm is tested against an entry (R482). -/
def State.alarmsTest (s : State) (sev cls code time : Nat) : State :=
  (List.range 128).foldl (fun s k => if s.alarmMatches k sev cls code then s.alarmHit k cls time else s) s

/-- The tokens of a class's bucket (R472): an unlisted bucket is full. -/
def State.ashTokens (s : State) (c : Nat) : Nat :=
  min (s.ash.tokens.getD c (s.dget 0x3A02 (c + 1))) (s.dget 0x3A02 (c + 1))

/-- An entry leaves the log before a path has sent it: each path that had it queued counts an overrun (R479). -/
def State.ashOverrun (s : State) (seq : Nat) : State :=
  [0, 1, 2].foldl (fun s p =>
    if (s.ash.backlog p).contains seq then
      ((s.withAsh fun a => a.setBacklog p ((a.backlog p).filter (· != seq))).dinc (0x3A20 + p) 7).eventLimited 548 0
    else s) s

/-- The limit of a path's backlog for a severity (Table 16-5); none for Error and above. -/
def backlogLimit (sev : Nat) : Option Nat :=
  if sev = 5 then some 256 else if sev = 4 then some 512 else if sev = 3 then some 1024 else none

/-- A stored entry is queued for each export path, or dropped there (R478). -/
def State.ashExport (s : State) (seq sev : Nat) : State :=
  [0, 1, 2].foldl (fun s p =>
    if s.dget (0x3A20 + p) 1 = 1 ∧ sev ≤ s.dget (0x3A20 + p) 2 then
      let full := match backlogLimit sev with
        | some n => decide (n ≤ (s.ash.backlog p).length)
        | none => false
      if full then (s.dinc (0x3A20 + p) (if sev = 5 then 4 else if sev = 4 then 5 else 6)).eventLimited 547 p
      else s.withAsh fun a => a.setBacklog p (a.backlog p ++ [seq])
    else s) s

/-- The least severe severity among the entries a new one of severity sev could displace (R474). -/
def ashWorst (log : List AshEntry) (sev : Nat) : Option Nat :=
  log.foldl (fun m e =>
    if 2 ≤ sev ∧ e.severity < 2 then m
    else some (max (m.getD 0) e.severity)) none

/-- The first entry of a severity removed from the log. -/
def ashRemoveFirst (sev : Nat) : List AshEntry → Option AshEntry × List AshEntry
  | [] => (none, [])
  | e :: t => if e.severity = sev then (some e, t) else
      let r := ashRemoveFirst sev t
      (r.1, e :: r.2)

/-- An entry at the end of the log: its SEQ, event 544 of a class below 2, the export paths (R474, R478). -/
def State.ashPlace (s : State) (e : AshEntry) : State × Option Nat :=
  let n := s.ash.nextSeq
  let s := s.withAsh fun a => { a with log := a.log ++ [{ e with seq := n }], nextSeq := (n + 1) % 2 ^ 32 }
  let s := if e.severity < 2 then s.event 544 else s
  (s.ashExport n e.severity, some n)

/-- An admitted entry takes its place in the log (R474): the answer says which SEQ it took, if any. -/
def State.ashStore (s : State) (e : AshEntry) : State × Option Nat :=
  let low := (s.ash.log.filter fun x => decide (2 ≤ x.severity)).length
  let room := decide (s.ash.log.length < 8192) && (decide (e.severity < 2) || decide (low < 7680))
  if room then s.ashPlace e
  else match ashWorst s.ash.log e.severity with
    | none => (s.dinc 0x3A00 4, none)
    | some w =>
      if w < e.severity then (s.dinc 0x3A00 4, none)
      else
        match ashRemoveFirst w s.ash.log with
        | (some old, log) =>
          ((((s.withAsh fun a => { a with log := log }).dinc 0x3A00 5).event 546).ashOverrun old.seq).ashPlace e
        | (none, _) => (s.dinc 0x3A00 4, none)

/-- The token bucket's answer for an entry (R472, R473): admitted, a token taken and the COUNT of those refused before it
given; or refused, counted, kept for the class's summary. The entry is answered as the first-of-kind table keeps it. -/
def State.ashAdmit (s : State) (e : AshEntry) (bypass admitted : Bool) : State × AshEntry :=
  if admitted then
    let tok := s.ashTokens e.cls
    let cnt := if bypass then 0 else min (s.ash.refusedSince.getD e.cls 0) 0xFFFF
    let s := if bypass then s else
      s.withAsh fun a => { a with tokens := a.tokens.put e.cls (tok - 1), refusedSince := a.refusedSince.del e.cls }
    let (s, seq) := s.ashStore { e with count := cnt }
    (s, { e with count := cnt, seq := seq.getD 0xFFFFFFFF })
  else
    let iv := s.ash.interval.getD e.cls ⟨0, e.code, 0, 7⟩
    let s := s.withAsh fun a => { a with
      refusedSince := a.refusedSince.upd e.cls 0 (· + 1)
      interval := a.interval.put e.cls ⟨iv.refused + 1, iv.first, e.code, min iv.worst e.severity⟩ }
    ((s.dinc 0x3A04 (e.cls + 1)).eventLimited 545 e.cls, { e with seq := 0xFFFFFFFF })

/-- Steps 2 to 5 of R471 for an entry; a bypassing entry (a summary, LOG_CLEARED) skips the filter and the bucket. -/
def State.ashTake (s : State) (e : AshEntry) (bypass : Bool) : State :=
  let s := s.alarmsTest e.severity e.cls e.code e.time
  let isNew := !(s.ash.fok.any fun x => x.code == e.code)
  let fokRoom := decide (s.ash.fok.length < 256)
  let s := if isNew && !fokRoom then
      let s := s.dinc 0x3A00 7
      if s.ash.fokFull then s else (s.event 550).withAsh fun a => { a with fokFull := true }
    else s
  let admitted := bypass || decide (0 < s.ashTokens e.cls) || decide (e.severity < 2)
  let (s, e) := s.ashAdmit e bypass admitted
  let s := if isNew && fokRoom then s.withAsh fun a => { a with fok := a.fok ++ [e] } else s
  if admitted then
    let sq := if e.seq = 0xFFFFFFFF then 0 else e.seq
    if e.severity ≤ s.dget 0x3B01 2 ∧ s.dget 0x3B01 2 ≠ 0xFF then s.peatTrigger 2 sq
    else if s.dget 0x3B01 3 ≠ 0 ∧ e.code = s.dget 0x3B01 3 then s.peatTrigger 3 sq
    else s
  else s

/-- An entry is submitted (R471): the severity filter, then the rest. -/
def State.logSubmit (s : State) (e : AshEntry) : State :=
  if s.dget 0x3A03 (e.cls + 1) < e.severity then s else s.ashTake e false

/-- A block of a class submits an entry; while the debugger holds the hearth it is owed (R516). -/
def State.logAs (s : State) (block source : Nat) (sev : Severity) (code : Nat) (payload : Bytes) : State :=
  let e : AshEntry := ⟨s.time.ns, source, sev.num, ashClass source block, code, 0, 0, payload⟩
  if s.dbg.hearthHalted then s.withDbg fun d => { d with owed := d.owed ++ [e] } else s.logSubmit e

/-- An entry that records an event source. -/
def State.logSrc (s : State) (source : Nat) (sev : Severity) (code : Nat) (payload : Bytes) : State :=
  s.logAs 0 source sev code payload

/-- An entry with no source, from a block of a class. -/
def State.logCls (s : State) (block : Nat) (sev : Severity) (code : Nat) (payload : Bytes) : State :=
  s.logAs block 0xFFFF sev code payload

/-- An event with its ash log entry. -/
def State.eventLog (s : State) (source : Nat) (sev : Severity) (code : Nat) (payload : Bytes) : State :=
  (s.event source).logSrc source sev code payload

end Sys2Proof.Machine
end

