-- ==== Sys2Proof/Machine/EventOps.lean ====
section
/-! DEFINITION. The event gatherer's operations (R450–R467): routing, the request line, claim, end of service, stack
faults and what clears them. -/

namespace Sys2Proof.Machine

/-- Ranges of sources that no chapter assigns (Table 15-1). -/
def unassignedSource (n : Nat) : Bool :=
  [(1, 7), (27, 31), (45, 95), (107, 159), (173, 223), (232, 287), (316, 319), (328, 329), (334, 415), (441, 479),
    (519, 543), (556, 575)].any fun r => decide (r.1 ≤ n) && decide (n ≤ r.2)

/-- A routable source (R453); every other source is fixed to target 0. -/
def routableSource (n : Nat) : Bool :=
  (decide (288 ≤ n) && decide (n ≤ 307)) || (decide (576 ≤ n) && decide (n ≤ 639)) || unassignedSource n

/-- A source has a priority and a pending bit below which the target's line would rise (R454). -/
def Gatherer.qualifies (g : Gatherer) (t n : Nat) : Bool :=
  let r := g.route n
  g.isPending n && r.target == t &&
    (if n = 0 then decide (0 < (g.target t).running) else r.priority != 0 && decide (r.priority < (g.target t).running))

/-- The better of two qualifying sources: source 0, then the lowest priority number, then the lowest source (R455). -/
def Gatherer.better (g : Gatherer) (a b : Nat) : Nat :=
  if (g.route b).priority < (g.route a).priority ∨ ((g.route b).priority = (g.route a).priority ∧ b < a) then b else a

/-- The source a claim of an unfrozen target would take (R455). -/
def Gatherer.best (g : Gatherer) (t : Nat) : Option Nat :=
  g.pending.foldl (fun m kv =>
    if g.qualifies t kv.1 then some (match m with
      | none => kv.1
      | some a => g.better a kv.1) else m) none

/-- The source a claim returns, taking the freeze of the target into account (R455, R458, R459). -/
def Gatherer.claimable (g : Gatherer) (t : Nat) : Option Nat :=
  if (g.target t).frozen then (if t = 0 ∧ g.isPending 0 then some 0 else none) else g.best t

/-- The request line of a target (R454, R458, R459). -/
def Gatherer.request (g : Gatherer) (t : Nat) : Bool := (g.claimable t).isSome

/-- The word a CLAIM read returns (Table 15-7). -/
def claimWord (source priority depth : Nat) : Nat := depth * 0x1000000 + priority * 0x10000 + source

/-- A target's record replaced. -/
def Gatherer.setTarget (g : Gatherer) (t : Nat) (x : EgTarget) : Gatherer := { g with targets := g.targets.put t x }

/-- A read of CLAIM (R455, R459): the word returned and the gatherer after it. -/
def Gatherer.claim (g : Gatherer) (t : Nat) : Nat × Gatherer :=
  let x := g.target t
  match g.claimable t with
  | none => (claimWord 0x3FF 0 x.stack.length, g)
  | some n =>
    let g := { g with pending := g.pending.del n }
    if x.frozen then (claimWord n 0 x.stack.length, g)
    else
      let p := (g.route n).priority
      (claimWord n p (x.stack.length + 1), g.setTarget t { x with running := p, stack := (n, x.running) :: x.stack })

/-- CLEAR of a target (R460): stack emptied, running priority 16, unfrozen; pending bits kept. -/
def Gatherer.clear (g : Gatherer) (t : Nat) : Gatherer := g.setTarget t ⟨16, [], false⟩

/-- The stack of a flow-core target emptied without a fault (R462). A frozen target's freeze is not part of it. -/
def Gatherer.empty (g : Gatherer) (t : Nat) : Gatherer :=
  g.setTarget t { (g.target t) with running := 16, stack := [] }

/-- The targets now frozen, lowest first. -/
def Gatherer.frozenList (g : Gatherer) : List Nat := (List.range 33).filter fun t => (g.target t).frozen

/-- EG_TSTATt (Table 15-9). -/
def Gatherer.tstat (g : Gatherer) (t : Nat) : Nat :=
  let x := g.target t
  b2n x.frozen * 0x1000000 + x.stack.length * 0x10000 + x.running * 0x100 + b2n (g.request t)

/-- The payload of a PRIORITY_STACK_FAULT entry (R461). -/
def stackFaultPayload (t : Nat) (x : EgTarget) : Bytes :=
  leBytes 1 t ++ leBytes 1 x.stack.length ++ leBytes 2 ((x.stack.head?.map Prod.fst).getD 0)
    ++ ((x.stack.take 4).map fun e => leBytes 2 e.1).flatten

/-- STACK_FAULT_HANDLING (R461): the hearth firmware on source 0. -/
def State.stackFaultHandling (s : State) : State :=
  let frozen := s.eg.frozenList
  let s : State := frozen.foldl (fun s t =>
    s.logSrc 0 .critical Status.priorityStackFault.code (stackFaultPayload t (s.eg.target t))) s
  let s := s.withGatherer fun g => g.clear 0
  if s.dget 0x3900 5 = 0 then
    frozen.foldl (fun (s : State) t => if t = 0 then s else (s.withGatherer fun g => g.clear t)) s
  else s

/-- A claim of a target, counted, recorded by the peat recorder for the hearth (R465), and answered. -/
def State.egClaimOp (s : State) (t : Nat) : Nat × State :=
  let (w, g) := s.eg.claim t
  let s := s.withGatherer fun _ => g
  let s := if w % 0x400 = 0x3FF then s else s.dinc 0x3903 (t + 1)
  (w, s)

/-- An EOI write (R456, R458). -/
def State.egEoiOp (s : State) (t source : Nat) : State :=
  let x := s.eg.target t
  if x.frozen then s.dinc 0x3900 6
  else match x.stack with
    | (n, saved) :: rest =>
      if n = source then s.withGatherer fun g => g.setTarget t { x with running := saved, stack := rest }
      else ((s.withGatherer fun g => g.setTarget t { x with frozen := true }).event 0).dinc 0x3900 4
    | [] => ((s.withGatherer fun g => g.setTarget t { x with frozen := true }).event 0).dinc 0x3900 4

/-- A source's routing written, where Table 15-4 and R453 accept it. -/
def Gatherer.acceptsRoute (n priority target : Nat) : Bool :=
  n != 0 && decide (target ≤ 32) && (routableSource n || (target == 0 && priority != 0))

/-- A SOURCE_MAP value by R467: the status of the write. -/
def sourceMapCheck (b : Bytes) : Status :=
  if b.length ≠ 1280 then .lengthMismatch
  else if (List.range 640).any (fun n =>
      decide (32 < byteAt b (2 * n + 1)) || decide (15 < byteAt b (2 * n)) ||
      (n == 0 && (byteAt b 0 != 0 || byteAt b 1 != 0)) ||
      (n != 0 && !routableSource n && byteAt b (2 * n) == 0)) then .outOfRange
  else if (List.range 640).any (fun n => !routableSource n && byteAt b (2 * n + 1) != 0) then .fieldInvalid
  else .ok

/-- A whole SOURCE_MAP applied (R463, R467). -/
def Gatherer.applyMap (g : Gatherer) (b : Bytes) : Gatherer :=
  { g with src := (upFrom 1 639).map fun n => (n, ⟨byteAt b (2 * n), byteAt b (2 * n + 1)⟩) }

/-- The SOURCE_MAP as it reads (R467). -/
def Gatherer.mapBytes (g : Gatherer) : Bytes :=
  ((List.range 640).map fun n => leBytes 1 (g.route n).priority ++ leBytes 1 (g.route n).target).flatten

/-- The PENDING entry as it reads (Table 15-13). -/
def Gatherer.pendingBytes (g : Gatherer) : Bytes :=
  (List.range 80).map fun k => BitVec.ofNat 8 (sumNat ((List.range 8).map fun j => b2n (g.isPending (8 * k + j)) * 2 ^ j))

/-- The gatherer after a start: reset values, then the routing of DICT_DEFAULTS (R464), which R453 bounds. -/
def Gatherer.started : Gatherer :=
  { src := (upFrom 1 639).map fun n =>
      (n, if unassignedSource n then ⟨0, 0⟩
          else if routableSource n then ⟨Config.defaultPriority n % 16, Config.defaultTarget n % 33⟩
          else ⟨Config.defaultPriority n % 15 + 1, 0⟩)
    pending := []
    targets := [] }

end Sys2Proof.Machine
end

