-- ==== Sys2Proof/Machine/PowerOps.lean ====
section
/-! DEFINITION. What other blocks ask of the power states: which domains are usable, whether the device serves, fetches
and forwards, and the wake history (Chapters 3 and 4). -/

namespace Sys2Proof.Machine

/-- The domain numbers of Table 4-3. -/
abbrev domPIPE : Nat := 6
abbrev domKILN : Nat := 7
abbrev domCIPHER : Nat := 8
abbrev domSTOR : Nat := 9
abbrev domTRUNK : Nat := 11
abbrev domEDGE : Nat := 12
abbrev domDRAM : Nat := 13

/-- AO, HEARTH and HOSTIF carry the fixed vote and are never off in Blaze or Glow (Table 4-3). -/
def fixedDomain (d : Nat) : Bool := d == 0 || d == 1 || d == 10

/-- A domain as held; every domain is on when it has not been touched since the start (R101). -/
def State.dom (s : State) (d : Nat) : Dom := s.pow.domains.getD d ⟨2, 0, false⟩

/-- A domain's record replaced. -/
def State.setDom (s : State) (d : Nat) (x : Dom) : State :=
  s.withPow fun p => { p with domains := p.domains.put d x }

/-- The device is in Blaze or Glow. -/
def State.awake (s : State) : Bool := s.pow.st == .blaze || s.pow.st == .glow

/-- A domain is usable: on in Blaze whatever its votes, on or in hysteresis in Glow (R98, R101). -/
def State.domOn (s : State) (d : Nat) : Bool :=
  s.awake && (fixedDomain d || (s.dom d).st == 2 || (s.dom d).st == 3)

/-- READY is set and the device is awake (R97): the dictionary service and the queues are live. A part that was armed for replay
serves nothing (R494). -/
def State.live (s : State) : Bool := s.boot.ready && s.awake && !s.peat.replay

/-- The hearth firmware runs: the device serves, and no debugger holds the hearth halted (R516). -/
def State.hearthRuns (s : State) : Bool := s.live && !s.dbg.hearthHalted

/-- A drain or a later stage of a transition runs: fetching stopped, ingress closed (Table 4-6). -/
def State.draining (s : State) : Bool := s.pow.stage != 0

/-- One wake-history entry (Table 4-12, R504, R505, R135): the last 16 are kept. -/
def State.wakeNote (s : State) (src : Nat) : State :=
  s.withPow fun p => { p with wakeHist := ((s.time.slow, src) :: p.wakeHist).take 16 }

/-- The WAKE_HISTORY value: 16 entries of 8 bytes, the stamp in bits [47:0] and the source in byte 7. -/
def State.wakeHistBytes (s : State) : Bytes :=
  padTo 128 ((s.pow.wakeHist.map fun e => leBytes 6 e.1 ++ zeros 1 ++ leBytes 1 e.2).flatten)

/-- The HST_ID word (Table 0-3). -/
def hstId : Nat := 0x00200960

/-- The power group votes: the port's domain. -/
def portDomain (p : Nat) : Nat := if p < 4 then domTRUNK else domEDGE

/-- BOOT_STATUS (Table 3-3). -/
def Boot.status (b : Boot) : Nat := b.phase * 0x10000000 + b.attempts * 0x1000000 + b.detail * 0x10000 + b.code

/-- BOOT_CAUSE (Table 3-8). -/
def Boot.causeWord (b : Boot) : Nat := b.wakeSrc * 0x100 + b.wakePins * 0x10 + b.cause

/-- The programmed slots of the seal store as a mask. -/
def Seal.programmed (z : Seal) : Nat := sumNat ((List.range 4).map fun k => b2n (z.hashes.get? k).isSome * 2 ^ k)

/-- BOOT_SEAL from the seal store (Table 3-7). -/
def Seal.word (z : Seal) : Nat := z.lifecycle * 0x10000 + z.minVersion * 0x100 + z.programmed * 0x10 + z.revoked

/-- Debug access is permitted (R515): lifecycle TEST, DEBUG_ENABLE, or an armed replay. -/
def State.debugPermitted (s : State) : Bool := s.sealStore.lifecycle == 0 || s.dget 0x3C10 1 == 1 || s.peat.replay

end Sys2Proof.Machine
end

