-- ==== Sys2Proof/Machine/DamperOps.lean ====
section
/-! DEFINITION. The damper's knobs as the blocks read them (Tables 5-3 and 5-4) and its budget rules (R120). -/

namespace Sys2Proof.Machine

/-- The ladder step (0x2100:05). -/
def State.ladder (s : State) : Nat := s.dget 0x2100 5

/-- An instance is CRITICAL (R124): instance 0 always. -/
def State.isCritical (s : State) (n : Nat) : Bool := n == 0 || s.dget (0x2140 + n) 1 == 1

/-- An instance's own cap acts (R128). -/
def State.capActing (s : State) (n : Nat) : Bool := (s.damper.caps.getD n ⟨[], false, false⟩).acting

/-- The scale of budget-shaped egress rates, of 256 (steps 3 and 5). -/
def State.shapeScale (s : State) : Nat := if 5 ≤ s.ladder then 32 else if 3 ≤ s.ladder then 128 else 256

/-- The scale of budget-shaped work of one instance: the smaller of the ladder's and its own cap's (R128). -/
def State.shapeScaleOf (s : State) (n : Nat) : Nat :=
  if s.capActing n ∧ !s.isCritical n then min 32 s.shapeScale else s.shapeScale

/-- The weight scale of an instance's threads: 256, 128, or 1 for the one-slot minimum (steps 4 to 7, R128, R424). -/
def State.weightScale (s : State) (n : Nat) : Nat :=
  let k := s.ladder
  let ladder := if s.isCritical n then (if 7 ≤ k then 1 else if 6 ≤ k then 128 else 256)
    else (if 5 ≤ k then 1 else if 4 ≤ k then 128 else 256)
  if s.capActing n then 1 else ladder

/-- The XCLK divider of an engine that serves an instance (steps 4 to 7, R128, R130). -/
def State.engineDivider (s : State) (n : Nat) : Nat :=
  let k := s.ladder
  let ladder := if 7 ≤ k then 4
    else if s.isCritical n then (if 6 ≤ k then 2 else 1)
    else (if 5 ≤ k then 4 else if 4 ≤ k then 2 else 1)
  if s.capActing n then 4 else ladder

/-- Fetching of storage commands is stopped on queues that are neither admin nor evidence queues (step 7), or for this
instance by its cap (a CRITICAL cap has step 7's knobs). -/
def State.storageFetchStopped (s : State) (n : Nat) : Bool := decide (7 ≤ s.ladder) || (s.capActing n && s.isCritical n)

/-- Flushes of non-evidence queues are gathered (step 1). -/
def State.flushGathered (s : State) : Bool := decide (1 ≤ s.ladder)

/-- The evidence draw over the last 1 ms, mW (0x2101:03): µJ in 1 ms are mW. -/
def State.evidenceDraw (s : State) : Nat := sumNat s.damper.evidence

/-- Evidence admission and fetching are held (step 8). -/
def State.evidenceHeld (s : State) : Bool := decide (8 ≤ s.ladder)

/-- The response time of a step in ticks (Table 5-3). -/
def stepResponse (k : Nat) : Nat := if k = 2 then 10 else if 4 ≤ k ∧ k ≤ 7 then 2 else 1

/-- The hottest of the eight sensors, m°C. -/
def hottest (l : List Int) : Int := l.foldl max (-273000)

/-- The thermal limit, mW (R120). -/
def State.thermalLimit (s : State) (tj : Int) : Nat :=
  let p := s.dget 0x2100 1
  let f := s.dget 0x2101 1 + s.dget 0x2101 2
  let lo : Int := s.dget 0x2103 1 * 1000
  let hi : Int := s.dget 0x2103 2 * 1000
  if tj ≤ lo then p
  else if hi ≤ tj then f
  else p - (p - f) * (tj - lo).toNat / (hi - lo).toNat

/-- The least of the three limits and which it is, the one listed first at equal ones (R120). -/
def State.budgetOf (s : State) (tj : Int) : Nat × Nat :=
  let p := s.dget 0x2100 1
  let t := s.thermalLimit tj
  let u := if s.damper.supplyLow then s.dget 0x2102 2 else p
  if p ≤ t ∧ p ≤ u then (p, 0) else if t ≤ u then (t, 1) else (u, 2)

/-- The bucket full and the ladder at step 0, as at the start and on the return from Banked (R119). -/
def State.damperFresh (s : State) : State :=
  let s := (s.dset 0x2100 5 0).dset 0x2100 4 (s.dget 0x2100 2)
  (s.withDamper fun d => { d with level := (s.dget 0x2100 2 : Int) * 100, since := 0, holding := false, negative := false })

/-- A domain's maximum of Table 1-2 in µJ a tick: the row of its power group. -/
def domainMax (d : Nat) : Nat :=
  if 2 ≤ d ∧ d ≤ 5 then 110 else if d = 6 ∨ d = 7 then 80 else if d = 8 then 40 else if d = 11 ∨ d = 12 then 60
  else if d = 13 then 30 else 20

end Sys2Proof.Machine
end

