-- ==== Sys2Proof/Machine/Crypto.lean ====
section
/-! DEFINITION. The published algorithms the manual names and does not restate (Table 0-5): SHA-256 and SHA-384
(FIPS 180-4), HMAC (FIPS 198-1), AES (FIPS 197) with its modes (SP 800-38A to D, IEEE 1619), ChaCha20-Poly1305
(RFC 8439) and ECDSA P-384 verification (FIPS 186-5). -/

namespace Sys2Proof.Machine

/-- FIPS 180-4 constants of SHA-384, rounds 0 to 39. -/
def sha512KA : List Nat :=
  [0x428A2F98D728AE22, 0x7137449123EF65CD, 0xB5C0FBCFEC4D3B2F, 0xE9B5DBA58189DBBC,
   0x3956C25BF348B538, 0x59F111F1B605D019, 0x923F82A4AF194F9B, 0xAB1C5ED5DA6D8118,
   0xD807AA98A3030242, 0x12835B0145706FBE, 0x243185BE4EE4B28C, 0x550C7DC3D5FFB4E2,
   0x72BE5D74F27B896F, 0x80DEB1FE3B1696B1, 0x9BDC06A725C71235, 0xC19BF174CF692694,
   0xE49B69C19EF14AD2, 0xEFBE4786384F25E3, 0x0FC19DC68B8CD5B5, 0x240CA1CC77AC9C65,
   0x2DE92C6F592B0275, 0x4A7484AA6EA6E483, 0x5CB0A9DCBD41FBD4, 0x76F988DA831153B5,
   0x983E5152EE66DFAB, 0xA831C66D2DB43210, 0xB00327C898FB213F, 0xBF597FC7BEEF0EE4,
   0xC6E00BF33DA88FC2, 0xD5A79147930AA725, 0x06CA6351E003826F, 0x142929670A0E6E70,
   0x27B70A8546D22FFC, 0x2E1B21385C26C926, 0x4D2C6DFC5AC42AED, 0x53380D139D95B3DF,
   0x650A73548BAF63DE, 0x766A0ABB3C77B2A8, 0x81C2C92E47EDAEE6, 0x92722C851482353B]

/-- FIPS 180-4 constants of SHA-384, rounds 40 to 79. -/
def sha512KB : List Nat :=
  [0xA2BFE8A14CF10364, 0xA81A664BBC423001, 0xC24B8B70D0F89791, 0xC76C51A30654BE30,
   0xD192E819D6EF5218, 0xD69906245565A910, 0xF40E35855771202A, 0x106AA07032BBD1B8,
   0x19A4C116B8D2D0C8, 0x1E376C085141AB53, 0x2748774CDF8EEB99, 0x34B0BCB5E19B48A8,
   0x391C0CB3C5C95A63, 0x4ED8AA4AE3418ACB, 0x5B9CCA4F7763E373, 0x682E6FF3D6B2B8A3,
   0x748F82EE5DEFB2FC, 0x78A5636F43172F60, 0x84C87814A1F0AB72, 0x8CC702081A6439EC,
   0x90BEFFFA23631E28, 0xA4506CEBDE82BDE9, 0xBEF9A3F7B2C67915, 0xC67178F2E372532B,
   0xCA273ECEEA26619C, 0xD186B8C721C0C207, 0xEADA7DD6CDE0EB1E, 0xF57D4F7FEE6ED178,
   0x06F067AA72176FBA, 0x0A637DC5A2C898A6, 0x113F9804BEF90DAE, 0x1B710B35131C471B,
   0x28DB77F523047D84, 0x32CAAB7B40C72493, 0x3C9EBE0A15C9BEBC, 0x431D67C49C100D4C,
   0x4CC5D4BECB3E42B6, 0x597F299CFC657E2A, 0x5FCB6FAB3AD6FAEC, 0x6C44198C4A475817]

/-- FIPS 180-4 constants of SHA-256. -/
def sha256K : List Nat :=
  [0x428A2F98, 0x71374491, 0xB5C0FBCF, 0xE9B5DBA5, 0x3956C25B, 0x59F111F1, 0x923F82A4, 0xAB1C5ED5,
   0xD807AA98, 0x12835B01, 0x243185BE, 0x550C7DC3, 0x72BE5D74, 0x80DEB1FE, 0x9BDC06A7, 0xC19BF174,
   0xE49B69C1, 0xEFBE4786, 0x0FC19DC6, 0x240CA1CC, 0x2DE92C6F, 0x4A7484AA, 0x5CB0A9DC, 0x76F988DA,
   0x983E5152, 0xA831C66D, 0xB00327C8, 0xBF597FC7, 0xC6E00BF3, 0xD5A79147, 0x06CA6351, 0x14292967,
   0x27B70A85, 0x2E1B2138, 0x4D2C6DFC, 0x53380D13, 0x650A7354, 0x766A0ABB, 0x81C2C92E, 0x92722C85,
   0xA2BFE8A1, 0xA81A664B, 0xC24B8B70, 0xC76C51A3, 0xD192E819, 0xD6990624, 0xF40E3585, 0x106AA070,
   0x19A4C116, 0x1E376C08, 0x2748774C, 0x34B0BCB5, 0x391C0CB3, 0x4ED8AA4A, 0x5B9CCA4F, 0x682E6FF3,
   0x748F82EE, 0x78A5636F, 0x84C87814, 0x8CC70208, 0x90BEFFFA, 0xA4506CEB, 0xBEF9A3F7, 0xC67178F2]

/-- FIPS 180-4 initial hash value of SHA-256. -/
def sha256H : List Nat :=
  [0x6A09E667, 0xBB67AE85, 0x3C6EF372, 0xA54FF53A, 0x510E527F, 0x9B05688C, 0x1F83D9AB, 0x5BE0CD19]

/-- FIPS 180-4 initial hash value of SHA-384. -/
def sha384H : List Nat :=
  [0xCBBB9D5DC1059ED8, 0x629A292A367CD507, 0x9159015A3070DD17, 0x152FECD8F70E5939,
   0x67332667FFC00B31, 0x8EB44A8768581511, 0xDB0C2E0D64F98FA7, 0x47B5481DBEFA4FA4]

/-- FIPS 197 substitution box, 0x00 to 0x7F. -/
def aesSboxA : List Nat :=
  [0x63, 0x7C, 0x77, 0x7B, 0xF2, 0x6B, 0x6F, 0xC5, 0x30, 0x01, 0x67, 0x2B, 0xFE, 0xD7, 0xAB, 0x76,
   0xCA, 0x82, 0xC9, 0x7D, 0xFA, 0x59, 0x47, 0xF0, 0xAD, 0xD4, 0xA2, 0xAF, 0x9C, 0xA4, 0x72, 0xC0,
   0xB7, 0xFD, 0x93, 0x26, 0x36, 0x3F, 0xF7, 0xCC, 0x34, 0xA5, 0xE5, 0xF1, 0x71, 0xD8, 0x31, 0x15,
   0x04, 0xC7, 0x23, 0xC3, 0x18, 0x96, 0x05, 0x9A, 0x07, 0x12, 0x80, 0xE2, 0xEB, 0x27, 0xB2, 0x75,
   0x09, 0x83, 0x2C, 0x1A, 0x1B, 0x6E, 0x5A, 0xA0, 0x52, 0x3B, 0xD6, 0xB3, 0x29, 0xE3, 0x2F, 0x84,
   0x53, 0xD1, 0x00, 0xED, 0x20, 0xFC, 0xB1, 0x5B, 0x6A, 0xCB, 0xBE, 0x39, 0x4A, 0x4C, 0x58, 0xCF,
   0xD0, 0xEF, 0xAA, 0xFB, 0x43, 0x4D, 0x33, 0x85, 0x45, 0xF9, 0x02, 0x7F, 0x50, 0x3C, 0x9F, 0xA8,
   0x51, 0xA3, 0x40, 0x8F, 0x92, 0x9D, 0x38, 0xF5, 0xBC, 0xB6, 0xDA, 0x21, 0x10, 0xFF, 0xF3, 0xD2]

/-- FIPS 197 substitution box, 0x80 to 0xFF. -/
def aesSboxB : List Nat :=
  [0xCD, 0x0C, 0x13, 0xEC, 0x5F, 0x97, 0x44, 0x17, 0xC4, 0xA7, 0x7E, 0x3D, 0x64, 0x5D, 0x19, 0x73,
   0x60, 0x81, 0x4F, 0xDC, 0x22, 0x2A, 0x90, 0x88, 0x46, 0xEE, 0xB8, 0x14, 0xDE, 0x5E, 0x0B, 0xDB,
   0xE0, 0x32, 0x3A, 0x0A, 0x49, 0x06, 0x24, 0x5C, 0xC2, 0xD3, 0xAC, 0x62, 0x91, 0x95, 0xE4, 0x79,
   0xE7, 0xC8, 0x37, 0x6D, 0x8D, 0xD5, 0x4E, 0xA9, 0x6C, 0x56, 0xF4, 0xEA, 0x65, 0x7A, 0xAE, 0x08,
   0xBA, 0x78, 0x25, 0x2E, 0x1C, 0xA6, 0xB4, 0xC6, 0xE8, 0xDD, 0x74, 0x1F, 0x4B, 0xBD, 0x8B, 0x8A,
   0x70, 0x3E, 0xB5, 0x66, 0x48, 0x03, 0xF6, 0x0E, 0x61, 0x35, 0x57, 0xB9, 0x86, 0xC1, 0x1D, 0x9E,
   0xE1, 0xF8, 0x98, 0x11, 0x69, 0xD9, 0x8E, 0x94, 0x9B, 0x1E, 0x87, 0xE9, 0xCE, 0x55, 0x28, 0xDF,
   0x8C, 0xA1, 0x89, 0x0D, 0xBF, 0xE6, 0x42, 0x68, 0x41, 0x99, 0x2D, 0x0F, 0xB0, 0x54, 0xBB, 0x16]

/-- FIPS 197 inverse box, 0x00 to 0x7F. -/
def aesInvA : List Nat :=
  [0x52, 0x09, 0x6A, 0xD5, 0x30, 0x36, 0xA5, 0x38, 0xBF, 0x40, 0xA3, 0x9E, 0x81, 0xF3, 0xD7, 0xFB,
   0x7C, 0xE3, 0x39, 0x82, 0x9B, 0x2F, 0xFF, 0x87, 0x34, 0x8E, 0x43, 0x44, 0xC4, 0xDE, 0xE9, 0xCB,
   0x54, 0x7B, 0x94, 0x32, 0xA6, 0xC2, 0x23, 0x3D, 0xEE, 0x4C, 0x95, 0x0B, 0x42, 0xFA, 0xC3, 0x4E,
   0x08, 0x2E, 0xA1, 0x66, 0x28, 0xD9, 0x24, 0xB2, 0x76, 0x5B, 0xA2, 0x49, 0x6D, 0x8B, 0xD1, 0x25,
   0x72, 0xF8, 0xF6, 0x64, 0x86, 0x68, 0x98, 0x16, 0xD4, 0xA4, 0x5C, 0xCC, 0x5D, 0x65, 0xB6, 0x92,
   0x6C, 0x70, 0x48, 0x50, 0xFD, 0xED, 0xB9, 0xDA, 0x5E, 0x15, 0x46, 0x57, 0xA7, 0x8D, 0x9D, 0x84,
   0x90, 0xD8, 0xAB, 0x00, 0x8C, 0xBC, 0xD3, 0x0A, 0xF7, 0xE4, 0x58, 0x05, 0xB8, 0xB3, 0x45, 0x06,
   0xD0, 0x2C, 0x1E, 0x8F, 0xCA, 0x3F, 0x0F, 0x02, 0xC1, 0xAF, 0xBD, 0x03, 0x01, 0x13, 0x8A, 0x6B]

/-- FIPS 197 inverse box, 0x80 to 0xFF. -/
def aesInvB : List Nat :=
  [0x3A, 0x91, 0x11, 0x41, 0x4F, 0x67, 0xDC, 0xEA, 0x97, 0xF2, 0xCF, 0xCE, 0xF0, 0xB4, 0xE6, 0x73,
   0x96, 0xAC, 0x74, 0x22, 0xE7, 0xAD, 0x35, 0x85, 0xE2, 0xF9, 0x37, 0xE8, 0x1C, 0x75, 0xDF, 0x6E,
   0x47, 0xF1, 0x1A, 0x71, 0x1D, 0x29, 0xC5, 0x89, 0x6F, 0xB7, 0x62, 0x0E, 0xAA, 0x18, 0xBE, 0x1B,
   0xFC, 0x56, 0x3E, 0x4B, 0xC6, 0xD2, 0x79, 0x20, 0x9A, 0xDB, 0xC0, 0xFE, 0x78, 0xCD, 0x5A, 0xF4,
   0x1F, 0xDD, 0xA8, 0x33, 0x88, 0x07, 0xC7, 0x31, 0xB1, 0x12, 0x10, 0x59, 0x27, 0x80, 0xEC, 0x5F,
   0x60, 0x51, 0x7F, 0xA9, 0x19, 0xB5, 0x4A, 0x0D, 0x2D, 0xE5, 0x7A, 0x9F, 0x93, 0xC9, 0x9C, 0xEF,
   0xA0, 0xE0, 0x3B, 0x4D, 0xAE, 0x2A, 0xF5, 0xB0, 0xC8, 0xEB, 0xBB, 0x3C, 0x83, 0x53, 0x99, 0x61,
   0x17, 0x2B, 0x04, 0x7E, 0xBA, 0x77, 0xD6, 0x26, 0xE1, 0x69, 0x14, 0x63, 0x55, 0x21, 0x0C, 0x7D]

/-- Rotate a w-bit number right. -/
def rotr (w n x : Nat) : Nat := (x >>> n) ||| ((x <<< (w - n)) % 2 ^ w)

/-- Rotate a w-bit number left. -/
def rotl (w n x : Nat) : Nat := ((x <<< n) % 2 ^ w) ||| (x >>> (w - n))

/-- The padded message of a SHA with blocks of bs bytes (FIPS 180-4, section 5.1). -/
def shaPad (bs : Nat) (m : Bytes) : Bytes :=
  let lf := bs / 8
  let z := (bs - (m.length + 1 + lf) % bs) % bs
  m ++ [0x80] ++ zeros z ++ beBytes lf (m.length * 8)

/-- The rotations and shifts of a SHA-2 variant. -/
structure ShaSpec where
  w : Nat
  s0 : Nat × Nat × Nat
  s1 : Nat × Nat × Nat
  b0 : Nat × Nat × Nat
  b1 : Nat × Nat × Nat
  k : List Nat

def shaSmall (w : Nat) (r : Nat × Nat × Nat) (x : Nat) : Nat := rotr w r.1 x ^^^ rotr w r.2.1 x ^^^ (x >>> r.2.2)
def shaBig (w : Nat) (r : Nat × Nat × Nat) (x : Nat) : Nat := rotr w r.1 x ^^^ rotr w r.2.1 x ^^^ rotr w r.2.2 x

/-- One word more of the message schedule; the schedule is kept newest first. -/
def shaExtend (p : ShaSpec) : Nat → List Nat → List Nat
  | 0, l => l
  | n + 1, l =>
    let g := fun i => l.getD i 0
    shaExtend p n (((shaSmall p.w p.s1 (g 1) + g 6 + shaSmall p.w p.s0 (g 14) + g 15) % 2 ^ p.w) :: l)

/-- One round of SHA-2 on the eight working variables. -/
def shaRound (p : ShaSpec) (v : List Nat) (kw : Nat × Nat) : List Nat :=
  match v with
  | [a, b, c, d, e, f, g, h] =>
    let m := 2 ^ p.w
    let t1 := (h + shaBig p.w p.b1 e + ((e &&& f) ^^^ ((m - 1 - e) &&& g)) + kw.1 + kw.2) % m
    let t2 := (shaBig p.w p.b0 a + ((a &&& b) ^^^ (a &&& c) ^^^ (b &&& c))) % m
    [(t1 + t2) % m, a, b, c, (d + t1) % m, e, f, g]
  | _ => v

/-- One block of SHA-2. -/
def shaBlock (p : ShaSpec) (h : List Nat) (blk : Bytes) : List Nat :=
  let ws := (chunksOf (p.w / 8) blk).map beNat
  let sched := (shaExtend p (p.k.length - 16) ws.reverse).reverse
  let v := (p.k.zip sched).foldl (shaRound p) h
  (h.zip v).map fun x => (x.1 + x.2) % 2 ^ p.w

/-- SHA-256 (FIPS 180-4). -/
def sha256Hash (m : Bytes) : Bytes :=
  let p : ShaSpec := ⟨32, (7, 18, 3), (17, 19, 10), (2, 13, 22), (6, 11, 25), sha256K⟩
  (((chunksOf 64 (shaPad 64 m)).foldl (shaBlock p) sha256H).map (beBytes 4)).flatten

/-- SHA-384 (FIPS 180-4). -/
def sha384Hash (m : Bytes) : Bytes :=
  let p : ShaSpec := ⟨64, (1, 8, 7), (19, 61, 6), (28, 34, 39), (14, 18, 41), sha512KA ++ sha512KB⟩
  ((((chunksOf 128 (shaPad 128 m)).foldl (shaBlock p) sha384H).map (beBytes 8)).flatten).take 48

def xorBytes (a b : Bytes) : Bytes := (a.zip b).map fun x => x.1 ^^^ x.2

/-- HMAC (FIPS 198-1) over a hash with blocks of bs bytes. -/
def hmac (hash : Bytes → Bytes) (bs : Nat) (key m : Bytes) : Bytes :=
  let k := padTo bs (if bs < key.length then hash key else key)
  hash (xorBytes k (List.replicate bs 0x5C) ++ hash (xorBytes k (List.replicate bs 0x36) ++ m))

/-- FIPS 197 SubBytes of one byte. -/
def aesSub (x : Byte) : Byte :=
  BitVec.ofNat 8 (if x.toNat < 128 then aesSboxA.getD x.toNat 0 else aesSboxB.getD (x.toNat - 128) 0)

/-- FIPS 197 InvSubBytes of one byte. -/
def aesInvSub (x : Byte) : Byte :=
  BitVec.ofNat 8 (if x.toNat < 128 then aesInvA.getD x.toNat 0 else aesInvB.getD (x.toNat - 128) 0)

/-- Multiplication by x in the AES field. -/
def xtime (b : Byte) : Byte := if b.getLsbD 7 then (b <<< 1) ^^^ 0x1B else b <<< 1

/-- Multiplication of a byte by a small constant in the AES field. -/
def aesMul (k : Nat) (b : Byte) : Byte :=
  let b2 := xtime b
  let b4 := xtime b2
  let b8 := xtime b4
  (if bit k 0 then b else 0) ^^^ (if bit k 1 then b2 else 0) ^^^ (if bit k 2 then b4 else 0) ^^^ (if bit k 3 then b8 else 0)

/-- The key schedule's words, newest first. -/
def aesExpand (nk : Nat) : Nat → Nat → Byte → List Bytes → List Bytes
  | 0, _, _, l => l
  | n + 1, i, rc, l =>
    let prev := l.getD 0 []
    let old := l.getD (nk - 1) []
    if i % nk = 0 then
      let t := ((prev.drop 1) ++ (prev.take 1)).map aesSub
      aesExpand nk n (i + 1) (xtime rc) (xorBytes old (xorBytes t [rc, 0, 0, 0]) :: l)
    else if nk > 6 ∧ i % nk = 4 then aesExpand nk n (i + 1) rc (xorBytes old (prev.map aesSub) :: l)
    else aesExpand nk n (i + 1) rc (xorBytes old prev :: l)

/-- The round keys of a 16-, 24- or 32-byte key. -/
def aesKeys (key : Bytes) : List Bytes :=
  let nk := key.length / 4
  let total := 4 * (nk + 7)
  let w := (aesExpand nk (total - nk) nk 1 ((chunksOf 4 key).reverse)).reverse
  chunksOf 16 w.flatten

def shiftRows (s : Bytes) : Bytes :=
  (List.range 16).map fun i => s.getD ((i + 4 * (i % 4)) % 16) 0
def invShiftRows (s : Bytes) : Bytes :=
  (List.range 16).map fun i => s.getD ((i + 12 * (i % 4)) % 16) 0

/-- A column transform with the circulant first row given. -/
def mixWith (a b c d : Nat) (s : Bytes) : Bytes :=
  ((chunksOf 4 s).map fun col =>
    (List.range 4).map fun i =>
      aesMul a (col.getD i 0) ^^^ aesMul b (col.getD ((i + 1) % 4) 0) ^^^ aesMul c (col.getD ((i + 2) % 4) 0)
        ^^^ aesMul d (col.getD ((i + 3) % 4) 0)).flatten

/-- AES encryption of one block under expanded keys. -/
def aesEnc (ks : List Bytes) (b : Bytes) : Bytes :=
  match ks with
  | [] => b
  | k0 :: t =>
    let s := t.dropLast.foldl (fun s k => xorBytes (mixWith 2 3 1 1 (shiftRows (s.map aesSub))) k) (xorBytes b k0)
    xorBytes (shiftRows (s.map aesSub)) (t.getLastD [])

/-- AES decryption of one block under expanded keys. -/
def aesDec (ks : List Bytes) (b : Bytes) : Bytes :=
  match ks.reverse with
  | [] => b
  | kn :: t =>
    let s := t.dropLast.foldl (fun s k => mixWith 14 11 13 9 (xorBytes ((invShiftRows s).map aesInvSub) k)) (xorBytes b kn)
    xorBytes ((invShiftRows s).map aesInvSub) (t.getLastD [])

/-- Key stream blocks of a counter whose low w bits count up from the first block (SP 800-38A). -/
def ctrStream (ks : List Bytes) (w : Nat) : Nat → Nat → Bytes
  | 0, _ => []
  | n + 1, c => aesEnc ks (beBytes 16 c) ++ ctrStream ks w n (c / 2 ^ w * 2 ^ w + (c + 1) % 2 ^ w)

/-- Counter mode over a byte string. -/
def aesCtr (ks : List Bytes) (w c : Nat) (m : Bytes) : Bytes := xorBytes m (ctrStream ks w (ceilDiv m.length 16) c)

/-- CBC encryption of whole blocks; the answer carries the ciphertext. -/
def cbcEnc (ks : List Bytes) : Bytes → List Bytes → Bytes
  | _, [] => []
  | iv, b :: t => let c := aesEnc ks (xorBytes b iv); c ++ cbcEnc ks c t

/-- CBC decryption of whole blocks. -/
def cbcDec (ks : List Bytes) : Bytes → List Bytes → Bytes
  | _, [] => []
  | iv, b :: t => xorBytes (aesDec ks b) iv ++ cbcDec ks b t

/-- Multiplication in GF(2^128) with GCM's bit order (SP 800-38D, section 6.3): bit 127 is the first bit. -/
def gcmMulAux : Nat → Nat → Nat → Nat → Nat
  | 0, _, _, z => z
  | n + 1, x, v, z =>
    gcmMulAux n x (if v % 2 = 1 then (v / 2) ^^^ (0xE1 <<< 120) else v / 2) (if bit x n then z ^^^ v else z)
def gcmMul (x y : Nat) : Nat := gcmMulAux 128 x y 0

/-- GHASH over whole blocks. -/
def ghash (h : Nat) (b : Bytes) : Nat := (chunksOf 16 b).foldl (fun y x => gcmMul (y ^^^ beNat x) h) 0

def pad16 (b : Bytes) : Bytes := b ++ zeros ((16 - b.length % 16) % 16)

/-- AES-GCM (SP 800-38D) over a message: the transformed bytes and the 16-byte tag. `enc` says which of the two is the
ciphertext. -/
def aesGcm (key iv aad m : Bytes) (enc : Bool) : Bytes × Bytes :=
  let ks := aesKeys key
  let h := beNat (aesEnc ks (zeros 16))
  let j0 := if iv.length = 12 then beNat iv * 2 ^ 32 + 1
    else ghash h (pad16 iv ++ zeros 8 ++ beBytes 8 (iv.length * 8))
  let out := aesCtr ks 32 (j0 / 2 ^ 32 * 2 ^ 32 + (j0 + 1) % 2 ^ 32) m
  let c := if enc then out else m
  let s := ghash h (pad16 aad ++ pad16 c ++ beBytes 8 (aad.length * 8) ++ beBytes 8 (c.length * 8))
  (out, xorBytes (beBytes 16 s) (aesEnc ks (beBytes 16 j0)))

/-- CBC-MAC over whole blocks. -/
def cbcMac (ks : List Bytes) (bl : List Bytes) : Bytes := bl.foldl (fun y b => aesEnc ks (xorBytes y b)) (zeros 16)

/-- AES-CCM (SP 800-38C): the transformed bytes and the tag of tlen bytes. -/
def aesCcm (key nonce aad m : Bytes) (tlen : Nat) (enc : Bool) : Bytes × Bytes :=
  let ks := aesKeys key
  let q := 15 - nonce.length
  let fmt (f : Nat) (cnt : Nat) : Bytes := leBytes 1 f ++ nonce ++ beBytes q cnt
  let out := xorBytes m (ctrStream ks (8 * q) (ceilDiv m.length 16) (beNat (fmt (q - 1) 1)))
  let p := if enc then m else out
  let b0 := fmt ((if aad.isEmpty then 0 else 64) + (tlen - 2) / 2 * 8 + (q - 1)) p.length
  let al := if aad.isEmpty then [] else
    if aad.length < 0xFF00 then beBytes 2 aad.length ++ aad else [0xFF, 0xFE] ++ beBytes 4 aad.length ++ aad
  let t := cbcMac ks (chunksOf 16 (b0 ++ pad16 al ++ pad16 p))
  (out, (xorBytes t (aesEnc ks (fmt (q - 1) 0))).take tlen)

/-- Multiplication by x of an XTS tweak (IEEE 1619), the tweak read little-endian. -/
def xtsNext (t : Nat) : Nat := if bit t 127 then (t * 2 % 2 ^ 128) ^^^ 0x87 else t * 2

/-- One XTS block under a tweak. -/
def xtsBlock (f : Bytes → Bytes) (t : Nat) (b : Bytes) : Bytes := xorBytes (f (xorBytes b (leBytes 16 t))) (leBytes 16 t)

/-- XTS over the blocks of a data unit, with ciphertext stealing for a partial last block (IEEE 1619). -/
def xtsRun (f : Bytes → Bytes) (enc : Bool) : Nat → List Bytes → Bytes
  | _, [] => []
  | t, [b] => xtsBlock f t b
  | t, b :: [c] =>
    if c.length = 16 then xtsBlock f t b ++ xtsBlock f (xtsNext t) c
    else
      let x := xtsBlock f (if enc then t else xtsNext t) b
      let y := xtsBlock f (if enc then xtsNext t else t) (c ++ x.drop c.length)
      y ++ x.take c.length
  | t, b :: rest => xtsBlock f t b ++ xtsRun f enc (xtsNext t) rest

/-- AES-XTS of one data unit: both halves of the key, and the tweak value. -/
def aesXts (key : Bytes) (tweak : Bytes) (enc : Bool) (m : Bytes) : Bytes :=
  let h := key.length / 2
  let k1 := aesKeys (key.take h)
  let t := leNat (aesEnc (aesKeys (key.drop h)) tweak)
  xtsRun (if enc then aesEnc k1 else aesDec k1) enc t (chunksOf 16 m)

/-- A CMAC subkey step (SP 800-38B). -/
def cmacDbl (n : Nat) : Nat := if bit n 127 then (n * 2 % 2 ^ 128) ^^^ 0x87 else n * 2

/-- AES-CMAC (SP 800-38B). -/
def aesCmac (key m : Bytes) : Bytes :=
  let ks := aesKeys key
  let k1 := cmacDbl (beNat (aesEnc ks (zeros 16)))
  let n := if m.isEmpty then 1 else ceilDiv m.length 16
  let last := m.drop (16 * (n - 1))
  let lb := if last.length = 16 then xorBytes last (beBytes 16 k1)
    else xorBytes (padTo 16 (last ++ [0x80])) (beBytes 16 (cmacDbl k1))
  cbcMac ks (chunksOf 16 (m.take (16 * (n - 1))) ++ [lb])

/-- The ChaCha quarter round on four places of the state. -/
def chachaQuarter (s : List Nat) (i j k l : Nat) : List Nat :=
  let m := 2 ^ 32
  let a := (s.getD i 0 + s.getD j 0) % m
  let d := rotl 32 16 (s.getD l 0 ^^^ a)
  let c := (s.getD k 0 + d) % m
  let b := rotl 32 12 (s.getD j 0 ^^^ c)
  let a := (a + b) % m
  let d := rotl 32 8 (d ^^^ a)
  let c := (c + d) % m
  let b := rotl 32 7 (b ^^^ c)
  (((s.set i a).set j b).set k c).set l d

def chachaDouble (s : List Nat) : List Nat :=
  let q := fun s (x : Nat × Nat × Nat × Nat) => chachaQuarter s x.1 x.2.1 x.2.2.1 x.2.2.2
  [(0, 4, 8, 12), (1, 5, 9, 13), (2, 6, 10, 14), (3, 7, 11, 15), (0, 5, 10, 15), (1, 6, 11, 12), (2, 7, 8, 13),
    (3, 4, 9, 14)].foldl q s

/-- One ChaCha20 block (RFC 8439, section 2.3). -/
def chachaBlock (key nonce : Bytes) (ctr : Nat) : Bytes :=
  let st := [0x61707865, 0x3320646E, 0x79622D32, 0x6B206574] ++ (chunksOf 4 key).map leNat ++ [ctr % 2 ^ 32]
    ++ (chunksOf 4 nonce).map leNat
  let w := (List.range 10).foldl (fun s _ => chachaDouble s) st
  ((st.zip w).map fun x => leBytes 4 ((x.1 + x.2) % 2 ^ 32)).flatten

def chachaStream (key nonce : Bytes) : Nat → Nat → Bytes
  | 0, _ => []
  | n + 1, c => chachaBlock key nonce c ++ chachaStream key nonce n (c + 1)

/-- Poly1305 (RFC 8439, section 2.5). -/
def poly1305 (key m : Bytes) : Bytes :=
  let r := leNat (key.take 16) &&& 0x0FFFFFFC0FFFFFFC0FFFFFFC0FFFFFFF
  let acc := (chunksOf 16 m).foldl (fun a b => (a + leNat (b ++ [1])) * r % (2 ^ 130 - 5)) 0
  leBytes 16 (acc + leNat (key.drop 16))

/-- ChaCha20-Poly1305 (RFC 8439, section 2.8): the transformed bytes and the tag. -/
def chachaPoly (key nonce aad m : Bytes) (enc : Bool) : Bytes × Bytes :=
  let otk := (chachaBlock key nonce 0).take 32
  let out := xorBytes m (chachaStream key nonce (ceilDiv m.length 64) 1)
  let c := if enc then out else m
  (out, poly1305 otk (pad16 aad ++ pad16 c ++ leBytes 8 aad.length ++ leBytes 8 c.length))

/-- The prime, the order, the coefficient b and the base point of P-384 (FIPS 186-5). -/
def p384P : Nat := 2 ^ 384 - 2 ^ 128 - 2 ^ 96 + 2 ^ 32 - 1
def p384N : Nat := 0xFFFFFFFFFFFFFFFFFFFFFFFFFFFFFFFFFFFFFFFFFFFFFFFFC7634D81F4372DDF581A0DB248B0A77AECEC196ACCC52973
def p384B : Nat := 0xB3312FA7E23EE7E4988E056BE3F82D19181D9C6EFE8141120314088F5013875AC656398D8A2ED19D2A85C8EDD3EC2AEF
def p384G : Nat × Nat :=
  (0xAA87CA22BE8B05378EB1C71EF320AD746E1D3B628BA79B9859F741E082542A385502F25DBF55296C3A545E3872760AB7,
   0x3617DE4A96262C6F5D9E98BF9292DC29F8F41DBD289A147CE9DA3113B5F0B8C00A60B1CE1D7E819D7A431D7C90EA0E5F)

/-- Modular power by squaring; fuel bounds the exponent's bits. -/
def powMod (m : Nat) : Nat → Nat → Nat → Nat → Nat
  | 0, _, _, acc => acc
  | f + 1, b, e, acc => powMod m f (b * b % m) (e / 2) (if e % 2 = 1 then acc * b % m else acc)
def invMod (m x : Nat) : Nat := powMod m 400 (x % m) (m - 2) 1

/-- Addition of points of P-384; none is the point at infinity. -/
def ecAdd (a b : Option (Nat × Nat)) : Option (Nat × Nat) :=
  let p := p384P
  match a, b with
  | none, q => q
  | q, none => q
  | some (x1, y1), some (x2, y2) =>
    if x1 = x2 ∧ (y1 + y2) % p = 0 then none
    else
      let l := if x1 = x2 then (3 * x1 * x1 + (p - 3)) * invMod p (2 * y1) % p
        else (y2 + (p - y1)) * invMod p (x2 + (p - x1)) % p
      let x3 := (l * l + (p - x1) + (p - x2)) % p
      some (x3, (l * (x1 + (p - x3)) + (p - y1)) % p)

/-- Multiplication of a point by a number; fuel bounds its bits. -/
def ecMul : Nat → Nat → Option (Nat × Nat) → Option (Nat × Nat) → Option (Nat × Nat)
  | 0, _, _, acc => acc
  | f + 1, k, q, acc => ecMul f (k / 2) (ecAdd q q) (if k % 2 = 1 then ecAdd acc q else acc)

/-- ECDSA P-384 verification of a SHA-384 digest: public key X then Y, signature r then s, each 48 bytes big-endian
(R72). -/
def ecdsaVerify (pub sig digest : Bytes) : Bool :=
  let x := beAt pub 0 48
  let y := beAt pub 48 48
  let r := beAt sig 0 48
  let s := beAt sig 48 48
  let p := p384P
  let onCurve := decide (x < p) && decide (y < p) && (y * y % p == (x * x * x + (p - 3) * x + p384B) % p)
  if !onCurve || r == 0 || s == 0 || decide (p384N ≤ r) || decide (p384N ≤ s) then false
  else
    let w := invMod p384N s
    let u1 := beNat digest * w % p384N
    let u2 := r * w % p384N
    match ecAdd (ecMul 384 u1 (some p384G) none) (ecMul 384 u2 (some (x, y)) none) with
    | none => false
    | some q => q.1 % p384N == r

end Sys2Proof.Machine
end

