-- ==== Sys2Proof/Machine/Rv.lean ====
section
/-! DEFINITION. The instructions of the flow-core threads as bits: RV32I with M, C, Zicsr and Zicntr (R411), and the Torolo
extension (R426), decoded from instruction words; and what the arithmetic computes. Encodings are the RISC-V base
specification's, which the manual names. -/

namespace Sys2Proof.Machine

/-- The arithmetic of RV32I and M. -/
inductive AluOp where
  | add | sub | sll | slt | sltu | xor | srl | sra | or | and
  | mul | mulh | mulhsu | mulhu | div | divu | rem | remu
deriving DecidableEq, Repr, Inhabited

/-- The conditions of a branch. -/
inductive BrOp where
  | eq | ne | lt | ge | ltu | geu
deriving DecidableEq, Repr, Inhabited

/-- The instructions of Table 14-4. -/
inductive TrOp where
  | wait | rxf | txf | dma | claim | put | commit | recv | drop
deriving DecidableEq, Repr, Inhabited

/-- One decoded instruction. Offsets and immediates are integers; widths are bytes. -/
inductive RvOp where
  | lui (rd imm : Nat)
  | auipc (rd imm : Nat)
  | jal (rd : Nat) (off : Int)
  | jalr (rd rs1 : Nat) (off : Int)
  | branch (op : BrOp) (rs1 rs2 : Nat) (off : Int)
  | load (width : Nat) (signed : Bool) (rd rs1 : Nat) (off : Int)
  | store (width rs1 rs2 : Nat) (off : Int)
  | aluImm (op : AluOp) (rd rs1 : Nat) (imm : Int)
  | alu (op : AluOp) (rd rs1 rs2 : Nat)
  | nop
  | ecall
  | ebreak
  /-- f3 1 to 3: with a register, 5 to 7: with the immediate in rs1. -/
  | csr (f3 num rd rs1 : Nat)
  | tr (op : TrOp) (rd rs1 rs2 : Nat)
  | illegal
deriving DecidableEq, Repr, Inhabited

/-- A field of a word sign-extended from its width. -/
def sx (w n : Nat) : Int := toInt w n

/-- The operation of an OP instruction by funct7 and funct3. -/
def aluOf (f7 f3 : Nat) : Option AluOp :=
  match f7, f3 with
  | 0, 0 => some .add | 0, 1 => some .sll | 0, 2 => some .slt | 0, 3 => some .sltu | 0, 4 => some .xor
  | 0, 5 => some .srl | 0, 6 => some .or | 0, 7 => some .and
  | 0x20, 0 => some .sub | 0x20, 5 => some .sra
  | 1, 0 => some .mul | 1, 1 => some .mulh | 1, 2 => some .mulhsu | 1, 3 => some .mulhu
  | 1, 4 => some .div | 1, 5 => some .divu | 1, 6 => some .rem | 1, 7 => some .remu
  | _, _ => none

/-- A branch condition by funct3. -/
def brOf (f3 : Nat) : Option BrOp :=
  match f3 with
  | 0 => some .eq | 1 => some .ne | 4 => some .lt | 5 => some .ge | 6 => some .ltu | 7 => some .geu | _ => none

/-- An instruction of the Torolo extension by opcode and funct3 (Table 14-4). -/
def trOf (opcode f3 : Nat) : Option TrOp :=
  match opcode, f3 with
  | 0x0B, 0 => some .wait | 0x0B, 1 => some .rxf | 0x0B, 2 => some .txf | 0x0B, 3 => some .dma
  | 0x2B, 0 => some .claim | 0x2B, 1 => some .put | 0x2B, 2 => some .commit | 0x2B, 3 => some .recv
  | 0x2B, 4 => some .drop
  | _, _ => none

/-- Opcode and funct3 of an instruction of the extension (Table 14-4). -/
def TrOp.code : TrOp → Nat × Nat
  | .wait => (0x0B, 0) | .rxf => (0x0B, 1) | .txf => (0x0B, 2) | .dma => (0x0B, 3)
  | .claim => (0x2B, 0) | .put => (0x2B, 1) | .commit => (0x2B, 2) | .recv => (0x2B, 3) | .drop => (0x2B, 4)

/-- The rs2 field of the extension's instructions without a second source is x0 (Table 14-4). -/
def TrOp.usesRs2 : TrOp → Bool
  | .rxf => true | .put => true | _ => false

/-- A 32-bit instruction word (R411, R426). -/
def decode32 (w : Nat) : RvOp :=
  let rd := bits w 7 5
  let f3 := bits w 12 3
  let rs1 := bits w 15 5
  let rs2 := bits w 20 5
  let f7 := bits w 25 7
  let immI := sx 12 (bits w 20 12)
  let immS := sx 12 (f7 * 32 + rd)
  let immB := sx 13 (bits w 31 1 * 4096 + bits w 7 1 * 2048 + bits w 25 6 * 32 + bits w 8 4 * 2)
  let immJ := sx 21 (bits w 31 1 * 0x100000 + bits w 12 8 * 4096 + bits w 20 1 * 2048 + bits w 21 10 * 2)
  match bits w 0 7 with
  | 0x37 => .lui rd (bits w 12 20 * 4096)
  | 0x17 => .auipc rd (bits w 12 20 * 4096)
  | 0x6F => .jal rd immJ
  | 0x67 => if f3 = 0 then .jalr rd rs1 immI else .illegal
  | 0x63 => match brOf f3 with
    | some op => .branch op rs1 rs2 immB
    | none => .illegal
  | 0x03 => match f3 with
    | 0 => .load 1 true rd rs1 immI
    | 1 => .load 2 true rd rs1 immI
    | 2 => .load 4 true rd rs1 immI
    | 4 => .load 1 false rd rs1 immI
    | 5 => .load 2 false rd rs1 immI
    | _ => .illegal
  | 0x23 => match f3 with
    | 0 => .store 1 rs1 rs2 immS
    | 1 => .store 2 rs1 rs2 immS
    | 2 => .store 4 rs1 rs2 immS
    | _ => .illegal
  | 0x13 => match f3 with
    | 0 => .aluImm .add rd rs1 immI
    | 1 => if f7 = 0 then .aluImm .sll rd rs1 rs2 else .illegal
    | 2 => .aluImm .slt rd rs1 immI
    | 3 => .aluImm .sltu rd rs1 immI
    | 4 => .aluImm .xor rd rs1 immI
    | 5 => if f7 = 0 then .aluImm .srl rd rs1 rs2 else if f7 = 0x20 then .aluImm .sra rd rs1 rs2 else .illegal
    | 6 => .aluImm .or rd rs1 immI
    | _ => .aluImm .and rd rs1 immI
  | 0x33 => match aluOf f7 f3 with
    | some op => .alu op rd rs1 rs2
    | none => .illegal
  | 0x0F => if f3 = 0 then .nop else .illegal
  | 0x73 =>
    if f3 = 0 then
      if w = 0x00000073 then .ecall else if w = 0x00100073 then .ebreak else if w = 0x10500073 then .nop else .illegal
    else if f3 = 4 then .illegal
    else .csr f3 (bits w 20 12) rd rs1
  | op => match trOf op f3 with
    | some t => if f7 = 0 ∧ (t.usesRs2 ∨ rs2 = 0) then .tr t rd rs1 rs2 else .illegal
    | none => .illegal

/-- A 16-bit instruction of the C extension for RV32. -/
def decode16 (h : Nat) : RvOp :=
  let rdp := 8 + bits h 2 3
  let rsp := 8 + bits h 7 3
  let rd := bits h 7 5
  let rs2 := bits h 2 5
  let imm6 := sx 6 (bits h 12 1 * 32 + bits h 2 5)
  let offJ := sx 12 (bits h 12 1 * 2048 + bits h 11 1 * 16 + bits h 9 2 * 256 + bits h 8 1 * 1024 + bits h 7 1 * 64
    + bits h 6 1 * 128 + bits h 3 3 * 2 + bits h 2 1 * 32)
  let offB := sx 9 (bits h 12 1 * 256 + bits h 10 2 * 8 + bits h 5 2 * 64 + bits h 3 2 * 2 + bits h 2 1 * 32)
  let offW : Nat := bits h 10 3 * 8 + bits h 6 1 * 4 + bits h 5 1 * 64
  match bits h 0 2, bits h 13 3 with
  | 0, 0 =>
    let u : Nat := bits h 11 2 * 16 + bits h 7 4 * 64 + bits h 6 1 * 4 + bits h 5 1 * 8
    if u = 0 then .illegal else .aluImm .add rdp 2 u
  | 0, 2 => .load 4 true rdp rsp offW
  | 0, 6 => .store 4 rsp rdp offW
  | 1, 0 => .aluImm .add rd rd imm6
  | 1, 1 => .jal 1 offJ
  | 1, 2 => .aluImm .add rd 0 imm6
  | 1, 3 =>
    if rd = 2 then
      let i := sx 10 (bits h 12 1 * 512 + bits h 6 1 * 16 + bits h 5 1 * 64 + bits h 3 2 * 128 + bits h 2 1 * 32)
      if i = 0 then .illegal else .aluImm .add 2 2 i
    else if imm6 = 0 then .illegal
    else .lui rd (ofInt 32 (imm6 * 4096))
  | 1, 4 =>
    match bits h 10 2 with
    | 0 => if bits h 12 1 = 0 then .aluImm .srl rsp rsp rs2 else .illegal
    | 1 => if bits h 12 1 = 0 then .aluImm .sra rsp rsp rs2 else .illegal
    | 2 => .aluImm .and rsp rsp imm6
    | _ =>
      if bits h 12 1 = 1 then .illegal
      else match bits h 5 2 with
        | 0 => .alu .sub rsp rsp rdp
        | 1 => .alu .xor rsp rsp rdp
        | 2 => .alu .or rsp rsp rdp
        | _ => .alu .and rsp rsp rdp
  | 1, 5 => .jal 0 offJ
  | 1, 6 => .branch .eq rsp 0 offB
  | 1, 7 => .branch .ne rsp 0 offB
  | 2, 0 => if bits h 12 1 = 0 then .aluImm .sll rd rd rs2 else .illegal
  | 2, 2 => if rd = 0 then .illegal else .load 4 true rd 2 ((bits h 12 1 * 32 + bits h 4 3 * 4 + bits h 2 2 * 64 : Nat) : Int)
  | 2, 4 =>
    if bits h 12 1 = 0 then
      if rs2 = 0 then (if rd = 0 then .illegal else .jalr 0 rd 0) else .alu .add rd 0 rs2
    else if rs2 = 0 then (if rd = 0 then .ebreak else .jalr 1 rd 0)
    else .alu .add rd rd rs2
  | 2, 6 => .store 4 2 rs2 ((bits h 9 4 * 4 + bits h 7 2 * 64 : Nat) : Int)
  | _, _ => .illegal

/-- The result of an operation on two 32-bit values, the second already an integer: the base specification's, division
corners included. -/
def AluOp.eval (op : AluOp) (a b : Nat) : Nat :=
  let sa := toInt 32 a
  let sb := toInt 32 b
  let sh := b % 32
  match op with
  | .add => (a + b) % 2 ^ 32
  | .sub => (a + 2 ^ 32 - b) % 2 ^ 32
  | .sll => a * 2 ^ sh % 2 ^ 32
  | .slt => b2n (decide (sa < sb))
  | .sltu => b2n (decide (a < b))
  | .xor => Nat.xor a b
  | .srl => a / 2 ^ sh
  | .sra => ofInt 32 (sa / (2 ^ sh : Nat))
  | .or => Nat.lor a b
  | .and => Nat.land a b
  | .mul => a * b % 2 ^ 32
  | .mulh => ofInt 32 (sa * sb / (2 ^ 32 : Nat))
  | .mulhsu => ofInt 32 (sa * (b : Int) / (2 ^ 32 : Nat))
  | .mulhu => a * b / 2 ^ 32
  | .div => if b = 0 then 2 ^ 32 - 1 else ofInt 32 (sa.tdiv sb)
  | .divu => if b = 0 then 2 ^ 32 - 1 else a / b
  | .rem => if b = 0 then a else ofInt 32 (sa.tmod sb)
  | .remu => if b = 0 then a else a % b

/-- The issue slots an operation takes: 33 for a division or remainder (R411). -/
def AluOp.slots (op : AluOp) : Nat :=
  match op with
  | .div | .divu | .rem | .remu => 33
  | _ => 1

/-- A branch is taken. -/
def BrOp.holds (op : BrOp) (a b : Nat) : Bool :=
  match op with
  | .eq => a == b
  | .ne => a != b
  | .lt => decide (toInt 32 a < toInt 32 b)
  | .ge => decide (toInt 32 b ≤ toInt 32 a)
  | .ltu => decide (a < b)
  | .geu => decide (b ≤ a)

end Sys2Proof.Machine
end

