-- ==== Sys2Proof/Machine/HostOps.lean ====
section
/-! DEFINITION. The endpoint's operations (Chapter 6): configuration fields, BAR decoding, vectors and messages, error
reporting, tags, who may master, the instances as the endpoint sees them, and the buffers of commands (Table 7-3). -/

namespace Sys2Proof.Machine

/-- The key of a configuration field in a function's map. -/
def cfgKey : CfgField → Nat
  | .msiEnable => 0 | .msixEnable => 1 | .memorySpaceEnable => 2 | .parityErrorResponse => 3 | .serrEnable => 4
  | .interruptDisable => 5 | .cacheLineSize => 6 | .interruptLine => 7 | .powerState => 8
  | .extendedTagEnable => 9 | .tenBitTagEnable => 10 | .relaxedOrderingEnable => 11 | .maxPayloadSize => 12
  | .maxReadRequestSize => 13 | .completionTimeoutValue => 14 | .aspmL0sEnable => 15 | .aspmL1Enable => 16
  | .aspmL11Enable => 17 | .aspmL12Enable => 18 | .ltrEnable => 19 | .multipleMessageEnable => 20 | .msiMask => 21
  | .msiAddress => 22 | .msiData => 23 | .msixFunctionMask => 24 | .vfMemorySpaceEnable => 25 | .ariHierarchy => 26
  | .vfTenBitTagEnable => 27 | .numVfs => 28 | .systemPageSize => 29 | .aerUncorrectableStatus => 30
  | .aerCorrectableStatus => 31 | .aerUncorrectableMask => 32 | .aerCorrectableMask => 33
  | .aerUncorrectableSeverity => 34 | .statusErrorBits => 35 | .readOnly _ => 36

/-- The reset value of a configuration field (Tables 6-1, 6-4, 6-9, 6-11; else the base specification's). -/
def cfgReset : CfgField → Nat
  | .extendedTagEnable => 1 | .relaxedOrderingEnable => 1 | .maxReadRequestSize => 2 | .systemPageSize => 1
  | .aerUncorrectableMask => 0x400000 | .aerCorrectableMask => 0x6000 | .aerUncorrectableSeverity => 0x462030
  | _ => 0

/-- The width of a configuration field in bits. -/
def cfgWidth : CfgField → Nat
  | .cacheLineSize => 8 | .interruptLine => 8 | .powerState => 2 | .maxPayloadSize => 3 | .maxReadRequestSize => 3
  | .completionTimeoutValue => 4 | .multipleMessageEnable => 3 | .msiMask => 32 | .msiAddress => 64 | .msiData => 16
  | .numVfs => 16 | .systemPageSize => 32 | .aerUncorrectableStatus => 32 | .aerCorrectableStatus => 32
  | .aerUncorrectableMask => 32 | .aerCorrectableMask => 32 | .aerUncorrectableSeverity => 32 | .statusErrorBits => 16
  | .readOnly _ => 0
  | _ => 1

/-- The sticky fields, kept through a reset of configuration space (R176). -/
def cfgSticky (f : CfgField) : Bool :=
  f == .aerUncorrectableStatus || f == .aerCorrectableStatus || f == .aerUncorrectableMask || f == .aerCorrectableMask
  || f == .aerUncorrectableSeverity

/-- A function as held. -/
def State.fn (s : State) (n : Nat) : Fn := s.fns.getD n Fn.reset

/-- A function's record changed. -/
def State.withFn (s : State) (n : Nat) (f : Fn → Fn) : State := s.withFns fun m => m.put n (f (s.fn n))

/-- A configuration field of a function. -/
def State.cfg (s : State) (n : Nat) (f : CfgField) : Nat := ((s.fn n).cfg.get? (cfgKey f)).getD (cfgReset f)

/-- A configuration field set. -/
def State.cfgPut (s : State) (n : Nat) (f : CfgField) (v : Nat) : State :=
  s.withFn n fun x => { x with cfg := x.cfg.put (cfgKey f) (v % 2 ^ cfgWidth f) }

/-- A function's configuration space at its reset value, sticky bits kept. -/
def Fn.cfgCleared (x : Fn) : Fn :=
  let keep := [CfgField.aerUncorrectableStatus, .aerCorrectableStatus, .aerUncorrectableMask, .aerCorrectableMask,
    .aerUncorrectableSeverity].map cfgKey
  { x with bme := false, msiEn := false, msixEn := false, cfg := x.cfg.keep fun k _ => keep.contains k }

/-- An instance as held: instance 0 and the others are absent until made. -/
def State.inst (s : State) (n : Nat) : Inst := s.insts.getD n Inst.none_

/-- An instance's record changed. -/
def State.withInst (s : State) (n : Nat) (f : Inst → Inst) : State := s.withInsts fun m => m.put n (f (s.inst n))

/-- A field of the record in force (Table 8-2). -/
def State.limit (s : State) (n off len : Nat) : Nat := leAt (s.inst n).record off len

/-- NumVFs while VF Enable is set, else 0. -/
def State.numVfs (s : State) : Nat := if s.host.vfEnable then min 63 (s.cfg 0 .numVfs) else 0

/-- A function is on the bus: PF0, or an enabled VF (R151). -/
def State.fnPresent (s : State) (n : Nat) : Bool := n == 0 || decide (n ≤ s.numVfs)

/-- Memory decoding of a function's BARs (R147). -/
def State.decodes (s : State) (n : Nat) : Bool :=
  s.host.up && s.fnPresent n && !s.host.d3hot && s.cfg 0 (if n = 0 then .memorySpaceEnable else .vfMemorySpaceEnable) == 1

/-- The function may issue requests (R171): Bus Master Enable set, PF0 in D0, the link up, the function present. -/
def State.canMaster (s : State) (n : Nat) : Bool := (s.fn n).bme && !s.host.d3hot && s.host.up && s.fnPresent n

/-- Host activity (R157, R158): the link is in L0 again, its stay in L1 counted, and the first TLP after an LTR message
with both requirement bits clear is followed by one of LTR_ACTIVE. -/
def State.hostActivity (s : State) : State :=
  let s := if s.host.aspm = .l1 ∨ s.host.aspm = .l11 ∨ s.host.aspm = .l12 then
      (s.dadd 0x2301 7 (s.time.elapsed - s.host.l1Since)).dinc 0x2300 4 else s
  let s := s.withHost fun h => { h with aspm := .l0 }
  if s.host.ltrClear ∧ s.cfg 0 .ltrEnable = 1 then
    (s.emit (.pcieMessage 0x10 (s.dget 0x2301 4))).withHost fun h => { h with ltrClear := false }
  else s

/-- Bits of the AER status registers, by the base specification's layout. -/
def aerUncorrectableBit : LinkError → Option Nat
  | .dataLinkProtocol => some 4 | .flowControlProtocol => some 13 | .receiverOverflow => some 17 | .malformedTlp => some 18
  | _ => none

/-- The correctable errors' bits. -/
def aerCorrectableBit : LinkError → Option Nat
  | .receiverError => some 0 | .badTlp => some 6 | .badDllp => some 7 | .replayNumRollover => some 8
  | .replayTimerTimeout => some 12
  | _ => none

/-- A correctable error logged in a function's AER. -/
def State.aerCor (s : State) (n bitNo : Nat) : State :=
  s.cfgPut n .aerCorrectableStatus (setBit (s.cfg n .aerCorrectableStatus) bitNo true)

/-- An uncorrectable error logged (event 38). -/
def State.aerUncor (s : State) (n bitNo : Nat) : State :=
  (s.cfgPut n .aerUncorrectableStatus (setBit (s.cfg n .aerUncorrectableStatus) bitNo true)).event 38

/-- An uncorrectable error handled as an advisory non-fatal error: both status bits, no event. -/
def State.aerAdvisory (s : State) (n bitNo : Nat) : State :=
  (s.cfgPut n .aerUncorrectableStatus (setBit (s.cfg n .aerUncorrectableStatus) bitNo true)).aerCor n 13

/-- A request that the device does not support (R147): logged, and a read is answered so. -/
def State.unsupportedRequest (s : State) (n : Nat) (isRead : Bool) : State :=
  let s := if s.host.up ∧ s.fnPresent n then s.aerUncor n 20 else s
  if isRead then s.emit (.pcieCompletion false []) else s

/-- A bit of HST_EPSTAT set (Table 6-7). -/
def State.epstatSet (s : State) (n bitNo : Nat) : State :=
  s.withFn n fun x => { x with epstat := setBit x.epstat bitNo true }

/-- INT_MODE of a function (R153): 0 none, 1 MSI, 2 MSI-X. -/
def State.intMode (s : State) (n : Nat) : Nat :=
  if (s.fn n).msixEn then 2 else if n = 0 ∧ (s.fn n).msiEn then 1 else 0

/-- The function's vector range (R153). -/
def State.vectorOk (s : State) (n v : Nat) : Bool :=
  if s.intMode n = 1 then decide (v ≤ 31) else decide (v ≤ if n = 0 then 2047 else 63)

/-- The message that carries a vector (R154). -/
def State.messageOf (s : State) (n v : Nat) : Nat :=
  if s.intMode n = 1 then
    let m := 2 ^ min 5 (s.cfg 0 .multipleMessageEnable)
    if v < m then v else m - 1
  else v

/-- A DWORD of a function's MSI-X table; the Mask bit of Vector Control resets to 1. -/
def Fn.msixWord (x : Fn) (i : Nat) : Nat := (x.msix.get? i).getD (if i % 4 = 3 then 1 else 0)

/-- A vector is masked (R155). -/
def State.masked (s : State) (n v : Nat) : Bool :=
  match s.intMode n with
  | 2 => s.cfg n .msixFunctionMask == 1 || bit ((s.fn n).msixWord (4 * v + 3)) 0
  | 1 => bit (s.cfg 0 .msiMask) (s.messageOf n v)
  | _ => true

/-- A vector is raised (R153, R155, R171): one message, or its pending bit. -/
def State.raise (s : State) (n v : Nat) : State :=
  if s.canMaster n ∧ !s.masked n v then s.hostActivity.emit (.message n (s.messageOf n v))
  else s.withFn n fun x => { x with pend := x.pend.put v () }

/-- The pending vectors that may now be sent, lowest first (R153, R155, R172). -/
def State.sendPending (s : State) (n : Nat) : State :=
  if s.canMaster n then
    (s.fn n).pend.foldl (fun (s : State) kv =>
      if s.masked n kv.1 then s
      else (s.withFn n fun x => { x with pend := x.pend.del kv.1 }).emit (.message n (s.messageOf n kv.1))) s
  else s

/-- The tags a function issues requests under (R162): first and count. -/
def State.tagRange (s : State) (n : Nat) : Nat × Nat :=
  if s.cfg 0 (if n = 0 then .tenBitTagEnable else .vfTenBitTagEnable) = 1 then (0x100, 768)
  else if s.cfg n .extendedTagEnable = 1 then (0, 256) else (0, 32)

/-- Outstanding non-posted requests of all functions, quarantined tags included (R162, R166). -/
def State.trackerUse (s : State) : Nat := sumNat (s.fns.map fun kv => kv.2.tags.length)

/-- A free tag of a function, the lowest; none where its tags or the tracker are full (R162). -/
def State.freeTag (s : State) (n : Nat) : Option Nat :=
  if 1024 ≤ s.trackerUse then none
  else
    let (a, c) := s.tagRange n
    (upFrom a c).find? fun t => ((s.fn n).tags.get? t).isNone

/-- A read request issued under a tag. -/
def State.issueRead (s : State) (n tag addr len : Nat) (o : TagOwner) : State :=
  (s.hostActivity.withFn n fun x => { x with tags := x.tags.put tag ⟨o, false, false⟩ }).emit (.hostRead n tag addr len)

/-- The completion timeout, µs (Table 6-10). -/
def State.completionTimeout (s : State) : Nat :=
  match s.cfg 0 .completionTimeoutValue with
  | 1 => 80 | 2 => 8000 | 6 => 160000 | 9 => 640000 | 10 => 2500000 | _ => 40000

/-- Max_Payload_Size and Max_Read_Request_Size in bytes; the device supports payloads of 512 (Table 6-4). -/
def State.maxPayload (s : State) : Nat := min 512 (128 * 2 ^ s.cfg 0 .maxPayloadSize)

/-- Max_Read_Request_Size in bytes. -/
def State.maxReadRequest (s : State) : Nat := 128 * 2 ^ min 5 (s.cfg 0 .maxReadRequestSize)

/-- Bytes written to the host in requests of at most Max_Payload_Size, in ascending order (R162). -/
def State.hostWrite (s : State) (n addr : Nat) (b : Bytes) : State :=
  let m := s.maxPayload
  let s := s.hostActivity
  ((List.range (ceilDiv b.length m)).foldl (fun (s : State) i => s.emit (.hostWrite n (addr + m * i) (sub b (m * i) m))) s)

/-- A host range cut into read requests: at most the request size, never across a 4 KiB boundary (R162). -/
def readPieces (m : Nat) : Nat → Nat → Nat → List (Nat × Nat)
  | 0, _, _ => []
  | _, _, 0 => []
  | f + 1, a, len =>
    let k := min len (min m (4096 - a % 4096))
    (a, k) :: readPieces m f (a + k) (len - k)

/-- A buffer descriptor (Table 7-3). -/
structure Desc where
  dev : Bool
  addr : Nat
  len : Nat
  list : Bool
  flags : Nat
  last : Nat
deriving DecidableEq, Repr, Inhabited

/-- The descriptor in 16 bytes. -/
def parseDesc (b : Bytes) : Desc :=
  let a := leAt b 0 8
  ⟨bit a 63, a % 2 ^ 63, leAt b 8 6, bit (byteAt b 14) 0, byteAt b 14, byteAt b 15⟩

/-- The descriptor at an offset of an entry. -/
def descAt (e : Bytes) (off : Nat) : Desc := parseDesc (sub e off 16)

/-- Check 5 of a descriptor (Table 7-3, R525). -/
def Desc.shapeOk (d : Desc) : Bool :=
  d.flags / 2 == 0 && d.last == 0 && (!d.list || (d.len != 0 && d.len % 16 == 0))

/-- The instance's LPDDR5 region: base and size in bytes. -/
def State.dramRegion (s : State) (n : Nat) : Nat × Nat := (s.limit n 48 4 * 0x100000, s.limit n 52 4 * 0x100000)

/-- Check 7 of a descriptor: it lies within the instance's own resources (R221). -/
def State.descOwn (s : State) (n : Nat) (d : Desc) : Bool := !d.dev || decide (d.addr + d.len ≤ (s.dramRegion n).2)

/-- A listed descriptor is bad (R525). -/
def State.listedBad (s : State) (n : Nat) (d e : Desc) : Bool :=
  e.list || e.dev != d.dev || e.flags / 2 != 0 || e.last != 0 || !s.descOwn n e

/-- The good segments of a listing in order, and whether a bad one ended it. -/
def State.goodSegments (s : State) (n : Nat) (d : Desc) : List Desc → List Desc × Bool
  | [] => ([], false)
  | e :: t => if s.listedBad n d e then ([], true) else
      let r := s.goodSegments n d t
      (e :: r.1, r.2)

/-- The segments of a descriptor: itself, or those its list names; a list in host memory is given as read. -/
def State.segments (s : State) (n : Nat) (d : Desc) (listed : Bytes) : List Desc × Bool :=
  if !d.list then ([d], false)
  else
    let b := if d.dev then s.dram.readN ((s.dramRegion n).1 + d.addr) d.len else padTo d.len listed
    s.goodSegments n d ((chunksOf 16 b).map parseDesc)

/-- Bytes of a descriptor's segments that lie in LPDDR5. -/
def State.readDram (s : State) (n : Nat) (d : Desc) : Bytes := s.dram.readN ((s.dramRegion n).1 + d.addr) d.len

/-- The first bytes of a buffer the command takes in (R526): from LPDDR5, or as the host's reads returned them; or the
status by which the command ends (R171, R165, R169, R525). -/
def State.gather (s : State) (n : Nat) (d : Desc) (want : Nat) (i : Nat) (r : HostRead) : Except Status Bytes :=
  if !d.dev ∧ !s.canMaster n then .error .hostAccessLost
  else match d.dev, r with
    | false, .timeout => .error .hostReadTimeout
    | false, .error => .error .hostReadError
    | true, _ =>
      let (g, bad) := s.segments n d []
      let b := (g.map fun e => s.readDram n e).flatten
      if b.length < want ∧ bad then .error .bufferListInvalid else .ok (padTo want b)
    | false, .bytes lists data =>
      let (g, bad) := s.segments n d (lists.getD i [])
      if sumNat (g.map (·.len)) < want ∧ bad then .error .bufferListInvalid else .ok (padTo want data)

/-- The length a descriptor's good segments have together. -/
def segmentsLength (g : List Desc) : Nat := sumNat (g.map (·.len))

/-- Bytes laid into segments in order. -/
def State.scatterInto (s : State) (n : Nat) : List Desc → Bytes → State
  | [], _ => s
  | e :: t, b =>
    if b.isEmpty then s
    else
      let part := b.take e.len
      let s := if e.dev then s.withDram fun m => m.writeN ((s.dramRegion n).1 + e.addr) part else s.hostWrite n e.addr part
      s.scatterInto n t (b.drop e.len)

/-- A command's output written to its buffer: the state, and the status by which the command ends where it cannot. -/
def State.scatter (s : State) (n : Nat) (d : Desc) (i : Nat) (r : HostRead) (b : Bytes) : State × Option Status :=
  if !d.dev ∧ !s.canMaster n then (s, some .hostAccessLost)
  else match d.dev, d.list, r with
    | false, true, .timeout => (s, some .hostReadTimeout)
    | false, true, .error => (s, some .hostReadError)
    | _, _, _ =>
      let listed := match r with
        | .bytes ls _ => ls.getD i []
        | _ => []
      let (g, bad) := s.segments n d listed
      let s := s.scatterInto n g b
      (s, if bad && decide (segmentsLength g < b.length) then some .bufferListInvalid else none)

/-- The substate of L1 that the link takes (R157, R158): L1.2 where ASPM L1.2 is enabled and the tolerance admits it, else
L1.1 where enabled. -/
def State.l1Substate (s : State) : Aspm :=
  if s.cfg 0 .aspmL12Enable = 1 ∧ (s.cfg 0 .ltrEnable = 0 ∨ s.host.ltrClear) then .l12
  else if s.cfg 0 .aspmL11Enable = 1 then .l11 else .l1

/-- The link enters L1 and its substate. -/
def State.enterL1 (s : State) : State :=
  let a := s.l1Substate
  let s := (s.withHost fun h => { h with aspm := a, l1Since := s.time.elapsed }).dinc 0x2301 5
  if a = .l12 then s.dinc 0x2301 6 else s

/-- The BAR0 registers of a function at reset: vectors, HST_EPSTAT, TQ_, mailbox, error log (R173, R178). -/
def Fn.barCleared (x : Fn) : Fn :=
  { x with msix := [], pend := [], epstat := 0, accessHeld := false, tq := TqRegs.reset, box := Mailbox.reset
           errlog := [], errSeq := 0 }

end Sys2Proof.Machine
end

