-- ==== Sys2Proof/Machine/QueueOps.lean ====
section
/-! DEFINITION. The work queues' operations (Chapter 7): rings and doorbells, freezes and error records, completions with
the reserve and the holds, interrupt moderation, the arbitration of fetches, the start of a fetched command. -/

namespace Sys2Proof.Machine

/-- The key of a queue. -/
def qkey (n q : Nat) : Nat := n * 65536 + q

/-- An SQ, if it exists. -/
def State.sq? (s : State) (n q : Nat) : Option Sq := s.q.sqs.get? (qkey n q)

/-- A CQ, if it exists. -/
def State.cq? (s : State) (n q : Nat) : Option Cq := s.q.cqs.get? (qkey n q)

/-- An SQ's record replaced. -/
def State.setSq (s : State) (n q : Nat) (x : Sq) : State := s.withQ fun k => { k with sqs := k.sqs.put (qkey n q) x }

/-- A CQ's record replaced. -/
def State.setCq (s : State) (n q : Nat) (x : Cq) : State := s.withQ fun k => { k with cqs := k.cqs.put (qkey n q) x }

/-- An existing CQ's record changed. -/
def State.withCq (s : State) (n q : Nat) (f : Cq → Cq) : State :=
  match s.cq? n q with
  | some x => s.setCq n q (f x)
  | none => s

/-- An existing SQ's record changed. -/
def State.withSq (s : State) (n q : Nat) (f : Sq → Sq) : State :=
  match s.sq? n q with
  | some x => s.setSq n q (f x)
  | none => s

/-- TQ_CAP.MAX_QID of a function (Table 7-7). -/
def maxQid (n : Nat) : Nat := if n = 0 then 0xFFFF else 0x3FF

/-- The highest doorbell a function's region holds (Table 6-5, R185). -/
def doorbellQueues (n : Nat) : Nat := if n = 0 then 65536 else 1024

/-- A CQ is full (R184). -/
def Cq.full (c : Cq) : Bool := (c.tail + 1) % c.depth == c.head

/-- v lies on the arc from a up to b, modulo the depth (R188). -/
def onArc (depth a b v : Nat) : Bool :=
  decide (v < depth) && decide ((v + depth - a) % depth ≤ (b + depth - a) % depth)

/-- The I/O queues of a function, as (queue ID, record). -/
def State.sqsOf (s : State) (n : Nat) : List (Nat × Sq) :=
  (s.q.sqs.filter fun kv => kv.1 / 65536 == n).map fun kv => (kv.1 % 65536, kv.2)

/-- The CQs of a function. -/
def State.cqsOf (s : State) (n : Nat) : List (Nat × Cq) :=
  (s.q.cqs.filter fun kv => kv.1 / 65536 == n).map fun kv => (kv.1 % 65536, kv.2)

/-- I/O queues only. -/
def ioOnly {α : Type} (l : List (Nat × α)) : List (Nat × α) := l.filter fun x => x.1 != 0

/-- Commands of an SQ in flight: fetched and not ended, or ended and holding their engine (R215). -/
def State.inFlight (s : State) (n q : Nat) : Nat :=
  (s.q.ctxs.filter fun c => c.fn == n && c.queue == q).length
    + sumNat (s.q.cqs.map fun kv => if kv.1 / 65536 = n then (kv.2.held.filter fun p => p.sq == q).length else 0)

/-- Command contexts in use on I/O SQs: of one instance. -/
def State.contextsOf (s : State) (n : Nat) : Nat :=
  (s.q.ctxs.filter fun c => c.fn == n && c.queue != 0).length
    + sumNat (s.q.cqs.map fun kv => if kv.1 / 65536 = n ∧ kv.1 % 65536 ≠ 0 then kv.2.held.length else 0)

/-- Command contexts in use, device-wide. -/
def State.contextsInUse (s : State) : Nat :=
  (s.q.ctxs.filter fun c => c.queue != 0).length
    + sumNat (s.q.cqs.map fun kv => if kv.1 % 65536 ≠ 0 then kv.2.held.length else 0)

/-- Reserve entries given to I/O CQs of an instance (R204). -/
def State.reserveGiven (s : State) (n : Nat) : Nat := sumNat ((ioOnly (s.cqsOf n)).map (·.2.reserve))

/-- Reserve entries given to I/O CQs, device-wide. -/
def State.reserveUsed (s : State) : Nat := sumNat (s.q.cqs.map fun kv => if kv.1 % 65536 ≠ 0 then kv.2.reserve else 0)

/-- Event 43 when the reserve pool falls below 6,451 entries (Table 7-19). -/
def State.reserveLow (s : State) : State :=
  let low := decide (64512 - s.reserveUsed < 6451)
  let s := if low && !s.q.low then s.event 43 else s
  s.withQ fun k => { k with low := low }

/-- An engine or check unit holds a result for a full completion ring (R215). Holder numbers: 0–15 engines, 16–23 check
units. -/
def State.resultHeld (s : State) (holder : Nat) : Bool :=
  s.q.cqs.any fun kv => kv.2.held.any fun p => p.holder == some holder

/-- The message of a CQ (R212): every entry written before it is signalled. -/
def State.cqMessage (s : State) (n q : Nat) : State :=
  match s.cq? n q with
  | some c => (s.setCq n q { c with unsignalled := 0 }).raise n c.vector
  | none => s

/-- An entry has been written: is it signalled (R212, Table 7-11)? -/
def State.cqSignal (s : State) (n q : Nat) (imm : Bool) : State :=
  if q = 0 then
    let a := (s.fn n).tq.airq
    if bit a 31 then s.raise n (bits a 0 11) else s
  else match s.cq? n q with
    | some c =>
      let s := s.setCq n q { c with unsignalled := c.unsignalled + 1 }
      if c.irqEn ∧ (c.aggCount ≤ 1 ∨ c.aggCount ≤ c.unsignalled + 1 ∨ imm ∨ c.full) then s.cqMessage n q else s
    | none => s

/-- The 16 bytes of a completion entry (Table 7-16). -/
def cqeBytes (p : Pend) (sqHead : Nat) (phase : Bool) : Bytes :=
  leBytes 2 p.tag ++ leBytes 2 p.sq ++ leBytes 2 sqHead ++ leBytes 2 p.status ++ leBytes 4 p.r0
    ++ leBytes 4 (b2n phase * 0x80000000 + p.r1 % 0x1000000)

/-- One entry written at a CQ's tail (R163, R189, R210). -/
def State.cqWrite (s : State) (n q : Nat) (p : Pend) : State :=
  match s.cq? n q with
  | some c =>
    let (h, s) := if p.sq = 0xFFFF then (match p.head with
        | some h => (h, s)
        | none => s.drawBits 16) else (((s.sq? n p.sq).map (·.head)).getD 0, s)
    let s := s.hostWrite n (c.base + 16 * c.tail) (cqeBytes p h c.phase)
    let t := (c.tail + 1) % c.depth
    (s.setCq n q { c with tail := t, phase := if t = 0 then !c.phase else c.phase }).cqSignal n q p.imm
  | none => s

/-- An entry may be written to the CQ now (R171, R195, R214). -/
def State.cqWritable (s : State) (n q : Nat) : Bool :=
  match s.cq? n q with
  | some c => s.canMaster n && !c.frozen && !c.full
  | none => false

/-- The reserve entries, then the held results, written while the CQ takes them (R172, R216); fuel bounds their
number. -/
def State.cqDrainN (s : State) (n q : Nat) : Nat → State
  | 0 => s
  | f + 1 =>
    match s.cq? n q with
    | some c =>
      if !s.cqWritable n q then s
      else match c.share, c.held with
        | p :: t, _ => ((s.setCq n q { c with share := t }).cqWrite n q p).cqDrainN n q f
        | [], p :: t => ((s.setCq n q { c with held := t }).cqWrite n q p).cqDrainN n q f
        | [], [] => s
    | none => s

/-- A stall begins, or goes on, or ends (R214, R216). -/
def State.stallCheck (s : State) (n q : Nat) : State :=
  match s.cq? n q with
  | some c =>
    let waiting := !(c.share.isEmpty && c.held.isEmpty)
    if waiting && (c.frozen || c.full) && !c.stalled then
      (((s.setCq n q { c with stalled := true }).event 41).dinc 0x2400 5).dinc (0x2440 + n) 5
    else if !waiting && c.stalled && !c.full && !c.frozen then (s.setCq n q { c with stalled := false }).event 42
    else s
  | none => s

/-- A CQ writes what waits for it. -/
def State.cqDrain (s : State) (n q : Nat) : State :=
  match s.cq? n q with
  | some c => (s.cqDrainN n q (c.share.length + c.held.length)).stallCheck n q
  | none => s

/-- A completion reaches its CQ: written at once, or in the reserve share, or held beyond it (R171, R214, R215). -/
def State.cqPost (s : State) (n q : Nat) (p : Pend) : State :=
  match s.cq? n q with
  | some c =>
    if c.share.isEmpty ∧ c.held.isEmpty ∧ s.cqWritable n q then s.cqWrite n q p
    else if c.share.length < c.reserve ∧ c.held.isEmpty then
      (s.setCq n q { c with share := c.share ++ [{ p with holder := none }] }).stallCheck n q
    else ((s.setCq n q { c with held := c.held ++ [p] }).dinc (0x2440 + n) 6).stallCheck n q
  | none => s

/-- An entry without a submission posted where the CQ, or its reserve share, takes it (R22); none where neither does. -/
def State.cqTry (s : State) (n q : Nat) (p : Pend) : Option State :=
  match s.cq? n q with
  | some c =>
    if (c.share.isEmpty && c.held.isEmpty && s.cqWritable n q) || (decide (c.share.length < c.reserve) && c.held.isEmpty) then
      some (s.cqPost n q p)
    else none
  | none => none

/-- What a status does to the function's counters and HST_EPSTAT (Tables 6-7 and 6-17). -/
def State.statusCount (s : State) (n : Nat) (st : Status) : State :=
  match st with
  | .hostAccessLost => (s.dinc (0x2340 + n) 3).epstatSet n 0
  | .hostReadTimeout => s.dinc (0x2340 + n) 4
  | .hostReadError => (s.dinc (0x2340 + n) 4).epstatSet n 2
  | _ => s

/-- The completion of an entry of an SQ, whether or not it became a command (R194, R209). -/
def State.finish (s : State) (n q tag : Nat) (imm : Bool) (st : Status) (r0 r1 : Nat) (holder : Option Nat) : State :=
  match s.sq? n q with
  | some x => (s.statusCount n st).cqPost n x.cqid ⟨q, tag, st.code, r0 % 2 ^ 32, r1 % 2 ^ 24, imm, holder, none⟩
  | none => s

/-- A command in flight. -/
def State.ctx? (s : State) (n q tag : Nat) : Option Ctx :=
  s.q.ctxs.find? fun c => c.fn == n && c.queue == q && c.tag == tag

/-- A command's context freed. -/
def State.dropCtx (s : State) (n q tag : Nat) : State :=
  s.withQ fun k => { k with ctxs := k.ctxs.filter fun c => !(c.fn == n && c.queue == q && c.tag == tag) }

/-- The tracked reads of a command go on with nobody to serve: their data will be discarded (R524). -/
def State.orphanReads (s : State) (n q tag : Nat) : State :=
  s.withFn n fun x => { x with tags := x.tags.map fun kv => (kv.1, match kv.2.owner with
    | .command q' t' _ => if q' = q ∧ t' = tag then { kv.2 with owner := .nobody } else kv.2
    | _ => kv.2) }

/-- A command ends with a status and gets its one completion (R209). -/
def State.complete (s : State) (n q tag : Nat) (st : Status) (r0 r1 : Nat := 0) (holder : Option Nat := none) : State :=
  match s.ctx? n q tag with
  | some c =>
    ((s.dropCtx n q tag).orphanReads n q tag).finish n q tag (bit (leAt c.entry 0 4) 12) st r0 r1 holder
  | none => s

/-- The 64 bytes of an error log record (Table 7-6). -/
def errRecord (time seq qid kind cause status head bell phase : Nat) (unit : Bytes) : Bytes :=
  leBytes 8 time ++ leBytes 4 seq ++ leBytes 2 qid ++ leBytes 1 kind ++ leBytes 1 cause ++ leBytes 2 status
    ++ leBytes 2 head ++ leBytes 2 bell ++ leBytes 1 phase ++ zeros 1 ++ padTo 32 unit ++ zeros 8

/-- QUEUE_FREEZE (R195–R198): the queue stops, one record, the event entry or the admin message. -/
def State.freeze (s : State) (n q kind cause : Nat) (st : Status) (unit : Bytes) : State :=
  let was := if kind = 0 then ((s.sq? n q).map (·.frozen)).getD true else ((s.cq? n q).map (·.frozen)).getD true
  if was then s
  else
    let (head, bell, phase) := if kind = 0 then ((s.sq? n q).map fun x => (x.head, x.bell, b2n x.phase)).getD (0, 0, 0)
      else ((s.cq? n q).map fun x => (x.head, x.bell, b2n x.phase)).getD (0, 0, 0)
    let s := if kind = 0 then s.withSq n q fun x => { x with frozen := true } else s.withCq n q fun x => { x with frozen := true }
    let f := s.fn n
    let rec_ := errRecord s.time.ns (f.errSeq + 1) q kind cause st.code head bell phase (if cause ≤ 3 then unit else [])
    let s := s.withFn n fun x => { x with errlog := (rec_ :: x.errlog).take 16, errSeq := x.errSeq + 1 }
    let s := ((s.dinc 0x2400 4).dinc (0x2440 + n) 4).event 40
    if q = 0 then
      let s := s.withFn n fun x => { x with tq := { x.tq with aerr := rec_ } }
      if bit f.tq.airq 31 then s.raise n (bits f.tq.airq 0 11) else s
    else s.cqPost n 0 ⟨0xFFFF, 0, Status.queueFrozen.code, q + kind * 0x10000, 0, true, none, none⟩

/-- The instance's functions work: its instance ACTIVE, its function on the bus and usable (R151). -/
def State.usable (s : State) (n : Nat) : Bool := s.boot.ready && (s.inst n).st == .active && s.fnPresent n && (s.fn n).flr.isNone

/-- The opcode is a storage I/O opcode (Table 7-4). -/
def storageIo (op : Nat) : Bool := decide (0x40 ≤ op) && decide (op ≤ 0x5F)

/-- The opcode of a command. -/
def Ctx.op (c : Ctx) : Nat := byteAt c.entry 0

/-- A general SQ holds a fetched storage command, unstarted, under step 7 (R211). -/
def State.heldOnDie (s : State) (n q : Nat) : Bool :=
  s.storageFetchStopped n && s.q.ctxs.any fun c => c.fn == n && c.queue == q && !c.started && storageIo c.op

/-- An SQ may fetch now (R211, R214, R195, R171, R187, Tables 4-6 and 8-3, steps 7 and 8 of the ladder). -/
def State.fetchable (s : State) (n q : Nat) : Bool :=
  match s.sq? n q with
  | none => false
  | some x =>
    s.live && !s.draining && !s.kiln.stopped && s.usable n && s.canMaster n
    && !x.frozen && x.deleting.isNone && x.fetchTag.isNone && x.head != x.tail
    && (match s.cq? n x.cqid with
        | some c => !c.frozen && !c.stalled && c.share.isEmpty && c.held.isEmpty
        | none => false)
    && decide (s.inFlight n q < x.inflight)
    && (q == 0 || (decide (s.contextsOf n < s.limit n 8 2) && decide (s.contextsInUse < 16384)))
    && !(x.cls == 0 && s.heldOnDie n q) && !(x.cls == 1 && s.evidenceHeld)
    && !(q == 0 && (s.fn n).tq.disabling)

/-- The fetchable SQs of a function. -/
def State.fetchables (s : State) (n : Nat) : List (Nat × Sq) := (s.sqsOf n).filter fun x => s.fetchable n x.1

/-- The instance whose turn it is: the next after the one served last with something to fetch (R211). -/
def State.nextTurn (s : State) : Option Nat :=
  ((List.range 64).map fun i => (s.q.turn + 1 + i) % 64).find? fun n => !(s.fetchables n).isEmpty

/-- The SQ may be served within its instance: the admin SQ first, then weighted round robin by WEIGHT (R211): an SQ that
has had its WEIGHT of the round waits while another has not. -/
def State.wrrAllows (s : State) (n q : Nat) : Bool :=
  let l := s.fetchables n
  if l.any fun x => x.1 == 0 then q == 0
  else match s.sq? n q with
    | some x => decide (x.served < x.weight) || l.all fun y => decide (y.2.weight ≤ y.2.served)
    | none => false

/-- A fetch of the SQ counts in its round (R211). -/
def State.wrrCount (s : State) (n q : Nat) : State :=
  let past := (ioOnly (s.fetchables n)).all fun y => decide (y.2.weight ≤ y.2.served)
  let s := if past && q != 0 then
      s.withQ fun k => { k with sqs := k.sqs.map fun kv => if kv.1 / 65536 = n then (kv.1, { kv.2 with served := 0 }) else kv }
    else s
  (s.withSq n q fun x => { x with served := x.served + 1 }).withQ fun k => { k with turn := n }

/-- The units of an entry. -/
def entryUnits (e : Bytes) : Nat := bits (leAt e 0 4) 8 3 + 1

/-- The instance a tenant admin command names. -/
def Ctx.target (c : Ctx) : Nat := leAt c.entry 4 4 % 64

/-- A tenant admin command (Table 8-4). -/
def tenantOp (op : Nat) : Bool := decide (0x10 ≤ op) && decide (op ≤ 0x17)

/-- The commands fetched before one, of any SQ. -/
def State.before (s : State) (c : Ctx) : List Ctx := s.q.ctxs.takeWhile fun x => !(x.fn == c.fn && x.queue == c.queue && x.tag == c.tag)

/-- A tenant admin command waits for an earlier one of its instance (R226). -/
def State.tenantWaits (s : State) (c : Ctx) : Bool :=
  tenantOp c.op && (s.before c).any fun x => x.fn == c.fn && x.queue == c.queue && tenantOp x.op && x.target == c.target

/-- A command is marked as started. -/
def State.markStarted (s : State) (n q tag : Nat) : State :=
  s.withQ fun k => { k with ctxs := k.ctxs.map fun c => if c.fn = n ∧ c.queue = q ∧ c.tag = tag then { c with started := true } else c }

/-- A DWORD of an entry. -/
def dw (e : Bytes) (i : Nat) : Nat := leAt e (4 * i) 4

/-- What the queues settle after a command (R201, R205): a DELETE_SQ completes once its SQ's commands are completed and
written; an admin pair being disabled is disabled. -/
def State.deletionsSettle (s : State) : State :=
  s.q.sqs.foldl (fun (s : State) kv =>
    let n := kv.1 / 65536
    let q := kv.1 % 65536
    let waits := s.q.ctxs.any (fun c => c.fn == n && c.queue == q)
      || s.q.cqs.any fun c => c.1 / 65536 == n && (c.2.share.any (·.sq == q) || c.2.held.any (·.sq == q))
    match kv.2.deleting with
    | some (tag, units) =>
      if waits then s
      else (s.withQ fun k => { k with sqs := k.sqs.del kv.1 }).complete n 0 tag .ok units
    | none =>
      if q = 0 ∧ (s.fn n).tq.disabling ∧ !waits then
        (s.withQ fun k => { k with sqs := k.sqs.del kv.1, cqs := k.cqs.del kv.1 }).withFn n fun x =>
          { x with tq := { x.tq with disabling := false } }
      else s) s

/-- Every queue of a function gone, its commands and completions discarded (R173, R209). -/
def State.queuesGone (s : State) (n : Nat) : State :=
  let s := s.withQ fun k => { k with
    sqs := k.sqs.keep fun i _ => i / 65536 != n
    cqs := k.cqs.keep fun i _ => i / 65536 != n
    ctxs := k.ctxs.filter fun c => c.fn != n }
  s.reserveLow

end Sys2Proof.Machine
end

