-- ==== Sys2Proof/Machine/Entries.lean ====
section
/-! DEFINITION. What check 4 and check 5 of Table 7-5 hold of each opcode: the queues that take it, the length its chapter
fixes, the fields it marks zero, where its buffer descriptors stand. -/

namespace Sys2Proof.Machine

/-- The shape an opcode's chapter gives its entry: its units, the fields that are zero (DWORD, lowest bit, width), the
byte offsets of its buffer descriptors. -/
structure Shape where
  units : Nat
  zero : List (Nat × Nat × Nat)
  descs : List Nat
deriving DecidableEq, Repr, Inhabited

/-- DWORDs a to b are zero. -/
def zeroDwords (a b : Nat) : List (Nat × Nat × Nat) := (upFrom a (b + 1 - a)).map fun i => (i, 0, 32)

/-- The shapes of the queue admin commands (Table 7-14). -/
def queueShapes : List (Nat × Shape) :=
  [(0x01, ⟨1, [(4, 27, 4), (4, 8, 8), (6, 0, 32), (7, 0, 32)], []⟩),
   (0x02, ⟨1, [(4, 18, 6), (5, 11, 21), (6, 0, 32), (7, 0, 32)], []⟩),
   (0x03, ⟨1, (1, 16, 16) :: zeroDwords 2 7, []⟩),
   (0x04, ⟨1, (1, 16, 16) :: zeroDwords 2 7, []⟩),
   (0x05, ⟨1, (1, 18, 14) :: (2, 16, 16) :: zeroDwords 3 7, []⟩),
   (0x06, ⟨1, (1, 5, 27) :: zeroDwords 6 7, [8]⟩),
   (0x07, ⟨1, zeroDwords 2 7, []⟩),
   (0x08, ⟨1, (1, 16, 16) :: (2, 27, 4) :: (2, 8, 8) :: (3, 16, 16) :: zeroDwords 4 7, []⟩),
   (0x09, ⟨1, (1, 17, 15) :: zeroDwords 2 7, []⟩)]

/-- The shapes of the tenant admin commands (R226, Table 8-4). -/
def tenantShapes : List (Nat × Shape) :=
  [(0x10, ⟨1, (1, 6, 26) :: zeroDwords 6 7, [8]⟩),
   (0x11, ⟨1, (1, 6, 26) :: zeroDwords 6 7, [8]⟩),
   (0x12, ⟨1, (1, 6, 26) :: (2, 14, 17) :: zeroDwords 3 7, []⟩),
   (0x13, ⟨1, (1, 6, 26) :: zeroDwords 2 7, []⟩),
   (0x14, ⟨1, (1, 6, 26) :: zeroDwords 2 7, []⟩),
   (0x15, ⟨1, (1, 6, 26) :: zeroDwords 2 7, []⟩),
   (0x16, ⟨1, (1, 6, 26) :: (2, 1, 31) :: zeroDwords 3 7, []⟩),
   (0x17, ⟨1, (1, 6, 26) :: zeroDwords 6 7, [8]⟩)]

/-- The shapes of the storage admin commands (Table 9-7). -/
def storageAdminShapes : List (Nat × Shape) :=
  [(0x20, ⟨1, (1, 8, 24) :: (2, 15, 17) :: (4, 16, 16) :: zeroDwords 5 7, []⟩),
   (0x21, ⟨1, (1, 8, 24) :: zeroDwords 2 7, []⟩),
   (0x22, ⟨1, (1, 8, 24) :: zeroDwords 6 7, [8]⟩),
   (0x23, ⟨1, (1, 8, 24) :: zeroDwords 2 7, []⟩),
   (0x24, ⟨1, (1, 8, 24) :: zeroDwords 4 7, []⟩),
   (0x25, ⟨1, (1, 1, 31) :: (2, 0, 16) :: zeroDwords 3 7, []⟩),
   (0x26, ⟨1, (1, 1, 31) :: zeroDwords 2 7, []⟩),
   (0x27, ⟨1, (1, 1, 31) :: zeroDwords 2 7, []⟩)]

/-- The shapes of the kiln admin commands (Table 10-4). -/
def kilnShapes : List (Nat × Shape) :=
  [(0x28, ⟨1, (1, 6, 26) :: zeroDwords 6 7, [8]⟩),
   (0x29, ⟨1, (1, 6, 26) :: zeroDwords 2 7, []⟩),
   (0x2A, ⟨1, (1, 6, 26) :: zeroDwords 2 7, []⟩),
   (0x2B, ⟨1, (1, 6, 26) :: zeroDwords 6 7, [8]⟩),
   (0x2C, ⟨1, (1, 6, 26) :: zeroDwords 2 7, []⟩),
   (0x2D, ⟨1, (1, 6, 26) :: zeroDwords 6 7, [8]⟩),
   (0x2E, ⟨1, (1, 6, 26) :: (2, 23, 9) :: zeroDwords 3 7, []⟩)]

/-- The shapes of the storage I/O commands (R259, Table 9-9). -/
def storageShapes : List (Nat × Shape) :=
  [(0x40, ⟨1, [(1, 8, 24)], [16]⟩),
   (0x41, ⟨1, [(1, 9, 23)], [16]⟩),
   (0x42, ⟨1, (1, 8, 24) :: zeroDwords 2 7, []⟩),
   (0x43, ⟨1, (1, 8, 24) :: zeroDwords 5 7, []⟩),
   (0x44, ⟨1, (1, 9, 23) :: zeroDwords 5 7, []⟩),
   (0x45, ⟨1, (1, 8, 24) :: zeroDwords 5 7, []⟩),
   (0x48, ⟨1, (1, 8, 24) :: zeroDwords 2 3, [16]⟩)]

/-- The shape of every cipher job (Table 11-4). -/
def cipherShape : Shape :=
  ⟨5, (1, 12, 4) :: (1, 21, 11) :: (2, 24, 8) :: (3, 0, 32) :: (zeroDwords 20 23 ++ zeroDwords 36 39), [16, 32, 48]⟩

/-- The shapes of the cipher jobs, key commands and check jobs (Tables 11-4, 11-9, 11-13). -/
def cipherShapes : List (Nat × Shape) :=
  ((upFrom 0x60 17).map fun op => (op, cipherShape)) ++
  [(0x78, ⟨1, (1, 12, 20) :: (3, 8, 24) :: zeroDwords 6 7, []⟩),
   (0x79, ⟨1, [(1, 12, 20), (2, 8, 8), (3, 16, 16)], [16]⟩),
   (0x7A, ⟨1, [(1, 12, 20), (2, 8, 24), (3, 16, 16)], [16]⟩),
   (0x7B, ⟨1, (1, 12, 20) :: zeroDwords 2 7, []⟩),
   (0x7C, ⟨1, (1, 12, 20) :: zeroDwords 2 3, [16]⟩),
   (0x7D, ⟨1, (1, 12, 20) :: zeroDwords 4 7, []⟩),
   (0x80, ⟨2, [(1, 3, 29), (3, 0, 32)], [16]⟩),
   (0x81, ⟨2, [(1, 0, 32), (3, 0, 32)], [16, 48]⟩),
   (0x82, ⟨2, [(1, 0, 32), (3, 0, 32)], [16, 48]⟩)]

/-- The shapes of packet I/O and table access (Tables 12-5 and 12-7). -/
def pipeShapes : List (Nat × Shape) :=
  [(0x90, ⟨1, zeroDwords 1 3, [16]⟩),
   (0x91, ⟨1, [(1, 16, 16), (3, 0, 32)], [16]⟩),
   (0x92, ⟨1, [(1, 16, 16), (2, 16, 16), (3, 0, 32)], [16]⟩),
   (0xA0, ⟨1, (1, 1, 31) :: zeroDwords 2 3, [16]⟩),
   (0xA1, ⟨1, zeroDwords 1 3, [16]⟩),
   (0xA2, ⟨1, zeroDwords 1 3, [16]⟩),
   (0xA3, ⟨1, zeroDwords 1 3, [16]⟩),
   (0xA4, ⟨1, (1, 10, 22) :: zeroDwords 2 3, [16]⟩),
   (0xA5, ⟨1, (1, 9, 23) :: zeroDwords 2 3, [16]⟩),
   (0xA6, ⟨1, [(1, 0, 32)], [16]⟩)]

/-- Every opcode's shape. -/
def shapes : List (Nat × Shape) :=
  queueShapes ++ tenantShapes ++ storageAdminShapes ++ kilnShapes ++ storageShapes ++ cipherShapes ++ pipeShapes

/-- The shape of an opcode; none where no command has it (Table 7-4). -/
def shape? (op : Nat) : Option Shape := (shapes.find? fun x => x.1 == op).map (·.2)

/-- The queue takes the opcode (Tables 7-4, 9-7 and 9-9): admin opcodes on the admin SQ, tenant and kiln admin and the
storage admin of instance 0 on PF0's alone; on evidence SQs the evidence commands. -/
def opcodeAllowed (n q cls op : Nat) : Bool :=
  (shape? op).isSome &&
  if q = 0 then decide (op < 0x30) && (n == 0 || op < 0x10 || op == 0x22 || op == 0x23)
  else if cls = 1 then op == 0x40 || op == 0x42 || op == 0x45 || op == 0x48
  else decide (0x40 ≤ op) && op != 0x48

/-- Check 5 of Table 7-5. -/
def entryShapeOk (e : Bytes) : Bool :=
  let d0 := leAt e 0 4
  bits d0 14 2 == 0 &&
  match shape? (byteAt e 0) with
  | some sh => entryUnits e == sh.units && sh.zero.all (fun z => bits (dw e z.1) z.2.1 z.2.2 == 0)
      && sh.descs.all fun o => (descAt e o).shapeOk
  | none => true

/-- A command has a buffer in LPDDR5: it needs the domain DRAM for its work (R99). -/
def Ctx.usesDram (c : Ctx) : Bool :=
  match shape? c.op with
  | some sh => sh.descs.any fun o => (descAt c.entry o).dev && (descAt c.entry o).len != 0
  | none => false

/-- A fetched command may start: in submission order, a FENCE after every earlier one, a tenant admin command after the
earlier ones of its instance, a storage command not while held on die, one with a buffer in LPDDR5 once that is usable, a
tenant admin command while the hearth runs (R99, R203, R210, R211, R226, R516, Table 7-2). -/
def State.mayStart (s : State) (c : Ctx) : Bool :=
  let earlier := (s.before c).filter fun x => x.fn == c.fn && x.queue == c.queue
  !c.started && s.live
    && earlier.all (fun x => x.started || s.tenantWaits x)
    && (!bit (leAt c.entry 0 4) 13 || (earlier.isEmpty && s.inFlight c.fn c.queue == 1))
    && !s.tenantWaits c
    && !(storageIo c.op && s.storageFetchStopped c.fn && ((s.sq? c.fn c.queue).map (·.cls)).getD 0 == 0)
    && (!c.usesDram || s.domOn domDRAM) && (!tenantOp c.op || s.hearthRuns)

/-- The command of a row: a fetched command with the row's opcode that may start. -/
def State.starting? (s : State) (op n q tag : Nat) : Option Ctx :=
  match s.ctx? n q tag with
  | some c => if c.op = op ∧ s.mayStart c then some c else none
  | none => none

end Sys2Proof.Machine
end

