-- ==== Sys2Proof/Machine/TenantOps.lean ====
section
/-! DEFINITION. The instances' operations (Chapter 8): changes of state, the creation record and its refusals, the pools. -/

namespace Sys2Proof.Machine

/-- A change of an instance's state (R235): event 26, STATE_CHANGES, a Notice entry. -/
def State.instTo (s : State) (n : Nat) (st : InstState) : State :=
  let old := (s.inst n).st
  if old = st then s
  else
    let s := s.withInst n fun x => { x with st := st }
    (s.dinc 0x2500 0x0E).eventLog 26 .notice 0x8006 (leBytes 1 n ++ leBytes 1 old.num ++ leBytes 1 st.num)

/-- The instances that exist. -/
def State.instances (s : State) : List Nat := (List.range 64).filter fun n => (s.inst n).st != .absent

/-- What all instances but one are granted of a counted resource. -/
def State.grantedElse (s : State) (n off len : Nat) : Nat :=
  sumNat ((s.instances.filter (· != n)).map fun m => s.limit m off len)

/-- The LPDDR5 pool in MiB (R221). -/
def State.dramPool (s : State) : Nat := Config.dramMib - 64 - s.dget 0x3B00 2

/-- The bits of a THREAD_MASK. -/
def maskThreads (b : Bytes) : List Nat := (List.range 256).filter fun t => bit (byteAt b (t / 8)) (t % 8)

/-- The threads granted to an instance (Table 8-2). -/
def State.threadsOf (s : State) (n : Nat) : List Nat := maskThreads (sub (s.inst n).record 16 32)

/-- A range of a record: base and count. -/
def recRange (r : Bytes) (bo bl co cl : Nat) : Nat × Nat := (leAt r bo bl, leAt r co cl)

/-- The key slots of a record. -/
def recKeys (r : Bytes) : Nat × Nat := recRange r 10 2 12 2

/-- The LPDDR5 region of a record, MiB. -/
def recDram (r : Bytes) : Nat × Nat := recRange r 48 4 52 4

/-- The meters of a record. -/
def recMeters (r : Bytes) : Nat × Nat := recRange r 60 2 62 2

/-- Two ranges share a member. -/
def meets (a b : Nat × Nat) : Bool := decide (a.1 < b.1 + b.2) && decide (b.1 < a.1 + a.2) && a.2 != 0 && b.2 != 0

/-- A number lies in a range. -/
def inRange (r : Nat × Nat) (x : Nat) : Bool := decide (r.1 ≤ x) && decide (x < r.1 + r.2)

/-- The parts of range a outside range b, as at most two ranges. -/
def rangeMinus (a b : Nat × Nat) : List (Nat × Nat) :=
  if !meets a b then [a]
  else [(a.1, b.1 - a.1), (b.1 + b.2, a.1 + a.2 - (b.1 + b.2))].filter fun r => r.2 != 0

/-- A record field outside its range (Table 8-2). -/
def State.recordOutOfRange (s : State) (n : Nat) (r : Bytes) : Bool :=
  let maxq := if n = 0 then 4096 else 1023
  let (kb, kc) := recKeys r
  let (db, dc) := recDram r
  let (mb, mc) := recMeters r
  let cap := leAt r 68 4
  decide (maxq < leAt r 0 2) || decide (maxq < leAt r 2 2) || decide (64512 < leAt r 4 4) || decide (16384 < leAt r 8 2)
  || decide (4095 < kb) || decide (4096 < kb + kc) || decide (16 < byteAt r 14) || decide (64 < byteAt r 15)
  || decide (s.dramPool < db + dc) || decide (235929 < leAt r 56 4) || decide (4095 < mb) || decide (4096 < mb + mc)
  || decide (1 < byteAt r 64) || (n == 0 && byteAt r 64 != 1) || (cap != 0 && (decide (cap < 10) || decide (45000 < cap)))

/-- Reserved bytes of a record are zero. -/
def recordReservedOk (r : Bytes) : Bool := allZero (sub r 65 3) && allZero (sub r 80 48)

/-- A range of the record overlaps another instance's (Table 8-5). -/
def State.recordOverlaps (s : State) (n : Nat) (r : Bytes) : Bool :=
  (s.instances.filter (· != n)).any fun m =>
    let o := (s.inst m).record
    meets (recKeys r) (recKeys o) || meets (recDram r) (recDram o) || meets (recMeters r) (recMeters o)
      || (List.range 32).any fun i => (byteAt r (16 + i) &&& byteAt o (16 + i)) != 0

/-- A partitioned pool would be exceeded (R220, Table 8-1). -/
def State.poolsExceeded (s : State) (n : Nat) (r : Bytes) : Bool :=
  let past (off len pool : Nat) : Bool := decide (pool < s.grantedElse n off len + leAt r off len)
  past 0 2 4096 || past 2 2 4096 || past 4 4 64512 || past 8 2 16384 || past 14 1 16 || past 15 1 128 || past 56 4 235929

/-- The write mask a record gives (Table 8-2, R50). -/
def recMask (n : Nat) (r : Bytes) : Nat :=
  if n = 0 then 2 ^ 64 - 1 else setBit (leAt r 72 8 / 0x10000 * 0x10000) 63 true

end Sys2Proof.Machine
end

