-- ==== Sys2Proof/Machine/StorageOps.lean ====
section
/-! DEFINITION. The storage service's operations (Chapter 9): ports and namespaces, block metadata, jobs in start order
with their range locks, the issue of back-end commands by precedence, the outcomes of a read, the evidence pointers. -/

namespace Sys2Proof.Machine

/-- A root port. -/
def State.port (s : State) (p : Nat) : RootPort := s.stor.ports.getD p RootPort.reset

/-- A root port's record changed. -/
def State.withPort (s : State) (p : Nat) (f : RootPort → RootPort) : State :=
  s.withStor fun x => { x with ports := x.ports.put p (f (s.port p)) }

/-- A namespace, if its number is in use. -/
def State.ns? (s : State) (k : Nat) : Option Ns := s.stor.ns.get? k

/-- A namespace's record changed. -/
def State.withNs (s : State) (k : Nat) (f : Ns → Ns) : State :=
  match s.ns? k with
  | some x => s.withStor fun y => { y with ns := y.ns.put k (f x) }
  | none => s

/-- The storage fold header (Table 9-4). -/
def storageFold (owner ns addr : Nat) : Bytes := leBytes 2 owner ++ leBytes 2 1 ++ leBytes 4 ns ++ leBytes 8 addr

/-- The check of a block (R254). -/
def storageCheck (owner ns addr : Nat) (data : Bytes) : Nat := crc32c (storageFold owner ns addr ++ data)

/-- The metadata of a block (Table 9-5). -/
def blockMeta (owner ns addr : Nat) (data : Bytes) (st : Nat) : Bytes :=
  leBytes 4 (storageCheck owner ns addr data) ++ leBytes 1 st ++ zeros 3

/-- The outcome of a block as found (Table 9-6). -/
inductive BlockOutcome where
  | good | unwritten | failing | unreadable
deriving DecidableEq, Repr, Inhabited

/-- Table 9-6: what a block read at an address is. -/
def blockOutcome (owner ns addr : Nat) (b : BlockRead) : BlockOutcome :=
  let d := padTo 4096 b.data
  let st := byteAt b.metadata 4
  let ok := leAt b.metadata 0 4 == storageCheck owner ns addr d && allZero (b.metadata.drop 5)
  if !b.readable then .unreadable
  else if allZero b.metadata && allZero d then .unwritten
  else if st == 2 && ok then .unwritten
  else if st == 1 && ok then .good
  else .failing

/-- The data a read delivers for a block (Table 9-6). -/
def blockData (o : BlockOutcome) (b : BlockRead) : Bytes :=
  match o with
  | .good => padTo 4096 b.data
  | .failing => padTo 4096 b.data
  | _ => zeros 4096

/-- A storage command ends (COMMANDS of Table 9-15 and its completion). -/
def State.storEnd (s : State) (n q tag : Nat) (st : Status) (r0 : Nat := 0) (r1 : Nat := 0) : State :=
  (s.dinc (blk n 0x19) 1).complete n q tag st r0 r1

/-- A port takes new commands: in state 2, or in state 5 where they wait (R273), and not being detached (R258). -/
def State.portUsable (s : State) (p : Nat) : Bool :=
  ((s.port p).st == 2 || (s.port p).st == 5) && (s.port p).detach.isNone

/-- The NVMe namespaces of the TR960 on a port, the ones being deleted included. -/
def State.nsOn (s : State) (p : Nat) : List (Nat × Ns) := s.stor.ns.filter fun kv => kv.2.port == p

/-- Blocks free on a port's SSD (R253: a deleted namespace holds its capacity). -/
def State.freeBlocks (s : State) (p : Nat) : Nat :=
  ((s.port p).ident.map (·.capacityBlocks)).getD 0 - sumNat ((s.nsOn p).map (·.2.size))

/-- Namespaces an instance owns. -/
def State.nsOwnedBy (s : State) (n : Nat) : Nat := (s.stor.ns.filter fun kv => kv.2.owner == n).length

/-- The STATE of a namespace (Table 9-15). -/
def State.nsState (s : State) (k : Nat) : Nat :=
  match s.ns? k with
  | none => 0
  | some x => if x.deleting then 2 else if (s.port x.port).st = 2 then 1 else 3

/-- A namespace that may be named. -/
def State.nsNamed (s : State) (k : Nat) : Option Ns := (s.ns? k).filter fun x => !x.deleting

/-- Check 7 of a namespace number (R246): the reader may use READ, VERIFY and NS_IDENTIFY alone. -/
def State.nsRefused (s : State) (n k : Nat) (readerMay : Bool) : Option Status :=
  match s.nsNamed k with
  | none => some (if n = 0 then .fieldInvalid else .notYourInstance)
  | some x => if n = 0 ∨ x.owner = n ∨ (x.reader = some n ∧ readerMay) then none else some .notYourInstance

/-- The length a buffer descriptor gives: its LENGTH, or the sum of the listed descriptors (R525), or the status by which
the command ends. -/
def State.bufLen (s : State) (n : Nat) (d : Desc) (i : Nat) (r : HostRead) : Except Status Nat :=
  if !d.list then .ok d.len
  else if d.dev then
    let (g, bad) := s.segments n d []
    if bad then .error .bufferListInvalid else .ok (segmentsLength g)
  else if !s.canMaster n then .error .hostAccessLost
  else match r with
    | .timeout => .error .hostReadTimeout
    | .error => .error .hostReadError
    | .bytes ls _ =>
      let (g, bad) := s.segments n d (ls.getD i [])
      if bad then .error .bufferListInvalid else .ok (segmentsLength g)

/-- LENGTH of a storage buffer (R259). -/
def storageLengthOk (len : Nat) : Bool := len % 4096 == 0 && decide (4096 ≤ len) && decide (len ≤ 0x1000000)

/-- The locks in the table: the first 4,096 jobs that take one, in start order (R263, R264). -/
def Storage.lockers (x : Storage) : List Job := x.jobs.filter (·.locks)

/-- LOCKS_IN_USE. -/
def Storage.locksInUse (x : Storage) : Nat := min 4096 x.lockers.length

/-- Two jobs' locks conflict (R263). -/
def Job.conflicts (a b : Job) : Bool :=
  a.locks && b.locks && a.ns == b.ns && decide (a.span.1 < b.span.1 + b.span.2) && decide (b.span.1 < a.span.1 + a.span.2)
    && !(a.shared && b.shared)

/-- A job changed by its id. -/
def State.withJob (s : State) (id : Nat) (f : Job → Job) : State :=
  s.withStor fun x => { x with jobs := x.jobs.map fun j => if j.id = id then f j else j }

/-- A job, if it goes on. -/
def State.job? (s : State) (id : Nat) : Option Job := s.stor.jobs.find? fun j => j.id == id

/-- A job gone. -/
def State.dropJob (s : State) (id : Nat) : State :=
  s.withStor fun x => { x with jobs := x.jobs.filter fun j => j.id != id }

/-- The range of a lock over a whole namespace. -/
def wholeNs : Nat × Nat := (0, 2 ^ 64)

/-- A job with nothing done yet. -/
def Job.new (owner : JobOwner) (op ns port group first blocks unit : Nat) : Job :=
  ⟨0, owner, op, ns, port, group, first, blocks, unit, (first, blocks), false, false, false, false, 0, 0, false, [], .bytes [] [], [], false,
   [], 0, false⟩

/-- A write's job. -/
def Job.writes (j : Job) : Bool := j.op == 0x41 || j.op == 0x44

/-- A job started: it takes its place in start order (R263). A full lock table starts an episode (R264). -/
def State.startJob (s : State) (j : Job) : State :=
  let full := decide (4096 ≤ s.stor.lockers.length) && j.locks
  let s := if full && !s.stor.lockFull then (s.event 104).dinc 0x2600 5 else s
  let s := s.withStor fun x => { x with
    jobs := x.jobs ++ [{ j with id := x.nextJob }], nextJob := x.nextJob + 1, lockFull := x.lockFull || full }
  s.dmax 0x2600 3 s.stor.locksInUse

/-- A FLUSH may act: every earlier-started write of the namespace, or append of the SQ, has completed (R261). -/
def flushClear (before : List Job) (j : Job) : Bool :=
  if j.op = 0x42 then
    if j.group = 0 then !(before.any fun b => b.ns == j.ns && b.writes)
    else !(before.any fun b => b.op == 0x48 && (match b.owner, j.owner with
      | .command n q _, .command n' q' _ => n == n' && q == q'
      | _, _ => false))
  else true

/-- The jobs after the grants: each with its lock, no earlier conflicting lock and no earlier job without a lock goes on;
answers also the instances whose commands begin to wait. -/
def grantJobs : List Job → List Job → Nat → List Job × List JobOwner
  | before, [], _ => (before, [])
  | before, j :: t, used =>
    let used' := used + b2n j.locks
    let blocked := decide (4096 < used')
    if blocked then (before ++ j :: t, [])
    else if j.go then grantJobs (before ++ [j]) t used'
    else
      let waits := before.any (fun b => b.conflicts j)
      let go := !waits && flushClear before j && !j.gathered
      let r := grantJobs (before ++ [{ j with go := go, counted := j.counted || waits }]) t used'
      (r.1, if waits && !j.counted then j.owner :: r.2 else r.2)

/-- LOCK_WAITS of the device and of the instance. -/
def State.lockWait (s : State) (o : JobOwner) : State :=
  let s := s.dinc 0x2600 4
  match o with
  | .command n _ _ => s.dinc (blk n 0x19) 6
  | _ => s

/-- A gathered flush whose leader is gone acts for itself. -/
def ungather (l : List Job) : List Job :=
  l.map fun j => if j.gathered && j.stage != 0 && !l.any (fun k => k.id == j.stage) then { j with gathered := false, stage := 0 } else j

/-- The flushes gathered on each namespace are to be served as one (Table 5-3, step 1): the last leads, the others end with
it; `stage` of a follower is its leader. -/
def mergeFlushes (l : List Job) : List Job :=
  l.map fun j =>
    if j.gathered then
      match (l.filter fun k => k.gathered && k.ns == j.ns).getLast? with
      | some k => if k.id = j.id then { j with gathered := false, stage := 0 } else { j with stage := k.id }
      | none => j
    else j

/-- The grants of R263 and R264. -/
def State.grants (s : State) : State :=
  let (js, ws) := grantJobs [] (ungather s.stor.jobs) 0
  let s := s.withStor fun x => { x with jobs := js, lockFull := decide (4096 < x.lockers.length) }
  ws.foldl State.lockWait s

/-- A job whose work is one back-end command of no blocks. -/
def Job.single (j : Job) : Bool :=
  !(j.op == 0x40 || j.op == 0x41 || j.op == 0x43 || j.op == 0x44 || j.op == 0x45 || j.op == 0x48 || j.op == 0x100
    || j.op == 0x101 || j.op == 0x105 || (j.op == 0x24 && j.stage == 0))

/-- The NVMe opcode, or the model's name, of a job's back-end commands (Out.nvme). -/
def Job.nvmeOp (j : Job) (fnaBit0 : Bool) : Nat :=
  match j.op with
  | 0x40 => 0x02 | 0x45 => 0x02
  | 0x41 => if j.fua then 0x181 else 0x01
  | 0x48 => 0x181 | 0x100 => 0x181
  | 0x101 => if j.fua then 0x181 else 0x01
  | 0x42 => 0x00 | 0x103 => 0x00
  | 0x43 => 0x09 | 0x105 => 0x09
  | 0x44 => if j.fua then 0x188 else 0x08
  | 0x20 => 0x103 | 0x21 => 0x104 | 0x102 => 0x104
  | 0x23 => if fnaBit0 then 0x09 else 0x105
  | 0x24 => if j.stage = 0 then 0x09 else 0x106
  | 0x25 => 0x107
  | 0x26 => 0x100
  | _ => 0x106

/-- The device block address and the length of the piece of a job at an offset: positions wrap at the size of an evidence
namespace (R248). -/
def State.pieceOf (s : State) (j : Job) (off : Nat) : Nat × Nat :=
  let len := min j.unit (j.blocks - off)
  match s.ns? j.ns with
  | some x =>
    if x.evidence && x.size != 0 then
      let a := (j.first + off) % x.size
      (a, min len (x.size - a))
    else (j.first + off, len)
  | none => (j.first + off, len)

/-- The data and the metadata that a piece writes. -/
def State.pieceData (s : State) (j : Job) (off len : Nat) : Bytes × Bytes :=
  let owner := ((s.ns? j.ns).map (·.owner)).getD 0
  let one (i : Nat) : Bytes × Bytes :=
    if j.op = 0x41 ∨ j.op = 0x48 ∨ j.op = 0x101 then
      let d := padTo 4096 (sub j.data (4096 * i) 4096)
      (d, blockMeta owner j.ns (j.first + i) d 1)
    else (zeros 4096, blockMeta owner j.ns (j.first + i) (zeros 4096) 2)
  let l := (upFrom off len).map one
  ((l.map Prod.fst).flatten, (l.map Prod.snd).flatten)

/-- The job carries block data to the SSD. -/
def Job.carries (j : Job) : Bool := j.op == 0x41 || j.op == 0x48 || j.op == 0x100 || j.op == 0x101

/-- A back-end command issued for a job. -/
def State.issueBackend (s : State) (j : Job) (op off lba blocks : Nat) (data : Bytes) : State :=
  let c := (s.port j.port).nextCmd
  let s := s.withPort j.port fun x => { x with
    cmds := x.cmds ++ [⟨c, j.id, op, off, j.ns, lba, blocks, data, false⟩], nextCmd := c + 1 }
  let s := s.withJob j.id fun x => { x with outstanding := x.outstanding + 1 }
  s.emit (.nvme j.port c op j.ns lba blocks data)

/-- The next piece of a job issued; in map mode a changed block's map write beside it (R245). -/
def State.issuePiece (s : State) (j : Job) : State :=
  let fna := ((s.port j.port).ident.map (·.fnaBit0)).getD false
  let op := j.nvmeOp fna
  if j.single then
    let size := ((s.ns? j.ns).map (·.size)).getD 0
    let s := s.withJob j.id fun x => { x with next := x.blocks }
    let s := if j.op = 0x21 then s.withNs j.ns fun y => { y with deleting := true, reader := none } else s
    s.issueBackend j op 0 0 (if j.op = 0x23 ∨ j.op = 0x20 then size else 0) []
  else
    let (a, len) := s.pieceOf j j.next
    let map := (s.port j.port).mode == 2
    let (d, m) := if j.carries then s.pieceData j j.next len else ([], [])
    let s := s.withJob j.id fun x => { x with next := x.next + len }
    let s := s.issueBackend j op j.next a len (if map then d else d ++ m)
    if map && (j.carries || j.op == 0x43 || j.op == 0x44) then
      s.issueBackend j 0x108 j.next a len (if j.carries then m else zeros (8 * len))
    else s

/-- Back-end commands of a group outstanding on a port. -/
def State.groupOutstanding (s : State) (p : Nat) (evidence : Bool) : Nat :=
  sumNat ((s.stor.jobs.filter fun j => j.port == p && decide (1 ≤ j.group) == evidence && j.group != 3).map (·.outstanding))

/-- A job may issue its next back-end command (R243, R266, R273, R303). Group 3 is admin work, group 4 the service's own
work while the port attaches. -/
def State.mayIssue (s : State) (j : Job) : Bool :=
  let x := s.port j.port
  j.go && decide (j.next < j.blocks) && s.domOn domSTOR
    && (match j.op with
        | 0x25 => x.st == 2 || x.st == 3 || x.st == 6
        | 0x26 => x.st == 2 || x.st == 3 || x.st == 4 || x.st == 6
        | _ => x.st == 2 || (x.st == 1 && x.recovering && j.owner == .service))
    && (match j.group with
        | 0 => !s.kiln.pf.isSome && decide (s.groupOutstanding j.port false < 512)
        | 1 => decide (s.groupOutstanding j.port true < 1024)
        | 2 => decide (s.groupOutstanding j.port true < 1024)
        | _ => true)

/-- The job that a port issues next (R266): admin work, kiln writes, evidence, general; each in start order. -/
def State.nextIssue (s : State) : Option Job :=
  let l := s.stor.jobs.filter s.mayIssue
  [3, 2, 1, 0].findSome? fun g => l.find? fun j => j.group == g

/-- Back-end commands issued while any may be; fuel bounds their number. -/
def State.pumpN (s : State) : Nat → State
  | 0 => s
  | f + 1 => match s.nextIssue with
    | some j => (s.issuePiece j).pumpN f
    | none => s

/-- The back-end commands both ports can take now. -/
def State.pump (s : State) : State := s.pumpN 4096

/-- A job's work on the media has ended. -/
def Job.ended (j : Job) : Bool :=
  j.go && j.next == j.blocks && j.outstanding == 0

/-- Event 102 and its hysteresis (R250). -/
def State.fillCheck (s : State) (k : Nat) : State :=
  match s.ns? k with
  | some x =>
    let used := x.ap - x.rp
    if x.size * 9 < used * 10 then
      if x.high then s else (s.withNs k fun y => { y with high := true }).event 102
    else if used * 5 < x.size * 4 then s.withNs k fun y => { y with high := false }
    else s
  | none => s

/-- Positions from AP given out (R248). -/
def State.takePositions (s : State) (k n : Nat) : State := (s.withNs k fun x => { x with ap := x.ap + n }).fillCheck k

/-- There is room for n positions beyond AP (R250). -/
def Ns.room (x : Ns) (n : Nat) : Bool := decide (x.ap + n - x.rp ≤ x.size)

/-- CP moved over the completed runs (R248); fuel bounds their number. -/
def advanceCp : Nat → Nat → List (Nat × Nat) → Nat × List (Nat × Nat)
  | 0, cp, l => (cp, l)
  | f + 1, cp, l => match l.find? fun r => r.1 == cp with
    | some r => advanceCp f (cp + r.2) (l.filter fun x => x.1 != cp)
    | none => (cp, l)

/-- The catalogue is written (R244): a service job of its port. -/
def State.catalogueWrite (s : State) (p : Nat) : State :=
  s.startJob { Job.new .service 0x104 0 p 3 0 1 1 with fua := true }

/-- Positions of an evidence namespace are written or void (R248): CP follows; a checkpoint after every 262,144 blocks
(R251). -/
def State.positionsDone (s : State) (k first n : Nat) : State :=
  match s.ns? k with
  | some x =>
    if n = 0 then s
    else
      let l := x.done ++ [(first, n)]
      let (cp, l) := advanceCp l.length x.cp l
      let unsaved := x.unsaved + n
      let s := s.withNs k fun y => { y with cp := cp, done := l, unsaved := if 262144 ≤ unsaved then 0 else unsaved }
      if 262144 ≤ unsaved then s.catalogueWrite x.port else s
  | none => s

/-- The void blocks of positions that an ended append or a failed kiln write left (R272): written now, or owed to the next
attach where the SSD has failed. -/
def State.voidFill (s : State) (k first n : Nat) : State :=
  match s.ns? k with
  | some x =>
    if n = 0 then s
    else if (s.port x.port).st = 2 ∨ (s.port x.port).st = 5 ∨ ((s.port x.port).st = 1 ∧ (s.port x.port).recovering) then
      s.startJob { Job.new .service 0x100 k x.port 1 first n 256 with locks := true, fua := true }
    else s.withNs k fun y => { y with owed := y.owed ++ [(first, n)] }
  | none => s

/-- The blocks of a job that no successful write covers, in runs: those that failed and those not issued. -/
def Job.unwritten (j : Job) : List (Nat × Nat) :=
  j.lost ++ (if j.next < j.blocks then [(j.next, j.blocks - j.next)] else [])

/-- The blocks of a job that its writes covered, in runs (fuel bounds the number of blocks). -/
def writtenRuns (blocks : Nat) (bad : List (Nat × Nat)) : Nat → Nat → List (Nat × Nat)
  | 0, _ => []
  | f + 1, a =>
    if blocks ≤ a then []
    else match bad.find? fun r => decide (r.1 ≤ a) && decide (a < r.1 + r.2) with
      | some r => writtenRuns blocks bad f (r.1 + r.2)
      | none =>
        let stop := (bad.filter fun r => decide (a < r.1)).foldl (fun m r => min m r.1) blocks
        (a, stop - a) :: writtenRuns blocks bad f stop

/-- An append or a kiln write has ended: what was written is done, the rest is void (R262, R272). -/
def State.appendSettle (s : State) (j : Job) : State :=
  let bad := j.unwritten
  let s : State := (writtenRuns j.blocks bad (j.blocks + 1) 0).foldl (fun (s : State) r => s.positionsDone j.ns (j.first + r.1) r.2) s
  bad.foldl (fun (s : State) r => s.voidFill j.ns (j.first + r.1) r.2) s

/-- Bytes of a port's counters: 0x08 kiln, 0x09 host commands. -/
def State.portBytes (s : State) (p sub n : Nat) : State := s.dadd (0x2601 + p) sub n

/-- A media error of a job (Table 9-12): event 100 and MEDIA_ERRORS of the port. -/
def State.mediaError (s : State) (p : Nat) : State := (s.event 100).dinc (0x2601 + p) 7

/-- An instance's MEDIA_ERRORS. -/
def State.mediaErrorOf (s : State) (n : Nat) : State := s.dinc (blk n 0x19) 5

/-- The namespaces whose RP moved make room again; what the model keeps of a namespace deleted is gone. -/
def State.nsGone (s : State) (k : Nat) : State := s.withStor fun x => { x with ns := x.ns.del k }

/-- A namespace is deleted (R253): unusable at once; its back-end namespace follows, or is owed to the next attach. -/
def State.nsDeleteNow (s : State) (k : Nat) : State :=
  match s.ns? k with
  | some x =>
    let s := s.withNs k fun y => { y with deleting := true, reader := none }
    if (s.port x.port).st = 2 ∨ (s.port x.port).st = 5 then
      s.startJob { Job.new .service 0x102 k x.port 3 0 1 1 with locks := true, span := wholeNs }
    else s.withStor fun y => { y with owed := y.owed ++ [k] }
  | none => s

end Sys2Proof.Machine
end

