-- ==== Sys2Proof/Machine/KeyOps.lean ====
section
/-! DEFINITION. The key store (R320–R331): slots, agreement of attributes, use counts, wrapped keys, the key vault. -/

namespace Sys2Proof.Machine

/-- A slot that is not EMPTY. -/
def State.slot? (s : State) (k : Nat) : Option KeySlot := s.cipher.keys.get? k

/-- A slot filled or changed. -/
def State.setSlot (s : State) (k : Nat) (x : KeySlot) : State := s.withCipher fun c => { c with keys := c.keys.put k x }

/-- A slot emptied. -/
def State.emptySlot (s : State) (k : Nat) : State := s.withCipher fun c => { c with keys := c.keys.del k }

/-- A slot is SPENT (R320). -/
def KeySlot.spent (x : KeySlot) : Bool := !x.restoring && decide (x.limit ≤ x.count)

/-- The number of a slot's state (R325): 0 EMPTY, 1 LIVE, 2 SPENT, 3 RESTORING. -/
def State.slotState (s : State) (k : Nat) : Nat :=
  match s.slot? k with
  | none => 0
  | some x => if x.restoring then 3 else if x.spent then 2 else 1

/-- Check 7 of a slot (R320). -/
def State.ownsSlot (s : State) (n k : Nat) : Bool := inRange (recKeys (s.inst n).record) k

/-- The instance that a slot belongs to. -/
def State.slotOwner (s : State) (k : Nat) : Option Nat := s.instances.find? fun n => s.ownsSlot n k

/-- Bytes of key of a type (Table 11-7); 0 for the HMAC types. -/
def typeLen (t : Nat) : Nat :=
  match t with
  | 1 => 16 | 2 => 24 | 3 => 32 | 4 => 32 | 5 => 64 | 6 => 32
  | _ => 0

/-- The usage bits a mode may carry with a type (Table 11-8), EXPORT and PERSIST included. -/
def modeUsage (mode type : Nat) : Nat :=
  0x180 + match mode with
    | 1 => if type = 3 then 0x43 else 3
    | 2 => 3 | 3 => 3 | 4 => 3 | 5 => 3 | 6 => 3
    | 7 => 0xC | 8 => 0xC | 9 => 0x30
    | _ => 0

/-- The types of a mode (Table 11-8). -/
def modeType (mode type : Nat) : Bool :=
  match mode with
  | 5 => type == 4 || type == 5
  | 6 => type == 6
  | 8 => type == 7 || type == 8
  | 9 => type == 3
  | _ => decide (1 ≤ mode) && decide (mode ≤ 7) && decide (1 ≤ type) && decide (type ≤ 3)

/-- The cap of a slot's LIMIT (Table 11-8). -/
def limitCap (mode usage : Nat) : Nat :=
  if mode = 7 ∨ mode = 8 then 2 ^ 48
  else if mode = 9 then 2 ^ 32
  else if bit usage 0 || bit usage 6 then 2 ^ 32 else 2 ^ 48

/-- KEY_TYPE, MODE or USAGE outside Tables 11-7 and 11-8 (R326). -/
def attrsOutOfRange (type mode usage : Nat) : Bool :=
  type == 0 || decide (8 < type) || mode == 0 || decide (9 < mode) || decide (0x1FF < usage)

/-- KEY_TYPE, MODE, USAGE and KEY_LEN agree (R321); len is the key's length in bytes. -/
def attrsAgree (type mode usage len : Nat) : Bool :=
  modeType mode type && (usage &&& modeUsage mode type) == usage
    && (if type = 7 ∨ type = 8 then decide (16 ≤ len) && decide (len ≤ 64) else len == typeLen type)

/-- The vault's front write is sent to the NOR: the entry as the model lays it, at the copy that is not the last written
(R331). -/
def State.vaultSend (s : State) : State :=
  match s.cipher.writes with
  | w :: _ =>
    let c := if w.retried then s.cipher.copy else 1 - s.cipher.copy
    s.emit (.nor 0x02 (0x80000 + 0x10000 * c) (match w.entry with
      | some x => leBytes 2 w.slot ++ leBytes 8 x.lease
      | none => leBytes 2 w.slot))
  | [] => s

/-- A vault write joins the queue. -/
def State.vaultPush (s : State) (w : VaultWrite) : State :=
  let idle := s.cipher.writes.isEmpty
  let s := s.withCipher fun c => { c with writes := c.writes ++ [w] }
  if idle then s.vaultSend else s

/-- A use of a slot would reach its lease and waits for the vault (R331). -/
def KeySlot.leaseHolds (x : KeySlot) : Bool := x.lease != 0 && decide (x.lease ≤ x.count + 1)

/-- A slot may take a use now. -/
def State.slotReady (s : State) (k : Nat) : Bool :=
  match s.slot? k with
  | some x => !x.restoring && !x.spent && !x.leaseHolds
  | none => false

/-- Event 225 and KEYS_SPENT of the slot's instance. -/
def State.slotSpent (s : State) (k : Nat) : State :=
  let s := s.event 225
  match s.slotOwner k with
  | some n => s.dinc (blk n 0x1C) 4
  | none => s

/-- One use of a slot (R322): COUNT, the events, and the next lease of a vaulted slot in good time (R331). -/
def State.keyUse (s : State) (k : Nat) : State :=
  match s.slot? k with
  | none => s
  | some x =>
    let c := x.count + 1
    let warn := !x.warned && decide (x.limit * 9 ≤ c * 10)
    let y := { x with count := c, warned := x.warned || warn }
    let s := s.setSlot k y
    let s := if warn then s.event 226 else s
    let s := if x.limit ≤ c then s.slotSpent k else s
    let busy := s.cipher.writes.any fun w => w.slot == k
    if x.lease ≠ 0 ∧ x.lease ≤ c + 0x80000 ∧ !busy then
      s.vaultPush ⟨k, some { y with lease := x.lease + 0x100000 }, false, none, some (x.lease + 0x100000)⟩
    else s

/-- Bytes from the random generator. -/
def State.random (s : State) (n : Nat) : Bytes × State :=
  ((List.range n).map (Config.randomByte s.free), { s with free := s.free + 1 })

/-- The device unique key's bytes (Table 3-14). -/
def deviceKey : Bytes := (List.range 32).map Config.deviceKeyByte

/-- The wrapping key of FORM 2 (R328). -/
def formTwoKey (inst : Nat) : Bytes :=
  (hmac sha384Hash 128 deviceKey
    ([0x54, 0x52, 0x39, 0x36, 0x30, 0x2D, 0x4B, 0x45, 0x59, 0x57, 0x52, 0x41, 0x50] ++ leBytes 1 inst)).take 32

/-- Bytes 0 to 47 of a blob (Table 11-11). -/
def blobHead (form inst : Nat) (nonce : Bytes) (x : KeySlot) : Bytes :=
  leBytes 4 0x4B594C42 ++ leBytes 1 1 ++ leBytes 1 form ++ leBytes 1 x.type ++ leBytes 1 x.mode ++ leBytes 2 x.usage
    ++ leBytes 1 x.key.length ++ leBytes 1 inst ++ leBytes 4 x.stream ++ leBytes 8 x.limit ++ leBytes 8 x.count
    ++ padTo 12 nonce ++ zeros 4

/-- A blob sealed under a key (R328). -/
def sealBlob (key : Bytes) (form inst : Nat) (nonce : Bytes) (x : KeySlot) : Bytes :=
  let h := blobHead form inst nonce x
  let r := aesGcm key nonce h (padTo 64 x.key) true
  h ++ r.1 ++ r.2

/-- The bytes that a blob's KEY field holds, opened under a key; none where the tag does not verify. -/
def openBlob (key b : Bytes) : Option Bytes :=
  let r := aesGcm key (sub b 32 12) (b.take 48) (sub b 48 64) false
  if r.2 = sub b 112 16 then some r.1 else none

/-- The slot that a blob's attributes and opened KEY field describe. -/
def blobSlot (b keyField : Bytes) : KeySlot :=
  ⟨false, byteAt b 6, byteAt b 7, leAt b 8 2, keyField.take (byteAt b 10), leAt b 24 8, leAt b 16 8, leAt b 12 4, false, 0⟩

/-- A blob's fixed fields are as Table 11-11 lays them. -/
def blobShaped (b : Bytes) (form : Nat) : Bool :=
  leAt b 0 4 == 0x4B594C42 && byteAt b 4 == 1 && byteAt b 5 == form && allZero (sub b 44 4)
    && (form != 0 || (allZero (sub b 32 12) && allZero (sub b 112 16)))

/-- Entries of the vault with those being written, of 256. -/
def State.vaultFull (s : State) : Bool :=
  decide (256 ≤ s.cipher.vault.length + (s.cipher.writes.filter fun w => w.cmd.isSome && w.entry.isSome).length)

/-- The slot is in the key list of a bound kiln stream (Table 11-10). -/
def State.slotListed (s : State) (k : Nat) : Bool :=
  s.kiln.streams.any fun kv =>
    (kv.2.st == .opened || kv.2.st == .paused || kv.2.st == .closing)
      && ((List.range 8).map fun i => leAt kv.2.record (20 + 2 * i) 2).contains k

/-- A key command completes where nothing is left to wait for (R327, R331). -/
def State.keyWaitsSettle (s : State) : State :=
  s.cipher.keyWaits.foldl (fun (s : State) w =>
    if w.jobs.isEmpty && !w.vault then
      (s.withCipher fun c => { c with keyWaits := c.keyWaits.filter fun y =>
        !(y.fn == w.fn && y.queue == w.queue && y.tag == w.tag) }).complete w.fn w.queue w.tag w.status w.r0
    else s) s

/-- The jobs that run with a slot's key. -/
def State.jobsOn (s : State) (k : Nat) : List (Nat × Nat × Nat) :=
  (s.cipher.jobs.filter fun j => j.on.isSome && j.slot == k).map fun j => (j.fn, j.queue, j.tag)

/-- A key command has acted: it completes after the jobs that started before it, and after its vault write. -/
def State.keyEnd (s : State) (c : Ctx) (k : Nat) (vault : Bool) (st : Status) (r0 : Nat) : State :=
  ((s.markStarted c.fn c.queue c.tag).withCipher fun x => { x with
    keyWaits := x.keyWaits ++ [⟨c.fn, c.queue, c.tag, s.jobsOn k, vault, st, r0⟩] }).keyWaitsSettle

/-- A running job has ended: the key commands stop waiting for it. -/
def State.keyJobGone (s : State) (n q t : Nat) : State :=
  (s.withCipher fun x => { x with
    keyWaits := x.keyWaits.map fun w => { w with jobs := w.jobs.filter (· != (n, q, t)) } }).keyWaitsSettle

/-- A slot's key, or a range's, removed with its vault entry (R223, R327). -/
def State.slotGone (s : State) (k : Nat) : State :=
  let vaulted := (s.cipher.vault.get? k).isSome
  let s := s.emptySlot k
  if vaulted then s.vaultPush ⟨k, none, false, none, none⟩ else s

end Sys2Proof.Machine
end

