-- ==== Sys2Proof/Machine/CipherOps.lean ====
section
/-! DEFINITION. Cipher jobs (R310–R319, R322–R326): lengths, refusals, engines and their locks, the reads of a job, what a
mode computes. -/

namespace Sys2Proof.Machine

/-- What an opcode of Table 11-5 asks of its slot: MODE, and the USAGE bits of which one is needed. -/
structure CipherKind where
  mode : Nat
  need : Nat
  ivLen : List (Nat × Nat)
  tagLen : List (Nat × Nat)
  /-- A decrypt or verify job that checks TAG_IN. -/
  checks : Bool
  /-- AAD applies. -/
  aad : Bool
deriving DecidableEq, Repr, Inhabited

/-- Tables 11-5 and 11-6 by opcode. -/
def cipherKind (op : Nat) : CipherKind :=
  match op with
  | 0x60 => ⟨1, 1, [(12, 12)], [(12, 16)], false, true⟩
  | 0x61 => ⟨1, 2, [(12, 12)], [(12, 16)], true, true⟩
  | 0x62 => ⟨2, 1, [(7, 13)], [(4, 4), (6, 6), (8, 8), (10, 10), (12, 12), (14, 14), (16, 16)], false, true⟩
  | 0x63 => ⟨2, 2, [(7, 13)], [(4, 4), (6, 6), (8, 8), (10, 10), (12, 12), (14, 14), (16, 16)], true, true⟩
  | 0x64 => ⟨3, 3, [(16, 16)], [], false, false⟩
  | 0x65 => ⟨4, 1, [(16, 16)], [], false, false⟩
  | 0x66 => ⟨4, 2, [(16, 16)], [], false, false⟩
  | 0x67 => ⟨5, 1, [(16, 16)], [], false, false⟩
  | 0x68 => ⟨5, 2, [(16, 16)], [], false, false⟩
  | 0x69 => ⟨6, 1, [(12, 12)], [(16, 16)], false, true⟩
  | 0x6A => ⟨6, 2, [(12, 12)], [(16, 16)], true, true⟩
  | 0x6B => ⟨7, 4, [], [(4, 16)], false, false⟩
  | 0x6C => ⟨7, 8, [], [(4, 16)], true, false⟩
  | 0x6F => ⟨8, 4, [], [(16, 48)], false, false⟩
  | 0x70 => ⟨8, 8, [], [(16, 48)], true, false⟩
  | _ => ⟨0, 0, [], [], false, false⟩

/-- The fields of a cipher entry (Table 11-4). -/
def cjSlot (e : Bytes) : Nat := bits (dw e 1) 0 12
/-- ENGINE. -/
def cjEngine (e : Bytes) : Nat := bits (dw e 1) 16 5
/-- IV_LEN, TAG_LEN and XTS_UNIT. -/
def cjIvLen (e : Bytes) : Nat := byteAt e 8
/-- TAG_LEN. -/
def cjTagLen (e : Bytes) : Nat := byteAt e 9
/-- XTS_UNIT. -/
def cjUnit (e : Bytes) : Nat := byteAt e 10
/-- The descriptors: 0 SRC, 1 DST, 2 AAD. -/
def cjDesc (e : Bytes) (i : Nat) : Desc := descAt e (16 + 16 * i)
/-- The IV bytes used. -/
def cjIv (e : Bytes) : Bytes := sub e 64 (cjIvLen e)

/-- The opcode writes to DST. -/
def cipherWrites (op : Nat) : Bool := op != 0x6C && op != 0x70

/-- Zero fields that depend on the opcode (check 5): XTS_UNIT, IV_LEN, TAG_LEN, TAG_IN, the slot of SHA jobs, AAD. -/
def cipherZeroOk (op : Nat) (e : Bytes) : Bool :=
  let k := cipherKind op
  (k.mode == 5 || cjUnit e == 0) && (!k.ivLen.isEmpty || cjIvLen e == 0) && (!k.tagLen.isEmpty || cjTagLen e == 0)
    && (k.checks || allZero (sub e 96 48)) && (k.mode != 0 || cjSlot e == 0)
    && (k.aad || ((cjDesc e 2).len == 0))

/-- A number lies in one of the ranges. -/
def inRanges (l : List (Nat × Nat)) (x : Nat) : Bool := l.any fun r => decide (r.1 ≤ x) && decide (x ≤ r.2)

/-- The length of SRC is outside its row of Table 11-6. -/
def srcOutOfRange (op len ivLen unit : Nat) : Bool :=
  match (cipherKind op).mode with
  | 1 => decide (2 ^ 36 - 32 < len)
  | 2 => decide (min (2 ^ (8 * (15 - ivLen)) - 1) (2 ^ 48 - 1) < len)
  | 3 => len == 0 || decide (2 ^ 48 ≤ len)
  | 4 => if op = 0x65 then decide (2 ^ 48 - 17 < len) else len == 0 || len % 16 != 0 || decide (2 ^ 48 ≤ len)
  | 5 => decide (len < 16) || decide (2 ^ 48 ≤ len)
      || (len % 2 ^ unit != 0 && decide (len % 2 ^ unit < 16))
  | 6 => decide (2 ^ 38 - 64 < len)
  | _ => decide (2 ^ 48 ≤ len)

/-- The bytes that DST must at least hold (Table 11-6); the length of a CBC plaintext is known at the job's end. -/
def dstNeed (op len tagLen : Nat) : Nat :=
  match op with
  | 0x60 => len + tagLen | 0x62 => len + tagLen | 0x69 => len + tagLen
  | 0x65 => len / 16 * 16 + 16
  | 0x66 => len - 16
  | 0x6B => tagLen | 0x6F => tagLen
  | 0x6D => 32 | 0x6E => 48
  | 0x6C => 0 | 0x70 => 0
  | _ => len

/-- IV_LEN, TAG_LEN, XTS_UNIT or ENGINE outside its range (check 8). -/
def cipherFieldsOut (op : Nat) (e : Bytes) : Bool :=
  let k := cipherKind op
  (!k.ivLen.isEmpty && !inRanges k.ivLen (cjIvLen e)) || (!k.tagLen.isEmpty && !inRanges k.tagLen (cjTagLen e))
    || (k.mode == 5 && (decide (cjUnit e < 9) || decide (24 < cjUnit e)))
    || (decide (15 < cjEngine e) && cjEngine e != 31)

/-- Two single segments overlap. -/
def Desc.overlaps (a b : Desc) : Bool :=
  a.dev == b.dev && !a.list && !b.list && a.len != 0 && b.len != 0 && decide (a.addr < b.addr + b.len)
    && decide (b.addr < a.addr + a.len)

/-- The overlaps that R319 refuses: all but DST on SRC in place. -/
def cipherOverlap (op : Nat) (e : Bytes) : Bool :=
  let s := cjDesc e 0
  let d := cjDesc e 1
  let a := cjDesc e 2
  (cipherKind op).aad && s.overlaps a
  || (cipherWrites op && ((d.overlaps s && d.addr != s.addr) || ((cipherKind op).aad && d.overlaps a)))

/-- HMAC's tag is at most its digest (Table 11-6), which the slot's type gives. -/
def hmacTagOut (type tagLen : Nat) : Bool := type == 7 && decide (32 < tagLen)

/-- The slot's refusals of a cipher job (Table 11-10): EMPTY, then MODE and USAGE, then SPENT. -/
def State.slotRefusal (s : State) (op k : Nat) : Option Status :=
  let kind := cipherKind op
  if kind.mode = 0 then none
  else match s.slot? k with
    | none => some .keyEmpty
    | some x =>
      if x.mode ≠ kind.mode ∨ (x.usage &&& kind.need) = 0 ∨ bit x.usage 6 then some .keyUsage
      else if x.spent then some .keySpent else none

/-- The slot of the job is RESTORING: it waits (R326). -/
def State.slotWaits (s : State) (op k : Nat) : Bool :=
  (cipherKind op).mode != 0 && (match s.slot? k with
    | some x => x.restoring
    | none => false)

/-- The instance that holds an engine. -/
def State.engineOwner (s : State) (e : Nat) : Option Nat := s.cipher.locks.get? e

/-- Every engine is locked. -/
def State.allLocked (s : State) : Bool := (List.range 16).all fun e => (s.engineOwner e).isSome

/-- The job that runs on an engine. -/
def State.engineJob (s : State) (e : Nat) : Option CJob := s.cipher.jobs.find? fun j => j.on == some e

/-- An engine is idle: no job, and no result that it holds for a full CQ (R215). -/
def State.engineIdle (s : State) (e : Nat) : Bool := (s.engineJob e).isNone && !s.resultHeld e

/-- The engine checks of R313. -/
def State.engineRefusal (s : State) (n eng : Nat) : Option Status :=
  if eng = 31 then (if s.allLocked then some .engineLocked else none)
  else match s.engineOwner eng with
    | none => some .notYourInstance
    | some m => if m = n then none else some .engineLocked

/-- Checks 7 to 9 of a cipher job: the status that refuses it, if any. -/
def State.cipherCheck (s : State) (n op : Nat) (e : Bytes) : Option Status :=
  let src := cjDesc e 0
  let dst := cjDesc e 1
  let aad := cjDesc e 2
  let kind := cipherKind op
  if kind.mode ≠ 0 ∧ !s.ownsSlot n (cjSlot e) then some .notYourInstance
  else if !s.descOwn n src ∨ (cipherWrites op ∧ !s.descOwn n dst) ∨ (kind.aad ∧ !s.descOwn n aad) then some .notYourInstance
  else if cipherFieldsOut op e ∨ (!src.list ∧ srcOutOfRange op src.len (cjIvLen e) (cjUnit e))
      ∨ (!src.list ∧ !dst.list ∧ dst.len < dstNeed op src.len (cjTagLen e)) then some .outOfRange
  else if kind.mode = 8 ∧ hmacTagOut (((s.slot? (cjSlot e)).map (·.type)).getD 0) (cjTagLen e) then some .outOfRange
  else if cipherOverlap op e then some .fieldInvalid
  else match s.engineRefusal n (cjEngine e) with
    | some st => some st
    | none => s.slotRefusal op (cjSlot e)

/-- The jobs that wait, in the order of their checks. -/
def State.waitingJobs (s : State) : List CJob := s.cipher.jobs.filter fun j => j.on.isNone

/-- The instance whose waiting ENGINE 31 job is next (R314, R211). -/
def State.cipherTurn (s : State) : Option Nat :=
  ((List.range 64).map fun i => (s.cipher.turn + 1 + i) % 64).find? fun n =>
    s.waitingJobs.any fun j => j.named.isNone && j.fn == n

/-- The engine on which a waiting job may start now. -/
def State.engineFor (s : State) (j : CJob) : Option Nat :=
  match j.named with
  | some e =>
    if s.engineIdle e && ((s.waitingJobs.find? fun x => x.named == some e) == some j) then some e else none
  | none =>
    if s.cipherTurn = some j.fn && ((s.waitingJobs.find? fun x => x.named.isNone && x.fn == j.fn) == some j) then
      (List.range 16).find? fun e => (s.engineOwner e).isNone && s.engineIdle e
    else none

/-- A job of a command. -/
def State.cjob? (s : State) (n q t : Nat) : Option CJob :=
  s.cipher.jobs.find? fun j => j.fn == n && j.queue == q && j.tag == t

/-- A job changed. -/
def State.withCJob (s : State) (n q t : Nat) (f : CJob → CJob) : State :=
  s.withCipher fun c => { c with jobs := c.jobs.map fun j => if j.fn = n ∧ j.queue = q ∧ j.tag = t then f j else j }

/-- A job removed from the engines' lists. -/
def State.dropCJob (s : State) (n q t : Nat) : State :=
  (s.withCipher fun c => { c with jobs := c.jobs.filter fun j => !(j.fn == n && j.queue == q && j.tag == t) }).keyJobGone n q t

/-- A running or waiting job ends with a status; a result it must hold stays with its engine. -/
def State.cipherEnd (s : State) (j : CJob) (st : Status) (r0 : Nat) : State :=
  let s := s.dropCJob j.fn j.queue j.tag
  let s := s.dinc (blk j.fn 0x1C) 1
  s.complete j.fn j.queue j.tag st r0 0 j.on

/-- The read requests of a host range for one buffer (R162). -/
def State.fetches (s : State) (buf : Nat) (isList : Bool) (addr len : Nat) : List Fetch :=
  (readPieces s.maxReadRequest (len + 1) addr len).map fun r => ⟨buf, isList, r.1, r.2, false, none⟩

/-- The buffers that a job's opcode uses: SRC and AAD read, DST written. -/
def cjBuffers (op : Nat) : List Nat :=
  0 :: ((if cipherWrites op then [1] else []) ++ (if (cipherKind op).aad then [2] else []))

/-- The reads of a job's lists in host memory (R525). -/
def State.listReads (s : State) (op : Nat) (e : Bytes) : List Fetch :=
  ((cjBuffers op).map fun i =>
    let d := cjDesc e i
    if d.list && !d.dev then s.fetches i true d.addr d.len else []).flatten

/-- What the reads of one buffer's list, or of its data, returned. -/
def CJob.got (j : CJob) (buf : Nat) (isList : Bool) : Bytes :=
  ((j.reads.filter fun r => r.buf == buf && r.isList == isList).map fun r => r.data.getD []).flatten

/-- The segments of a buffer of a job, its list having been read. -/
def State.cjSegments (s : State) (j : CJob) (e : Bytes) (buf : Nat) : List Desc × Bool :=
  s.segments j.fn (cjDesc e buf) (j.got buf true)

/-- The reads of SRC and AAD in host memory. -/
def State.dataReads (s : State) (j : CJob) (op : Nat) (e : Bytes) : List Fetch :=
  ((cjBuffers op).map fun i =>
    if i = 1 || (cjDesc e i).dev then []
    else ((s.cjSegments j e i).1.map fun d => s.fetches i false d.addr d.len).flatten).flatten

/-- The reads of a phase all answered. -/
def CJob.readsDone (j : CJob) : Bool := j.reads.all fun r => r.data.isSome

/-- The lists are read: a bad descriptor or a length outside its range ends the job, else the data is read (R525, R316). -/
def State.cipherLists (s : State) (j : CJob) (c : Ctx) : State :=
  let e := c.entry
  let op := c.op
  let segs := (cjBuffers op).map fun i => s.cjSegments j e i
  let src := segmentsLength (s.cjSegments j e 0).1
  let dst := segmentsLength (s.cjSegments j e 1).1
  if segs.any (·.2) then s.cipherEnd j .bufferListInvalid 0
  else if srcOutOfRange op src (cjIvLen e) (cjUnit e) ∨ (cipherWrites op ∧ dst < dstNeed op src (cjTagLen e)) then
    s.cipherEnd j .outOfRange 0
  else s.withCJob j.fn j.queue j.tag fun x => { x with phase := 1, reads := x.reads ++ s.dataReads j op e }

/-- The first read of a job not yet issued. -/
def CJob.nextRead (j : CJob) : Option Nat := j.reads.findIdx? fun r => !r.issued

/-- The job still has a host access to make. -/
def CJob.needsHost (j : CJob) (e : Bytes) (op : Nat) : Bool :=
  j.nextRead.isSome || (j.phase == 0 && (cjBuffers op).any fun i => !(cjDesc e i).dev)
    || (cipherWrites op && !(cjDesc e 1).dev)

/-- One running job goes on: its lists are taken, its next read is issued, or it loses the host (R171, R162). Answers whether
anything changed. -/
def State.cipherStep (s : State) (j : CJob) : State × Bool :=
  match s.ctx? j.fn j.queue j.tag with
  | none => (s, false)
  | some c =>
    if j.phase = 0 ∧ j.readsDone then (s.cipherLists j c, true)
    else if !s.canMaster j.fn ∧ j.needsHost c.entry c.op then (s.cipherEnd j .hostAccessLost 0, true)
    else match j.nextRead, s.freeTag j.fn with
      | some i, some t =>
        let r := j.reads.getD i ⟨0, false, 0, 0, true, none⟩
        let s := s.issueRead j.fn t r.addr r.len (.command j.queue j.tag i)
        (s.withCJob j.fn j.queue j.tag fun x => { x with reads := x.reads.set i { r with issued := true } }, true)
      | _, _ => (s, false)

/-- The running jobs go on as far as they can; fuel bounds the number of steps. -/
def State.cipherPump (s : State) : Nat → State
  | 0 => s
  | f + 1 =>
    match (s.cipher.jobs.filter (·.on.isSome)).findSome? fun j =>
        let r := s.cipherStep j
        if r.2 then some r.1 else none with
    | some s' => s'.cipherPump f
    | none => s

/-- The data of a tracked read of a job. -/
def State.cipherData (s : State) (n q t i : Nat) (b : Bytes) : State :=
  s.withCJob n q t fun x => match x.reads[i]? with
    | some r => { x with reads := x.reads.set i { r with data := some (padTo r.len b) } }
    | none => x

/-- The bytes of a job's SRC or AAD. -/
def State.cjBytes (s : State) (j : CJob) (e : Bytes) (buf : Nat) : Bytes :=
  if (cjDesc e buf).dev then ((s.cjSegments j e buf).1.map fun d => s.readDram j.fn d).flatten else j.got buf false

/-- XTS over data units: each takes the next number (R316). -/
def xtsUnits (key : Bytes) (enc : Bool) : Nat → List Bytes → Bytes
  | _, [] => []
  | t, b :: l => aesXts key (leBytes 16 (t % 2 ^ 128)) enc b ++ xtsUnits key enc (t + 1) l

/-- PKCS#7: the plaintext without its padding, or none where it is bad. -/
def unpad (b : Bytes) : Option Bytes :=
  let n := (b.getLastD 0).toNat
  if 1 ≤ n ∧ n ≤ 16 ∧ n ≤ b.length ∧ (b.drop (b.length - n)).all (fun x => x.toNat == n) then some (b.take (b.length - n))
  else none

/-- What a job computes (R316, R317): its output, or the status of a failed check with the number of bytes it wrote. -/
def cipherCompute (op type : Nat) (e key src aad : Bytes) : Except (Status × Nat) Bytes :=
  let iv := cjIv e
  let tl := cjTagLen e
  let want := sub e 96 tl
  let aead (r : Bytes × Bytes) (enc : Bool) : Except (Status × Nat) Bytes :=
    if enc then .ok (r.1 ++ r.2.take tl)
    else if r.2.take tl = want then .ok r.1 else .error (.authTagMismatch, src.length)
  let tag (t : Bytes) (gen : Bool) : Except (Status × Nat) Bytes :=
    if gen then .ok (t.take tl) else if t.take tl = want then .ok [] else .error (.authTagMismatch, 0)
  let ks := aesKeys key
  match op with
  | 0x60 => aead (aesGcm key iv aad src true) true
  | 0x61 => aead (aesGcm key iv aad src false) false
  | 0x62 => aead (aesCcm key iv aad src tl true) true
  | 0x63 => aead (aesCcm key iv aad src tl false) false
  | 0x64 => .ok (aesCtr ks 128 (beNat iv) src)
  | 0x65 =>
    let n := 16 - src.length % 16
    .ok (cbcEnc ks iv (chunksOf 16 (src ++ List.replicate n (BitVec.ofNat 8 n))))
  | 0x66 => match unpad (cbcDec ks iv (chunksOf 16 src)) with
    | some p => .ok p
    | none => .error (.paddingBad, src.length - 16)
  | 0x67 => .ok (xtsUnits key true (leNat iv) (chunksOf (2 ^ cjUnit e) src))
  | 0x68 => .ok (xtsUnits key false (leNat iv) (chunksOf (2 ^ cjUnit e) src))
  | 0x69 => aead (chachaPoly key iv aad src true) true
  | 0x6A => aead (chachaPoly key iv aad src false) false
  | 0x6B => tag (aesCmac key src) true
  | 0x6C => tag (aesCmac key src) false
  | 0x6D => .ok (sha256Hash src)
  | 0x6E => .ok (sha384Hash src)
  | 0x6F => tag (if type = 7 then hmac sha256Hash 64 key src else hmac sha384Hash 128 key src) true
  | _ => tag (if type = 7 then hmac sha256Hash 64 key src else hmac sha384Hash 128 key src) false

/-- The engines an instance holds. -/
def State.enginesHeld (s : State) (n : Nat) : List Nat := (List.range 16).filter fun e => s.engineOwner e == some n

/-- Every engine of an instance released (R312). -/
def State.enginesRelease (s : State) (n : Nat) : State :=
  (s.enginesHeld n).foldl (fun (s : State) e => (s.withCipher fun c => { c with locks := c.locks.del e }).event 224) s

/-- Where all 16 engines are locked, the jobs that wait with ENGINE 31 end (R313). -/
def State.lockedOut (s : State) : State :=
  if s.allLocked then
    (s.waitingJobs.filter (·.named.isNone)).foldl (fun (s : State) j => s.cipherEnd j .engineLocked 0) s
  else s

/-- SRC of a check job. -/
def kjSrc (e : Bytes) : Desc := descAt e 16

/-- ARRAY of a check job. -/
def kjArray (e : Bytes) : Desc := descAt e 48

/-- Jobs that wait for a check unit. -/
def State.checksWaiting (s : State) : List KJob := s.cipher.checks.filter (·.unit.isNone)

/-- The waiting check job that is next (R335, R211). -/
def State.nextCheck (s : State) : Option KJob :=
  (((List.range 64).map fun i => (s.cipher.checkTurn + 1 + i) % 64).findSome? fun n => s.checksWaiting.find? fun j => j.fn == n)

/-- A check job changed. -/
def State.withKJob (s : State) (n q t : Nat) (f : KJob → KJob) : State :=
  s.withCipher fun c => { c with checks := c.checks.map fun j => if j.fn = n ∧ j.queue = q ∧ j.tag = t then f j else j }

/-- Idle check units take the waiting jobs in turn; fuel bounds the units. -/
def State.checkAssign (s : State) : Nat → State
  | 0 => s
  | f + 1 =>
    match (List.range 8).find? (fun u => !s.resultHeld (16 + u) && !s.cipher.checks.any fun j => j.unit == some u), s.nextCheck with
    | some u, some j =>
      ((s.withKJob j.fn j.queue j.tag fun x => { x with unit := some u }).withCipher fun c => { c with checkTurn := j.fn }).checkAssign f
    | _, _ => s

/-- A check job ends; its unit holds the result where the CQ cannot take it. -/
def State.checkEnd (s : State) (j : KJob) (st : Status) (r0 r1 : Nat) : State :=
  let s := s.withCipher fun c => { c with checks := c.checks.filter fun x => !(x.fn == j.fn && x.queue == j.queue && x.tag == j.tag) }
  let s := ((s.dinc 0x2900 3).dinc (blk j.fn 0x1D) 1).dadd (blk j.fn 0x1D) 2 j.done
  let s := if st = .checkMismatch then ((s.dinc 0x2900 4).dinc (blk j.fn 0x1D) 3).event 231 else s
  (s.complete j.fn j.queue j.tag st r0 r1 (j.unit.map (16 + ·))).checkAssign 8

end Sys2Proof.Machine
end

