-- ==== Sys2Proof/Machine/KilnOps.lean ====
section
/-! DEFINITION. The kiln path's operations (Chapter 10): capture and records, segments on the media, staging, admission,
writes and commits, index records, the power-fail sequence. -/

namespace Sys2Proof.Machine

/-- A stream. -/
def State.stream (s : State) (i : Nat) : Stream := s.kiln.streams.getD i Stream.none_

/-- A stream's record changed. -/
def State.withStream (s : State) (i : Nat) (f : Stream → Stream) : State :=
  s.withKiln fun k => { k with streams := k.streams.put i (f (s.stream i)) }

/-- A stream is bound (R279). -/
def Stream.bound (x : Stream) : Bool := x.st == .opened || x.st == .paused || x.st == .closing

/-- Fields of the stream record (Table 10-3). -/
def Stream.sid (x : Stream) : Nat := leAt x.record 0 4
/-- NAMESPACE. -/
def Stream.ns (x : Stream) : Nat := byteAt x.record 4
/-- Blocks of a segment: 2^SEG_ORDER. -/
def Stream.blocks (x : Stream) : Nat := 2 ^ byteAt x.record 5
/-- CAPTURE. -/
def Stream.capture (x : Stream) : Nat := byteAt x.record 6
/-- INDEX_EN. -/
def Stream.indexEn (x : Stream) : Bool := bit (byteAt x.record 7) 0
/-- STAGE_MIN. -/
def Stream.stageMin (x : Stream) : Nat := leAt x.record 14 2
/-- QUEUE_KIB. -/
def Stream.queueKib (x : Stream) : Nat := leAt x.record 16 2
/-- RATE_MBS. -/
def Stream.rate (x : Stream) : Nat := leAt x.record 18 2

/-- The slots of a key list of 16 bytes: up to the first 0xFFFF (Table 10-3). -/
def keyList (b : Bytes) : List Nat := ((List.range 8).map fun i => leAt b (2 * i) 2).takeWhile (· != 0xFFFF)

/-- The slots listed. -/
def Stream.keys (x : Stream) : List Nat := keyList (sub x.record 20 16)

/-- The slot in use. -/
def Stream.slot (x : Stream) : Option Nat := x.cur.bind fun i => x.keys[i]?

/-- The stream's entry of Table 10-15. -/
def streamIdx (i : Nat) : Nat := 0x2710 + i

/-- A change of a stream's state (event 160). -/
def State.streamTo (s : State) (i : Nat) (st : StreamState) : State :=
  if (s.stream i).st = st then s else (s.withStream i fun x => { x with st := st }).event 160

/-- The streams with their numbers. -/
def State.streamList (s : State) : List (Nat × Stream) := s.kiln.streams

/-- A kiln stream is bound to the namespace. -/
def State.nsBound (s : State) (k : Nat) : Bool := s.kiln.streams.any fun kv => kv.2.bound && kv.2.ns == k

/-- The EtherType and the offset of what follows it, past up to two VLAN tags. -/
def etherAt (b : Bytes) (off : Nat) : Nat → Nat × Nat
  | 0 => (beAt b off 2, off + 2)
  | f + 1 =>
    let t := beAt b off 2
    if (t = 0x8100 ∨ t = 0x88A8) ∧ off + 4 ≤ b.length then etherAt b (off + 4) f else (t, off + 2)

/-- The offset of the UDP header of a frame that R286 may count as a UDP frame. -/
def udpAt (b : Bytes) : Option Nat :=
  let (t, o) := etherAt b 12 2
  if t = 0x0800 then
    let ihl := byteAt b o % 16 * 4
    if byteAt b (o + 9) = 17 ∧ beAt b (o + 6) 2 % 0x4000 = 0 ∧ 20 ≤ ihl then some (o + ihl) else none
  else if t = 0x86DD then (if byteAt b (o + 6) = 17 then some (o + 40) else none)
  else none

/-- The UDP payload of a frame that counts as a UDP frame (R286). -/
def udpPayload (b : Bytes) : Option Bytes :=
  match udpAt b with
  | some o =>
    let len := beAt b (o + 4) 2
    if o + 8 ≤ b.length ∧ 8 ≤ len ∧ o + len ≤ b.length then some (sub b (o + 8) (len - 8)) else none
  | none => none

/-- The stored portion of a frame and its flags TRUNCATED and WHOLE (R286). A payload of no bytes, which a record cannot
hold, is stored as the whole frame. -/
def captured (capture : Nat) (b : Bytes) : Bytes × Nat :=
  let (d, whole) := if capture = 1 then (b, 0) else
    match udpPayload b with
    | some p => if p.isEmpty then (b, 4) else (p, 0)
    | none => (b, 4)
  (d.take 9216, whole + (if 9216 < d.length then 1 else 0))

/-- A frame record (Table 10-6). -/
def frameRecord (data : Bytes) (port source flags gap dropped stamp : Nat) : Bytes :=
  let r := leBytes 2 data.length ++ leBytes 1 port ++ leBytes 1 source ++ leBytes 1 (flags + 2 * gap)
    ++ leBytes 3 (if gap = 1 then min 0xFFFFFF dropped else 0) ++ leBytes 8 stamp ++ data
  padTo (ceilDiv r.length 8 * 8) r

/-- The nonce of a segment (R290). -/
def segNonce (sid seq : Nat) : Bytes := leBytes 4 sid ++ zeros 2 ++ leBytes 6 seq

/-- The header block (Table 10-7). -/
def headerBlock (x : Stream) (i : Nat) (g : Segment) : Bytes :=
  padTo 4096 (leBytes 4 0x4E4C494B ++ leBytes 2 1 ++ leBytes 1 (byteAt x.record 5)
    ++ leBytes 1 (b2n g.sync + 2 * b2n g.first + 4 * b2n g.rolled + 8 * x.capture)
    ++ leBytes 4 x.sid ++ leBytes 2 g.slot ++ leBytes 1 i ++ leBytes 1 x.ns ++ leBytes 8 g.seq ++ leBytes 8 g.openTime
    ++ leBytes 8 g.pos ++ g.prevTag ++ leBytes 8 Config.serial ++ segNonce x.sid g.seq ++ leBytes 4 g.keyUse)

/-- The kiln check of a block (R288). -/
def kilnCheck (sid seq block : Nat) (b : Bytes) : Nat :=
  crc32c (leBytes 2 0 ++ leBytes 2 2 ++ leBytes 4 sid ++ leBytes 8 (seq * 0x10000 + block) ++ b)

/-- Data blocks of a segment: D. -/
def Segment.d (g : Segment) : Nat := ceilDiv g.payload.length 4096

/-- Positions the segment has taken: the header, its data blocks, its trailer once closed. -/
def Segment.taken (g : Segment) : Nat := 1 + g.d + b2n g.reason.isSome

/-- Data blocks filled. -/
def Segment.filled (g : Segment) : Nat := if g.reason.isSome then g.d else g.payload.length / 4096

/-- Data block i (from 0) as stored: GCM's counter stream over its records (R289), zeros beyond PAYLOAD_LEN. -/
def dataBlock (x : Stream) (g : Segment) (i : Nat) : Bytes :=
  padTo 4096 (aesCtr (aesKeys g.key) 32 (beNat (segNonce x.sid g.seq) * 2 ^ 32 + 2 + 256 * i) (sub g.payload (4096 * i) 4096))

/-- The blocks from a to b (not included) of a segment as stored: block 0 is the header. -/
def segBlocks (x : Stream) (i : Nat) (g : Segment) (a b : Nat) : Bytes :=
  ((upFrom a (b - a)).map fun j => if j = 0 then headerBlock x i g else dataBlock x g (j - 1)).flatten

/-- The trailer block (Table 10-8). -/
def trailerBlock (x : Stream) (i : Nat) (g : Segment) : Bytes :=
  let checks := ((List.range (g.d + 1)).map fun j => leBytes 4 (kilnCheck x.sid g.seq j (segBlocks x i g j (j + 1)))).flatten
  let body := padTo 4092 (leBytes 4 0x52544C4B ++ leBytes 2 1 ++ leBytes 1 (byteAt x.record 5)
    ++ leBytes 1 (g.reason.getD 0) ++ leBytes 4 x.sid ++ leBytes 4 g.d ++ leBytes 8 g.seq ++ leBytes 8 g.closeTime
    ++ leBytes 4 g.payload.length ++ leBytes 4 g.records ++ leBytes 4 (min 0xFFFFFFFF g.dropped) ++ zeros 4 ++ g.tag ++ checks)
  body ++ leBytes 4 (kilnCheck x.sid g.seq (g.d + 1) body)

/-- Staging blocks of a stream (R298). -/
def Stream.staged (x : Stream) : Nat := sumNat (x.segs.map fun g => g.taken - g.freed)

/-- Staging blocks taken, device-wide. -/
def State.stagedAll (s : State) : Nat := sumNat (s.kiln.streams.map fun kv => kv.2.staged)

/-- The port of a stream's namespace. -/
def State.streamPort (s : State) (x : Stream) : Nat := ((s.ns? x.ns).map (·.port)).getD 0

/-- Blocks written and not completed on a root port. -/
def State.unwrittenOn (s : State) (p : Nat) : Nat :=
  sumNat (s.kiln.streams.map fun kv => if s.streamPort kv.2 = p then kv.2.staged else 0)

/-- The staging counters and events 165 and 166 (R298). -/
def State.stagingCheck (s : State) : State :=
  let a := s.stagedAll
  let m := max (s.unwrittenOn 0) (s.unwrittenOn 1)
  let s := (s.dmax 0x2700 3 a).dmax 0x2700 7 m
  let s := if 2048 ≤ a ∧ !s.kiln.full then s.event 165 else s
  let s : State := [0, 1].foldl (fun (s : State) p =>
    let high := decide (1024 < s.unwrittenOn p)
    let was := (s.kiln.past.get? p).isSome
    if high && !was then (s.event 166).withKiln fun k => { k with past := k.past.put p () }
    else if !high && was then s.withKiln fun k => { k with past := k.past.del p } else s) s
  s.withKiln fun k => { k with full := decide (2048 ≤ a) }

/-- Blocks a stream uses, a block kept for the trailer of its open segment. -/
def Stream.used (x : Stream) : Nat := x.staged + (x.segs.filter fun g => g.reason.isNone).length

/-- The stream can take n more staging blocks: from its reserve, or from the unreserved part of the store (R296). -/
def State.stageRoom (s : State) (i n : Nat) : Bool :=
  let l := s.kiln.streams
  let reserve (x : Stream) : Nat := if x.bound then x.stageMin else 0
  let reserved := sumNat (l.map fun kv => reserve kv.2)
  let past := sumNat (l.map fun kv => kv.2.used - reserve kv.2)
  let x := s.stream i
  decide (n ≤ (reserve x - x.used) + (2048 - reserved - past))
    && decide (sumNat (l.map fun kv => kv.2.used) + n ≤ 2048)

/-- A segment of a stream changed, by its sequence. -/
def State.withSeg (s : State) (i seq : Nat) (f : Segment → Segment) : State :=
  s.withStream i fun x => { x with segs := x.segs.map fun g => if g.seq = seq then f g else g }

/-- The open segment of a stream. -/
def Stream.openSeg (x : Stream) : Option Segment := x.segs.find? fun g => g.reason.isNone

/-- A segment of a stream by its sequence. -/
def Stream.seg? (x : Stream) (seq : Nat) : Option Segment := x.segs.find? fun g => g.seq == seq

/-- A write of a segment's blocks a to b (not included) starts (R263, R299). -/
def State.kilnWrite (s : State) (i : Nat) (g : Segment) (a n : Nat) (data : Bytes) (trailer : Bool) : State :=
  let x := s.stream i
  s.startJob { Job.new (.kiln i g.seq trailer) 0x101 x.ns (s.streamPort x) 2 (g.pos + a) n 256 with
    locks := true, fua := trailer, data := data }

/-- The filled blocks of a segment not yet issued are issued as one run; the header goes with the first (R299). -/
def State.issueRun (s : State) (i seq : Nat) : State :=
  let x := s.stream i
  match x.seg? seq with
  | some g =>
    let n := 1 + g.filled
    if g.issued < n ∧ 1 < n then
      (s.withSeg i seq fun g => { g with issued := n }).kilnWrite i g g.issued (n - g.issued) (segBlocks x i g g.issued n) false
    else s
  | none => s

/-- The trailer once the TAG is complete and every other block has completed (R299); a segment of which a write failed gets
none, and is an unsealed remnant. -/
def State.issueTrailer (s : State) (i seq : Nat) : State :=
  let x := s.stream i
  match x.seg? seq with
  | some g =>
    if g.reason.isSome ∧ !g.trailer ∧ g.freed = 1 + g.d then
      if g.failed then
        (s.voidFill x.ns (g.pos + 1 + g.d) 1).withStream i fun y => { y with segs := y.segs.filter fun h => h.seq != seq }
      else
        (s.withSeg i seq fun g => { g with trailer := true }).kilnWrite i g (1 + g.d) 1 (trailerBlock x i g) true
    else s
  | none => s

/-- SEGMENT_CLOSE (R287, R289, R300): the tag, the trailer's position, the remaining blocks issued. -/
def State.closeSeg (s : State) (i reason : Nat) : State :=
  let x := s.stream i
  match x.openSeg with
  | some g =>
    let tag := (aesGcm g.key (segNonce x.sid g.seq) (headerBlock x i g) g.payload true).2
    let s := s.withSeg i g.seq fun g => { g with
      reason := some reason, closeTime := s.time.ns, tag := tag, pf := reason == 4
      dropped := s.dget (streamIdx i) 0x0B - g.dropBase }
    let s := (s.withStream i fun y => { y with lastTag := tag }).takePositions x.ns 1
    (((s.issueRun i g.seq).issueTrailer i g.seq).stagingCheck)
  | none => s

/-- A frame of a stream dropped and counted (R296, Table 10-2); an overflow is an event and leaves a gap. -/
def State.kilnDrop (s : State) (i : Nat) (gap : Bool) : State :=
  let s := s.dinc (streamIdx i) 0x0B
  if gap then (s.withStream i fun x => { x with gap := x.gap + 1, gapNext := true }).eventLimited 164 i else s

/-- The ingress queue of a stream dropped and counted. -/
def State.kilnFlush (s : State) (i : Nat) : State :=
  let n := (s.stream i).queue.length
  (s.dadd (streamIdx i) 0x0B n).withStream i fun x => { x with queue := [] }

/-- Bytes that a stream's ingress queue holds. -/
def Stream.queued (x : Stream) : Nat := sumNat (x.queue.map (·.data.length))

/-- A frame from the classifier reaches a stream (Table 10-2, R296). -/
def State.kilnFrame (s : State) (i : Nat) (f : QFrame) : State :=
  let x := s.stream i
  if !(x.st == .opened || x.st == .paused) || s.kiln.stopped then s.kilnDrop i false
  else
    let s := s.withStream i fun y => { y with ports := if y.ports.contains f.port then y.ports else y.ports ++ [f.port] }
    if x.queueKib * 1024 < x.queued + f.data.length then s.kilnDrop i true
    else
      (s.withStream i fun y => { y with queue := y.queue ++ [f] }).dmax (streamIdx i) 0x0E (ceilDiv (x.queued + f.data.length) 1024)

/-- A completion entry for a stream's CQ (Table 10-10). -/
def indexEntry (i kind status head r0 low : Nat) : Pend :=
  ⟨0xFFFF, 0, status, r0 % 2 ^ 32, kind * 0x400000 + i * 0x10000 + low, false, none, some (head % 0x10000)⟩

/-- An entry posted to a stream's index CQ, if it is bound, posts, and the CQ takes it. -/
def State.indexPost (s : State) (i : Nat) (p : Pend) : Option State :=
  let x := s.stream i
  if x.bind = 1 ∧ x.indexEn then s.cqTry x.bindFn x.bindCq p else none

/-- The range record of the segments not notified, where the CQ takes it (R22, R301; event 170). -/
def State.rangePost (s : State) (i : Nat) : State :=
  let n := s.dget (streamIdx i) 0x0D
  if n = 0 then s
  else match s.indexPost i (indexEntry i 1 0 (s.stream i).unpostedFirst n 0) with
    | some s => (s.dset (streamIdx i) 0x0D 0).event 170
    | none => s

/-- INDEX_RECORD_POST (R301): a committed segment is notified, or noted for a range record. -/
def State.notify (s : State) (i : Nat) (g : Segment) : State :=
  let s := s.rangePost i
  let n := s.dget (streamIdx i) 0x0D
  let posted := if n = 0 then s.indexPost i (indexEntry i 0 0 (g.pos / 2 ^ 32) g.pos (g.seq % 128 * 512 + g.d % 512)) else none
  match posted with
  | some s => s
  | none =>
    let s := if n = 0 then s.withStream i fun x => { x with unpostedFirst := g.seq } else s
    s.dinc (streamIdx i) 0x0D

/-- The record of a pause (KIND 2), posted where the CQ takes it; else kept until it does (R22). -/
def State.pausePost (s : State) (i code : Nat) : State :=
  let x := s.stream i
  match s.indexPost i (indexEntry i 2 code x.nextSeq 0 0) with
  | some s => s.withStream i fun y => { y with pauseNote := none }
  | none => if x.bind = 1 ∧ x.indexEn then s.withStream i fun y => { y with pauseNote := some code } else s

/-- What a stream could not post is tried again (R22, R301). -/
def State.indexRetry (s : State) (i : Nat) : State :=
  let s := s.rangePost i
  match (s.stream i).pauseNote with
  | some c => s.pausePost i c
  | none => s

/-- A stream is paused (R293, R297): event 163, a KIND 2 record, an ash log entry that the alarms of Table 16-7 match. -/
def State.pauseStream (s : State) (i : Nat) (st : Status) : State :=
  let s := (s.streamTo i .paused).withStream i fun x => { x with cause := st.code, gapNext := x.gapNext || st == .keySpent }
  (s.pausePost i st.code).event 163 |>.logSrc 163 (if st = .keySpent then .critical else .warning) st.code (leBytes 1 i)

/-- The first listed slot from a place on that can seal for the stream (R292). -/
def State.usableKey (s : State) (x : Stream) : Option Nat :=
  let from_ := x.cur.getD 0
  (upFrom from_ (x.keys.length - from_)).find? fun j =>
    match x.keys[j]?.bind s.slot? with
    | some k => !k.restoring && !k.spent && (k.stream == 0 || k.stream == x.sid) && bit k.usage 6
    | none => false

/-- A new lease is written in good time (R291). -/
def State.leaseAhead (s : State) (i : Nat) : State :=
  let x := s.stream i
  if x.lease ≤ x.nextSeq + 524288 ∧ x.leaseWrite.isNone then
    ((s.withStream i fun y => { y with leaseWrite := some (x.lease + 1048576) }).emit
      (.nvme (s.streamPort x) 0 0x106 x.ns 0 0 (leBytes 8 (x.lease + 1048576))))
  else s

/-- A segment opens (R289–R293, R297): none where it cannot, with the state as that leaves it. -/
def State.openSegment (s : State) (i : Nat) : State × Bool :=
  let x := s.stream i
  if !((s.ns? x.ns).map fun n => n.room x.blocks).getD false then (s.pauseStream i .evidenceFull, false)
  else
    let s := s.leaseAhead i
    if x.lease ≤ x.nextSeq then (s, false)
    else match s.usableKey x with
      | none => (s.pauseStream i .keySpent, false)
      | some j =>
        let slot := x.keys.getD j 0
        match s.slot? slot with
        | none => (s, false)
        | some k =>
          if k.leaseHolds then (s, false)
          else
            let rolled := x.cur != some j
            let s := if x.cur.isSome ∧ rolled then
                (s.event 161).logSrc 161 .notice 0x8009
                  (leBytes 1 i ++ zeros 1 ++ leBytes 2 (x.slot.getD 0xFFFF) ++ leBytes 2 slot)
              else s
            let s := if rolled ∧ j + 1 = x.keys.length then s.event 162 else s
            let s := (s.setSlot slot { k with stream := x.sid }).keyUse slot
            let g : Segment := ⟨x.nextSeq, ((s.ns? x.ns).map (·.ap)).getD 0, s.time.ns, slot, k.count % 2 ^ 32, k.key, rolled,
              (s.dget 0x3180 2 == 1 || s.dget 0x3180 2 == 3), x.first, if x.first then zeros 16 else x.lastTag, [], 0,
              s.dget (streamIdx i) 0x0B, 0, none, 0, [], 0, false, 0, false, false⟩
            let s := s.withStream i fun y => { y with
              cur := some j, first := false, nextSeq := y.nextSeq + 1, segs := y.segs ++ [g] }
            ((s.takePositions x.ns 1).stagingCheck, true)

/-- A record joins the open segment (R287, R299, R300). -/
def State.addRecord (s : State) (i : Nat) (r : Bytes) : State :=
  let x := s.stream i
  match x.openSeg with
  | some g =>
    let more := ceilDiv (g.payload.length + r.length) 4096 - g.d
    let s := s.withSeg i g.seq fun g => { g with payload := g.payload ++ r, records := g.records + 1 }
    let s := s.withStream i fun y => { y with queue := y.queue.drop 1, gap := 0, gapNext := false }
    let s := ((s.takePositions x.ns more).dinc (streamIdx i) 9).stagingCheck
    if g.payload.length + r.length = (x.blocks - 2) * 4096 then s.closeSeg i 1
    else if 32 ≤ (g.payload.length + r.length) / 4096 - (g.issued - 1) then s.issueRun i g.seq
    else s
  | none => s

/-- The record of the frame at the head of a stream's queue. -/
def headRecord (x : Stream) (f : QFrame) : Bytes :=
  let (d, fl) := captured x.capture f.data
  frameRecord d f.port f.source fl (b2n x.gapNext) x.gap f.stamp

/-- KILN_ADMISSION's conditions beside the staging store (R296, Table 5-3). -/
def State.mayAdmit (s : State) (i : Nat) : Bool :=
  let x := s.stream i
  x.st == .opened && !s.kiln.stopped && s.domOn domKILN && !s.evidenceHeld

/-- One frame leaves the ingress queue of a stream into its segment chain (R286, R287, R296). -/
def State.admitFrame (s : State) (i : Nat) : State :=
  match (s.stream i).queue with
  | f :: _ =>
    let r := headRecord (s.stream i) f
    let s := match (s.stream i).openSeg with
      | some g => if ((s.stream i).blocks - 2) * 4096 < g.payload.length + r.length then s.closeSeg i 1 else s
      | none => s
    let (need, opens) := match (s.stream i).openSeg with
      | some g => (ceilDiv (g.payload.length + r.length) 4096 - g.d, false)
      | none => (ceilDiv r.length 4096 + 2, true)
    if !s.stageRoom i need then s
    else if opens then
      let (s, ok) := s.openSegment i
      if ok then s.addRecord i (headRecord (s.stream i) f) else s
    else s.addRecord i r
  | [] => s

/-- An admission attempt: a stream paused for lack of room returns to OPEN once there is room (R297). -/
def State.admission (s : State) (i : Nat) : State :=
  let x := s.stream i
  let s := if x.st = .paused ∧ x.cause = Status.evidenceFull.code
      ∧ ((s.ns? x.ns).map fun n => n.room x.blocks).getD false ∧ !s.kiln.stopped then s.streamTo i .opened else s
  if s.mayAdmit i then s.admitFrame i else s

/-- A stream is CLOSED and unbound; a KILN_STREAM_CLOSE in hand completes (R283). -/
def State.streamClosed (s : State) (i : Nat) (st : Status) : State :=
  let x := s.stream i
  let s := (s.streamTo i .closed).withStream i fun y => { y with engine := none, ports := [], closeTag := none, cur := y.cur }
  match x.closeTag with
  | some t => s.complete 0 0 t st (if st = .ok then x.lastCommitted else 0)
  | none => s

/-- A CLOSING stream whose last segment has committed is CLOSED (R283). -/
def State.closingSettle (s : State) (i : Nat) : State :=
  let x := s.stream i
  if x.st = .closing ∧ x.segs.isEmpty then s.streamClosed i .ok else s

/-- SEGMENT_COMMIT (R299): counters, the damper's sealed bytes, the index record. -/
def State.commitSeg (s : State) (i : Nat) (g : Segment) : State :=
  let n := g.payload.length
  let s := (((s.dadd 0x2105 1 n).dadd (streamIdx i) 0x0A n).dinc (streamIdx i) 0x0C).dset (streamIdx i) 0x10 s.time.ns
  let s := s.withStream i fun x => { x with segs := x.segs.filter fun h => h.seq != g.seq, lastCommitted := g.seq }
  s.notify i g

/-- A write of the kiln has ended (R298, R299). -/
def State.kilnJobDone (s : State) (j : Job) (i seq : Nat) (trailer : Bool) : State :=
  let bad := !j.unwritten.isEmpty || j.failed
  let s := s.portBytes j.port 8 (if bad then 0 else 4096 * j.blocks)
  match (s.stream i).seg? seq with
  | some g =>
    let s := if trailer then
        if bad then s.withStream i fun x => { x with segs := x.segs.filter fun h => h.seq != seq } else s.commitSeg i g
      else (s.withSeg i seq fun g => { g with freed := g.freed + j.blocks, failed := g.failed || bad }).issueTrailer i seq
    (s.closingSettle i).stagingCheck
  | none => s

/-- The SSD of a stream has been lost (Table 10-13): CLOSED and unbound, its untaken staging freed, the positions it took
owed as void blocks. -/
def State.streamLost (s : State) (i : Nat) : State :=
  let x := s.stream i
  if x.bound then
    let s : State := x.segs.foldl (fun (s : State) g =>
      let a := g.issued + b2n g.trailer
      if a < g.taken then s.voidFill x.ns (g.pos + a) (g.taken - a) else s) s
    let s := (s.kilnFlush i).withStream i fun y => { y with segs := [], cause := Status.backendUnavailable.code }
    s.streamClosed i .backendUnavailable
  else s

/-- The streams on a root port lose their SSD. -/
def State.streamsLost (s : State) (p : Nat) : State :=
  (s.kiln.streams.map (·.1)).foldl (fun (s : State) i => if s.streamPort (s.stream i) = p then s.streamLost i else s) s

/-- The index bindings to a function's CQs become void (R302). -/
def State.bindingsVoidOf (s : State) (n : Nat) : State :=
  (s.kiln.streams.map (·.1)).foldl (fun (s : State) i =>
    let x := s.stream i
    if x.bind = 1 ∧ x.bindFn = n then (s.withStream i fun y => { y with bind := 2 }).event 172 else s) s

/-- PFAIL after READY, or R135: step 1 of Table 10-11. -/
def State.pfStart (s : State) : State :=
  if s.kiln.stopped ∨ !s.boot.ready then s
  else
    let bound := s.kiln.streams.filter fun kv => kv.2.bound
    let nss := bound.map fun kv => kv.2.ns
    let s := (s.withKiln fun k => { k with
      pf := some (s.time.elapsed, 0), pfNs := nss, pfFlush := [], pfFlushed := false, pfBound := false, stopped := true }).event 167
    bound.foldl (fun (s : State) kv =>
      let s := s.kilnFlush kv.1
      if (s.stream kv.1).openSeg.isSome then
        (s.withKiln fun k => { k with pf := k.pf.map fun x => (x.1, x.2 + 1) }).closeSeg kv.1 4
      else s) s

/-- PF_SEQUENCE_END (R303): every stream CLOSED, the counters, event 168, one Warning entry; the opens cut off complete
(Table 10-13). -/
def State.pfEnd (s : State) : State :=
  match s.kiln.pf with
  | some (t0, n) =>
    let us := (s.time.elapsed - t0) / 1000
    let s := s.withKiln fun k => { k with pf := none }
    let s : State := (s.kiln.streams.map (·.1)).foldl (fun (s : State) i =>
      let x := s.stream i
      let s := if x.bound then s.streamClosed i .ok else s
      match x.openTag with
      | some t => (s.withStream i fun y => { y with openTag := none, engine := none }).complete 0 0 t .notInThisState
      | none => s) s
    let s := ((s.dinc 0x2700 4).dset 0x2700 5 (us % 2 ^ 32)).dset 0x2700 6 (min 0xFFFF n)
    s.eventLog 168 .warning 0x800A (leBytes 4 us ++ leBytes 2 n)
  | none => s

/-- The sequence goes on: with every segment written, a Flush to each bound namespace; with every Flush completed, its end
(Table 10-11, steps 5 and 6). -/
def State.pfSettle (s : State) : State :=
  if s.kiln.pf.isNone ∨ s.kiln.streams.any (fun kv => kv.2.bound && !kv.2.segs.isEmpty) then s
  else if !s.kiln.pfFlushed then
    let nss := s.kiln.pfNs.filter fun k => match s.ns? k with
      | some x => (s.port x.port).st == 2 || (s.port x.port).st == 5
      | none => false
    let s := s.withKiln fun k => { k with pfFlushed := true, pfFlush := nss }
    let s : State := nss.foldl (fun (s : State) k =>
      s.startJob (Job.new .service 0x103 k (((s.ns? k).map (·.port)).getD 0) 2 0 1 1)) s
    if nss.isEmpty then s.pfEnd else s
  else if s.kiln.pfFlush.isEmpty then s.pfEnd else s

end Sys2Proof.Machine
end

