-- ==== Sys2Proof/Machine/StorageEnd.lean ====
section
/-! DEFINITION. How storage jobs end (Chapter 9): results of reads, appends and admin work, back-end completions, a port that
fails, attach and detach, the commands abandoned, and what settles after each command. -/

namespace Sys2Proof.Machine

/-- The block found at an offset of a read; one the SSD did not return is unreadable. -/
def Job.blockAt (j : Job) (i : Nat) : BlockRead :=
  ((j.found.find? fun f => f.1 == i).map (·.2)).getD ⟨false, [], []⟩

/-- What a READ or VERIFY found (R256): the outcome of each block in order. -/
def State.readOutcomes (s : State) (j : Job) : List (Nat × BlockOutcome) :=
  let owner := ((s.ns? j.ns).map (·.owner)).getD 0
  (List.range j.blocks).map fun i => (i, blockOutcome owner j.ns (j.first + i) (j.blockAt i))

/-- The results of a READ or VERIFY (R256): status, RESULT0, RESULT1. -/
def readResult (l : List (Nat × BlockOutcome)) : Status × Nat × Nat :=
  let bad := l.find? fun x => x.2 == .unreadable
  let fail := l.find? fun x => x.2 == .failing
  let nf := (l.filter fun x => x.2 == .failing).length
  let nu := (l.filter fun x => x.2 == .unwritten).length
  let r1 := min 4095 nf * 4096 + min 4095 nu
  match bad, fail with
  | some x, _ => (.mediaError, x.1, r1)
  | none, some x => (.checkMismatch, x.1, r1)
  | none, none => (.ok, 0xFFFFFFFF, r1)

/-- A READ or VERIFY has ended (R256, Tables 9-6 and 9-12). -/
def State.readFinish (s : State) (j : Job) (n q t : Nat) : State :=
  let l := s.readOutcomes j
  let (st, r0, r1) := readResult l
  let nf := (l.filter fun x => x.2 == .failing).length
  let first := ((l.find? fun x => x.2 == .failing).map (·.1)).getD 0
  let s := if st = .mediaError then
      ((s.mediaError j.port).mediaErrorOf n).logSrc 100 .error Status.mediaError.code (leBytes 1 j.ns ++ zeros 3 ++ leBytes 8 (j.first + r0))
    else s
  let s := if nf = 0 then s else
      ((((s.withNs j.ns fun x => { x with mismatches := x.mismatches + nf }).dadd (blk n 0x19) 4 nf).event 101).logSrc 101 .error
        Status.checkMismatch.code (leBytes 1 j.ns ++ zeros 3 ++ leBytes 8 (j.first + first)))
  if j.op = 0x45 then s.storEnd n q t st r0 r1
  else
    match s.ctx? n q t with
    | none => s
    | some c =>
      let data := (l.map fun x => blockData x.2 (j.blockAt x.1)).flatten
      let (s, bad) := s.scatter n (descAt c.entry 16) 0 j.lists data
      match bad with
      | some e => s.storEnd n q t e
      | none =>
        ((s.dadd (blk n 0x19) 2 data.length).portBytes j.port 9 data.length).storEnd n q t st r0 r1

/-- The status of a write or a job without data: OK, or MEDIA_ERROR with its counters. -/
def State.plainFinish (s : State) (j : Job) (n q t : Nat) (bytes r0 r1 : Nat) : State :=
  if j.failed then ((s.mediaError j.port).mediaErrorOf n).storEnd n q t .mediaError
  else ((s.dadd (blk n 0x19) 3 bytes).portBytes j.port 9 bytes).storEnd n q t .ok r0 r1

/-- A port's STATE changed. -/
def State.portTo (s : State) (p st : Nat) : State := s.withPort p fun x => { x with st := st }

/-- A port takes an attach's end: RESULT0 of SSD_ATTACH is its state (Table 9-7). -/
def State.attachEnd (s : State) (p st : Nat) : State :=
  let t := (s.port p).attach
  let s := s.withPort p fun x => { x with st := st, attach := none, recovering := false }
  match t with
  | some tag => s.storEnd 0 0 tag .ok st
  | none => s

/-- Step 6 of Table 9-2: state 2, event 96. -/
def State.portReady (s : State) (p : Nat) : State := (s.attachEnd p 2).event 96

/-- A recovering port whose work of step 5 has ended is ready. -/
def State.recoverySettle (s : State) (p : Nat) : State :=
  if (s.port p).st = 1 ∧ (s.port p).recovering ∧ !s.stor.jobs.any (fun j => j.port == p && j.owner == .service) then s.portReady p
  else s

/-- SSD_PREPARE's end (R244, R245). -/
def State.prepareFinish (s : State) (j : Job) (n q t : Nat) : State :=
  if j.failed then s.plainFinish j n q t 0 0 0
  else
    let md := ((s.port j.port).ident.map (·.metadataBytes)).getD 0
    let mode := if 8 ≤ md then 1 else 2
    let was := (s.port j.port).st
    let s := s.withStor fun x => { x with ns := x.ns.keep fun _ y => y.port != j.port }
    let s := s.withPort j.port fun x => { x with mode := mode, st := 2 }
    let s := if was = 2 then s else s.event 96
    s.storEnd n q t .ok 0 mode

/-- EVIDENCE_RELEASE goes on: after the deallocation the catalogue, then RP moves (R249). -/
def State.releaseFinish (s : State) (j : Job) (n q t : Nat) : State × Option Job :=
  if j.failed then (s.plainFinish j n q t 0 0 0, none)
  else if j.stage = 0 then (s, some { j with stage := 1, next := 0, blocks := 1, unit := 1 })
  else
    let old := ((s.ns? j.ns).map (·.rp)).getD 0
    let new := j.span.1 + j.span.2
    let s := (s.withNs j.ns fun x => { x with rp := new }).fillCheck j.ns
    let s := s.eventLog 106 .notice 0x800C (leBytes 1 j.ns ++ zeros 3 ++ leBytes 8 new)
    (s.storEnd n q t .ok ((new - old) % 2 ^ 32), none)

/-- What an ended job of a command does besides its completion, and the completion. -/
def State.commandJobFinish (s : State) (j : Job) (n q t : Nat) : State :=
  match j.op with
  | 0x40 => s.readFinish j n q t
  | 0x45 => s.readFinish j n q t
  | 0x48 =>
    let s := s.appendSettle j
    s.plainFinish j n q t (4096 * j.blocks) (j.first % 2 ^ 32) (j.first / 2 ^ 32)
  | 0x41 => s.plainFinish j n q t (4096 * j.blocks) 0 0
  | 0x20 => if j.failed then (s.nsGone j.ns).plainFinish j n q t 0 0 0 else (s.catalogueWrite j.port).plainFinish j n q t 0 0 0
  | 0x21 =>
    if j.failed then (s.withStor fun y => { y with owed := y.owed ++ [j.ns] }).plainFinish j n q t 0 0 0
    else ((s.nsGone j.ns).catalogueWrite j.port).plainFinish j n q t 0 0 0
  | 0x25 => s.prepareFinish j n q t
  | 0x26 => (s.withPort j.port fun x => { x with st := 7, detach := none, shutdown := false }).storEnd n q t .ok
  | _ => s.plainFinish j n q t 0 0 0

/-- What an ended job without a command does: a void fill, a deletion, a flush of the power-fail sequence, work whose command
was abandoned. -/
def State.serviceJobFinish (s : State) (j : Job) : State :=
  match j.op with
  | 0x100 => if j.failed then s.withNs j.ns fun y => { y with owed := y.owed ++ [(j.first, j.blocks)] } else s.positionsDone j.ns j.first j.blocks
  | 0x48 => s.appendSettle j
  | 0x102 => if j.failed then s.withStor fun y => { y with owed := y.owed ++ [j.ns] } else (s.nsGone j.ns).catalogueWrite j.port
  | 0x21 => if j.failed then s.withStor fun y => { y with owed := y.owed ++ [j.ns] } else (s.nsGone j.ns).catalogueWrite j.port
  | 0x20 => if j.failed then s.nsGone j.ns else s.catalogueWrite j.port
  | 0x103 => s.withKiln fun k => { k with pfFlush := k.pfFlush.filter (· != j.ns) }
  | 0x26 => s.withPort j.port fun x => { x with st := 7, detach := none, shutdown := false }
  | _ => s

/-- The flushes that a leading flush served end with it (Table 5-3, step 1). -/
def State.followersFinish (s : State) (j : Job) : State :=
  if j.op ≠ 0x42 then s
  else (s.stor.jobs.filter fun k => k.gathered && k.stage == j.id).foldl (fun (s : State) k =>
    let s := s.dropJob k.id
    match k.owner with
    | .command n q t => s.plainFinish { k with failed := j.failed } n q t 0 0 0
    | _ => s) s

/-- A job's work on the media has ended: its lock is freed, its owner served. -/
def State.jobFinish (s : State) (j : Job) : State :=
  let s := (s.dropJob j.id).followersFinish j
  match j.owner with
  | .command n q t =>
    if j.op = 0x24 then
      let (s, more) := s.releaseFinish j n q t
      match more with
      | some k => s.withStor fun x => { x with jobs := k :: x.jobs }
      | none => s
    else s.commandJobFinish j n q t
  | .kiln i seq tr => (s.appendSettle j).kilnJobDone j i seq tr
  | .service => s.serviceJobFinish j

/-- SSD_DETACH goes on once nothing of the port is in flight (R258). -/
def State.detachSettle (s : State) (p : Nat) : State :=
  let x := s.port p
  match x.detach with
  | some tag =>
    if x.shutdown ∨ s.stor.jobs.any (fun j => j.port == p) then s
    else if x.st = 0 ∨ x.st = 7 then (s.withPort p fun y => { y with st := 7, detach := none }).storEnd 0 0 tag .ok
    else if x.st = 1 ∨ x.st = 5 then s
    else
      (s.withPort p fun y => { y with shutdown := true }).startJob { Job.new (.command 0 0 tag) 0x26 0 p 3 0 1 1 with go := true }
  | none => s

/-- The storage service goes on as far as it can: grants, back-end commands, ended jobs; fuel bounds the number of jobs that
end. -/
def State.storeRun (s : State) : Nat → State
  | 0 => s
  | f + 1 =>
    let s := s.grants.pump
    match s.stor.jobs.find? Job.ended with
    | some j => (s.jobFinish j).storeRun f
    | none => s

/-- The storage service, the power-fail sequence and the ports settle. -/
def State.storageSettle (s : State) : State :=
  let s := s.storeRun (2 * s.stor.jobs.length + 4)
  let s := (s.recoverySettle 0).recoverySettle 1
  let s := (s.detachSettle 0).detachSettle 1
  let s := s.pfSettle
  s.storeRun (2 * s.stor.jobs.length + 4)

/-- A back-end command ends (R263, R273): its blocks, or a failure. -/
def State.backendEnds (s : State) (p : Nat) (b : Backend) (ok : Bool) (blocks : List BlockRead) : State :=
  let s := s.withPort p fun x => { x with cmds := x.cmds.filter fun y => y.id != b.id }
  s.withJob b.job fun j => { j with
    outstanding := j.outstanding - 1
    found := if j.op = 0x40 ∨ j.op = 0x45 then j.found ++ (blocks.take b.blocks).mapIdx fun i x => (b.off + i, x) else j.found
    failed := j.failed || (!ok && j.op != 0x40 && j.op != 0x45)
    lost := if !ok && j.carries then j.lost ++ [(b.off, b.blocks)] else j.lost }

/-- A job of a failed port ends (R271, R272, R273). -/
def State.jobLost (s : State) (cmds : List Backend) (j : Job) : State :=
  let out := (cmds.filter fun b => b.job == j.id && b.opcode != 0x108).map fun b => (b.off, b.blocks)
  let j := { j with lost := if j.carries then j.lost ++ out else j.lost, failed := true }
  let s := s.dropJob j.id
  let issued := j.next != 0
  let s := if j.op = 0x48 ∨ j.op = 0x101 then s.appendSettle j
    else match j.op with
      | 0x100 => s.withNs j.ns fun y => { y with owed := y.owed ++ j.unwritten.map fun r => (j.first + r.1, r.2) }
      | 0x102 => s.withStor fun y => { y with owed := y.owed ++ [j.ns] }
      | 0x21 => if issued then s.withStor fun y => { y with owed := y.owed ++ [j.ns] } else s
      | 0x20 => s.nsGone j.ns
      | 0x103 => s.withKiln fun k => { k with pfFlush := k.pfFlush.filter (· != j.ns) }
      | _ => s
  match j.owner with
  | .command n q t =>
    if j.op = 0x26 then s
    else if issued then (s.mediaErrorOf n).storEnd n q t .mediaError else s.storEnd n q t .backendUnavailable
  | _ => s

/-- A port leaves for state 0 or 6 (R273, Table 9-12): outstanding commands end with MEDIA_ERROR, waiting ones with
BACKEND_UNAVAILABLE; its streams are lost; an attach or a detach in hand ends. -/
def State.portFail (s : State) (p st : Nat) : State :=
  let x := s.port p
  let js := s.stor.jobs.filter fun j => j.port == p
  let s := if x.st = 2 ∨ x.st = 5 then s.event 97 else s
  let s := s.withPort p fun y => { y with st := st, cmds := [], recovering := false, shutdown := false, detach := none }
  let s : State := js.foldl (fun (s : State) j => s.jobLost x.cmds j) s
  let s := s.streamsLost p
  let s := match x.detach with
    | some t => s.storEnd 0 0 t .backendUnavailable
    | none => s
  s.attachEnd p st

/-- The SSD meets the rows of Table 9-1 marked All (R241). -/
def ssdSuitable (d : SsdIdentity) : Bool :=
  decide (0x20000 ≤ d.version) && d.namespaceManagement && decide (3 ≤ d.namespaceCount) && d.datasetManagement && d.writeZeroes
    && d.dlfeat % 8 == 1 && (d.mdts == 0 || decide (5 ≤ d.mdts)) && decide (2 ≤ d.queuePairs) && decide (1023 ≤ d.mqes)
    && decide (d.capTo ≤ 60) && d.format4k && (d.metadataBytes == 0 || decide (8 ≤ d.metadataBytes))

/-- A namespace as the catalogue lists it, recovered (R251): CP moved over the blocks found, AP at CP. -/
def catalogueNs (e : CatalogueEntry) (p : Nat) (owed : List (Nat × Nat)) : Ns :=
  let limit := min (e.cp + 524288) (e.rp + e.size)
  let cp := if e.evidence then min (e.cp + e.found) (max e.cp limit) else 0
  ⟨e.evidence, e.owner, e.reader, p, e.size, if e.evidence then e.rp else 0, cp, cp, e.deleting, e.streamId, e.lease, 0, [], owed, 0,
   false⟩

/-- Step 5 of Table 9-2 for one namespace (R251, R253, R272). -/
def State.recoverNs (s : State) (p : Nat) (e : CatalogueEntry) : State :=
  let old := s.ns? e.number
  let owedDelete := s.stor.owed.contains e.number
  let voids := (old.map (·.owed)).getD []
  let x := catalogueNs e p []
  let s := s.withStor fun y => { y with ns := y.ns.put e.number { x with deleting := x.deleting || owedDelete } }
  if x.deleting ∨ owedDelete then
    (s.withStor fun y => { y with owed := y.owed.filter (· != e.number) }).startJob
      { Job.new .service 0x102 e.number p 3 0 1 1 with locks := true, span := wholeNs }
  else if e.evidence then
    let s : State := voids.foldl (fun (s : State) r => s.startJob
      { Job.new .service 0x100 e.number p 1 r.1 r.2 256 with locks := true, fua := true }) s
    let stop := min (x.cp + 262144) (x.rp + x.size)
    let s := s.startJob (Job.new .service 0x105 e.number p 1 x.cp (stop - x.cp) (stop - x.cp + 1))
    ((s.eventLog 105 .notice 0x800B (leBytes 1 e.number ++ zeros 3 ++ leBytes 8 x.cp)).fillCheck e.number)
  else s

/-- CSTS.RDY is set during an attach: steps 3 to 5 of Table 9-2. -/
def State.attachIdentified (s : State) (p : Nat) (d : SsdIdentity) : State :=
  let s := s.withPort p fun x => { x with ident := some d }
  if !ssdSuitable d then s.attachEnd p 4
  else match d.catalogue with
    | .absent => s.attachEnd p 3
    | .invalid => ((s.attachEnd p 6).event 97).logSrc 97 .critical Status.backendUnavailable.code (leBytes 1 p)
    | .valid mapMode entries =>
      let used := entries.filter fun e => (s.ns? e.number).all fun x => x.port == p
      let kept := used.map (·.number)
      let s := s.withStor fun x => { x with ns := x.ns.keep fun k y => y.port != p || kept.contains k }
      let s := s.withPort p fun x => { x with mode := if mapMode then 2 else 1, recovering := true }
      used.foldl (fun (s : State) e => s.recoverNs p e) s

/-- The commands of a function that the storage service abandons (R173, R271, R272): one that no SSD has is gone; one that
an SSD has runs to its end on the media, issues nothing more, and serves nobody. -/
def State.storageAbandon (s : State) (n : Nat) : State :=
  (s.stor.jobs.filter fun j => match j.owner with
    | .command m _ _ => m == n
    | _ => false).foldl (fun (s : State) j =>
      if j.next = 0 then
        let s := s.dropJob j.id
        if j.op = 0x48 then s.voidFill j.ns j.first j.blocks else if j.op = 0x20 then s.nsGone j.ns else s
      else
        let s := s.withJob j.id fun x => { x with owner := .service, blocks := if x.op = 0x24 then x.blocks else x.next }
        if j.op = 0x48 ∧ j.next < j.blocks then s.voidFill j.ns (j.first + j.next) (j.blocks - j.next) else s) s

/-- The reads of a function that still have data to deliver to the host end (R171). -/
def State.storageAccessLost (s : State) (n : Nat) : State :=
  (s.stor.jobs.filter fun j => j.op == 0x40).foldl (fun (s : State) j =>
    match j.owner with
    | .command m q t =>
      if m ≠ n then s
      else match s.ctx? n q t with
        | some c =>
          if (descAt c.entry 16).dev then s
          else
            let s := if j.next = 0 then s.dropJob j.id else s.withJob j.id fun x => { x with owner := .service, blocks := x.next }
            s.storEnd n q t .hostAccessLost
        | none => s
    | _ => s) s

/-- ABORT of a started storage command (R267): caught while it has issued no back-end command. -/
def State.storageAbort (s : State) (n q t : Nat) : Option State :=
  match s.stor.jobs.find? fun j => j.owner == .command n q t with
  | some j => if j.next = 0 ∧ 0x40 ≤ j.op ∧ j.op ≤ 0x5F then some ((s.dropJob j.id).complete n q t .aborted) else none
  | none => none

/-- RESET_INSTANCE, DESTROY_INSTANCE and REARM_INSTANCE without KEEP (R253): the instance's general namespaces go, and its
role as reader. -/
def State.nsInstanceEnds (s : State) (n : Nat) : State :=
  let s := s.withStor fun x => { x with ns := x.ns.map fun kv =>
    (kv.1, if kv.2.reader = some n then { kv.2 with reader := none } else kv.2) }
  (s.stor.ns.filter fun kv => !kv.2.evidence && kv.2.owner == n && !kv.2.deleting).foldl
    (fun (s : State) kv => s.nsDeleteNow kv.1) s

/-- The root port begins an attach: state 1, the link training or the controller enabled (Table 9-2, steps 1 and 2). -/
def State.attachStart (s : State) (p : Nat) : State :=
  let s := s.withPort p fun x => { x with st := 1, recovering := false, ident := none }
  if (s.port p).linkUp then s.emit (.nvme p 0 0x102 0 0 0 []) else s

end Sys2Proof.Machine
end

