-- ==== Sys2Proof/Machine/TableOps.lean ====
section
/-! DEFINITION. The exact-match table's operations (Chapter 12): keys and hashes, validity, lookup, insertion with relocation and
the stash, locks and staged ops, learning and ageing. -/

namespace Sys2Proof.Machine

/-- The first index of the stash (entry indexes 262,144–262,207). -/
def stashBase : Nat := 262144

/-- H0 and H1 of a key (R353). -/
def keyHash (k : Bytes) : Nat × Nat :=
  let c := crc32c (padTo 48 k)
  let h0 := c % 65536
  let h1 := c * 0x9E3779B1 % 2 ^ 32 / 65536
  (h0, if h1 = h0 then Nat.xor h0 1 else h1)

/-- A type 1 key (Table 12-3). -/
def macKey (vid : Nat) (mac : Bytes) : Bytes := padTo 48 (leBytes 1 1 ++ zeros 1 ++ leBytes 2 vid ++ mac.take 6)

/-- A type 2 or type 3 key (Table 12-3). -/
def flowKey (v6 : Bool) (scope vid : Nat) (src dst : Bytes) (proto sport dport : Nat) : Bytes :=
  padTo 48 (leBytes 1 (if v6 then 3 else 2) ++ leBytes 1 scope ++ leBytes 2 vid ++ src ++ dst ++ leBytes 1 proto ++ zeros 1
    ++ beBytes 2 sport ++ beBytes 2 dport)

/-- The key of an entry. -/
def entryKey (e : Bytes) : Bytes := e.take 48

/-- Fields of an action (Table 12-4). -/
def entryKind (e : Bytes) : Nat := byteAt e 48
/-- DEST2_KIND. -/
def entryKind2 (e : Bytes) : Nat := byteAt e 49
/-- DEST. -/
def entryDest (e : Bytes) : Nat := leAt e 50 2
/-- DEST2. -/
def entryDest2 (e : Bytes) : Nat := leAt e 52 2
/-- CLASS. -/
def entryClass (e : Bytes) : Nat := byteAt e 56
/-- FLAGS. -/
def entryFlags (e : Bytes) : Nat := byteAt e 57
/-- METER. -/
def entryMeter (e : Bytes) : Nat := leAt e 58 2
/-- OWNER. -/
def entryOwner (e : Bytes) : Nat := byteAt e 60

/-- FLAGS replaced. -/
def withFlags (e : Bytes) (f : Nat) : Bytes := overlay e 57 (leBytes 1 f)

/-- The candidates of a key: the four slots of each of its buckets, then the stash. -/
def keySlots (k : Bytes) : List Nat :=
  let (h0, h1) := keyHash k
  upFrom (4 * h0) 4 ++ upFrom (4 * h1) 4 ++ upFrom stashBase 64

/-- An exact-match lookup: entry index and entry. -/
def FwdTable.lookup (t : FwdTable) (k : Bytes) : Option (Nat × Bytes) :=
  ((keySlots k).find? fun i => (t.entries.get? i).map entryKey == some (padTo 48 k)).bind fun i =>
    (t.entries.get? i).map fun e => (i, e)

/-- Entries of an owner. -/
def FwdTable.owned (t : FwdTable) (n : Nat) : Nat := (t.entries.filter fun kv => entryOwner kv.2 == n).length

/-- Entries in the stash. -/
def FwdTable.stashed (t : FwdTable) : Nat := (t.entries.filter fun kv => decide (stashBase ≤ kv.1)).length

/-- The lowest free slot of a bucket. -/
def FwdTable.freeSlot (t : FwdTable) (b : Nat) : Option Nat := (upFrom (4 * b) 4).find? fun i => (t.entries.get? i).isNone

/-- The lowest free entry of the stash. -/
def FwdTable.freeStash (t : FwdTable) : Option Nat := (upFrom stashBase 64).find? fun i => (t.entries.get? i).isNone

/-- A bucket is locked by a handle that is not of the instance (R362); none stands for the hardware. -/
def FwdTable.locked (t : FwdTable) (b : Nat) (inst : Option Nat) : Bool :=
  t.handles.any fun kv => (kv.2.h0 == b || kv.2.h1 == b) && some kv.2.owner != inst

/-- The next victim of a bucket at its round-robin pointer, which advances; a slot already on the path is passed over. -/
def FwdTable.victim (t : FwdTable) (b : Nat) (path : List Nat) : Option (Nat × FwdTable) :=
  let p := t.rr.getD b 0
  (((List.range 4).map fun i => (p + i) % 4).find? fun k => !path.contains (4 * b + k)).map fun k =>
    (4 * b + k, { t with rr := t.rr.put b ((k + 1) % 4) })

/-- Where a relocation search ends (R354): a free slot behind the victims, victims without a free slot, a locked bucket. -/
inductive PathEnd where
  | free (path : List Nat) (slot : Nat)
  | full (path : List Nat)
  | locked
deriving DecidableEq, Repr

/-- The search of R354, step 2, from a full bucket on; the path is kept last victim first. -/
def FwdTable.search (t : FwdTable) (inst : Option Nat) : Nat → Nat → List Nat → PathEnd × FwdTable
  | 0, _, path => (.full path, t)
  | f + 1, b, path =>
    match t.victim b path with
    | none => (.full path, t)
    | some (v, t) =>
      let (h0, h1) := keyHash (entryKey (t.entries.getD v []))
      let o := if v / 4 = h0 then h1 else h0
      if t.locked o inst then (.locked, t)
      else match t.freeSlot o with
        | some i => (.free (v :: path) i, t)
        | none => t.search inst f o (v :: path)

/-- The moves of a path, last victim first (R354, step 3): each victim goes where the one before it has left. -/
def FwdTable.shift (t : FwdTable) : List Nat → Nat → FwdTable
  | [], _ => t
  | v :: rest, dst =>
    let t := match t.entries.get? v with
      | some e => { t with entries := (t.entries.put dst e).del v }
      | none => t
    t.shift rest v

/-- The outcome of making room for a key: a free slot with the moves made, no room, or a wait at a locked bucket. -/
inductive Room where
  | slot (i moves : Nat)
  | none_
  | wait
deriving DecidableEq, Repr

/-- Room made for a key (R354, steps 1 to 5). -/
def FwdTable.room (t : FwdTable) (k : Bytes) (inst : Option Nat) (stash : Bool) : Room × FwdTable :=
  let (h0, h1) := keyHash k
  if t.locked h0 inst || t.locked h1 inst then (.wait, t)
  else match t.freeSlot h0, t.freeSlot h1 with
    | some i, _ => (.slot i 0, t)
    | none, some i => (.slot i 0, t)
    | none, none =>
      match t.search inst 16 h0 [] with
      | (.locked, _) => (.wait, t)
      | (.free path i, u) => (.slot (path.getLast?.getD i) path.length, u.shift path i)
      | (.full path, u) =>
        match (if stash && !path.isEmpty then u.freeStash else none) with
        | some i => (.slot (path.getLast?.getD i) path.length, u.shift path i)
        | none => (.none_, u)

/-- The table changed. -/
def State.withTable (s : State) (f : FwdTable → FwdTable) : State := s.withPipe fun p => { p with table := f p.table }

/-- Event 309 when the stash reaches 48 entries (R355). -/
def State.stashNote (s : State) : State :=
  let now := decide (48 ≤ s.pipe.table.stashed)
  let s := if now && !s.pipe.table.stash48 then s.event 309 else s
  s.withTable fun t => { t with stash48 := now }

/-- An entry written where room was made; moves counted. -/
def State.tablePut (s : State) (i moves : Nat) (e : Bytes) : State :=
  ((s.withTable fun t => { t with entries := t.entries.put i e }).dadd 0x3400 7 moves).stashNote

/-- Stash entries go back to their buckets where a slot has freed (R355). -/
def State.rehome (s : State) : State :=
  (upFrom stashBase 64).foldl (fun (s : State) i =>
    match s.pipe.table.entries.get? i with
    | none => s
    | some e =>
      match s.pipe.table.room (entryKey e) none false with
      | (.slot j m, t) => (s.withTable fun _ => { t with entries := t.entries.del i }).tablePut j (m + 1) e
      | _ => s) s

/-- An entry removed (R355). -/
def State.tableDel (s : State) (i : Nat) : State :=
  let s := s.withTable fun t => { t with entries := t.entries.del i }
  (if i < stashBase then s.rehome else s).stashNote

/-- An insertion that finds no room (R354, step 5; R222). -/
def State.tableFull (s : State) (owner : Nat) : State :=
  ((s.dinc 0x3400 6).dinc (blk owner 0x11) 5).eventLimited 308 0

/-- The bytes that a key type leaves zero (Table 12-3). -/
def keyZeroOk (e : Bytes) : Bool :=
  match byteAt e 0 with
  | 1 => byteAt e 1 == 0 && allZero (sub e 10 38)
  | 2 => byteAt e 13 == 0 && allZero (sub e 18 30)
  | 3 => byteAt e 37 == 0 && allZero (sub e 42 6)
  | _ => false

/-- The greatest DEST of a kind (Table 12-4). -/
def destMax (kind : Nat) : Nat :=
  match kind with
  | 1 => 19 | 2 => 1023 | 3 => 63 | 4 => 255 | 7 => 63 | _ => 0xFFFF

/-- The group is one of the instance's. -/
def State.groupOf (s : State) (g : Nat) : Group := s.flow.groups.getD g Group.reset

/-- A group that is not UNUSED and belongs to the instance. -/
def State.ownsGroup (s : State) (n g : Nat) : Bool := (s.groupOf g).st != 0 && (s.groupOf g).inst == n

/-- What instance n may not write (R352). -/
def State.entryForeign (s : State) (n : Nat) (e : Bytes) : Bool :=
  let d := entryDest e
  let m := entryMeter e
  n != 0 && (entryOwner e != n || byteAt e 0 == 1 || byteAt e 1 != n
    || !(entryKind e == 6 || (entryKind e == 3 && d == n) || (entryKind e == 4 && s.ownsGroup n d))
    || !(m == 0xFFFF || inRange (recMeters (s.inst n).record) m))

/-- The check of an entry that instance n writes: shape, ownership, ranges (R351, R352, Table 12-4). -/
def State.entryCheck (s : State) (n : Nat) (e : Bytes) : Status :=
  let k := entryKind e
  let k2 := entryKind2 e
  if !keyZeroOk e ∨ 0xFFF < leAt e 2 2 ∨ 15 < entryFlags e ∨ !allZero (sub e 61 3) ∨ (k2 ≠ 0 ∧ k ≠ 5)
      ∨ (k ≠ 5 ∧ (byteAt e 54 ≠ 0 ∨ byteAt e 55 ≠ 0)) then .fieldInvalid
  else if s.entryForeign n e then .notYourInstance
  else if 63 < byteAt e 1 ∨ k = 0 ∨ 7 < k ∨ 7 < k2 ∨ k2 = 5 ∨ k2 = 6 ∨ destMax k < entryDest e
      ∨ (k2 ≠ 0 ∧ destMax k2 < entryDest2 e) ∨ 63 < byteAt e 54 ∨ (7 < entryClass e ∧ entryClass e ≠ 0xFF)
      ∨ (4095 < entryMeter e ∧ entryMeter e ≠ 0xFFFF) ∨ 63 < entryOwner e then .outOfRange
  else .ok

/-- What a table access answers: a status and entry index, or a wait. -/
inductive TblAnswer where
  | done (st : Status) (index : Nat)
  | wait
deriving DecidableEq, Repr

/-- An insert or replace by instance n (R352, R354, R361, R222). Bits 1–3 of FLAGS are the hardware's. -/
def State.tblInsert (s : State) (n : Nat) (raw : Bytes) (replace : Bool) : TblAnswer × State :=
  let e := withFlags (padTo 64 raw) (entryFlags raw % 2)
  let o := entryOwner e
  match s.entryCheck n raw with
  | .ok =>
    match s.pipe.table.lookup (entryKey e) with
    | some (i, old) =>
      if n ≠ 0 ∧ entryOwner old ≠ n then (.done .notYourInstance 0, s)
      else if !replace then (.done .notInThisState 0, s)
      else if o ≠ entryOwner old ∧ s.limit o 56 4 ≤ s.pipe.table.owned o then (.done .poolExhausted 0, s)
      else (.done .ok i, s.withTable fun t => { t with entries := t.entries.put i e })
    | none =>
      if replace then (.done .notInThisState 0, s)
      else if s.limit o 56 4 ≤ s.pipe.table.owned o then (.done .poolExhausted 0, s)
      else match s.pipe.table.room (entryKey e) (some n) true with
        | (.wait, _) => (.wait, s)
        | (.none_, t) => (.done .tableFull o, (s.withTable fun _ => t).tableFull o)
        | (.slot i m, t) => (.done .ok i, (s.withTable fun _ => t).tablePut i m e)
  | st => (.done st 0, s)

/-- A delete by instance n (R361). -/
def State.tblDelete (s : State) (n : Nat) (k : Bytes) : TblAnswer × State :=
  match s.pipe.table.lookup k with
  | none => (.done .notInThisState 0, s)
  | some (i, e) => if n ≠ 0 ∧ entryOwner e ≠ n then (.done .notYourInstance 0, s) else (.done .ok i, s.tableDel i)

/-- One staged op as it is applied (R363): 0 insert, 1 replace, 2 delete. -/
def State.tblOp (s : State) (n : Nat) (op : Nat × Bytes) : TblAnswer × State :=
  match op.1 with
  | 0 => s.tblInsert n op.2 false
  | 1 => s.tblInsert n op.2 true
  | _ => s.tblDelete n (op.2.take 48)

/-- The staged ops in order, all or none: the first that fails gives the status (R363). -/
def State.tblApply (s : State) (n : Nat) : List (Nat × Bytes) → TblAnswer × State
  | [] => (.done .ok 0, s)
  | op :: rest =>
    match s.tblOp n op with
    | (.done .ok _, s) => s.tblApply n rest
    | r => r

/-- What the sweeper does to one entry (R359): kept as it becomes, or removed. -/
def agedEntry (e : Bytes) : Option Bytes :=
  let f := entryFlags e
  if bit f 0 then some e
  else if bit f 2 then some (withFlags e (setBit (setBit f 2 false) 3 false))
  else if !bit f 3 then some (withFlags e (setBit f 3 true))
  else none

/-- The sweeper visits one entry. -/
def State.sweepEntry (s : State) (i : Nat) : State :=
  match s.pipe.table.entries.get? i with
  | none => s
  | some e =>
    match agedEntry e with
    | some x => s.withTable fun t => { t with entries := t.entries.put i x }
    | none => (s.tableDel i).dinc 0x3400 8

/-- The sweeper visits a bucket; 65,536 stands for the stash. A locked bucket is visited at its unlock (R362). -/
def State.sweepBucket (s : State) (b : Nat) : State :=
  if b < 65536 then
    if s.pipe.table.locked b none then s.withTable fun t => { t with sweepDue := t.sweepDue.put b () }
    else (upFrom (4 * b) 4).foldl State.sweepEntry s
  else (upFrom stashBase 64).foldl State.sweepEntry s

/-- HIT set on an entry (R359). -/
def State.tableHit (s : State) (i : Nat) : State :=
  match s.pipe.table.entries.get? i with
  | some e => s.withTable fun t => { t with entries := t.entries.put i (withFlags e (setBit (entryFlags e) 2 true)) }
  | none => s

/-- A learning request enters the FIFO (R358). -/
def State.learnAsk (s : State) (r : LearnReq) : State :=
  if 4096 ≤ s.pipe.table.fifo.length then (s.dinc 0x3400 5).event 310
  else
    let s := s.withTable fun t => { t with fifo := t.fifo ++ [r] }
    s.dmax 0x3400 0x0C s.pipe.table.fifo.length

/-- The SRC lookup of a frame (R346, R356, R357, R359): HIT, a request to learn, or a request to move a station. -/
def State.learnFrom (s : State) (vid : Nat) (sa : Bytes) (kind dest : Nat) (learn : Bool) : State :=
  if bit (byteAt sa 0) 0 ∨ allZero sa then s
  else
    let k := macKey vid sa
    match s.pipe.table.lookup k with
    | some (i, e) =>
      let s := s.tableHit i
      if learn ∧ (entryKind e ≠ kind ∨ entryDest e ≠ dest) then s.learnAsk ⟨k, kind, dest⟩ else s
    | none => if learn then s.learnAsk ⟨k, kind, dest⟩ else s

/-- The entry that learning writes (R356). -/
def learnedEntry (r : LearnReq) : Bytes :=
  padTo 64 (r.key ++ leBytes 1 r.kind ++ zeros 1 ++ leBytes 2 r.dest ++ zeros 4 ++ leBytes 1 0xFF ++ leBytes 1 2
    ++ leBytes 2 0xFFFF ++ zeros 1)

/-- The head of the FIFO is taken (R354, R357, R358); it waits at a locked bucket. -/
def State.learnHead (s : State) : State :=
  match s.pipe.table.fifo with
  | [] => s
  | r :: rest =>
    let popped := s.withTable fun t => { t with fifo := rest }
    match s.pipe.table.lookup r.key with
    | some (i, e) =>
      if i < stashBase ∧ s.pipe.table.locked (i / 4) none then s
      else if entryKind e = r.kind ∧ entryDest e = r.dest then popped
      else
        let s := popped.dinc 0x3400 9
        if bit (entryFlags e) 1 then
          let moved := overlay e 48 (leBytes 1 r.kind ++ zeros 1 ++ leBytes 2 r.dest)
          (s.withTable fun t => { t with entries := t.entries.put i moved }).eventLimited 311 0
        else s
    | none =>
      if s.limit 0 56 4 ≤ s.pipe.table.owned 0 then
        (if s.pipe.table.learnStop then popped else popped.event 313).withTable fun t => { t with learnStop := true }
      else
        match s.pipe.table.room r.key none true with
        | (.wait, _) => s
        | (.none_, t) => ((s.withTable fun _ => { t with fifo := rest, learnStop := false }).tableFull 0)
        | (.slot i m, t) => (s.withTable fun _ => { t with fifo := rest, learnStop := false }).tablePut i m (learnedEntry r)

/-- The owner's entries in a range of entry indexes, in order. -/
def FwdTable.listOwned (t : FwdTable) (n a b : Nat) : List Bytes :=
  (t.entries.filter fun kv => decide (a ≤ kv.1) && decide (kv.1 < b) && entryOwner kv.2 == n).map (·.2)

/-- A free handle number, the lowest (Table 12-5). -/
def FwdTable.freeHandle (t : FwdTable) : Option Nat := (List.range 256).find? fun h => (t.handles.get? h).isNone

/-- The handles of an instance. -/
def FwdTable.handlesOf (t : FwdTable) (n : Nat) : List Nat := (t.handles.filter fun kv => kv.2.owner == n).map (·.1)

/-- A handle of the instance. -/
def State.handle? (s : State) (n h : Nat) : Option TblHandle := (s.pipe.table.handles.get? h).filter fun x => x.owner == n

/-- A handle freed, its ops discarded, its buckets unlocked: the sweeps owed there are made (R362–R364). -/
def State.handleFree (s : State) (h : Nat) : State :=
  match s.pipe.table.handles.get? h with
  | none => s
  | some x =>
    let s := s.withTable fun t => { t with handles := t.handles.del h }
    [x.h0, x.h1].foldl (fun (s : State) b =>
      if (s.pipe.table.sweepDue.get? b).isSome ∧ !s.pipe.table.locked b none then
        (s.withTable fun t => { t with sweepDue := t.sweepDue.del b }).sweepBucket b
      else s) s

/-- Every table command of Table 12-5 begins here: the descriptor's owner (check 7), its length (check 8). -/
def State.tblBuffer (s : State) (n : Nat) (e : Bytes) (len : Nat) : Status :=
  let d := descAt e 16
  if !s.descOwn n d then .notYourInstance else if !d.list ∧ d.len < len then .outOfRange else .ok

/-- TBL_LOCK's attempt with its key read (R362): the answer, with the entries the instance owns there. -/
def State.tblLockTry (s : State) (w : TblWait) (d : Desc) : Option State :=
  let (h0, h1) := keyHash w.data
  let t := s.pipe.table
  let mine := t.handles.any fun kv => kv.2.owner == w.fn && (kv.2.h0 == h0 || kv.2.h1 == h0 || kv.2.h0 == h1 || kv.2.h1 == h1)
  if mine then some (s.complete w.fn w.queue w.tag .notInThisState)
  else if t.locked h0 none || t.locked h1 none then none
  else match t.freeHandle with
    | none => some (s.complete w.fn w.queue w.tag .poolExhausted)
    | some h =>
      if 8 ≤ (t.handlesOf w.fn).length then some (s.complete w.fn w.queue w.tag .poolExhausted)
      else
        let own := t.listOwned w.fn (4 * h0) (4 * h0 + 4) ++ t.listOwned w.fn (4 * h1) (4 * h1 + 4)
        let (s, bad) := s.scatter w.fn d 0 (.bytes w.lists []) own.flatten
        match bad with
        | some st => some (s.complete w.fn w.queue w.tag st)
        | none => some ((s.withTable fun t => { t with handles := t.handles.put h ⟨w.fn, h0, h1, []⟩ }).complete
            w.fn w.queue w.tag .ok h own.length)

/-- TBL_UNLOCK with APPLY (R363): every op in one step, or nothing; the handle is freed in every outcome. -/
def State.tblUnlockTry (s : State) (w : TblWait) (h : Nat) : Option State :=
  match s.handle? w.fn h with
  | none => some (s.complete w.fn w.queue w.tag .notInThisState)
  | some x =>
    match s.tblApply w.fn x.ops with
    | (.wait, _) => none
    | (.done .ok _, s) => some ((s.handleFree h).complete w.fn w.queue w.tag .ok x.ops.length)
    | (.done .tableFull o, _) => some (((s.tableFull o).handleFree h).complete w.fn w.queue w.tag .tableFull)
    | (.done st _, _) => some ((s.handleFree h).complete w.fn w.queue w.tag st)

/-- One attempt of a table command that may wait; none while it waits. -/
def State.tblTry (s : State) (w : TblWait) : Option State :=
  match s.ctx? w.fn w.queue w.tag with
  | none => some s
  | some c =>
    match c.op with
    | 0xA0 =>
      match s.tblInsert w.fn w.data (bit (dw c.entry 1) 0) with
      | (.wait, _) => none
      | (.done st i, s) => some (s.complete w.fn w.queue w.tag st (if st = .ok then i else 0))
    | 0xA3 => s.tblLockTry w (descAt c.entry 16)
    | 0xA5 => s.tblUnlockTry w (bits (dw c.entry 1) 0 8)
    | _ => some s

/-- A table command begins: it is done, or it waits. -/
def State.tblBegin (s : State) (w : TblWait) : State :=
  match s.tblTry w with
  | some s => s
  | none => s.withTable fun t => { t with waits := t.waits ++ [w] }

/-- The waiting table commands tried again in order, and the learning FIFO's head (R354, R362); fuel bounds the rounds. -/
def State.tblRetryN : Nat → List TblWait → State → State
  | 0, _, s => s
  | _, [], s => s
  | f + 1, w :: rest, s =>
    match s.tblTry w with
    | some s' => State.tblRetryN f rest (s'.withTable fun t => { t with waits := t.waits.filter (· != w) })
    | none => State.tblRetryN f rest s

/-- After an unlock. -/
def State.tblRetry (s : State) : State := State.tblRetryN s.pipe.table.waits.length s.pipe.table.waits s

/-- The handles and waiting table commands of an instance gone (R364). -/
def State.tblRelease (s : State) (n : Nat) : State :=
  let s := (s.pipe.table.handlesOf n).foldl State.handleFree s
  s.tblRetry

/-- The entries of an instance gone (R223, R233). -/
def State.fwdClearOf (s : State) (n : Nat) : State :=
  ((s.withTable fun t => { t with entries := t.entries.keep fun _ e => entryOwner e != n }).rehome).stashNote

end Sys2Proof.Machine
end

