-- ==== Sys2Proof/Machine/SchedOps.lean ====
section
/-! DEFINITION. Egress scheduling, time gates and policing (Chapter 13), and the receive queues of port 96 (R429): admission,
the choice of the next frame, shapers, gate lists, meters. -/

namespace Sys2Proof.Machine

/-- Index of a port's scheduling entries: S + off. -/
def sIdx (p off : Nat) : Nat := 0x3600 + p * 0x10 + off

/-- Index of a port's entries: P + off. -/
def pIdx (p off : Nat) : Nat := 0x3000 + p * 0x10 + off

/-- A physical port's egress. -/
def State.egPort (s : State) (p : Nat) : EgPort := s.pipe.ports.getD p EgPort.reset

/-- A physical port's egress changed. -/
def State.withEg (s : State) (p : Nat) (f : EgPort → EgPort) : State :=
  s.withPipe fun x => { x with ports := x.ports.put p (f (s.egPort p)) }

/-- A ring of the device. -/
def State.ring (s : State) (r : Nat) : ZRing := s.pipe.rings.getD r ZRing.reset

/-- A ring changed. -/
def State.withRing (s : State) (r : Nat) (f : ZRing → ZRing) : State :=
  s.withPipe fun x => { x with rings := x.rings.put r (f (s.ring r)) }

/-- The ring of a trunk port, and whether it is its east port. -/
def State.ringOf (s : State) (p : Nat) : Option (Nat × Bool) :=
  [0, 1].findSome? fun r =>
    let x := s.ring r
    if x.on ∧ x.east = p then some (r, true) else if x.on ∧ x.west = p then some (r, false) else none

/-- A thread. -/
def State.thread (s : State) (t : Nat) : Thread := s.flow.threads.getD t Thread.reset

/-- A thread changed. -/
def State.withThread (s : State) (t : Nat) (f : Thread → Thread) : State :=
  s.withFlow fun x => { x with threads := x.threads.put t (f (s.thread t)) }

/-- A group changed. -/
def State.withGroup (s : State) (g : Nat) (f : Group → Group) : State :=
  s.withFlow fun x => { x with groups := x.groups.put g (f (s.groupOf g)) }

/-- The instance that a thread is granted to: instance 0 where none holds it (R417). -/
def State.threadInst (s : State) (t : Nat) : Nat := ((s.instances.filter (· != 0)).find? fun n => (s.threadsOf n).contains t).getD 0

/-- The length of a frame from DA to FCS. -/
def wireLen (b : Bytes) : Nat := b.length + 4

/-- Bytes a list of frames holds. -/
def heldBytes (l : List Bytes) : Nat := sumNat (l.map wireLen)

/-- A port's queue. -/
def EgPort.queue (x : EgPort) (q : Nat) : List Bytes := x.queues.getD q []

/-- A port's queues as one occupancy. -/
def EgPort.occupancy (x : EgPort) : Nat := sumNat (x.queues.map fun kv => heldBytes kv.2)

/-- The egress share of the packet buffer: 16 MiB less the ingress queues of every bound kiln stream (R390). -/
def State.egressShare (s : State) : Nat :=
  0x1000000 - sumNat (s.kiln.streams.map fun kv => if kv.2.bound then kv.2.queueKib * 1024 else 0)

/-- Bytes of the egress share in use: the egress queues and the receive queues of threads. -/
def State.egressUsed (s : State) : Nat :=
  sumNat (s.pipe.ports.map fun kv => kv.2.occupancy)
    + sumNat (s.flow.threads.map fun kv => sumNat (kv.2.rxq.map fun f => wireLen f.data))

/-- Bytes free in the egress share (0x3783:02). -/
def State.bufferFree (s : State) : Nat := s.egressShare - s.egressUsed

/-- The low-water mark of the egress share. -/
def State.bufferNote (s : State) : State := if s.bufferFree < s.dget 0x3783 3 then s.dset 0x3783 3 s.bufferFree else s

/-- The counts of a failed buffer test (R390). -/
def State.bufferFail (s : State) : State := (s.dinc 0x3783 4).event 438

/-- A frame for a group is dropped (R421): counted, event 516. -/
def State.groupDrop (s : State) (g : Nat) : State :=
  (((s.withGroup g fun x => { x with rxDrops := x.rxDrops + 1 }).dinc (blk (s.groupOf g).inst 0x2C) 5)).eventLimited 516 g

/-- A frame for a thread group reaches port 96 (R421, R429): the thread that entry k of the steering names, or a drop. -/
def State.groupFrame (s : State) (g : Nat) (f : RxFrame) : State :=
  let k := f.hash
  let x := s.groupOf g
  let y := if x.toStandby then s.groupOf x.standby else x
  let held := (s.inst x.inst).st
  if held = .quiescing ∨ held = .quiesced ∨ held = .fenced then s.dinc (blk x.inst 0x22) 8
  else match y.steering[k % 64]? with
  | none => s.groupDrop g
  | some i =>
    let t := y.core * 8 + i
    let l := wireLen f.data
    if y.st ≠ 2 then s.groupDrop g
    else if y.queueKib * 1024 < sumNat ((s.thread t).rxq.map fun f => wireLen f.data) + l then s.groupDrop g
    else if s.bufferFree < l then (s.groupDrop g).bufferFail
    else (s.withThread t fun h => { h with rxq := h.rxq ++ [f] }).bufferNote

/-- KIND of a frame with the Zelud tag (Table 12-9). -/
def zeludKind (b : Bytes) : Option Nat := if beAt b 12 2 = 0x88B5 then some (bits (byteAt b 14) 4 2) else none

/-- A dropped copy of port p, queue q (R390, R391, R343). -/
def State.egressDrop (s : State) (p q : Nat) : State := (s.dinc (sIdx p 8) (q + 1)).eventLimited (416 + p) 0

/-- A copy offered to a port's queue (R343, R389, R390, R407). -/
def State.egressOffer (s : State) (p q : Nat) (b : Bytes) : State :=
  let x := s.egPort p
  let l := wireLen b
  if !x.up then s.egressDrop p q
  else if s.dget (pIdx p 0) 4 < l then (s.dinc (sIdx p 10) 9).event 439
  else if s.dget (sIdx p 9) (q + 1) < heldBytes (x.queue q) + l then s.egressDrop p q
  else if s.bufferFree < l then (s.egressDrop p q).bufferFail
  else
    let s := (s.withEg p fun x => { x with queues := x.queues.put q (x.queue q ++ [b]) }).bufferNote
    (s.dmax (sIdx p 7) (q + 1) (heldBytes ((s.egPort p).queue q))).dmax (sIdx p 7) 9 (s.egPort p).occupancy

/-- E(x) of R400 at a rate in Mb/s. -/
def guardNs (len rate : Nat) : Nat := ceilDiv ((len + 20) * 8000 * 4097) (rate * 4096) + 8

/-- The rate of a port's link, Mb/s. -/
def State.portRate (s : State) (p : Nat) : Nat := s.dget (pIdx p 1) 2

/-- The entries of a gate list: interval and gates of the first n. -/
def gateEntries (n : Nat) (b : Bytes) : List (Nat × Nat) := (List.range n).map fun i => (leAt b (8 * i) 4, byteAt b (8 * i + 4))

/-- A gate list as durations that fill the cycle: the last entry holds to the cycle's end (R397). -/
def gateDurations (cycle : Nat) (l : List (Nat × Nat)) : List (Nat × Nat) :=
  match l.getLast? with
  | none => []
  | some e => l.dropLast ++ [(cycle - sumNat (l.dropLast.map Prod.fst), e.2)]

/-- A port's operating list. -/
def State.operList (s : State) (p : Nat) : List (Nat × Nat) := gateEntries (s.dget (sIdx p 6) 4) (s.dbytes (sIdx p 6) 5)

/-- The operating list is enabled. -/
def State.gated (s : State) (p : Nat) : Bool := s.dget (sIdx p 6) 1 == 1

/-- Queue q's gate is open now (R397). -/
def State.gateOpen (s : State) (p q : Nat) : Bool :=
  !s.gated p || bit (((s.operList p).getD (s.dget (sIdx p 6) 7) (0, 0)).2) q

/-- The time as a port's gates see it: domain time, never before the entry in force began. -/
def State.gateNow (s : State) (p : Nat) : Nat := max s.time.ns (s.egPort p).gateStart

/-- The first close of q from an open entry i that ends at a time on; none where q never closes. -/
def closeWalk (l : List (Nat × Nat)) (q : Nat) : Nat → Nat → Nat → Option Nat
  | 0, _, _ => none
  | f + 1, i, t =>
    let j := (i + 1) % l.length
    if bit (l.getD j (0, 0)).2 q then closeWalk l q f j (t + (l.getD j (0, 0)).1) else some t

/-- The next close of queue q, a change time included (R400). -/
def State.nextClose (s : State) (p q : Nat) : Option Nat :=
  let x := s.egPort p
  let l := gateDurations (s.dget (sIdx p 6) 3) (s.operList p)
  let old := if s.gated p then closeWalk l q l.length (s.dget (sIdx p 6) 7) x.gateEnd else none
  match x.pendingList with
  | none => old
  | some (_, cycle, count, b) =>
    let c := s.dget (sIdx p 6) 6
    let m := gateDurations cycle (gateEntries count b)
    let at_ := if bit (m.getD 0 (0, 0)).2 q then closeWalk m q m.length 0 (c + (m.getD 0 (0, 0)).1) else some c
    match old with
    | some t => if t < c then some t else at_
    | none => at_

/-- The longest run of open durations in a list taken twice, the run so far and the longest so far given. -/
def longestRun (q : Nat) : List (Nat × Nat) → Nat → Nat → Nat
  | [], run, best => max run best
  | e :: t, run, best => if bit e.2 q then longestRun q t (run + e.1) best else longestRun q t 0 (max run best)

/-- The longest window of q in the operating list; none where it is open throughout (R401). -/
def State.longestWindow (s : State) (p q : Nat) : Option Nat :=
  let l := gateDurations (s.dget (sIdx p 6) 3) (s.operList p)
  if !s.gated p || l.all (fun e => bit e.2 q) then none else some (longestRun q (l ++ l) 0 0)

/-- The guard of a head frame (R400). -/
def State.headGuard (s : State) (p : Nat) (b : Bytes) : Nat :=
  guardNs (if s.dget (sIdx p 0) 3 = 0 then s.dget (pIdx p 0) 4 else wireLen b) (s.portRate p)

/-- No window could ever let the head frame start (R401). -/
def State.neverStarts (s : State) (p q : Nat) (b : Bytes) : Bool :=
  match s.longestWindow p q with
  | none => false
  | some w => decide (w < s.headGuard p b)

/-- Head frames that no window fits are dropped (R401); fuel bounds their number. -/
def State.gateDropN (s : State) (p q : Nat) : Nat → State
  | 0 => s
  | f + 1 =>
    match (s.egPort p).queue q with
    | b :: t =>
      if s.neverStarts p q b then
        (((s.withEg p fun x => { x with queues := x.queues.put q t }).dinc (sIdx p 10) (q + 1)).event 439).gateDropN p q f
      else s
    | [] => s

/-- One byte in the units of a bucket. -/
def bucketByte : Nat := 256000000

/-- A shaper's rate and burst: queue q's, or the port's (8). -/
def State.shaper (s : State) (p q : Nat) : Nat × Nat :=
  if q = 8 then (s.dget (sIdx p 0) 4, s.dget (sIdx p 0) 5) else (s.dget (sIdx p 2) (q + 1), s.dget (sIdx p 3) (q + 1))

/-- A bucket's level; an unlisted one is full. -/
def State.shaperLevel (s : State) (p q : Nat) : Nat :=
  let m := (s.shaper p q).2 * bucketByte
  min m ((s.egPort p).level.getD q m)

/-- A shaper allows a frame of wire length w (R394). -/
def State.shaperAllows (s : State) (p q w : Nat) : Bool :=
  let (r, b) := s.shaper p q
  r == 0 || decide (w * bucketByte ≤ s.shaperLevel p q) || s.shaperLevel p q == b * bucketByte

/-- A shaper pays for a frame sent (R394). -/
def State.shaperPay (s : State) (p q w : Nat) : State :=
  if (s.shaper p q).1 = 0 then s
  else s.withEg p fun x => { x with level := x.level.put q (s.shaperLevel p q - w * bucketByte) }

/-- Queue q is eligible (R393). -/
def State.eligible (s : State) (p q : Nat) : Bool :=
  match (s.egPort p).queue q with
  | [] => false
  | b :: _ =>
    let w := wireLen b + 20
    s.gateOpen p q
    && (match s.nextClose p q with
        | none => true
        | some c => decide (s.gateNow p + s.headGuard p b ≤ c))
    && s.shaperAllows p q w && s.shaperAllows p 8 w

/-- The queue that deficit round robin serves among the eligible ones (R393), with the deficits after its visits; the
rounds go from queue 0 up. -/
def drrPick (el : Nat → Bool) (need quantum : Nat → Nat) : Nat → Nat → Bool → SMap Nat → Option (Nat × SMap Nat)
  | 0, _, _, _ => none
  | f + 1, v, visiting, d =>
    if visiting && el v && decide (need v ≤ d.getD v 0) then some (v, d)
    else
      let n := (v + 1) % 8
      if el n then
        let d := d.put n (d.getD n 0 + quantum n)
        if need n ≤ d.getD n 0 then some (n, d) else drrPick el need quantum f n true d
      else drrPick el need quantum f n false d

/-- The queue to be served next, with the deficits of the visits made (R393). -/
def State.nextQueue (s : State) (p : Nat) : Option (Nat × Option (SMap Nat)) :=
  let strict := s.dget (sIdx p 0) 1
  match [7, 6, 5, 4, 3, 2, 1, 0].find? fun q => bit strict q && s.eligible p q with
  | some q => some (q, none)
  | none =>
    let x := s.egPort p
    let el (q : Nat) : Bool := !bit strict q && s.eligible p q
    if !(List.range 8).any el then none
    else
      let need (q : Nat) : Nat := wireLen ((x.queue q).headD []) + 20
      (drrPick el need (fun q => s.dget (sIdx p 1) (q + 1) * 128) 1000 x.visit x.visiting x.deficit).map fun r => (r.1, some r.2)

/-- A frame starts on the wire. -/
def State.frameStart (s : State) (p : Nat) (b : Bytes) : State :=
  ((((s.withEg p fun x => { x with busy := true }).dinc (pIdx p 2) 7).dadd (pIdx p 2) 8 (wireLen b)).emit (.frame p b))

/-- The head frame of a queue starts: shapers and deficits pay (R393, R394). -/
def State.sendQueue (s : State) (p q : Nat) (d : Option (SMap Nat)) : State :=
  match (s.egPort p).queue q with
  | [] => s
  | b :: t =>
    let w := wireLen b + 20
    let s := s.withEg p fun x => { x with queues := x.queues.put q t }
    let s := match d with
      | none => if t.isEmpty then s.withEg p fun x => { x with deficit := x.deficit.put q 0 } else s
      | some d => s.withEg p fun x => { x with
          deficit := d.put q (if t.isEmpty then 0 else d.getD q 0 - w), visit := q, visiting := !t.isEmpty }
    ((s.shaperPay p q w).shaperPay p 8 w).frameStart p b

/-- A free transmitter takes the next frame: the control lane, then the queues (R392, R393). A PTP message's content is the
standard's: the model emits its type. -/
def State.portServe (s : State) (p : Nat) : State :=
  let x := s.egPort p
  if !x.up ∨ x.busy then s
  else match x.control with
    | .frame b :: t => (s.withEg p fun x => { x with control := t }).frameStart p b
    | .ptp k :: t => (s.withEg p fun x => { x with control := t, busy := true }).emit (.ptp p k)
    | [] =>
      let s : State := (List.range 8).foldl (fun s q => s.gateDropN p q ((s.egPort p).queue q).length) s
      match s.nextQueue p with
      | some (q, d) => s.sendQueue p q d
      | none => s

/-- A frame placed on a port's control lane (R392). -/
def State.control (s : State) (p : Nat) (f : CtlFrame) : State :=
  if (s.egPort p).up then (s.withEg p fun x => { x with control := x.control ++ [f] }).portServe p else s

/-- A copy queued on a port, the transmitter taking it where it is free. -/
def State.egressTo (s : State) (p q : Nat) (b : Bytes) : State := (s.egressOffer p q b).portServe p

/-- The frames of a port's queues dropped and counted, those of KIND 0 kept apart where the port is a ring's (R391). -/
def State.egressFlush (s : State) (p : Nat) : State :=
  let x := s.egPort p
  let s := (List.range 8).foldl (fun (s : State) q =>
    (x.queue q).foldl (fun (s : State) _ => s.egressDrop p q) s) s
  s.withEg p fun x => { x with queues := [], control := [], deficit := [], visiting := false, busy := false }

/-- A bucket's gain of one refresh (R394, R396): rate × 64 ns, scaled of 256. -/
def bucketGain (rate scale : Nat) : Nat := rate * 8 * scale

/-- The refresh of one bucket. -/
def State.bucketRefresh (s : State) (p q scale : Nat) : State :=
  let (r, b) := s.shaper p q
  if r = 0 then s
  else s.withEg p fun x => { x with level := x.level.put q (min (b * bucketByte) (s.shaperLevel p q + bucketGain r scale)) }

/-- Every bucket of a port at a refresh: budget-shaped queues scaled, but not on a ring port (R396). -/
def State.portRefresh (s : State) (p : Nat) : State :=
  let marked := s.dget (sIdx p 4) 1
  let scale (q : Nat) : Nat := if bit marked q && (s.ringOf p).isNone then s.shapeScale else 256
  ((List.range 8).foldl (fun (s : State) q => s.bucketRefresh p q (scale q)) s).bucketRefresh p 8 256

/-- The first BASE + k × CYCLE at or after a time. -/
def gridAt (base cycle t : Nat) : Nat := if t ≤ base then base else base + ceilDiv (t - base) cycle * cycle

/-- Entry i of the operating list comes into force at a time (R397, R399). -/
def State.gateEnter (s : State) (p i t : Nat) : State :=
  let l := s.operList p
  let cycle := s.dget (sIdx p 6) 3
  let x := s.egPort p
  let last := decide (l.length ≤ i + 1)
  let fin := if last ∧ x.realign then gridAt (s.dget (sIdx p 6) 2) cycle (t + (l.getD i (0, 0)).1)
    else t + ((gateDurations cycle l).getD i (0, 0)).1
  (s.dset (sIdx p 6) 7 i).withEg p fun x => { x with gateStart := t, gateEnd := fin }

/-- An entry's interval ends (R397); a cycle realigned after a step begins with event 437 (R399). -/
def State.gateAdvance (s : State) (p : Nat) : State :=
  if !s.gated p then s
  else
    let x := s.egPort p
    let i := s.dget (sIdx p 6) 7 + 1
    if i < (s.operList p).length then (s.gateEnter p i x.gateEnd).portServe p
    else
      let s := if x.realign then (s.event 437).withEg p fun x => { x with realign := false } else s
      (s.gateEnter p 0 x.gateEnd).portServe p

/-- The pending list becomes the operating list (R398). -/
def State.gateChange (s : State) (p : Nat) : State :=
  match (s.egPort p).pendingList with
  | none => s
  | some (base, cycle, count, b) =>
    let c := s.dget (sIdx p 6) 6
    let s := ((((s.dset (sIdx p 6) 1 1).dset (sIdx p 6) 2 base).dset (sIdx p 6) 3 cycle).dset (sIdx p 6) 4 count).dsetv (sIdx p 6) 5 (.bytes b)
    let s := (((s.dset (sIdx p 6) 6 0).dinc (sIdx p 6) 8).event 436).withEg p fun x => { x with pendingList := none, realign := false }
    (s.gateEnter p 0 c).portServe p

/-- The change time of R398. -/
def changeTime (base cycle a g : Nat) : Nat := gridAt base cycle (a + g + 10000)

/-- The apply of group 26 + p (R395, R398): buckets cut to their new bursts, the gate values taken. -/
def State.schedApply (s : State) (p : Nat) : State :=
  let s := s.withEg p fun x => { x with level := x.level.map fun kv => (kv.1, min kv.2 ((s.shaper p kv.1).2 * bucketByte)) }
  if s.dget (sIdx p 5) 1 = 1 then
    let base := s.dget (sIdx p 5) 2
    let cycle := s.dget (sIdx p 5) 3
    let g := if s.portRate p = 0 then 0 else guardNs (s.dget (pIdx p 0) 4) (s.portRate p)
    (s.dset (sIdx p 6) 6 (changeTime base cycle s.time.ns g)).withEg p fun x => { x with
      pendingList := some (base, cycle, s.dget (sIdx p 5) 4, s.dbytes (sIdx p 5) 5) }
  else ((s.dset (sIdx p 6) 1 0).dset (sIdx p 6) 6 0).withEg p fun x => { x with pendingList := none, realign := false }

/-- The gate lists after a step of domain time by d ns (R399). -/
def State.gatesStepped (s : State) (d : Int) : State :=
  (List.range 20).foldl (fun (s : State) p =>
    if s.gated p then
      let x := s.egPort p
      let move (t : Nat) : Nat := (t + d).toNat
      let l := s.operList p
      let i := s.dget (sIdx p 6) 7
      let s := s.withEg p fun x => { x with gateStart := move x.gateStart, gateEnd := move x.gateEnd, realign := true }
      if l.length ≤ i + 1 then s.gateEnter p i (move x.gateStart) else s
    else s) s

/-- A meter. -/
def State.meter (s : State) (m : Nat) : Meter := s.pipe.meters.getD m Meter.reset

/-- A meter replaced. -/
def State.setMeter (s : State) (m : Nat) (x : Meter) : State := s.withPipe fun p => { p with meters := p.meters.put m x }

/-- One byte in the units of a meter's buckets. -/
def meterByte : Nat := 8000000

/-- A meter's buckets filled up to a time (R403). -/
def Meter.fill (x : Meter) (now : Nat) : Meter :=
  let dt := now - x.filled
  let c := x.tc + x.cir * dt
  let cm := x.cbs * meterByte
  let em := x.ebs * meterByte
  let x := { x with filled := now }
  if x.mode = 1 then { x with tc := min cm c, te := min em (x.te + (c - cm)) }
  else { x with tc := min cm c, te := min em (x.te + x.eir * dt) }

/-- The colour of a frame of length l with a pre-colour (0 green, 1 yellow, 2 red), and the buckets after it: RFC 2697 in
mode 1, RFC 2698 in mode 2 (R403). -/
def Meter.mark (x : Meter) (l pre : Nat) : Nat × Meter :=
  let b := l * meterByte
  if x.mode = 0 then (0, x)
  else if x.mode = 1 then
    if pre = 0 ∧ b ≤ x.tc then (0, { x with tc := x.tc - b })
    else if pre ≤ 1 ∧ b ≤ x.te then (1, { x with te := x.te - b })
    else (2, x)
  else if pre = 2 ∨ x.te < b then (2, x)
  else if pre = 1 ∨ x.tc < b then (1, { x with te := x.te - b })
  else (0, { x with tc := x.tc - b, te := x.te - b })

/-- The meter named by the deciding entry acts on a frame (R402–R404): what it does to its copies, 0 pass, 1 set DEI,
2 drop. -/
def State.meterFrame (s : State) (m l dei : Nat) (dscp : Option Nat) : Nat × State :=
  if m = 0xFFFF then (0, s)
  else
    let x := (s.meter m).fill s.time.elapsed
    let pre := if x.colour = 1 then dei else if x.colour = 2 then (match dscp with
      | some d => byteAt (s.dbytes 0x3782 1) d
      | none => 0) else 0
    let (c, x) := x.mark l pre
    let x := if c = 0 then { x with green := x.green + l } else if c = 1 then { x with yellow := x.yellow + l }
      else { x with red := x.red + l }
    if c = 2 ∧ bits x.actions 2 2 = 0 then (2, (s.setMeter m { x with redDropped := x.redDropped + 1 }).eventLimited 440 0)
    else (if c = 0 then 0 else if c = 1 then b2n (bits x.actions 0 2 == 1) else 1, s.setMeter m x)

/-- Levels of the VP transmit shaper of an instance (R406). -/
def State.vpLevel (s : State) (n : Nat) : Nat :=
  let m := s.dget (blk n 0x28) 2 * bucketByte
  min m (s.pipe.vpLevel.getD n m)

/-- The shaper allows a VP_SEND of wire length w (R406). -/
def State.vpAllows (s : State) (n w : Nat) : Bool :=
  s.dget (blk n 0x28) 1 == 0 || decide (w * bucketByte ≤ s.vpLevel n) || s.vpLevel n == s.dget (blk n 0x28) 2 * bucketByte

/-- A VP_SEND pays (R406). -/
def State.vpPay (s : State) (n w : Nat) : State :=
  if s.dget (blk n 0x28) 1 = 0 then s
  else s.withPipe fun p => { p with vpLevel := p.vpLevel.put n (s.vpLevel n - w * bucketByte) }

/-- The scale of a VP's shaper: the ladder's, or 32 while the instance's own cap acts (R406). -/
def State.vpScale (s : State) (n : Nat) : Nat :=
  if s.dget (blk n 0x28) 3 = 0 then 256 else if s.capActing n then min 32 s.shapeScale else s.shapeScale

/-- The refresh of a VP's bucket. -/
def State.vpRefresh (s : State) (n : Nat) : State :=
  let r := s.dget (blk n 0x28) 1
  if r = 0 then s
  else s.withPipe fun p => { p with
    vpLevel := p.vpLevel.put n (min (s.dget (blk n 0x28) 2 * bucketByte) (s.vpLevel n + bucketGain r (s.vpScale n))) }

end Sys2Proof.Machine
end

