-- ==== Sys2Proof/Machine/ZeludOps.lean ====
section
/-! DEFINITION. The Zelud domain's operations (R369–R380): tags and control frames, the device table, directions under faults,
wraps, floods, steering holds. -/

namespace Sys2Proof.Machine

/-- The management MAC (0x3400:0B). -/
def mgmtMac : Nat := 0x021FA3000000 + Config.serial % 2 ^ 24

/-- The Zelud tag with its EtherType (Table 12-9). -/
def zeludTag (kind : Nat) (wrapped : Bool) (cls ttl src dst hops domain : Nat) : Bytes :=
  beBytes 2 0x88B5 ++ leBytes 1 (0x40 + kind * 16 + b2n wrapped * 8 + cls) ++ leBytes 1 ttl ++ leBytes 2 src ++ leBytes 2 dst
    ++ leBytes 1 hops ++ leBytes 1 domain

/-- A frame with a tag inserted after the SA. -/
def tagged (b tag : Bytes) : Bytes := b.take 12 ++ tag ++ b.drop 12

/-- A frame without its Zelud tag. -/
def untagged (b : Bytes) : Bytes := b.take 12 ++ b.drop 22

/-- Fields of a frame's Zelud tag. -/
def zVersion (b : Bytes) : Nat := bits (byteAt b 14) 6 2
/-- WRAPPED. -/
def zWrapped (b : Bytes) : Bool := bit (byteAt b 14) 3
/-- CLASS. -/
def zClass (b : Bytes) : Nat := bits (byteAt b 14) 0 3
/-- TTL. -/
def zTtl (b : Bytes) : Nat := byteAt b 15
/-- SRC_DEV. -/
def zSrc (b : Bytes) : Nat := leAt b 16 2
/-- DST_DEV, or a control frame's subtype. -/
def zDst (b : Bytes) : Nat := leAt b 18 2
/-- RING_HOPS. -/
def zHops (b : Bytes) : Nat := byteAt b 20
/-- DOMAIN_ID. -/
def zDomain (b : Bytes) : Nat := byteAt b 21

/-- DEVICE_ID. -/
def State.deviceId (s : State) : Nat := s.dget 0x3500 2

/-- DOMAIN_ID. -/
def State.domainId (s : State) : Nat := s.dget 0x3500 3

/-- A port of a ring, as held. -/
def ZRing.port (x : ZRing) (east : Bool) : RingPort := if east then x.eastPort else x.westPort

/-- The number of a ring's port. -/
def ZRing.portNo (x : ZRing) (east : Bool) : Nat := if east then x.east else x.west

/-- A ring port's record changed. -/
def ZRing.withPort (x : ZRing) (east : Bool) (f : RingPort → RingPort) : ZRing :=
  if east then { x with eastPort := f x.eastPort } else { x with westPort := f x.westPort }

/-- A ring port is out of the ring: failed, or kept out. -/
def RingPort.out (x : RingPort) : Bool := x.failed || x.foreign

/-- A member's place: hops to the east of this device in a ring of n members. -/
def Member.place (m : Member) (n : Nat) : Nat := n - (m.dist + 1)

/-- The link that a fault of a device's side lies on, counted from this device's east link, in a ring of n members. -/
def ZRing.faultLink (x : ZRing) (me n : Nat) (f : Nat × Nat) : Option Nat :=
  if f.1 = me then some (if f.2 = 0 then 0 else n - 1)
  else (x.members.get? f.1).map fun m => if f.2 = 0 then m.place n else m.place n - 1

/-- The broken links of a ring of n members. -/
def ZRing.broken (x : ZRing) (me n : Nat) : List Nat :=
  (if x.eastPort.out then [0] else []) ++ (if x.westPort.out then [n - 1] else []) ++ x.faults.filterMap (x.faultLink me n)

/-- The direction to a member that the ring's state allows (R371): the shorter, east on a tie. In a ring that has never
closed its members lie to the west, from where their TOPOLOGY came. -/
def ZRing.dir (x : ZRing) (me : Nat) (m : Member) : Option Bool :=
  match x.closed with
  | none => some false
  | some n =>
    let e := m.place n
    let bad := x.broken me n
    let eastOk := bad.all fun l => decide (e ≤ l)
    let westOk := bad.all fun l => decide (l < e)
    if eastOk && (!westOk || decide (e ≤ n - e)) then some true else if westOk then some false else none

/-- How far a member is in the shorter direction. -/
def ZRing.near (x : ZRing) (m : Member) : Nat :=
  match x.closed with
  | none => m.dist + 1
  | some n => min (m.place n) (n - m.place n)

/-- The member through which a device beyond the ring is reached: the nearer, then the lower ID (R371). -/
def ZRing.via (x : ZRing) (d : Nat) : Option Member :=
  (x.members.foldl (fun (b : Option Member) kv =>
    if kv.2.reach.contains d then
      match b with
      | none => some kv.2
      | some m => if x.near kv.2 < x.near m then some kv.2 else b
    else b) none)

/-- The direction of a device in one ring: a member, or one in a member's REACH. -/
def ZRing.route (x : ZRing) (me d : Nat) : Option Bool :=
  if !x.on || x.stopped then none
  else match x.members.get? d with
    | some m => x.dir me m
    | none => (x.via d).bind (x.dir me)

/-- The devices a ring gives the device table. -/
def ZRing.devices (x : ZRing) : List Nat :=
  (x.members.foldl (fun l kv => ((kv.1 :: kv.2.reach).filter fun d => !l.contains d) ++ l) []).eraseDups

/-- The device table (R371): the ring and direction of a device; a member of a ring before one in a REACH. -/
def State.devRoute (s : State) (d : Nat) : Option (Nat × Bool) :=
  let me := s.deviceId
  if d = me then none
  else
    let direct := [0, 1].find? fun r => ((s.ring r).members.get? d).isSome && ((s.ring r).route me d).isSome
    let any := [0, 1].find? fun r => ((s.ring r).route me d).isSome
    match direct, any with
    | some r, _ => ((s.ring r).route me d).map fun e => (r, e)
    | none, some r => ((s.ring r).route me d).map fun e => (r, e)
    | none, none => none

/-- STATE of a ring (0x3501–0x3502:01). -/
def ZRing.state (x : ZRing) : Nat :=
  if !x.on then 0 else if x.blocked then 5 else if !x.bounded then 1
  else if x.eastPort.failed || x.westPort.failed then 4 else if x.past then 3 else 2

/-- MEMBERS of a ring. -/
def ZRing.size (x : ZRing) : Nat := if x.on then x.closed.getD (x.members.length + 1) else 0

/-- The index of a ring's entries. -/
def ringIdx (r : Nat) : Nat := 0x3501 + r

/-- A KIND 0 frame goes out on a ring (R373, R375): by the other port, WRAPPED, where its port has failed. -/
def State.ringSend (s : State) (r : Nat) (east : Bool) (cls : Nat) (b : Bytes) : State :=
  let x := s.ring r
  if x.blocked then s
  else if !(x.port east).out then s.egressTo (x.portNo east) cls b
  else if zWrapped b || (x.port !east).out then s
  else (s.dinc (ringIdx r) 6).egressTo (x.portNo !east) cls (overlay b 14 (leBytes 1 (setBit (byteAt b 14) 3 true)))

/-- A frame of this device for another enters a ring (R369, R373, R376). -/
def State.enterRing (s : State) (dev cls : Nat) (b : Bytes) : State :=
  match s.devRoute dev with
  | none => s.dinc 0x3503 3
  | some (r, east) =>
    if s.dget 0x3500 6 < wireLen b + 10 then s.dinc 0x3503 5
    else if (s.ring r).holdFor.contains dev then s.withRing r fun x => { x with held := x.held ++ [(dev, cls, b)] }
    else s.ringSend r east cls (tagged b (zeludTag 0 false cls 255 s.deviceId dev 0 s.domainId))

/-- RING_HOPS of a flood east and west (R374): the whole ring by the east, or each side up to the break. -/
def State.floodHops (s : State) (r : Nat) : Nat × Nat :=
  let x := s.ring r
  let n := x.size
  let bad := x.broken s.deviceId n
  match bad with
  | [] => (n - 1, 0)
  | l :: t => (t.foldl min l, n - 1 - t.foldl max l)

/-- A flood leaves by one port, if it is in the ring; a flood is never wrapped. -/
def State.floodOut (s : State) (r : Nat) (east : Bool) (hops cls ttl src : Nat) (b : Bytes) : State :=
  let x := s.ring r
  if hops = 0 ∨ (x.port east).out ∨ x.blocked then s
  else s.egressTo (x.portNo east) cls (tagged b (zeludTag 1 false cls ttl src 0 hops s.domainId))

/-- A flood into a ring (R374, R373): the frame without its tag, the device it comes from, its TTL. -/
def State.ringFlood (s : State) (r cls ttl src : Nat) (b : Bytes) : State :=
  if !(s.ring r).on ∨ (s.ring r).stopped then s
  else if s.dget 0x3500 6 < wireLen b + 10 then s.dinc 0x3503 5
  else
    let (e, w) := s.floodHops r
    (s.floodOut r true e cls ttl src b).floodOut r false w cls ttl src b

/-- A Zelud control frame (R370), padded to 64 bytes with its FCS; its SA is the management MAC. -/
def State.controlFrame (s : State) (subtype ttl src hops : Nat) (fields : Bytes) : Bytes :=
  let b := beBytes 6 0x031FA3096000 ++ beBytes 6 mgmtMac ++ zeludTag 2 false 0 ttl src subtype hops s.domainId ++ fields
  b ++ zeros (60 - b.length)

/-- A control frame of this device on a ring port. -/
def State.ringControl (s : State) (r : Nat) (east : Bool) (subtype hops : Nat) (fields : Bytes) : State :=
  s.control ((s.ring r).portNo east) (.frame (s.controlFrame subtype 255 s.deviceId hops fields))

/-- A control frame on every port of the ring that has not failed. -/
def State.ringTell (s : State) (r subtype : Nat) (fields : Bytes) : State :=
  [true, false].foldl (fun (s : State) e =>
    if ((s.ring r).port e).failed then s else s.ringControl r e subtype 0 fields) s

/-- What a member does with another's control frame that goes round the ring: it leaves by the other port, TTL less one. -/
def State.ringForward (s : State) (r : Nat) (east : Bool) (subtype : Nat) (src : ZeludSource) (hops : Nat) (fields : Bytes) : State :=
  let x := s.ring r
  if (x.port !east).failed ∨ src.ttl ≤ 1 then s
  else s.control (x.portNo !east) (.frame (s.controlFrame subtype (src.ttl - 1) src.device hops fields))

/-- The directions of a ring's devices. -/
def State.directions (s : State) (r : Nat) : List (Nat × Option Bool) :=
  let x := s.ring r
  x.devices.map fun d => (d, x.route s.deviceId d)

/-- A ring changed, its device table recomputed (R376): devices whose direction has changed are held while STEER_HOLD is 1. -/
def State.ringRecompute (s : State) (r : Nat) (f : ZRing → ZRing) : State :=
  let before := s.directions r
  let s := s.withRing r f
  let moved := ((s.directions r).filter fun d => !before.contains d).map Prod.fst
  if s.dget 0x3500 8 = 1 then
    s.withRing r fun x => { x with holdFor := x.holdFor ++ moved.filter fun d => !x.holdFor.contains d }
  else s

/-- The events of a ring: fault and restore. -/
def ringEvent (r : Nat) (restore : Bool) : Nat := 320 + 2 * r + b2n restore

/-- A fault known now: counted, timed, event 320 or 322. -/
def State.ringFaultNote (s : State) (r : Nat) : State :=
  (((s.dinc (ringIdx r) 4).dset (ringIdx r) 5 s.time.ns).event (ringEvent r false))

/-- The KIND 0 frames queued on a port, with their queues; the others stay. -/
def EgPort.transit (x : EgPort) : List (Nat × Bytes) :=
  (List.range 8).flatMap fun q => ((x.queue q).filter fun b => zeludKind b == some 0).map fun b => (q, b)

/-- A ring port fails (R375): the wrap, FAULT both ways, the event. -/
def State.ringPortFails (s : State) (r : Nat) (east : Bool) : State :=
  let x := s.ring r
  if (x.port east).failed then s
  else
    let p := x.portNo east
    let bound := (s.egPort p).transit
    let s := s.withEg p fun y => { y with queues := y.queues.map fun kv => (kv.1, kv.2.filter fun b => zeludKind b != some 0) }
    let s := s.ringRecompute r fun x => x.withPort east fun y => { y with failed := true, heard := false, echoed := false }
    let s := (s.ringFaultNote r).ringTell r 3 (leBytes 1 (b2n !east))
    bound.foldl (fun (s : State) qb => s.ringSend r east qb.1 qb.2) s

/-- The port fails as a ring port, if it is one. -/
def State.ringPortDown (s : State) (p : Nat) : State :=
  match s.ringOf p with
  | some (r, east) => if (s.ring r).stopped then s else s.ringPortFails r east
  | none => s

/-- Another device carries this device's ID (R379): both ports of the ring blocked for data, event 324. -/
def State.ringBlock (s : State) (r : Nat) : State := (s.withRing r fun x => { x with blocked := true }).event 324

/-- A HELLO arrives (R370, R379). -/
def State.helloTake (s : State) (port : Nat) (src : ZeludSource) (serial t1 e1 e2 e3 arrived : Nat) : State :=
  match s.ringOf port with
  | none => s
  | some (r, east) =>
    if src.domain ≠ s.domainId then
      ((s.dinc 0x3503 4).withRing r fun x => x.withPort east fun y => { y with foreign := true }).event 325
    else if src.device = s.deviceId then (if serial = Config.serial then s else s.ringBlock r)
    else s.withRing r fun x => x.withPort east fun y => { y with
      foreign := false, heard := true, echoed := y.echoed || e1 != 0, lastT1 := t1, lastAt := arrived
      delay := if e1 = 0 then y.delay else ((((arrived : Int) - e1) - ((e3 : Int) - e2)) / 2).toNat }

/-- A link's part of L in fiftieths of a ns (R372): delay, 250 ns and the longest frame at rate code 1 (10 Gb/s) or 2. -/
def linkBound (mtu delay rate : Nat) : Nat := 50 * (delay + 250) + (mtu + 20) * (if rate = 1 then 40 else 16)

/-- The rate code of a trunk port's link (Table 12-10). -/
def State.rateCode (s : State) (p : Nat) : Nat := if s.portRate p = 10000 then 1 else 2

/-- L in fiftieths of a ns over the ring's links. -/
def State.loopBound (s : State) (r : Nat) : Nat :=
  let x := s.ring r
  let mtu := s.dget 0x3500 6
  linkBound mtu x.eastPort.delay (s.rateCode x.east) + sumNat (x.members.map fun kv => linkBound mtu kv.2.delay kv.2.rate)

/-- Once the members' TOPOLOGY frames have each been seen, the ring is BOUNDED or OVERLONG (R372). -/
def State.ringBound (s : State) (r : Nat) : State :=
  let x := s.ring r
  if x.closed = some (x.members.length + 1) then
    let l := s.loopBound r
    let past := decide (8000 * 50 < l)
    let s := (s.dset (ringIdx r) 3 (ceilDiv l 50)).withRing r fun x => { x with bounded := true, past := past }
    if past && !x.past then s.event 327 else s
  else s

/-- REACH as 128 bytes. -/
def reachBytes (l : List Nat) : Bytes :=
  (List.range 128).map fun i => BitVec.ofNat 8 (sumNat ((List.range 8).map fun j => b2n (l.contains (8 * i + j)) * 2 ^ j))

/-- The fields of a TOPOLOGY frame. -/
def topologyFields (serial delay rate : Nat) (reach : List Nat) : Bytes :=
  leBytes 8 serial ++ leBytes 4 delay ++ leBytes 1 rate ++ reachBytes reach

/-- A TOPOLOGY arrives (R371, R372, R379). -/
def State.topologyTake (s : State) (port : Nat) (src : ZeludSource) (serial delay rate : Nat) (reach : List Nat) : State :=
  match s.ringOf port with
  | none => s
  | some (r, east) =>
    if src.domain ≠ s.domainId then s.dinc 0x3503 4
    else if src.device = s.deviceId then
      if serial ≠ Config.serial then s.ringBlock r
      else (s.ringRecompute r fun x => { x with closed := some (64 - src.hops) }).ringBound r
    else
      let x := s.ring r
      let old := ((x.members.get? src.device).map (·.reach)).getD []
      let twice := reach.any fun d => !old.contains d && x.members.any fun kv => kv.1 != src.device && kv.2.reach.contains d
      let s := if twice then (s.dinc 0x3503 2).event 326 else s
      let s := s.ringRecompute r fun x => { x with members := x.members.put src.device ⟨serial, 63 - src.hops, delay, rate, reach⟩ }
      let s := s.ringBound r
      if src.hops = 0 then s
      else s.ringForward r east 2 src (src.hops - 1) (topologyFields serial delay rate reach)

/-- A FAULT arrives (R376): known once for each link; it goes on round the ring. -/
def State.faultTake (s : State) (port : Nat) (src : ZeludSource) (side : Nat) : State :=
  match s.ringOf port with
  | none => s
  | some (r, east) =>
    if src.domain ≠ s.domainId then s.dinc 0x3503 4
    else if src.device = s.deviceId then s
    else
      let x := s.ring r
      let n := x.size
      let me := s.deviceId
      let link := x.faultLink me n (src.device, side)
      let known := x.faults.contains (src.device, side) || (match link with
        | some l => (x.broken me n).contains l
        | none => false)
      let s := if known then s else s.ringFaultNote r
      let s := s.ringRecompute r fun x => { x with faults := (src.device, side) :: x.faults.filter (· != (src.device, side)) }
      s.ringForward r east 3 src 0 (leBytes 1 side)

/-- A RESTORE arrives (R377). -/
def State.restoreTake (s : State) (port : Nat) (src : ZeludSource) (side : Nat) : State :=
  match s.ringOf port with
  | none => s
  | some (r, east) =>
    if src.domain ≠ s.domainId then s.dinc 0x3503 4
    else if src.device = s.deviceId then s
    else
      let x := s.ring r
      let n := x.size
      let link := x.faultLink s.deviceId n (src.device, side)
      let keep := x.faults.filter fun f => f != (src.device, side) && (link.isNone || x.faultLink s.deviceId n f != link)
      let s := if keep.length < x.faults.length then s.event (ringEvent r true) else s
      (s.ringRecompute r fun x => { x with faults := keep }).ringForward r east 4 src 0 (leBytes 1 side)

/-- A LEAVE arrives: its port has failed (R378). -/
def State.leaveTake (s : State) (port : Nat) (src : ZeludSource) : State :=
  match s.ringOf port with
  | none => s
  | some (r, east) => if src.domain ≠ s.domainId then s.dinc 0x3503 4 else s.ringPortFails r east

/-- A failed port has carried HELLOs both ways for RESTORE_HOLD (R377). -/
def State.ringRestored (s : State) (r : Nat) (east : Bool) : State :=
  let y := (s.ring r).port east
  if y.failed ∧ y.heard ∧ y.echoed ∧ !(s.ring r).stopped then
    let s := s.ringRecompute r fun x => x.withPort east fun y => { y with failed := false }
    (s.event (ringEvent r true)).ringTell r 4 (leBytes 1 (b2n !east))
  else s

/-- A steering hold ends (R376): the held frames leave in the directions that now hold. -/
def State.steerRelease (s : State) (r : Nat) : State :=
  let held := (s.ring r).held
  let s := s.withRing r fun x => { x with held := [], holdFor := [] }
  held.foldl (fun (s : State) h => s.enterRing h.1 h.2.1 h.2.2) s

/-- LEAVE on both ports of a ring (R378). -/
def State.ringLeave (s : State) (r : Nat) (gone : Bool) : State :=
  let x := s.ring r
  if !x.on || x.stopped then (if gone then s.withRing r fun _ => ZRing.reset else s)
  else
    let s := (s.ringControl r true 5 0 []).ringControl r false 5 0 []
    s.withRing r fun x => { x with leaving := true, removed := x.removed || gone }

/-- LEAVE on every ring, at step 1 of Tables 4-6 and 4-8 and before TRUNK goes down. -/
def State.zeludLeave (s : State) : State := (s.ringLeave 0 false).ringLeave 1 false

/-- 20 µs after LEAVE (R378): the ring ports stop. -/
def State.leaveWaited (s : State) : State :=
  [0, 1].foldl (fun (s : State) r =>
    let x := s.ring r
    if !x.leaving then s
    else if x.removed then s.withRing r fun _ => ZRing.reset
    else s.withRing r fun x => { x with leaving := false, stopped := true }) s

/-- The ring ports run again after Banked, an abandoned entry or TRUNK's power-up: each is restored by R377. -/
def State.zeludReturn (s : State) : State :=
  [0, 1].foldl (fun (s : State) r =>
    let x := s.ring r
    if (x.stopped || x.leaving) && !x.removed then
      let back (y : RingPort) : RingPort := { y with failed := true, heard := false, echoed := false }
      s.ringRecompute r fun x => { x with
        stopped := false, leaving := false, eastPort := back x.eastPort, westPort := back x.westPort }
    else s) s

/-- A ring formed anew on its two ports (R372, R380). -/
def ZRing.forming (east west : Nat) : ZRing := { ZRing.reset with on := true, east := east, west := west }

/-- The apply of group 25 (R380): LEAVE on rings removed, FORMING on rings added. -/
def State.zeludApply (s : State) : State :=
  let en := s.dget 0x3500 1
  let want (r : Nat) : Option (Nat × Nat) :=
    let v := s.dget 0x3500 (4 + r)
    if en = 0 ∨ (r = 1 ∧ v = 0xFF) then none else some (v % 16, v / 16)
  [0, 1].foldl (fun (s : State) r =>
    let x := s.ring r
    match want r with
    | none => if x.on then s.ringLeave r true else s
    | some (e, w) =>
      if x.on ∧ x.east = e ∧ x.west = w then s
      else (if x.on then (s.ringControl r true 5 0 []).ringControl r false 5 0 [] else s).withRing r fun _ => ZRing.forming e w) s

/-- HELLO on each ring port (Table 12-10). -/
def State.helloSend (s : State) : State :=
  [0, 1].foldl (fun (s : State) r =>
    if (s.ring r).on && !(s.ring r).stopped then
      [true, false].foldl (fun (s : State) e =>
        let y := (s.ring r).port e
        s.ringControl r e 1 0 (leBytes 8 Config.serial ++ leBytes 1 r ++ leBytes 1 (b2n !e) ++ leBytes 8 s.time.ns
          ++ leBytes 8 y.lastT1 ++ leBytes 8 y.lastAt ++ leBytes 8 s.time.ns)) s
    else s) s

/-- TOPOLOGY sent east on each ring (Table 12-10). -/
def State.topologySend (s : State) : State :=
  [0, 1].foldl (fun (s : State) r =>
    let x := s.ring r
    if x.on && !x.stopped then
      let o := s.ring (1 - r)
      let reach := if o.on then o.devices else []
      s.ringControl r true 2 63 (topologyFields Config.serial x.eastPort.delay (s.rateCode x.east) reach)
    else s) s

/-- KEEPALIVE on a ring port (Table 12-10). -/
def State.keepaliveSend (s : State) (p : Nat) : State :=
  match s.ringOf p with
  | some (r, east) => if (s.ring r).stopped then s else s.ringControl r east 6 0 []
  | none => s

end Sys2Proof.Machine
end

