-- ==== Sys2Proof/Machine/PipeOps.lean ====
section
/-! DEFINITION. The packet pipeline's decision (R341–R350, R366–R369, R373–R375): the parser, lookups, copies with their tag
changes, virtual ports, frames to the hearth core, frames of the Zelud domain. -/

namespace Sys2Proof.Machine

/-- What the parser extracts (R345). -/
structure Parsed where
  tagged : Bool
  pcp : Nat
  dei : Nat
  /-- The outer VID; 0 without one. -/
  tagVid : Nat
  etype : Nat
  /-- The offset of what follows the EtherType. -/
  l3 : Nat
  /-- 0, 4 or 6. -/
  ip : Nat
  src : Bytes
  dst : Bytes
  proto : Nat
  sport : Nat
  dport : Nat
  dscp : Option Nat
deriving DecidableEq, Repr

/-- The parser over the first 128 bytes; a field beyond them is zero. -/
def parseFrame (frame : Bytes) : Parsed :=
  let b := padTo 160 (frame.take 128)
  let isTag (t : Nat) : Bool := t == 0x8100 || t == 0x88A8
  let t1 := isTag (beAt b 12 2)
  let t2 := t1 && isTag (beAt b 16 2)
  let o := if t2 then 20 else if t1 then 16 else 12
  let tci := beAt b 14 2
  let l3 := o + 2
  let e := beAt b o 2
  let ports (at_ proto : Nat) : Nat × Nat := if proto = 6 ∨ proto = 17 then (beAt b at_ 2, beAt b (at_ + 2) 2) else (0, 0)
  let base : Parsed := ⟨t1, if t1 then bits tci 13 3 else 0, if t1 then bits tci 12 1 else 0, if t1 then tci % 4096 else 0,
    e, l3, 0, [], [], 0, 0, 0, none⟩
  if e = 0x0800 then
    let proto := byteAt b (l3 + 9)
    let (sp, dp) := if beAt b (l3 + 6) 2 % 0x2000 = 0 then ports (l3 + byteAt b l3 % 16 * 4) proto else (0, 0)
    { base with ip := 4, src := sub b (l3 + 12) 4, dst := sub b (l3 + 16) 4, proto := proto, sport := sp, dport := dp,
                dscp := some (byteAt b (l3 + 1) / 4) }
  else if e = 0x86DD then
    let proto := byteAt b (l3 + 6)
    let (sp, dp) := ports (l3 + 40) proto
    { base with ip := 6, src := sub b (l3 + 8) 16, dst := sub b (l3 + 24) 16, proto := proto, sport := sp, dport := dp,
                dscp := some (beAt b l3 2 / 64 % 64) }
  else base

/-- Where a frame came from: its ingress port, the instance whose VP or threads sent it, the device a ring delivered it
from, and whether it is a flood of a ring. -/
structure Origin where
  port : Nat
  sender : Option Nat
  device : Option Nat
  flood : Bool
deriving DecidableEq, Repr

/-- VLAN v is in a 512-byte set. -/
def inVlan (b : Bytes) (v : Nat) : Bool := bit (byteAt b (v / 8)) (v % 8)

/-- The PVID for a frame (R345, R430). -/
def State.pvid (s : State) (o : Origin) : Nat :=
  if o.port < 20 then s.dget (pIdx o.port 0) 6 else s.dget (blk (o.sender.getD 0) 0x20) 4

/-- The tag changes of R348 at an egress with a member and an untagged set; none where it is no member (R349). -/
def retag (members untag frame : Bytes) (f : Parsed) (vid : Nat) : Option Bytes :=
  if !inVlan members vid then none
  else if f.tagged && inVlan untag vid then some (frame.take 12 ++ frame.drop 16)
  else if !f.tagged && !inVlan untag vid then some (frame.take 12 ++ beBytes 2 0x8100 ++ beBytes 2 vid ++ frame.drop 12)
  else some frame

/-- DEI set in the outer tag of a marked copy (R404). -/
def markDei (b : Bytes) : Bytes :=
  if beAt b 12 2 = 0x8100 ∨ beAt b 12 2 = 0x88A8 then overlay b 14 (leBytes 1 (setBit (byteAt b 14) 4 true)) else b

/-- A decided frame on its way to its copies. -/
structure Decided where
  origin : Origin
  frame : Bytes
  f : Parsed
  vid : Nat
  stamp : Nat
  /-- CLASS of the deciding entry; 0xFF for none. -/
  cls : Nat
  mark : Bool
  /-- Bits [5:0] of H0 of the deciding key (R421). -/
  hash : Nat

/-- The egress class of a copy on a port (R388). -/
def State.classAt (s : State) (d : Decided) (p : Nat) : Nat :=
  if d.cls < 8 then d.cls else byteAt (s.dbytes (sIdx p 0) 2) d.f.pcp % 8

/-- A copy as it leaves by a physical port: tag changes and mark; none where the VLAN forbids it. -/
def State.copyAt (s : State) (d : Decided) (p : Nat) : Option Bytes :=
  (retag (s.dbytes (pIdx p 3) 1) (s.dbytes (pIdx p 3) 2) d.frame d.f d.vid).map fun b => if d.mark then markDei b else b

/-- A copy to a physical port (R349). -/
def State.copyPort (s : State) (d : Decided) (p : Nat) : State :=
  if p = d.origin.port then s
  else match s.copyAt d p with
    | some b => s.egressTo p (s.classAt d p) b
    | none => s

/-- A copy to a device of the domain (R373); the ring port it leaves by is its egress. -/
def State.copyRemote (s : State) (d : Decided) (dev : Nat) : State :=
  match s.devRoute dev with
  | none => s.dinc 0x3503 3
  | some (r, east) =>
    let p := (s.ring r).portNo east
    if p = d.origin.port then s
    else match s.copyAt d p with
      | some b => s.enterRing dev (s.classAt d p) b
      | none => s

/-- A copy flooded into a ring (R349, R374). -/
def State.copyRing (s : State) (d : Decided) (r : Nat) : State :=
  let x := s.ring r
  if !x.on ∨ x.stopped ∨ d.origin.flood then s
  else
    let (e, w) := s.floodHops r
    [(true, e), (false, w)].foldl (fun (s : State) eh =>
      let p := x.portNo eh.1
      if eh.2 = 0 ∨ p = d.origin.port then s
      else match s.copyAt d p with
        | none => s
        | some b =>
          if s.dget 0x3500 6 < wireLen b + 10 then s.dinc 0x3503 5
          else s.floodOut r eh.1 eh.2 (s.classAt d p) 255 s.deviceId b) s

/-- Bytes written into a VP's buffer area from an offset on. -/
def State.areaWrite (s : State) (n : Nat) : List (Bool × Nat × Nat) → Nat → Bytes → State
  | [], _, _ => s
  | (dev, addr, len) :: rest, off, b =>
    if b.isEmpty then s
    else if len ≤ off then s.areaWrite n rest (off - len) b
    else
      let part := b.take (len - off)
      let s := if dev then s.withDram fun m => m.writeN ((s.dramRegion n).1 + addr + off) part else s.hostWrite n (addr + off) part
      s.areaWrite n rest 0 (b.drop (len - off))

/-- The ingress port as an instance is shown it (Table 12-8). -/
def shownPort (n port : Nat) (sender : Option Nat) : Nat :=
  match sender with
  | some m => if n = 0 ∨ m = n then port else 127
  | none => port

/-- A VP counter. -/
def State.vpCount (s : State) (n sub : Nat) : State := s.dinc (blk n 0x22) sub

/-- The receive binding of VPn. -/
def State.vpBind? (s : State) (n : Nat) : Option VpBind := s.pipe.binds.get? n

/-- A frame for VPn (R367, R368). -/
def State.vpReceive (s : State) (n port : Nat) (sender : Option Nat) (stamp : Nat) (b : Bytes) : State :=
  let st := (s.inst n).st
  if st = .quiescing ∨ st = .quiesced ∨ st = .fenced then s.vpCount n 8
  else match s.vpBind? n with
    | none => s.vpCount n 5
    | some x =>
      if x.free = 0 ∨ x.size < b.length + 8 ∨ (!s.canMaster n ∧ x.area.any fun a => !a.1) then s.vpCount n 5
      else if ((s.cq? n x.cqid).map (·.stalled)).getD true then s.vpCount n 6
      else
        let s := s.areaWrite n x.area (x.next * x.size) (leBytes 8 stamp ++ b)
        let s := s.withPipe fun p => { p with binds := p.binds.put n { x with next := (x.next + 1) % x.count, free := x.free - 1 } }
        let s := (s.vpCount n 3).dadd (blk n 0x22) 4 b.length
        s.cqPost n x.cqid ⟨0xFFFF, 0, Status.ok.code, b.length, 0xC00000 + shownPort n port sender * 256, false, none, some x.next⟩

/-- A copy to a VP (R348, R349). -/
def State.copyVp (s : State) (d : Decided) (n : Nat) : State :=
  if d.origin.port = 32 + n then s
  else match retag (s.dbytes (blk n 0x21) 1) (s.dbytes (blk n 0x21) 2) d.frame d.f d.vid with
    | none => s
    | some b => s.vpReceive n d.origin.port d.origin.sender d.stamp (if d.mark then markDei b else b)

/-- A copy to a thread group (R421). -/
def State.copyGroup (s : State) (d : Decided) (g : Nat) : State :=
  s.groupFrame g ⟨d.hash, d.origin.port, d.origin.sender, d.stamp, if d.mark then markDei d.frame else d.frame⟩

/-- One destination of an action (Table 12-4); the kiln copy is made apart. A port set's port 96 names no group: no copy. -/
def State.copyTo (s : State) (d : Decided) (kind dest : Nat) : State :=
  match kind with
  | 1 => s.copyPort d dest
  | 2 => if d.origin.flood then s else s.copyRemote d dest
  | 3 => s.copyVp d dest
  | 4 => s.copyGroup d dest
  | 7 =>
    let set := leNat (padTo 16 (s.dbytes 0x3401 (dest + 1)))
    let s : State := (List.range 20).foldl (fun s p => if bit set p then s.copyPort d p else s) s
    let s : State := (List.range 64).foldl (fun s n => if bit set (32 + n) then s.copyVp d n else s) s
    let s := if bit set 20 then s.copyRing d 0 else s
    if bit set 21 then s.copyRing d 1 else s
  | _ => s

/-- A frame flooded in its VLAN (R349): every member port, every member VP, each ring. -/
def State.copyFlood (s : State) (d : Decided) : State :=
  let s : State := (List.range 20).foldl (fun s p => s.copyPort d p) s
  let s : State := s.instances.foldl (fun s n => s.copyVp d n) s
  (s.copyRing d 0).copyRing d 1

/-- The path to the hearth core takes one more frame of this second, or drops it (R350). -/
def State.hearthPath (s : State) : Bool × State :=
  let sec := s.time.elapsed / 1000000000
  let s := if s.pipe.hearthAt = sec then s else s.withPipe fun p => { p with hearthAt := sec, hearthFrames := 0 }
  if 100000 ≤ s.pipe.hearthFrames then (false, (s.dinc 0x3400 0x0D).eventLimited 315 0)
  else (true, s.withPipe fun p => { p with hearthFrames := p.hearthFrames + 1 })

/-- A broadcast ARP request for the management address in the management VLAN (R350). -/
def State.arpForMe (s : State) (frame : Bytes) (f : Parsed) (vid : Nat) : Bool :=
  let b := padTo 160 frame
  let v := s.dget 0x1040 4
  f.etype == 0x0806 && beAt frame 0 6 == 0xFFFFFFFFFFFF && s.dget 0x1040 1 != 0 && beAt b (f.l3 + 6) 2 == 1
    && beAt b (f.l3 + 24) 4 == s.dget 0x1040 1 && (if v = 0 then f.tagVid == 0 else vid == v)

/-- The answer to an ARP request: to its sender, in its tags. -/
def State.arpAnswer (s : State) (frame : Bytes) (f : Parsed) : Bytes :=
  let b := padTo 160 frame
  let me := beBytes 6 mgmtMac
  sub b 6 6 ++ me ++ sub b 12 (f.l3 - 12) ++ sub b f.l3 6 ++ beBytes 2 2 ++ me ++ beBytes 4 (s.dget 0x1040 1)
    ++ sub b (f.l3 + 8) 10 ++ zeros (60 - (f.l3 + 28))

/-- R350: frames for the hearth core, and the reserved addresses; none where the frame is forwarded. -/
def State.hearthFrame (s : State) (o : Origin) (frame : Bytes) (f : Parsed) (vid : Nat) : Option State :=
  let da := beAt frame 0 6
  let arp := s.arpForMe frame f vid
  let ptp := f.etype == 0x88F7 && decide (o.port < 20) && s.dget (pIdx o.port 4) 1 != 0
  if da = mgmtMac ∨ arp ∨ ptp then
    let (ok, s) := s.hearthPath
    some (if ok && arp && decide (o.port < 20) && !s.dbg.hearthHalted then s.egressTo o.port (s.dget 0x3783 1) (s.arpAnswer frame f) else s)
  else if da / 16 = 0x0180C200000 then some (if o.port < 20 then s.dinc (pIdx o.port 2) 6 else s)
  else none

/-- The destination that learning gives a frame's source (R356): none for a thread's. -/
def Origin.station (o : Origin) : Option (Nat × Nat) :=
  match o.device with
  | some d => some (2, d)
  | none => if o.port < 20 then some (1, o.port) else if o.port < 96 then some (3, o.port - 32) else none

/-- A port or VP learns (R356). -/
def State.learns (s : State) (o : Origin) : Bool :=
  if o.port < 20 then s.dget (pIdx o.port 0) 5 == 1 else decide (o.port < 96) && s.dget (blk (o.port - 32) 0x20) 3 == 1

/-- The SRC lookup (R346, R356, R357). -/
def State.srcLookup (s : State) (o : Origin) (vid : Nat) (sa : Bytes) : State :=
  match o.station with
  | none => match s.pipe.table.lookup (macKey vid sa) with
    | some (i, _) => s.tableHit i
    | none => s
  | some (k, d) =>
    let known := (s.pipe.table.lookup (macKey vid sa)).isSome
    s.learnFrom vid sa k d (known || s.learns o)

/-- The instance that a DST result binds a frame to: SCOPE (R346). -/
def State.scopeOf (s : State) (e : Option Bytes) : Nat :=
  match e with
  | none => 0
  | some e => if entryKind e = 3 then entryDest e else if entryKind e = 4 then (s.groupOf (entryDest e)).inst else 0

/-- A frame is classified (R346–R350, R402): lookups, the meter, the copies. -/
def State.classify (s : State) (o : Origin) (frame : Bytes) (stamp : Nat) : State :=
  let f := parseFrame frame
  let vid := if f.tagVid = 0 then s.pvid o else f.tagVid
  let s := s.srcLookup o vid (sub frame 6 6)
  match s.hearthFrame o frame f vid with
  | some s => s
  | none =>
    let dk := macKey vid (frame.take 6)
    let dst := s.pipe.table.lookup dk
    let fk := flowKey (f.ip == 6) (s.scopeOf (dst.map Prod.snd)) vid f.src f.dst f.proto f.sport f.dport
    let flow := if f.ip = 0 then none else s.pipe.table.lookup fk
    let s := match flow with
      | some (i, _) => s.tableHit i
      | none => s
    let d : Decided := ⟨o, frame, f, vid, stamp, 0xFF, false, (keyHash (if flow.isSome then fk else dk)).1 % 64⟩
    match (flow.orElse fun _ => dst).map Prod.snd with
    | none => s.copyFlood d
    | some e =>
      let s := if entryKind e = 5 then s.kilnFrame (byteAt e 54) ⟨o.port, byteAt e 55, stamp, frame⟩ else s
      let (act, s) := s.meterFrame (entryMeter e) (wireLen frame) f.dei f.dscp
      if act = 2 then s
      else
        let d := { d with cls := entryClass e, mark := act == 1 }
        if entryKind e = 5 then s.copyTo d (entryKind2 e) (entryDest2 e) else s.copyTo d (entryKind e) (entryDest e)

/-- A KIND 0 frame on a ring port (R373): for this device, or in transit; never back out of the port it came by. -/
def State.zeludUnicast (s : State) (r : Nat) (east : Bool) (b : Bytes) (stamp : Nat) : State :=
  if zDst b = s.deviceId then s.classify ⟨(s.ring r).portNo east, none, some (zSrc b), false⟩ (untagged b) stamp
  else if zTtl b ≤ 1 then s.dinc 0x3503 3
  else match s.devRoute (zDst b) with
    | none => s.dinc 0x3503 3
    | some (q, e) =>
      let e := if q = r ∧ e = east then !east else e
      s.ringSend q e (zClass b) (overlay b 15 (leBytes 1 (zTtl b - 1)))

/-- A flood on a ring port (R374): a copy here, one into the other ring, one onward. -/
def State.zeludFlood (s : State) (r : Nat) (east : Bool) (b : Bytes) (stamp : Nat) : State :=
  if zSrc b = s.deviceId then s
  else if zTtl b = 0 then s.dinc 0x3503 3
  else
    let inner := untagged b
    let s := s.classify ⟨(s.ring r).portNo east, none, some (zSrc b), true⟩ inner stamp
    if zTtl b = 1 then s.dinc 0x3503 3
    else
      let s := s.ringFlood (1 - r) (zClass b) (zTtl b - 1) (zSrc b) inner
      s.floodOut r (!east) (zHops b - 1) (zClass b) (zTtl b - 1) (zSrc b) inner

/-- A control frame on a ring port (R370). -/
def State.zeludControl (s : State) (p : Nat) (b : Bytes) (stamp : Nat) : State :=
  let src : ZeludSource := ⟨zSrc b, zDomain b, zHops b, zTtl b⟩
  let c := b.drop 22
  match zDst b with
  | 1 => s.helloTake p src (leAt c 0 8) (leAt c 10 8) (leAt c 18 8) (leAt c 26 8) (leAt c 34 8) stamp
  | 2 =>
    let reach := (List.range 1024).filter fun d => bit (byteAt c (13 + d / 8)) (d % 8)
    s.topologyTake p src (leAt c 0 8) (leAt c 8 4) (byteAt c 12) reach
  | 3 => s.faultTake p src (byteAt c 0)
  | 4 => s.restoreTake p src (byteAt c 0)
  | 5 => s.leaveTake p src
  | _ => if src.domain ≠ s.domainId then s.dinc 0x3503 4 else s

/-- A Zelud frame on a ring port (R369). -/
def State.zeludFrame (s : State) (p r : Nat) (east : Bool) (b : Bytes) (stamp : Nat) : State :=
  if zVersion b ≠ 1 then s.dinc 0x3503 4
  else if zeludKind b = some 2 then s.zeludControl p b stamp
  else if zDomain b ≠ s.domainId then s.dinc 0x3503 4
  else if (s.ring r).blocked ∨ (s.ring r).stopped then s
  else match zeludKind b with
    | some 0 => s.zeludUnicast r east b stamp
    | some 1 => s.zeludFlood r east b stamp
    | _ => s

/-- A port receives: the device in service, its link up, the pipeline on (R343, R303, Tables 4-3 and 4-6). -/
def State.receives (s : State) (p : Nat) : Bool := s.live && (s.egPort p).up && s.domOn domPIPE && !s.kiln.stopped

/-- A frame arrives on a physical port (R341, R369): what is dropped before the parser, the Zelud tag, the decision. -/
def State.frameTake (s : State) (p : Nat) (frame : Bytes) (fcsOk : Bool) (stamp : Nat) : State :=
  if p ≥ 20 ∨ !s.receives p then s
  else if s.draining then s.dinc 0x2000 7
  else
    let l := wireLen frame
    let at_ := ((stamp : Int) + s.dint (pIdx p 4) 2).toNat
    if !fcsOk then s.dinc (pIdx p 2) 3
    else if l < 64 ∨ s.dget (pIdx p 0) 4 < l then s.dinc (pIdx p 2) 4
    else if beAt frame 12 2 = 0x8808 then s.dinc (pIdx p 2) 5
    else
      let s := (s.dinc (pIdx p 2) 1).dadd (pIdx p 2) 2 l
      if beAt frame 12 2 = 0x88B5 ∧ 4 ≤ p then s.dinc (pIdx p 2) 6
      else match (if beAt frame 12 2 = 0x88B5 then s.ringOf p else none) with
        | some (r, east) => s.zeludFrame p r east frame at_
        | none => s.classify ⟨p, none, none, false⟩ frame at_

/-- The SA filter of an instance drops a frame (R366). -/
def State.saFiltered (s : State) (n : Nat) (b : Bytes) : Bool := s.dget (blk n 0x20) 2 == 1 && beAt b 6 6 != s.dget (blk n 0x20) 1

/-- The head of an instance's VP_SENDs, tried (R366, R406): its shaper, then buffer space; none while it waits. -/
def State.vpSendHead (s : State) (v : VpSend) : Option State :=
  let n := v.fn
  let w := wireLen v.frame + 20
  if !s.domOn domPIPE ∨ s.kiln.stopped ∨ !s.vpAllows n w ∨ s.bufferFree < wireLen v.frame then none
  else
    let s := (s.vpPay n w).withPipe fun p => { p with sends := p.sends.filter (· != v) }
    let s := (s.vpCount n 1).dadd (blk n 0x22) 2 v.frame.length
    let s := if s.saFiltered n v.frame then s.vpCount n 7
      else s.classify ⟨32 + n, some n, none, false⟩ v.frame s.time.ns
    some (s.complete n v.queue v.tag .ok v.frame.length)

/-- A VP_SEND that its shaper holds counts once (R406). -/
def State.vpSendHeld (s : State) (v : VpSend) : State :=
  if !v.counted ∧ !s.vpAllows v.fn (wireLen v.frame + 20) then
    (s.dinc (blk v.fn 0x29) 1).withPipe fun p => { p with
      sends := p.sends.map fun x => if x = v then { x with counted := true } else x }
  else s

/-- The VP_SENDs tried in order, each instance's in turn behind its own (R406); fuel bounds their number. -/
def State.vpSendsN : Nat → List Nat → List VpSend → State → State
  | 0, _, _, s => s
  | _, _, [], s => s
  | f + 1, waiting, v :: rest, s =>
    if waiting.contains v.fn then State.vpSendsN f waiting rest (if v.counted then s else (s.dinc (blk v.fn 0x29) 1).withPipe fun p =>
      { p with sends := p.sends.map fun x => if x = v then { x with counted := true } else x })
    else match s.vpSendHead v with
      | some s => State.vpSendsN f waiting rest s
      | none => State.vpSendsN f (v.fn :: waiting) rest (s.vpSendHeld v)

/-- Every waiting VP_SEND tried. -/
def State.vpSends (s : State) : State := State.vpSendsN s.pipe.sends.length [] s.pipe.sends s

/-- A link that goes down (R343, R391, R385): KIND 0 frames of a ring port leave by the other, the rest are dropped. -/
def State.portDown (s : State) (p : Nat) : State :=
  if (s.egPort p).up then
    let s := (s.withEg p fun x => { x with up := false, busy := false }).ringPortDown p
    let s : State := s.withDamper fun d => { d with partner := d.partner.del p }
    ((s.egressFlush p).dinc (pIdx p 1) 3).event (288 + p)
  else s

/-- The rates of a mode (Table 12-1). -/
def modeRates (mode : Nat) : List Nat :=
  match mode with
  | 1 => [25000] | 2 => [10000] | 3 => [10, 100, 1000] | 4 => [1000] | 5 => [2500] | _ => []

/-- A port that the damper never sheds (R134). -/
def State.shedProtected (s : State) (p : Nat) : Bool :=
  (s.ringOf p).isSome || s.dget (pIdx p 4) 4 != 0 || s.kiln.streams.any fun kv => kv.2.ports.contains p

/-- The damper has shed a port (Table 5-3 step 2, R134): marked sheddable, or enabled with its link down and no partner
found. -/
def State.portShed (s : State) (p : Nat) : Bool :=
  decide (2 ≤ s.ladder) && s.dget (pIdx p 0) 1 == 1 && !s.shedProtected p
    && (bit (s.dget 0x2107 3) p || (!(s.egPort p).up && (s.damper.partner.get? p).isNone))

/-- LINK of a port (R343). -/
def State.linkView (s : State) (p : Nat) : Nat :=
  if s.dget (pIdx p 0) 1 = 0 then 3 else if s.portShed p then 2 else b2n ((s.egPort p).up)

/-- Every port whose link may not be up goes down (R343). -/
def State.portsCheck (s : State) : State :=
  (List.range 20).foldl (fun (s : State) p =>
    if (s.egPort p).up ∧ (s.dget (pIdx p 0) 1 = 0 ∨ s.portShed p ∨ !s.domOn (portDomain p)) then s.portDown p else s) s

/-- A link that comes up at a rate of its mode (R340, R343, R385). -/
def State.portUp (s : State) (p rate : Nat) : State :=
  if (s.egPort p).up ∨ s.dget (pIdx p 0) 1 = 0 ∨ !s.domOn (portDomain p) ∨ s.kiln.stopped ∨ !s.live
      ∨ !(modeRates (s.dget (pIdx p 0) 2)).contains rate then s
  else
    if s.portShed p then s
    else ((s.dset (pIdx p 1) 2 rate).withEg p fun x => { x with up := true, busy := false }).event (288 + p)

/-- The VP binding of an instance gone. -/
def State.vpUnbind (s : State) (n : Nat) : State := s.withPipe fun p => { p with binds := p.binds.del n }

/-- The waiting VP_SENDs of an instance gone. -/
def State.vpDrop (s : State) (n : Nat) : State := s.withPipe fun p => { p with sends := p.sends.filter fun v => v.fn != n }

end Sys2Proof.Machine
end

