-- ==== Sys2Proof/Machine/TimeOps.lean ====
section
/-! DEFINITION. Domain time and its discipline (R26, R27, R382–R384): steps, rate changes, port roles, the PPS pins. -/

namespace Sys2Proof.Machine

/-- Domain time steps by d ns (R27, R399): counted, logged at Notice, taken up by the gate lists. -/
def State.timeStep (s : State) (d : Int) : State :=
  let s := s.withTime fun t => { t with ns := ((t.ns : Int) + d).toNat, slew := 0, ppb := 0 }
  (((s.dinc 0x3180 5).logCls 11 .notice 0x8001 (leBytes 8 (ofInt 64 d))).gatesStepped d)

/-- An offset of domain time from its reference is removed (R27): 10 µs or more by one step, less by a change of rate of at
most 200 ppm; which rate, the manual leaves open. -/
def State.discipline (s : State) (off : Int) : State :=
  let s := s.dset 0x3180 3 (ofInt 32 off)
  if 10000 ≤ off.natAbs then s.timeStep (-off)
  else if off = 0 then s
  else
    let (r, s) := s.drawBits 18
    let r : Int := ((r % 200000 + 1 : Nat) : Int)
    (s.withTime fun t => { t with slew := -off, ppb := if off < 0 then r else -r })

/-- PTP_PROFILE of a port. -/
def State.ptpProfile (s : State) (p : Nat) : Nat := s.dget (pIdx p 4) 1

/-- PORT_ROLE as the BMCA has set it, or the forced role (R382). -/
def State.ptpRole (s : State) (p : Nat) : Nat :=
  if s.ptpProfile p = 0 then 0 else if s.dget 0x3180 0x0A = 1 then s.dget (pIdx p 4) 5 else s.dget (pIdx p 4) 4

/-- Some port is a slave. -/
def State.anySlave (s : State) : Bool := (List.range 20).any fun p => s.ptpRole p == 2

/-- SYNC_STATE of a device that leads: grandmaster when it is not following and has no port to follow. -/
def State.leads (s : State) : State :=
  if !s.anySlave ∧ s.dget 0x3180 2 ≠ 1 then s.dset 0x3180 2 3 else s

/-- A Sync's offset on the slave port (R382, R383): domain time is disciplined, the clock is locked. -/
def State.syncTaken (s : State) (p : Nat) (off : Int) : State :=
  if s.ptpRole p = 2 then
    let s := if s.dget 0x3180 2 = 1 then s else (s.dset 0x3180 2 1).event 330
    s.discipline off
  else s

/-- The role of a port under the BMCA is set. -/
def State.setRole (s : State) (p r : Nat) : State := s.dset (pIdx p 4) 4 r

/-- An Announce (R382, R383): the port of a better clock is the slave, the one before it passive; otherwise the port is
master. Roles stay forced with EXTERNAL_CONFIG. -/
def State.announceTaken (s : State) (p gm : Nat) (better : Bool) : State :=
  if better then
    let s := if s.dget 0x3180 0x0A = 1 then s
      else ((List.range 20).foldl (fun (s : State) q => if q ≠ p ∧ s.dget (pIdx q 4) 4 = 2 then s.setRole q 3 else s) s).setRole p 2
    if s.ptpRole p = 2 ∧ s.dget 0x3180 6 ≠ gm then (s.dset 0x3180 6 gm).event 332 else s
  else if s.dget 0x3180 0x0A = 1 then s
  else (s.setRole p 1).leads

/-- A PTP message goes out on a port's control lane (R382, R392). -/
def State.ptpSend (s : State) (p type : Nat) : State := s.control p (.ptp type)

/-- A PTP message taken by the hearth's instance under its port's profile (R382, R383). Message types are IEEE 1588's. -/
def State.ptpTake (s : State) (p : Nat) (m : PtpMessage) : State :=
  if s.ptpProfile p = 0 ∨ p ≥ 20 ∨ !s.live then s
  else match m with
    | .sync twoStep off => if twoStep then s else s.syncTaken p off
    | .followUp off => s.syncTaken p off
    | .announce gm better => s.announceTaken p gm better
    | .pdelayReq => (s.ptpSend p 3).ptpSend p 10
    | .pdelayResp d => s.dset (pIdx p 4) 6 (d % 2 ^ 32)
    | .delayReq => if s.ptpRole p = 1 then s.ptpSend p 9 else s
    | .delayResp d => if s.ptpRole p = 2 then s.dset (pIdx p 4) 6 (d % 2 ^ 32) else s

/-- An edge on PPS_IN (R384): a value of TIME_SET is applied, then the edge is stamped, or put on a whole second. -/
def State.ppsEdge (s : State) : State :=
  let mode := s.dget 0x3180 0x0B
  if mode = 0 ∨ !s.live then s
  else
    let s := if mode = 1 then s.dset 0x3180 0x0C s.time.ns else s
    let s := match s.pipe.timeSet with
      | some v => (s.timeStep ((v : Int) - s.time.ns)).withPipe fun p => { p with timeSet := none }
      | none => s
    if mode = 2 then
      let r : Nat := s.time.ns % 1000000000
      let off : Int := if r < 500000000 then (r : Int) else (r : Int) - 1000000000
      (s.discipline off).leads
    else s

/-- PPS_OUT (R384): high from each whole second for the width, low while that is 0. -/
def State.ppsOutput (s : State) (rising : Bool) : State :=
  let on := rising && s.dget 0x3180 0x0D != 0 && s.live
  if on = s.pipe.ppsOut then s else (s.withPipe fun p => { p with ppsOut := on }).pin "PPS_OUT" on

/-- The ppb-scaled part of one nanosecond of domain time: ticks of 10⁻⁹ ns gathered. -/
def TimeBase.advance (t : TimeBase) : TimeBase :=
  let f : Int := (t.frac : Int) + 1000000000 + t.ppb
  let n := (f / 1000000000).toNat
  let moved : Int := (n : Int) - 1
  let left := t.slew - moved
  let past := decide (t.slew = 0) || (decide (0 < t.slew) && decide (left ≤ 0)) || (decide (t.slew < 0) && decide (0 ≤ left))
  { t with
    ns := (t.ns + n) % 2 ^ 64
    frac := (f % 1000000000).toNat
    slew := if past then 0 else left
    ppb := if past then 0 else t.ppb }

end Sys2Proof.Machine
end

