-- ==== Sys2Proof/Machine/FlowOps.lean ====
section
/-! DEFINITION. The flow cores' shared operations (Chapter 14): threads and their memory, CSRs, the Torolo extension, channels,
groups, steering, faults. -/

namespace Sys2Proof.Machine

/-- A core as held. -/
def State.fcore (s : State) (c : Nat) : FlowCore := s.flow.cores.getD c FlowCore.reset

/-- A core changed. -/
def State.withCore (s : State) (c : Nat) (f : FlowCore → FlowCore) : State :=
  s.withFlow fun x => { x with cores := x.cores.put c (f (s.fcore c)) }

/-- A channel. -/
def State.channel (s : State) (c : Nat) : Channel := s.flow.channels.getD c Channel.reset

/-- A channel changed. -/
def State.withChannel (s : State) (c : Nat) (f : Channel → Channel) : State :=
  s.withFlow fun x => { x with channels := x.channels.put c (f (s.channel c)) }

/-- The core runs: loaded, its domain on (R417, Table 4-3). -/
def State.coreUp (s : State) (c : Nat) : Bool := (s.fcore c).st == 1 && s.domOn (2 + c / 8)

/-- FCLK runs (R303, Table 4-6, R494). -/
def State.fclkOn (s : State) : Bool := s.live && !s.kiln.stopped

/-- The threads that a group names: active threads and spares, as bits of its core (R418). -/
def Group.members (x : Group) : Nat := Nat.lor x.threads x.spares

/-- A group names a thread. -/
def Group.has (x : Group) (t : Nat) : Bool := x.st != 0 && x.core == t / 8 && bit x.members (t % 8)

/-- The group of a thread (CSR tgroup). -/
def State.threadGroup (s : State) (t : Nat) : Option Nat := (s.flow.groups.find? fun kv => kv.2.has t).map (·.1)

/-- The delivery thread of a core (R445). -/
def State.deliveryThread (s : State) (c : Nat) : Nat := 8 * c + s.dget (0x3840 + c) 0x0A

/-- The thread's instance holds work back: it is quiesced or fenced (R230, R174). -/
def State.threadHeld (s : State) (t : Nat) : Bool :=
  let st := (s.inst (s.threadInst t)).st
  st == .quiesced || st == .fenced

/-- The thread executes now: running, not halted, its core and clock on (R411, R422, R443). -/
def State.threadIssues (s : State) (t : Nat) : Bool :=
  let x := s.thread t
  decide (t < 256) && s.fclkOn && s.coreUp (t / 8) && x.run == .running && !x.halted && x.txf.isNone && !s.threadHeld t

/-- THREAD_STATE of a thread (Table 14-12). -/
def State.threadState (s : State) (t : Nat) : Nat :=
  let x := s.thread t
  if !s.domOn (2 + t / 8) then 6
  else if x.halted then 3
  else match x.run with
    | .parked => 0 | .running => if x.txf.isSome then 2 else 1 | .waiting => 2 | .faulted => 4 | .spare => 5 | .off => 6

/-- A register of a thread; x0 is zero. -/
def Thread.reg (x : Thread) (i : Nat) : Nat := if i = 0 then 0 else x.regs.getD i 0

/-- A register written; x0 discards writes. -/
def Thread.setReg (x : Thread) (i v : Nat) : Thread :=
  if i = 0 then x else if v % 2 ^ 32 = 0 then { x with regs := x.regs.del i } else { x with regs := x.regs.put i (v % 2 ^ 32) }

/-- The threads of a core by a mask. -/
def maskList (m : Nat) : List Nat := (List.range 8).filter fun i => bit m i

/-- A thread's configured weight: its group's, or 1 (R418, R422); a spare that took over has the faulted thread's. -/
def State.threadWeight (s : State) (t : Nat) : Nat :=
  match s.threadGroup t with
  | none => 1
  | some g =>
    let x := s.groupOf g
    match x.active.find? fun a => a.1 == t % 8 with
    | some a => a.2
    | none => byteAt x.weights (t % 8)

/-- The effective weight of a thread (R422). -/
def State.effectiveWeight (s : State) (t : Nat) : Nat :=
  max 1 (s.threadWeight t * s.weightScale (s.threadInst t) / 256)

/-- A thread takes slots: not parked, faulted or stopped (R422). -/
def State.takesSlots (s : State) (t : Nat) : Bool := match (s.thread t).run with
  | .running | .waiting => true
  | _ => false

/-- One round of the issue table: each thread with weight left takes a slot (R422). -/
def issueRound : List (Nat × Nat) → Nat → List Nat
  | [], _ => []
  | (t, w) :: rest, r => (if r < w then [t] else []) ++ issueRound rest r

/-- The issue table of a core for one pass (R422): the threads of its 16 slots, idle slots left out. -/
def State.issueTable (s : State) (c : Nat) : List Nat :=
  let l := ((upFrom (8 * c) 8).filter s.takesSlots).map fun t => (t, s.effectiveWeight t)
  (((List.range 16).map (issueRound l)).flatten).take 16

/-- The idle slots of a pass of a core, counted (R422, Table 14-12). -/
def State.passIdle (s : State) (c : Nat) : State :=
  if s.coreUp c then s.dadd (0x3840 + c) 9 (16 - (s.issueTable c).length) else s

/-- An instruction retires: the pc moves on, its slots and the counts rise (R411, R416, R425, Table 16-10). -/
def State.retire (s : State) (t npc slots : Nat) : State :=
  let s := s.withThread t fun x => { x with pc := npc % 2 ^ 32, instret := (x.instret + 1) % 2 ^ 64 }
  let s := s.withPeat fun p => { p with icount := p.icount.put t (p.icount.getD t 0 + 1) }
  s.dadd (blk (s.threadInst t) 0x2C) 2 slots

/-- A thread starts (R417, R419, R440): x1–x31 zero, tshare cleared, a START record; its operations in flight go on. -/
def State.threadStart (s : State) (t entry cause : Nat) : State :=
  let s := s.withThread t fun x => { x with
    run := .running
    halted := false
    pc := entry
    regs := []
    tcause := cause
    share := false
    wait := none
    petAt := s.flow.fclkNs
    handling := false }
  let s := s.peatRecord 7 t (leBytes 1 cause ++ zeros 3 ++ leBytes 4 entry)
  (s.withPeat fun p => { p with icount := p.icount.put t 0 })

/-- Claims of a thread released, their staged words discarded (R436). -/
def State.claimsRelease (s : State) (t : Nat) : State :=
  let free (kv : Nat × Channel) : Nat × Channel :=
    if kv.2.claimant = some t then (kv.1, { kv.2 with claimant := none, staged := [] }) else kv
  s.withFlow fun x => { x with channels := x.channels.map free }

/-- The channel a thread holds (R432). -/
def State.claimOf (s : State) (t : Nat) : Option Nat := (s.flow.channels.find? fun kv => kv.2.claimant == some t).map (·.1)

/-- A thread fault (R439): the thread stops at the instruction, its claim is released, event 480 + c. -/
def State.threadFault (s : State) (t cause : Nat) : State :=
  let s := if cause = 9 then s.peatBreak t 3 else s
  let recent := fun (x : Thread) => x.faults.filter fun e => decide (s.time.elapsed < e + 1000000000)
  let s := (s.claimsRelease t).withThread t fun x => { x with
    run := .faulted
    halted := false
    wait := none
    txf := none
    faultCause := cause
    faults := s.time.elapsed :: recent x
    handling := true }
  s.event (480 + t / 8)

/-- The first address of a thread's slice (Table 14-1). -/
def sliceBase : Nat := 0x10000000

/-- A range lies in the thread's own slice. -/
def inSlice (a n : Nat) : Bool := decide (sliceBase ≤ a) && decide (a + n ≤ sliceBase + 0x8000)

/-- Bytes of a thread's slice by address. -/
def Thread.sliceRead (x : Thread) (a n : Nat) : Bytes := Mem.readN x.slice (a - sliceBase) n

/-- Bytes written into a thread's slice by address. -/
def Thread.sliceWrite (x : Thread) (a : Nat) (b : Bytes) : Thread := { x with slice := Mem.writeN x.slice (a - sliceBase) b }

/-- FILL records of bytes written into a thread's slice, in pieces of 256 (Table 16-9). -/
def State.peatFill (s : State) (t a : Nat) (b : Bytes) : State :=
  let l := chunksOf 256 b
  ((List.range l.length).foldl (fun (s : State) i => s.peatRecord 6 t (leBytes 4 (a + 256 * i) ++ l.getD i [])) s)

/-- Bytes that something is still filling, as ranges of offsets (R428). -/
def Thread.filling (x : Thread) : List (Nat × Nat) :=
  (match x.copy with
    | some (o, b) => [(o, b.length)]
    | none => []) ++ ((x.dmas.filter fun d => !d.outward).map fun d => (d.slice, d.len))

/-- Bytes that an outbound DMA is still reading. -/
def Thread.draining (x : Thread) : List (Nat × Nat) := (x.dmas.filter (·.outward)).map fun d => (d.slice, d.len)

/-- A range of the slice, by address, meets one of the ranges. -/
def touches (l : List (Nat × Nat)) (a n : Nat) : Bool := l.any fun r => meets (a - sliceBase, n) r

/-- What a load finds. -/
inductive LoadRes where
  | value (v : Nat) (shared : Bool)
  | stall
  | fault (cause : Nat)
deriving DecidableEq, Repr

/-- A load of n bytes (Table 14-1, R414, R428). -/
def State.threadLoad (s : State) (t a n : Nat) : LoadRes :=
  let x := s.thread t
  if a % n ≠ 0 then .fault 5
  else if a + n ≤ 0x10000 then .value (leNat (Mem.readN (s.fcore (t / 8)).imem a n)) false
  else if inSlice a n then
    if touches x.filling a n then .stall else .value (leNat (x.sliceRead a n)) false
  else if 0x11000000 ≤ a ∧ a + n ≤ 0x11040000 then
    let i := (a - 0x11000000) / 0x8000
    let u := t / 8 * 8 + i
    if i = t % 8 ∨ !(s.thread u).share ∨ s.threadInst u ≠ s.threadInst t then .fault 3
    else .value (leNat (Mem.readN (s.thread u).slice ((a - 0x11000000) % 0x8000) n)) true
  else .fault 3

/-- A source of Table 14-5 is pending, as bits. -/
def State.waitPending (s : State) (t : Nat) : Nat :=
  let x := s.thread t
  b2n (!x.rxq.isEmpty) + 2 * b2n x.rxdone + 4 * b2n x.dmaPend + 8 * b2n (!(s.channel t).msgs.isEmpty)
    + 16 * b2n x.timerPend
    + 32 * b2n (s.deliveryThread (t / 8) == t && s.eg.request (1 + t / 8))

/-- tr.wait returns (R427): rd has the armed pending bits, the sticky ones returned are cleared. -/
def State.waitReturn (s : State) (t rd p : Nat) : State :=
  let s := s.withThread t fun x => { (x.setReg rd p) with
    run := .running
    wait := none
    petAt := s.flow.fclkNs
    rxdone := x.rxdone && !bit p 1
    dmaPend := x.dmaPend && !bit p 2
    timerPend := x.timerPend && !bit p 4 }
  let s := s.peatRecord 5 t (leBytes 1 0 ++ leBytes 1 0x0B ++ zeros 2 ++ leBytes 4 p)
  s.retire t ((s.thread t).pc + 4) 1

/-- A waiting thread goes on when an armed source is pending and it may run (R427, R443). -/
def State.threadWake (s : State) (t : Nat) : State :=
  let x := s.thread t
  match x.wait with
  | some (mask, rd) =>
    let p := Nat.land mask (s.waitPending t)
    if p ≠ 0 ∧ x.run = .waiting ∧ !x.halted ∧ s.fclkOn ∧ s.coreUp (t / 8) ∧ !s.threadHeld t then s.waitReturn t rd p else s
  | none => s

/-- Every waiting thread looked at, in ascending order. -/
def State.flowSettle (s : State) : State :=
  (s.flow.threads.filter fun kv => kv.2.wait.isSome).foldl (fun (s : State) kv => s.threadWake kv.1) s

/-- What an instruction of the extension comes to. -/
inductive TrRes where
  | ok (v : Nat) (s : State)
  | fail (st : Status)
  /-- It does not return now: the thread waits, stalls or parks, in the state given. -/
  | stay (s : State)

/-- The results that the recorder records (R447). -/
def TrOp.recorded : TrOp → Bool
  | .wait | .rxf | .recv | .claim => true
  | _ => false

/-- An instruction of the extension returns a value (R426): rd written, the record made (R447), the pc advanced. -/
def State.trClose (s : State) (t : Nat) (op : TrOp) (rd v : Nat) : State :=
  let s := s.withThread t fun x => x.setReg rd v
  let s := if op.recorded then
      s.peatRecord 5 t (leBytes 1 op.code.2 ++ leBytes 1 op.code.1 ++ zeros 2 ++ leBytes 4 v) else s
  s.retire t ((s.thread t).pc + 4) 1

/-- An instruction of the extension ends with its result (R426). -/
def State.trEnd (s : State) (t : Nat) (op : TrOp) (rd : Nat) (r : TrRes) : State :=
  match r with
  | .ok v s' => s'.trClose t op rd v
  | .fail st => s.trClose t op rd (0x80000000 + st.code)
  | .stay s' => s'

/-- tr.wait (R427, R417). -/
def State.trWait (s : State) (t rd mask : Nat) : TrRes :=
  if 63 < mask ∨ (bit mask 5 ∧ s.deliveryThread (t / 8) ≠ t) then .fail .fieldInvalid
  else if mask = 0 then .stay (s.withThread t fun x => { x with run := .parked })
  else
    let p := Nat.land mask (s.waitPending t)
    if p ≠ 0 then .stay (s.waitReturn t rd p)
    else .stay (s.withThread t fun x => { x with run := .waiting, wait := some (mask, rd) })

/-- The 16 bytes before a frame in a receive copy (R429). -/
def rxHeader (inst : Nat) (f : RxFrame) : Bytes :=
  leBytes 8 f.stamp ++ leBytes 2 f.data.length ++ leBytes 1 (shownPort inst f.port f.sender) ++ zeros 5

/-- tr.rxf (R429). -/
def State.trRxf (s : State) (t a room : Nat) : TrRes :=
  let x := s.thread t
  if x.copy.isSome then .fail .notInThisState
  else if !inSlice a 1 then .fail .fieldInvalid
  else match x.rxq with
    | [] => .ok 0 s
    | f :: rest =>
      let total := 16 + f.data.length
      if room < total then .fail .outOfRange
      else if !inSlice a total then .fail .fieldInvalid
      else .ok total (s.withThread t fun x => { x with
        rxq := rest
        copy := some (a - sliceBase, rxHeader (s.threadInst t) f ++ f.data) })

/-- A frame of a thread leaves: into the pipeline on port 96, or to its instance's own VP binding (R430). -/
def State.threadSend (s : State) (t : Nat) (direct : Bool) (b : Bytes) : State :=
  let n := s.threadInst t
  if direct then s.vpReceive n 96 (some n) s.time.ns b
  else if s.saFiltered n b then s.vpCount n 7
  else s.classify ⟨96, some n, none, false⟩ b s.time.ns

/-- tr.txf (R430): it waits for buffer space. -/
def State.trTxf (s : State) (t rd a : Nat) : TrRes :=
  let x := s.thread t
  if !inSlice a 8 then .fail .fieldInvalid
  else if touches x.filling a 8 then .stay s
  else
    let d := x.sliceRead a 8
    let len := leAt d 0 2
    if len < 60 ∨ 9596 < len then .fail .outOfRange
    else if 1 < byteAt d 2 ∨ !allZero (sub d 3 5) ∨ !inSlice (a + 8) len then .fail .fieldInvalid
    else if touches x.filling (a + 8) len then .stay s
    else
      let direct := byteAt d 2 == 1
      let b := x.sliceRead (a + 8) len
      if !direct ∧ (s.bufferFree < len + 4 ∨ !s.domOn domPIPE) then .stay (s.withThread t fun x => { x with txf := some (rd, direct, b) })
      else .ok 0 (s.threadSend t direct b)

/-- The lowest DMA tag not in flight. -/
def Thread.freeTag (x : Thread) : Option Nat := (List.range 4).find? fun k => !x.dmas.any fun d => d.tag == k

/-- tr.dma (R431). -/
def State.trDma (s : State) (t a : Nat) : TrRes :=
  let x := s.thread t
  if !inSlice a 16 then .fail .fieldInvalid
  else if touches x.filling a 16 then .stay s
  else
    let d := x.sliceRead a 16
    let off := leAt d 0 8
    let sl := leAt d 8 4
    let len := leAt d 12 3
    let r := s.dramRegion (s.threadInst t)
    if len = 0 ∨ 0x8000 < len then .fail .outOfRange
    else if 1 < byteAt d 15 ∨ !inSlice sl len then .fail .fieldInvalid
    else if r.2 < off + len then .fail .notYourInstance
    else match x.freeTag with
      | none => .fail .poolExhausted
      | some k => .ok k (s.withThread t fun x => { x with
          dmas := x.dmas ++ [⟨k, r.1 + off, sl - sliceBase, len, byteAt d 15 == 1⟩] })

/-- tr.claim (R432, R434). -/
def State.trClaim (s : State) (t c : Nat) : TrRes :=
  if 256 < c then .fail .outOfRange
  else if (c = 256 ∧ s.threadInst t ≠ 0) ∨ (c < 256 ∧ s.threadInst c ≠ s.threadInst t) then .fail .notYourInstance
  else if (s.claimOf t).isSome then .fail .notInThisState
  else if (s.channel c).claimant.isSome then .fail .channelBusy
  else .ok 0 (s.withChannel c fun x => { x with claimant := some t, staged := [] })

/-- The thread holds the channel. -/
def State.holds (s : State) (t c : Nat) : Bool := (s.channel c).claimant == some t

/-- tr.put (R433, R434). -/
def State.trPut (s : State) (t c w : Nat) : TrRes :=
  if !s.holds t c then .fail .notInThisState
  else if 16 ≤ (s.channel c).staged.length then .fail .outOfRange
  else .ok 0 (s.withChannel c fun x => { x with staged := x.staged ++ [w] })

/-- tr.commit (R433, R434). -/
def State.trCommit (s : State) (t c : Nat) : TrRes :=
  let x := s.channel c
  if !s.holds t c then .fail .notInThisState
  else if x.staged.isEmpty then .fail .fieldInvalid
  else if 8 ≤ x.msgs.length then .fail .channelFull
  else .ok 0 (s.withChannel c fun x => ⟨x.msgs ++ [(t, x.staged)], none, []⟩)

/-- tr.drop (R434). -/
def State.trDrop (s : State) (t c : Nat) : TrRes :=
  if !s.holds t c then .fail .notInThisState
  else .ok 0 (s.withChannel c fun x => { x with claimant := none, staged := [] })

/-- tr.recv (R435): the oldest message of the thread's own channel to 64 bytes; words it does not have are zero. -/
def State.trRecv (s : State) (t a : Nat) : TrRes :=
  let x := s.thread t
  if !inSlice a 64 then .fail .fieldInvalid
  else match (s.channel t).msgs with
    | [] => .ok 0 s
    | (w, m) :: rest =>
      if touches x.draining a 64 then .stay s
      else
        let b := padTo 64 ((m.map (leBytes 4)).flatten)
        let s := (s.withThread t fun x => x.sliceWrite a b).withChannel t fun x => { x with msgs := rest }
        .ok (m.length + w * 0x10000) (s.peatFill t a b)

/-- A result that ends a replayable span on a recorded thread (Table 16-11, cause 2). -/
def State.trBreak (s : State) (t : Nat) (op : TrOp) (r : TrRes) : State :=
  match op, r with
  | .commit, .fail .channelFull => s.peatBreak t 2
  | .dma, .fail .poolExhausted => s.peatBreak t 2
  | _, _ => s

/-- The result of an instruction of the extension on the values of rs1 and rs2 (R426). -/
def State.trRun (s : State) (t : Nat) (op : TrOp) (rd a b : Nat) : TrRes :=
  match op with
  | .wait => s.trWait t rd a
  | .rxf => s.trRxf t a b
  | .txf => s.trTxf t rd a
  | .dma => s.trDma t a
  | .claim => s.trClaim t a
  | .put => s.trPut t a b
  | .commit => s.trCommit t a
  | .recv => s.trRecv t a
  | .drop => s.trDrop t a

/-- An instruction of the extension on a thread, its operands read first (R426). -/
def State.trExec (s : State) (t : Nat) (op : TrOp) (rd rs1 rs2 : Nat) : State :=
  let r := s.trRun t op rd ((s.thread t).reg rs1) ((s.thread t).reg rs2)
  (s.trBreak t op r).trEnd t op rd r

/-- A waiting tr.txf finds buffer space and returns (R430). -/
def State.txfDone (s : State) (t : Nat) : State :=
  match (s.thread t).txf with
  | none => s
  | some (rd, direct, b) =>
    if s.bufferFree < wireLen b ∨ !s.domOn domPIPE ∨ !s.fclkOn then s
    else
      let s := (s.threadSend t direct b).withThread t fun x => { x with txf := none }
      if (s.thread t).run = .running then s.trEnd t .txf rd (.ok 0 s) else s

/-- ttimer as it reads (Table 14-2). -/
def State.timerLeft (s : State) (t : Nat) : Nat :=
  match (s.thread t).timer with
  | some e => e - s.flow.fclkNs
  | none => 0

/-- A write to ttimer (Table 14-2); a value above 2^31 − 1 is outside its range and changes nothing. -/
def State.timerWrite (s : State) (t n : Nat) : State :=
  if n = 0 then s.withThread t fun x => { x with timer := none }
  else if n < 2 ^ 31 then s.withThread t fun x => { x with timer := some (s.flow.fclkNs + n) }
  else s

/-- FCLK cycles since the clock switch (R416): 1.6 a nanosecond. -/
def State.fclkCycles (s : State) : Nat := s.flow.fclkNs * 8 / 5 % 2 ^ 64

/-- A CSR exists for the thread, and may be written (Table 14-2, R416). -/
def State.csrAccess (s : State) (t num : Nat) : Option Bool :=
  let delivery := s.deliveryThread (t / 8) == t
  match num with
  | 0xC00 | 0xC01 | 0xC02 | 0xC80 | 0xC81 | 0xC82 | 0xCC0 | 0xCC1 | 0xCC2 | 0xCC3 | 0xCC4 => some false
  | 0x8C0 | 0x8C2 | 0x8C3 => some true
  | 0x8C8 => if delivery then some false else none
  | 0x8C9 => if delivery then some true else none
  | _ => none

/-- The record of a CSR read that the recorder keeps (R447). -/
def State.csrRecord (s : State) (t num v : Nat) : State := s.peatRecord 4 t (leBytes 2 num ++ zeros 2 ++ leBytes 8 v)

/-- A CSR read, with its effect and its record (Table 14-2, R447, R455). -/
def State.csrRead (s : State) (t num : Nat) : Nat × State :=
  let x := s.thread t
  match num with
  | 0xC00 => (s.fclkCycles % 2 ^ 32, s.csrRecord t num (s.fclkCycles % 2 ^ 32))
  | 0xC80 => (s.fclkCycles / 2 ^ 32, s.csrRecord t num (s.fclkCycles / 2 ^ 32))
  | 0xC01 => (s.time.ns % 2 ^ 32, s.csrRecord t num (s.time.ns % 2 ^ 32))
  | 0xC81 => (s.time.ns / 2 ^ 32 % 2 ^ 32, s.csrRecord t num (s.time.ns / 2 ^ 32 % 2 ^ 32))
  | 0xC02 => (x.instret % 2 ^ 32, s)
  | 0xC82 => (x.instret / 2 ^ 32, s)
  | 0xCC0 => (t, s)
  | 0xCC1 => (s.threadInst t, s)
  | 0xCC2 => ((s.threadGroup t).getD 0xFFFF, s)
  | 0xCC3 => (x.tcause, s)
  | 0xCC4 => (x.dmadone, (s.withThread t fun x => { x with dmadone := 0 }).csrRecord t num x.dmadone)
  | 0x8C0 => (b2n x.share, s)
  | 0x8C2 => (s.timerLeft t, s.csrRecord t num (s.timerLeft t))
  | 0x8C8 =>
    let (w, s) := s.egClaimOp (1 + t / 8)
    (w, s.csrRecord t num w)
  | _ => (0, s)

/-- A CSR written (Table 14-2, R456). -/
def State.csrWrite (s : State) (t num v : Nat) : State :=
  match num with
  | 0x8C0 => s.withThread t fun x => { x with share := bit v 0 }
  | 0x8C2 => s.timerWrite t v
  | 0x8C3 => s.withThread t fun x => { x with petAt := s.flow.fclkNs }
  | 0x8C9 => s.egEoiOp (1 + t / 8) (v % 1024)
  | _ => s

/-- A Zicsr instruction. -/
def State.csrExec (s : State) (t f3 num rd rs1 : Nat) (npc : Nat) : State :=
  let writes := f3 % 4 == 1 || rs1 != 0
  let reads := f3 % 4 != 1 || rd != 0
  match s.csrAccess t num with
  | none => s.threadFault t 1
  | some w =>
    if writes && !w then s.threadFault t 1
    else
      let src := if f3 < 4 then (s.thread t).reg rs1 else rs1
      let (old, s) := if reads then s.csrRead t num else (0, s)
      let new := match f3 % 4 with
        | 1 => src
        | 2 => Nat.lor old src
        | _ => old - Nat.land old src
      let s := if writes then s.csrWrite t num new else s
      (s.withThread t fun x => x.setReg rd old).retire t npc 1

/-- A value of a load, extended (RV32I). -/
def extend (width : Nat) (signed : Bool) (v : Nat) : Nat := if signed then ofInt 32 (toInt (8 * width) v) else v

/-- A register of a thread is written. -/
def State.putReg (s : State) (t rd v : Nat) : State := s.withThread t fun x => x.setReg rd v

/-- One decoded instruction of `len` bytes executed by a thread (R411–R416, R426, R428, R439). -/
def State.rvExec (s : State) (t : Nat) (op : RvOp) (len : Nat) : State :=
  let x := s.thread t
  let npc := x.pc + len
  let at_ (base : Nat) (off : Int) : Nat := ofInt 32 ((base : Int) + off)
  match op with
  | .illegal => s.threadFault t 1
  | .nop => s.retire t npc 1
  | .ecall => s.threadFault t 6
  | .ebreak =>
    if s.dget 0x3C10 2 = 1 then s.withThread t fun x => { x with halted := true } else s.threadFault t 7
  | .lui rd imm => (s.putReg t rd imm).retire t npc 1
  | .auipc rd imm => (s.putReg t rd (at_ x.pc imm)).retire t npc 1
  | .jal rd off => (s.putReg t rd npc).retire t (at_ x.pc off) 1
  | .jalr rd rs1 off => (s.putReg t rd npc).retire t (at_ (x.reg rs1) off / 2 * 2) 1
  | .branch c rs1 rs2 off => s.retire t (if c.holds (x.reg rs1) (x.reg rs2) then at_ x.pc off else npc) 1
  | .load w sg rd rs1 off =>
    let a := at_ (x.reg rs1) off
    match s.threadLoad t a w with
    | .fault c => s.threadFault t c
    | .stall => s
    | .value v shared =>
      let v := extend w sg v
      let s := if shared then s.peatRecord 3 t (leBytes 4 a ++ leBytes 4 v) else s
      (s.putReg t rd v).retire t npc 1
  | .store w rs1 rs2 off =>
    let a := at_ (x.reg rs1) off
    if a % w ≠ 0 then s.threadFault t 5
    else if !inSlice a w then s.threadFault t 4
    else if touches x.draining a w then s
    else (s.withThread t fun y => y.sliceWrite a (leBytes w (x.reg rs2))).retire t npc 1
  | .aluImm op rd rs1 imm => (s.putReg t rd (op.eval (x.reg rs1) (ofInt 32 imm))).retire t npc op.slots
  | .alu op rd rs1 rs2 => (s.putReg t rd (op.eval (x.reg rs1) (x.reg rs2))).retire t npc op.slots
  | .csr f3 num rd rs1 => s.csrExec t f3 num rd rs1 npc
  | .tr op rd rs1 rs2 => s.trExec t op rd rs1 rs2

/-- The instruction at a thread's pc (Table 14-1): none where it may not be fetched. -/
def State.threadFetch (s : State) (t : Nat) : Option (RvOp × Nat) :=
  let pc := (s.thread t).pc
  let m := (s.fcore (t / 8)).imem
  if 0x10000 < pc + 2 then none
  else
    let h := leNat (Mem.readN m pc 2)
    if h % 4 ≠ 3 then some (decode16 h, 2)
    else if 0x10000 < pc + 4 then none
    else some (decode32 (leNat (Mem.readN m pc 4)), 4)

/-- A thread issues one instruction. -/
def State.threadStep (s : State) (t : Nat) : State :=
  if !s.threadIssues t then s
  else match s.threadFetch t with
    | none => s.threadFault t 2
    | some (op, len) => s.rvExec t op len

/-- The receive copy ends: its bytes are in the slice, RXDONE is pending (R429). -/
def State.copyDone (s : State) (t : Nat) : State :=
  match (s.thread t).copy with
  | none => s
  | some (o, b) =>
    (s.withThread t fun x => { (x.sliceWrite (sliceBase + o) b) with copy := none, rxdone := true }).peatFill t (sliceBase + o) b

/-- A thread DMA ends (R431). -/
def State.dmaEnd (s : State) (t tag : Nat) : State :=
  match (s.thread t).dmas.find? fun d => d.tag == tag with
  | none => s
  | some d =>
    let s := if d.outward then
        s.withDram fun m => m.writeN d.addr (Mem.readN (s.thread t).slice d.slice d.len)
      else
        let b := s.dram.readN d.addr d.len
        (s.withThread t fun x => x.sliceWrite (sliceBase + d.slice) b).peatFill t (sliceBase + d.slice) b
    s.withThread t fun x => { x with
      dmas := x.dmas.filter (· != d)
      dmadone := setBit x.dmadone tag true
      dmaPend := true }

/-- The 64 steering entries over a list of threads (R421). -/
def steeringOf (l : List Nat) : List Nat := if l.isEmpty then [] else (List.range 64).map fun i => l.getD (i % l.length) 0

/-- A group starts (R419 START): its threads at ENTRY, its spares parked, its steering filled; event 518. -/
def State.groupStart (s : State) (g cause : Nat) : State :=
  let x := s.groupOf g
  let l := maskList x.threads
  let s : State := l.foldl (fun s i => s.threadStart (8 * x.core + i) x.entry cause) s
  let s : State := (maskList x.spares).foldl (fun s i => s.withThread (8 * x.core + i) fun y => { y with
    run := .spare
    halted := false
    wait := none }) s
  (s.withGroup g fun y => { y with
    st := 2
    steering := steeringOf l
    active := l.map fun i => (i, byteAt y.weights i)
    toStandby := false
    stalled := false
    resume := false
    after := .stay }).event 518

/-- A group stop begins (R420): its threads stop, their claims are released, their own channels are emptied; what follows the
stop is kept. -/
def State.groupStop (s : State) (g : Nat) (after : AfterStop) : State :=
  let x := s.groupOf g
  let ts := (maskList x.members).map (8 * x.core + ·)
  let s : State := ts.foldl (fun s t => (s.claimsRelease t).withThread t fun y => { y with
    run := if y.run = .faulted then .faulted else .parked
    halted := false
    wait := none
    handling := false }) s
  let s : State := ts.foldl (fun s t => s.withChannel t fun c => { c with msgs := [] }) s
  s.withGroup g fun y => { y with st := 3, after := after }

/-- Nothing that a group's threads began is still in flight (R420). -/
def State.groupQuiet (s : State) (g : Nat) : Bool :=
  let x := s.groupOf g
  (maskList x.members).all fun i =>
    let y := s.thread (8 * x.core + i)
    y.copy.isNone && y.dmas.isEmpty && y.txf.isNone

/-- A group stop ends (R420): STOPPED, event 518, and the start that was to follow. -/
def State.groupStopped (s : State) (g : Nat) : State :=
  let x := s.groupOf g
  if x.st = 3 ∧ s.groupQuiet g then
    let s := (s.withGroup g fun y => { y with st := 1, after := .stay }).event 518
    match x.after with
    | .start c => if (s.inst x.inst).st = .active then s.groupStart g c else s
    | .stay => s
  else s

/-- A group command of Table 14-3, answered (R419). -/
def State.groupCommand (s : State) (g cmd : Nat) : Status × State :=
  let x := s.groupOf g
  match cmd with
  | 1 => if x.st = 1 ∧ (s.inst x.inst).st = .active then (.ok, s.groupStart g 1) else (.notInThisState, s)
  | 2 => if x.st = 2 then (.ok, s.groupStop g .stay) else (.notInThisState, s)
  | 3 => if x.st = 2 then (.ok, s.groupStop g (.start 4)) else (.notInThisState, s)
  | 4 => if x.st = 1 then (.ok, s.withGroup g fun _ => Group.reset) else (.notInThisState, s)
  | _ => (.outOfRange, s)

/-- A restart asked by the group's own instance (R449). -/
def State.groupRestartOwn (s : State) (n g : Nat) : Status × State :=
  let x := s.groupOf g
  if x.st = 0 ∨ x.inst ≠ n then (.notYourInstance, s)
  else if x.st = 2 then (.ok, s.groupStop g (.start 6))
  else (.notInThisState, s)

/-- A group for its instance's quiesce: stopped, to be started at the resume (R420). -/
def State.quiesceGroups (s : State) (n : Nat) : State :=
  s.flow.groups.foldl (fun (s : State) kv =>
    if kv.2.inst = n ∧ kv.2.st = 2 then (s.groupStop kv.1 .stay).withGroup kv.1 fun y => { y with resume := true } else s) s

/-- RESUME_INSTANCE starts each group that was RUNNING (R420). -/
def State.resumeGroups (s : State) (n : Nat) : State :=
  s.flow.groups.foldl (fun (s : State) kv =>
    if kv.2.inst = n ∧ kv.2.resume then
      if kv.2.st = 1 then s.groupStart kv.1 1 else s.withGroup kv.1 fun y => { y with after := .start 1, resume := false }
    else s) s

/-- Payload of a STALL_DETECTED entry for a thread (R438). -/
def State.stallPayload (s : State) (t : Nat) : Bytes :=
  let x := s.thread t
  let c := s.claimOf t
  leBytes 4 x.pc ++ leBytes 1 ((x.wait.map Prod.fst).getD 0) ++ leBytes 1 (s.waitPending t) ++ leBytes 2 (c.getD 0xFFFF)
    ++ leBytes 1 ((c.map fun c => (s.channel c).staged.length).getD 0) ++ leBytes 1 (s.threadState t) ++ leBytes 2 t

/-- The conditions of R437 hold for a group now. -/
def State.groupStalls (s : State) (g : Nat) : Bool :=
  let x := s.groupOf g
  let ts := (maskList x.members).map (8 * x.core + ·)
  let awake := ts.filter fun t => !(s.thread t).halted && (s.thread t).run != .spare && (s.thread t).run != .faulted
  x.st == 2 && x.stallAction != 3 && !x.stalled && s.fclkOn && s.coreUp x.core && !awake.isEmpty
    && awake.all (fun t => match (s.thread t).wait with
        | some (m, _) => Nat.land m (s.waitPending t) == 0 && Nat.land m 0x31 == 0
        | none => false)
    && s.groupQuiet g

/-- The stall detector's report and what the firmware does (R437, R438). -/
def State.stall (s : State) (g : Nat) : State :=
  if !s.groupStalls g then s
  else
    let x := s.groupOf g
    let s := ((s.withGroup g fun y => { y with stalled := true, stalls := (y.stalls + 1) % 2 ^ 32 }).dinc 0x3800 4).dinc (blk x.inst 0x2C) 4
    let s := s.eventLog 512 .error Status.stallDetected.code (leBytes 2 g)
    let s : State := (maskList x.members).foldl (fun s i =>
      s.logSrc 512 .error Status.stallDetected.code (s.stallPayload (8 * x.core + i))) s
    match x.stallAction with
    | 1 => s.groupStop g (.start 4)
    | 2 => s.groupStop g .stay
    | _ => s

/-- Steering and queued frames of a thread pass to others: the entries as they now stand, the frames by their entries. -/
def State.queueMove (s : State) (g t : Nat) : State :=
  let x := s.groupOf g
  let q := (s.thread t).rxq
  let s := s.withThread t fun y => { y with rxq := [] }
  q.foldl (fun (s : State) f =>
    match x.steering[f.hash % 64]? with
    | some i => s.withThread (8 * x.core + i) fun y => { y with rxq := y.rxq ++ [f] }
    | none => s) s

/-- The delivery thread of a core changes, or its holder does (R446, R462): the target's stack is emptied. -/
def State.deliveryClear (s : State) (c : Nat) : State := s.withGatherer fun g => g.empty (1 + c)

/-- A thread that faulted is replaced or restarted (R440): the stack of its target is emptied where it is a delivery thread (R462). -/
def State.deliveryFault (s : State) (t : Nat) : State :=
  if s.deliveryThread (t / 8) = t then s.deliveryClear (t / 8) else s

/-- Spare takeover (R440, step 2). -/
def State.takeover (s : State) (g t spare : Nat) : State :=
  let x := s.groupOf g
  let i := t % 8
  let s := s.withGroup g fun y => { y with
    steering := y.steering.map fun k => if k = i then spare else k
    active := y.active.map fun a => if a.1 = i then (spare, a.2) else a }
  (((s.queueMove g t).threadStart (8 * x.core + spare) x.entry 3).dinc 0x3800 6).event 513

/-- The faulted thread leaves its group's steering (R440, step 4). -/
def State.steeringSpread (s : State) (g t : Nat) : State :=
  let rest := ((s.groupOf g).active).filter fun a => a.1 != t % 8
  let s := s.withGroup g fun y => { y with active := rest, steering := steeringOf (rest.map Prod.fst) }
  s.queueMove g t

/-- THREAD_FAULT_HANDLING (R440). -/
def State.faultHandle (s : State) (t : Nat) : State :=
  let x := s.thread t
  if !x.handling ∨ x.run ≠ .faulted then s
  else
    let n := s.threadInst t
    let s := (s.logSrc (480 + t / 8) .error Status.threadFault.code
      (leBytes 2 t ++ leBytes 1 x.faultCause ++ leBytes 4 x.pc)).withThread t fun y => { y with handling := false }
    let s := (s.dinc 0x3800 5).dinc (blk n 0x2C) 3
    match s.threadGroup t with
    | none => s
    | some g =>
      let y := s.groupOf g
      let s := s.withGroup g fun z => { z with faultCount := (z.faultCount + 1) % 2 ^ 32 }
      if y.st ≠ 2 ∨ !(y.active.any fun a => a.1 == t % 8) then s
      else match (maskList y.spares).find? fun i => (s.thread (8 * y.core + i)).run == .spare && !(s.thread (8 * y.core + i)).halted with
        | some i => (s.takeover g t i).deliveryFault t
        | none => if x.faults.length < y.faultLimit then (s.threadStart t y.entry 2).deliveryFault t else s.steeringSpread g t

/-- A thread as its core's release leaves it (R417): at address 0, x1–x31 zero, its CSRs at their reset values. -/
def Thread.released (x : Thread) : Thread :=
  { Thread.reset with run := .running, slice := x.slice, rxq := x.rxq, instret := x.instret }

/-- Every thread of a core starts at address 0 (R417). -/
def State.coreRelease (s : State) (c cause : Nat) : State :=
  let s := s.withCore c fun x => { x with st := 1 }
  (upFrom (8 * c) 8).foldl (fun (s : State) t => (s.withThread t Thread.released).threadStart t 0 cause) s

/-- The threads of a core lose what they did: claims and waits gone. -/
def State.coreStop (s : State) (c : Nat) (run : ThreadRun) : State :=
  (upFrom (8 * c) 8).foldl (fun (s : State) t => (s.claimsRelease t).withThread t fun x => { x with
    run := run
    wait := none
    txf := none
    copy := none
    dmas := []
    handling := false }) s

/-- The queued frames of a group dropped (R442). -/
def State.queuesDrop (s : State) (g : Nat) : State :=
  let y := s.groupOf g
  (maskList y.members).foldl (fun (s : State) i => s.withThread (8 * y.core + i) fun x => { x with rxq := [] }) s

/-- A core fault (R442): its threads stop, groups pass to their standbys, the reload begins. -/
def State.coreFault (s : State) (c : Nat) : State :=
  if !s.coreUp c then s
  else
    let s := ((s.coreStop c .parked).withCore c fun x => { x with st := 2 }).event 514
    s.flow.groups.foldl (fun (s : State) kv =>
      if kv.2.st = 2 ∧ kv.2.core = c then
        let s := s.withGroup kv.1 fun x => { x with resume := true }
        if kv.2.standby = 0xFFFF then s
        else (((s.queuesDrop kv.1).withGroup kv.1 fun x => { x with toStandby := true }).dinc 0x3800 6).event 515
      else s) s

/-- The instruction memory of a core from the staging copies (R75): FLOW_IMAGE sections of the core. -/
def State.coreImage (s : State) (c : Nat) : Mem :=
  s.boot.flowStage.foldl (fun (m : Mem) f => if !f.isData ∧ bit f.mask c then m.writeN f.dest f.data else m) []

/-- The slices of a core from the staging copies (R75): FLOW_DATA sections of the core, slices cut from one 256 KiB image. -/
def State.coreData (s : State) (c : Nat) : Mem :=
  s.boot.flowStage.foldl (fun (m : Mem) f => if f.isData ∧ bit f.mask c then m.writeN f.dest f.data else m) []

/-- A core loaded from its staging copies, its threads released (R75, R417). -/
def State.coreLoad (s : State) (c cause : Nat) : State :=
  let m := s.coreImage c
  let d := s.coreData c
  let s := s.withCore c fun x => { x with imem := m }
  let s : State := (upFrom 0 8).foldl (fun s i => s.withThread (8 * c + i) fun x => { x with
    slice := (d.filter fun kv => kv.1 / 0x8000 == i).map fun kv => (kv.1 % 0x8000, kv.2) }) s
  s.coreRelease c cause

/-- A core whose sections do not match stays stopped (R75, R442): its groups stay with their standbys, or drop their
frames. -/
def State.coreFailed (s : State) (c : Nat) : State :=
  let s := ((s.coreStop c .parked).withCore c fun x => { x with st := 3 }).logCls 13 .critical Status.measureMismatch.code []
  s.flow.groups.foldl (fun (s : State) kv =>
    if kv.2.core = c ∧ kv.2.st = 2 ∧ !kv.2.toStandby then
      (s.queuesDrop kv.1).withGroup kv.1 fun x => { x with steering := [] }
    else s) s

/-- A core reload ends (R442). -/
def State.coreReloaded (s : State) (c : Nat) (ok : Bool) : State :=
  if (s.fcore c).st ≠ 2 then s
  else
    let s := (s.dinc 0x3800 7).dinc (0x3840 + c) 0x0C
    if ok then
      let s := (s.coreLoad c 0).deliveryClear c
      s.flow.groups.foldl (fun (s : State) kv =>
        if kv.2.core = c ∧ kv.2.resume ∧ kv.2.st = 2 then s.groupStart kv.1 1 else s) s
    else s.coreFailed c

/-- A debugger halts a thread at an instruction boundary (R443). -/
def State.debugHalt (s : State) (t : Nat) : State :=
  if t < 256 ∧ s.coreUp (t / 8) ∧ (s.thread t).run ≠ .off then s.withThread t fun x => { x with halted := true } else s

/-- A debugger resumes a thread (R443). -/
def State.debugResume (s : State) (t : Nat) : State :=
  if (s.thread t).halted then s.withThread t fun x => { x with halted := false, petAt := s.flow.fclkNs } else s

/-- A halted thread's claim is force-released (R444, R515). -/
def State.forceRelease (s : State) (t : Nat) : State :=
  if !(s.thread t).halted then s
  else match s.claimOf t with
    | none => s
    | some _ => (((s.claimsRelease t).dinc 0x3800 8).event 517).peatBreak t 1

/-- The holder of a core's delivery thread changes (R446): sources routed there are disabled and cleared, the stack emptied. -/
def State.deliveryHolder (s : State) (c : Nat) : State :=
  let g := s.eg
  let mine := (List.range 640).filter fun n => n != 0 && (g.route n).target == 1 + c
  let g := mine.foldl (fun (g : Gatherer) n =>
    { g with src := g.src.put n { (g.route n) with priority := 0 }, pending := g.pending.del n }) g
  (s.withGatherer fun _ => g.empty (1 + c))

/-- Threads change hands (R446, R414): the slices' sharing ends; a delivery thread's target is cleared. -/
def State.threadsMoved (s : State) (l : List Nat) : State :=
  l.foldl (fun (s : State) t =>
    let s := s.withThread t fun x => { x with share := false }
    if s.deliveryThread (t / 8) = t then s.deliveryHolder (t / 8) else s) s

end Sys2Proof.Machine
end

