-- ==== Sys2Proof/Machine/LogOps.lean ====
section
/-! DEFINITION. What the entries and timers of the ash log, the alarms and the peat recorder do (R472–R493): clears, summaries, export,
acknowledgements, modes of the recorder, checkpoints, the window and the check of an image. -/

namespace Sys2Proof.Machine

/-- The LOG_CLEARED entry (R477): it bypasses the filter and the bucket. -/
def State.logCleared (s : State) (n : Nat) : State :=
  s.ashTake ⟨s.time.ns, 0xFFFF, 4, 15, 0x80F1, 0, 0, leBytes 4 n⟩ true

/-- CLEAR = 1 (R477, R479): the log and the backlogs empty, what was queued is an overrun, SEQ restarts. -/
def State.logClear (s : State) : State :=
  let n := s.ash.log.length
  let s := s.ash.log.foldl (fun (s : State) e => s.ashOverrun e.seq) s
  (s.withAsh fun a => { a with log := [], back0 := [], back1 := [], back2 := [], nextSeq := 1 }).logCleared n

/-- CLEAR = 2 (R477). -/
def State.fokClear (s : State) : State :=
  let n := s.ash.fok.length
  (s.withAsh fun a => { a with fok := [], fokFull := false }).logCleared n

/-- One token for a class's bucket, up to its burst (R472). -/
def State.tokenGain (s : State) (c : Nat) : State :=
  s.withAsh fun a => { a with tokens := a.tokens.put c (min (s.dget 0x3A02 (c + 1)) (s.ashTokens c + 1)) }

/-- The summary of a class's interval (R473). -/
def State.summary (s : State) (c : Nat) : State :=
  match s.ash.interval.get? c with
  | none => s
  | some iv =>
    let s := s.withAsh fun a => { a with interval := a.interval.del c }
    s.ashTake ⟨s.time.ns, 0xFFFF, 4, c, 0x80F0, 0, 0,
      leBytes 4 iv.refused ++ leBytes 2 iv.first ++ leBytes 2 iv.last ++ leBytes 1 iv.worst ++ zeros 3⟩ true

/-- The boundary of the 10 ms grid (R473): every class with refusals in the interval. -/
def State.summaries (s : State) : State := (List.range 16).foldl State.summary s

/-- The first n entries of a path's backlog, and the state with them sent (R478, SENT). -/
def State.backlogTake (s : State) (p n : Nat) : List AshEntry × State :=
  let l := (s.ash.backlog p).take n
  let es := l.filterMap fun q => s.ash.log.find? fun e => e.seq == q
  (es, (s.withAsh fun a => a.setBacklog p ((a.backlog p).drop n)).dadd (0x3A20 + p) 8 es.length)

/-- The bytes of entries. -/
def entriesBytes (l : List AshEntry) : Bytes := (l.map AshEntry.bytes).flatten

/-- A read of PULL (Table 16-5): up to 128 of the oldest backlog entries of path 0, removed. -/
def State.exportPull (s : State) : Bytes × State :=
  let (l, s) := s.backlogTake 0 128
  (entriesBytes l, s)

/-- One push datagram of the UDP path (R480, R481), where it may send. -/
def State.udpPush (s : State) : State :=
  if !s.awake ∨ !s.domOn domPIPE ∨ s.kiln.pf.isSome ∨ s.dget 0x1040 1 = 0 ∨ s.dget 0x3A21 9 = 0 ∨ s.ash.back1.isEmpty then s
  else
    let (l, s) := s.backlogTake 1 32
    let off := (l.head?.map (·.seq)).getD 0
    let s := s.emit (.datagram (s.dget 0x3A21 9) (s.dget 0x3A21 0x0B) (s.dget 0x1040 4)
      (onsiaBytes 0x85 0 s.ash.pushSeq 0x3A21 0 0 0 off (entriesBytes l)))
    (s.withAsh fun a => { a with pushSeq := (a.pushSeq + 1) % 0x10000 })

/-- One frame of the CAN path (R480, R481): two entries, the second zero when only one remains. -/
def State.canExport (s : State) : State :=
  if !s.awake ∨ s.dget 0x3A22 9 = 0 ∨ s.ash.back2.isEmpty then s
  else
    let (l, s) := s.backlogTake 2 2
    s.emit (.canFrame (s.dget 0x3A22 0x0B) (s.dget 0x3A22 9) (padTo 64 (entriesBytes l)))

/-- An acknowledgement of alarm k (R483): it acts on a RAISED alarm only. -/
def State.alarmAck (s : State) (k : Nat) : State :=
  if s.dget (0x3A40 + k) 10 = 1 then
    ((s.dset (0x3A40 + k) 9 (s.dget (0x3A40 + k) 5)).dset (0x3A40 + k) 5 0).dset (0x3A40 + k) 10 0
  else s

/-- Every alarm acknowledged (R483). -/
def State.ackAll (s : State) : State := (List.range 128).foldl State.alarmAck s

/-- ALARM_INHIBIT has passed since the last frame of alarm k (R484). -/
def State.inhibitOver (s : State) (k : Nat) : State :=
  let al := s.ash.alarms.getD k ⟨0, 0, false⟩
  if !al.inhibit then s
  else
    let s := s.withAsh fun a => { a with alarms := a.alarms.put k { al with inhibit := false } }
    if s.dget (0x3A40 + k) 10 = 1 ∧ s.dget (0x3A40 + k) 5 ≠ al.sentCount then s.sendAlarm k else s

/-- Alarms RAISED now. -/
def State.alarmsRaised (s : State) : Nat := ((List.range 128).filter fun k => s.dget (0x3A40 + k) 10 == 1).length

/-- The architectural state of a thread in a checkpoint (R490): x1–x31, pc, tshare, ttimer, tgroup, tinst, tcause, the armed mask. -/
def State.checkpointState (s : State) (t : Nat) : Bytes :=
  let x := s.thread t
  padTo 160 (((upFrom 1 31).map fun i => leBytes 4 (x.reg i)).flatten ++ leBytes 4 x.pc ++ leBytes 4 (b2n x.share)
    ++ leBytes 4 (s.timerLeft t) ++ leBytes 4 ((s.threadGroup t).getD 0xFFFF) ++ leBytes 4 (s.threadInst t)
    ++ leBytes 4 x.tcause ++ leBytes 4 ((x.wait.map Prod.fst).getD 0))

/-- One CHECKPOINT record (R490): number, state, memory, CRC-32C. -/
def State.checkpointRecord (s : State) (hart number : Nat) (st memory : Bytes) : State :=
  let b := leBytes 8 number ++ st ++ memory
  s.peatRecord 1 hart (b ++ leBytes 4 (crc32c b))

/-- The threads recorded (R486), lowest first. -/
def State.recordedThreads (s : State) : List Nat := (List.range 256).filter s.peatRecorded

/-- A checkpoint of every recorded hart under one number (R490); the hearth's registers are free. -/
def State.peatCheckpoint (s : State) (hearthMemory : Bytes) : State :=
  if !s.peatOn then s
  else
    let k := s.peat.nextCheckpoint
    let size := 16 + ceilDiv (8 + 160 + hearthMemory.length + 4) 16 * 16
    let (regs, s) := s.drawBytes 160
    let s := s.checkpointRecord hearthHart k regs hearthMemory
    let s := s.withPeat fun p => { p with
      nextCheckpoint := k + 1
      checkpoints := p.checkpoints ++ [(p.writeOff - size, k)] }
    s.recordedThreads.foldl (fun (s : State) t => s.checkpointRecord t k (s.checkpointState t) (Mem.readN (s.thread t).slice 0 0x8000)) s

/-- A write of MODE (R487): 0 stops recording; 1 or 2 discards any record and starts with a checkpoint of every recorded hart. The
hearth's 512 KiB of memory are free. -/
def State.peatMode (s : State) (m : Nat) : State :=
  let s := s.dset 0x3B00 1 m
  let s := s.withPeat fun p => { p with postLeft := none, triggered := false }
  if m = 0 then s.dset 0x3B00 3 0
  else
    let s := (s.dset 0x3B00 3 1).withPeat fun p => { p with
      writeOff := 4096
      wraps := 0
      checkpoints := []
      nextCheckpoint := 0
      triggerSeq := 0 }
    let (m, s) := s.drawBytes 0x80000
    s.peatCheckpoint m

/-- The end of the post-trigger share, or a full one-shot region, as the recorder finds it (R491). -/
def State.peatFreezeNow (s : State) : State :=
  if s.dget 0x3B00 3 = 2 then (s.withPeat fun p => { p with postLeft := none }).peatFreeze
  else if s.dget 0x3B00 3 = 1 ∧ s.dget 0x3B00 1 = 2 then (s.dset 0x3B01 6 0).peatFreeze
  else s

/-- The check of an image in the region (R494). -/
def State.imageCheck (s : State) : Status :=
  let h := s.dram.readN s.peatBase 4096
  if leAt h 0 4 ≠ 0x54414550 ∨ leAt h 4 2 ≠ 1 then .fieldInvalid
  else if leAt h 4092 4 ≠ crc32c (h.take 4092) then .checkMismatch
  else if sub h 16 48 ≠ padTo 48 (s.dbytes 0x2200 7) then .measureMismatch
  else .ok

/-- A read of the peat WINDOW (R493): 4,096 bytes at OFFSET, fewer where the region ends. -/
def State.peatWindow (s : State) : Bytes :=
  s.dram.readN (s.peatBase + s.dget 0x3B10 1) (min 4096 (s.peatSize - s.dget 0x3B10 1))

/-- A write of the peat WINDOW (R493): the status, and the state after it. -/
def State.peatWindowWrite (s : State) (b : Bytes) : Status × State :=
  if b.length ≠ 4096 then (.lengthMismatch, s)
  else if s.peatSize < s.dget 0x3B10 1 + 4096 then (.outOfRange, s)
  else if s.dget 0x3B00 1 ≠ 0 then (.notInThisState, s)
  else
    let s := s.withDram fun m => m.writeN (s.peatBase + s.dget 0x3B10 1) b
    (.ok, s.dset 0x3B02 2 s.imageCheck.code)

/-- The WINDOW of the ash log (R476): up to 128 entries in SEQ order from the first whose SEQ is at least WINDOW_SEQ. -/
def State.ashWindow (s : State) : Bytes :=
  entriesBytes ((s.ash.log.filter fun e => decide (s.dget 0x3A10 1 ≤ e.seq)).take 128)

/-- FIRST_OF_KIND (Table 16-14): 128 places of the table, free ones zero. -/
def State.fokWindow (s : State) (k : Nat) : Bytes := padTo 4096 (entriesBytes ((s.ash.fok.drop (128 * k)).take 128))

end Sys2Proof.Machine
end

