-- ==== Sys2Proof/Machine/ReplayOps.lean ====
section
/-! DEFINITION. The replayer of Chapter 16 (R494–R496) for the recorded threads: the records of an image, a thread loaded from its
checkpoint, one instruction under replay, divergence. The hearth's replay needs the mask ROM, which the manual does not give. -/

namespace Sys2Proof.Machine

/-- A record of the region (Table 16-10), with the offset of what follows it. -/
structure PeatRec where
  type : Nat
  hart : Nat
  icount : Nat
  data : Bytes
  next : Nat

/-- The record at an offset; what follows a PAD, or the region's last place, is the first record place. -/
def State.recordAt (s : State) (off : Nat) : PeatRec :=
  let h := s.dram.readN (s.peatBase + off) 16
  let len := leAt h 4 4
  let next := off + 16 + ceilDiv len 16 * 16
  ⟨byteAt h 0, leAt h 2 2, leAt h 8 8, s.dram.readN (s.peatBase + off + 16) len,
    if byteAt h 0 = 0 ∨ s.peatSize ≤ next + 15 then 4096 else next⟩

/-- WRITE_OFFSET and OLDEST_CHECKPOINT of the image's header (Table 16-12). -/
def State.imageEnd (s : State) : Nat := leAt (s.dram.readN s.peatBase 4096) 120 8

/-- OLDEST_CHECKPOINT. -/
def State.imageOldest (s : State) : Nat := leAt (s.dram.readN s.peatBase 4096) 128 8

/-- The next record, from an offset on, that a predicate picks; no more are passed than the region has bytes. -/
def State.seek (s : State) (p : PeatRec → Bool) : Nat → Nat → Option PeatRec
  | 0, _ => none
  | f + 1, off =>
    if off = s.imageEnd then none
    else
      let r := s.recordAt off
      if p r then some r else s.seek p f r.next

/-- A record that hart t meets: its own, but for PAUSE and RESUME, or the TRIGGER. -/
def PeatRec.meets (t : Nat) (r : PeatRec) : Bool := (r.hart == t && r.type != 10 && r.type != 11 && r.type != 0) || r.type == 9

/-- The next record of hart t. -/
def State.nextRecord (s : State) (t : Nat) : Option PeatRec :=
  s.seek (PeatRec.meets t) s.peatSize (s.peat.replayPos.getD t 4096)

/-- Hart t is past a record. -/
def State.recordTaken (s : State) (t : Nat) (r : PeatRec) : State :=
  s.withPeat fun p => { p with replayPos := p.replayPos.put t r.next }

/-- Every hart of the replayer halts (R496). -/
def State.replayHalt (s : State) : State := s.withPeat fun p => { p with replayHalted := true }

/-- REPLAY_DIVERGED with the hart and its ICOUNT (R496). -/
def State.replayDiverge (s : State) (t : Nat) : State :=
  (s.withPeat fun p => { p with diverged := some (t, p.icount.getD t 0) }).replayHalt

/-- A thread loaded from a CHECKPOINT record (R490, R495). -/
def State.replayLoad (s : State) (t : Nat) (r : PeatRec) : State :=
  let b := sub r.data 8 160
  let s := s.withThread t fun x => { x with
    run := .running
    halted := true
    pc := leAt b 124 4
    regs := []
    share := bit (leAt b 128 4) 0
    tcause := leAt b 144 4
    wait := none
    txf := none
    copy := none
    dmas := []
    slice := Mem.writeN [] 0 (sub r.data 168 0x8000) }
  let s := (upFrom 1 31).foldl (fun (s : State) i => s.withThread t fun x => x.setReg i (leAt b (4 * i - 4) 4)) s
  (s.withPeat fun p => { p with icount := p.icount.put t r.icount }).recordTaken t r

/-- The recorded threads handed to the replayer at the oldest checkpoint (R494, R495). -/
def State.replayBegin (s : State) : State :=
  s.recordedThreads.foldl (fun (s : State) t =>
    match s.seek (fun r => r.hart == t && r.type == 1) s.peatSize s.imageOldest with
    | some r => s.replayLoad t r
    | none => s.withThread t fun x => { x with halted := true }) s

/-- A later checkpoint agrees with a thread: registers, pc, tshare and the slice (R496). -/
def State.checkpointAgrees (s : State) (t : Nat) (r : PeatRec) : Bool :=
  sub (s.checkpointState t) 0 132 == sub r.data 8 132 && Mem.readN (s.thread t).slice 0 0x8000 == sub r.data 168 0x8000

/-- What the records bring before the hart's next instruction (R495, R496): FILL pieces, restarts, checkpoints to compare, the ends
of the span. -/
def State.replayFeed (s : State) (t : Nat) : Nat → State
  | 0 => s
  | f + 1 =>
    if s.peat.replayHalted then s
    else match s.nextRecord t with
      | none => s.replayHalt
      | some r =>
        if r.type = 9 then s.replayHalt
        else if s.peat.icount.getD t 0 < r.icount then s
        else match r.type with
          | 1 => if s.checkpointAgrees t r then State.replayFeed (s.recordTaken t r) t f else s.replayDiverge t
          | 6 =>
            let a := leAt r.data 0 4
            State.replayFeed ((s.withThread t fun x => x.sliceWrite a (r.data.drop 4)).recordTaken t r) t f
          | 7 => State.replayFeed ((s.threadStart t (leAt r.data 4 4) (byteAt r.data 0)).recordTaken t r) t f
          | 8 => s.replayHalt
          | 2 => s.replayDiverge t
          | _ => s

/-- The value of the next record, which must be of a type and begin with some bytes (R496); otherwise the replay diverges. -/
def State.takeRecord (s : State) (t type : Nat) (first : Bytes) (off len : Nat) : Option (Nat × State) :=
  match s.nextRecord t with
  | some r =>
    if r.type = type ∧ r.hart = t ∧ r.data.take first.length = first then some (leAt r.data off len, s.recordTaken t r) else none
  | none => none

/-- An instruction of the extension under replay: recorded results come from the record, what would leave the thread is discarded. -/
def State.replayTr (s : State) (t : Nat) (op : TrOp) (rd rs1 rs2 : Nat) : State :=
  let x := s.thread t
  let a := x.reg rs1
  if op.recorded ∧ !(op = .wait ∧ a = 0) then
    match s.takeRecord t 5 (leBytes 1 op.code.2 ++ leBytes 1 op.code.1 ++ zeros 2) 4 4 with
    | none => s.replayDiverge t
    | some (v, s) =>
      let s := if op = .claim ∧ v = 0 then s.withChannel a fun c => { c with claimant := some t, staged := [] } else s
      (s.withThread t fun x => x.setReg rd v).retire t (x.pc + 4) 1
  else match op with
    | .wait => s.withThread t fun x => { x with run := .parked }
    | .put => s.trEnd t op rd (s.trPut t a (x.reg rs2))
    | .drop => s.trEnd t op rd (s.trDrop t a)
    | .commit =>
      if !s.holds t a then s.trEnd t op rd (.fail .notInThisState)
      else if (s.channel a).staged.isEmpty then s.trEnd t op rd (.fail .fieldInvalid)
      else s.trEnd t op rd (.ok 0 (s.withChannel a fun c => { c with claimant := none, staged := [] }))
    | .dma =>
      match s.trDma t a with
      | .ok _ _ =>
        let (k, s) := s.drawBits 2
        s.trEnd t op rd (.ok k s)
      | r => s.trEnd t op rd r
    | .txf =>
      match s.trTxf t rd a with
      | .fail st => s.trEnd t op rd (.fail st)
      | _ => s.trEnd t op rd (.ok 0 s)
    | _ => s

/-- The CSRs whose reads the record supplies (Table 16-9). -/
def csrRecorded (num : Nat) : Bool := [0xC00, 0xC80, 0xC01, 0xC81, 0xCC4, 0x8C2, 0x8C8].contains num

/-- A Zicsr instruction on a recorded CSR under replay. -/
def State.replayCsr (s : State) (t f3 num rd rs1 npc : Nat) : State :=
  if (s.csrAccess t num).isNone ∨ (f3 % 4 = 1 ∧ rd = 0) then s.csrExec t f3 num rd rs1 npc
  else match s.takeRecord t 4 (leBytes 2 num) 4 8 with
    | none => s.replayDiverge t
    | some (v, s) => (s.withThread t fun x => x.setReg rd v).retire t npc 1

/-- One instruction of a recorded thread under replay (R495). -/
def State.replayStep (s : State) (t : Nat) : State :=
  if !s.peat.replay ∨ s.peat.replayHalted ∨ !s.recordedThreads.contains t ∨ (s.thread t).halted then s
  else
    let s := s.replayFeed t s.peatSize
    let x := s.thread t
    if s.peat.replayHalted ∨ x.run ≠ .running then s
    else match s.threadFetch t with
      | none => s.threadFault t 2
      | some (op, len) =>
        match op with
        | .tr op rd rs1 rs2 => s.replayTr t op rd rs1 rs2
        | .csr f3 num rd rs1 =>
          if csrRecorded num then s.replayCsr t f3 num rd rs1 (x.pc + len) else s.rvExec t op len
        | .load w sg rd rs1 off =>
          let a := ofInt 32 ((x.reg rs1 : Int) + off)
          if 0x11000000 ≤ a ∧ a + w ≤ 0x11040000 ∧ a % w = 0 then
            match s.takeRecord t 3 (leBytes 4 a) 4 4 with
            | none => s.replayDiverge t
            | some (v, s) => (s.withThread t fun x => x.setReg rd (extend w sg v)).retire t (x.pc + len) 1
          else s.rvExec t op len
        | _ => s.rvExec t op len

end Sys2Proof.Machine
end

