-- ==== Sys2Proof/Machine/Work.lean ====
section
/-! DEFINITION. What is in flight, the votes it makes for the power domains (Chapter 4), and how commands end that their block does not
end itself: refused by a lost domain or host access, aborted, abandoned. -/

namespace Sys2Proof.Machine

/-- The opcode is one of the storage service's (Tables 9-7 and 9-9). -/
def storageOp (op : Nat) : Bool := (decide (0x20 ≤ op) && decide (op ≤ 0x27)) || storageIo op

/-- The opcode is a cipher job's, a key command's or a check job's (Tables 11-4, 11-9, 11-13). -/
def cipherOp (op : Nat) : Bool := decide (0x60 ≤ op) && decide (op ≤ 0x82)

/-- The opcode is one of packet I/O's or of the table's (Tables 12-5 and 12-7). -/
def pipeOp (op : Nat) : Bool := decide (0x90 ≤ op)

/-- A fetched command with such an opcode is in flight. -/
def State.opInFlight (s : State) (p : Nat → Bool) : Bool := s.q.ctxs.any fun c => p c.op

/-- A kiln stream is open (R96). -/
def State.kilnOpenAny (s : State) : Bool := s.kiln.streams.any fun kv => kv.2.bound

/-- A kiln stream is open, or being opened: it needs its domains. -/
def State.kilnWork (s : State) : Bool := s.kiln.streams.any fun kv => kv.2.bound || kv.2.openTag.isSome

/-- An evidence queue holds a command (R96). -/
def State.evidenceBusy (s : State) : Bool :=
  s.q.sqs.any fun kv => kv.2.cls == 1 &&
    (kv.2.head != kv.2.tail || s.q.ctxs.any fun c => c.fn == kv.1 / 65536 && c.queue == kv.1 % 65536)

/-- A command is in flight, or a fetch (Table 4-6, step 2; R104: a completion in the reserve or held counts as posted). -/
def State.commandsInFlight (s : State) : Bool := !s.q.ctxs.isEmpty || s.q.sqs.any fun kv => kv.2.fetchTag.isSome

/-- The kiln's staging store is empty (Table 4-3). -/
def State.stagingEmpty (s : State) : Bool := s.stagedAll == 0

/-- The root ports whose SSD is attached. -/
def State.attachedSsds (s : State) : List Nat := [0, 1].filter fun p => (s.port p).st == 2 || (s.port p).st == 5

/-- The power-fail sequence runs. -/
def State.pfRuns (s : State) : Bool := s.kiln.pf.isSome

/-- A port of the domain; any port for PIPE. -/
def domainPort (d p : Nat) : Bool := d == domPIPE || portDomain p == d

/-- The ports with a property in a domain. -/
def domainPortAny (d : Nat) (f : Nat → Bool) : Bool := (List.range 20).any fun p => domainPort d p && f p

/-- TIME: an 802.1AS role is active (Table 4-4). -/
def State.voteTime (s : State) (d : Nat) : Bool :=
  (d == domPIPE || d == domTRUNK || d == domEDGE) && domainPortAny d fun p => s.ptpRole p != 0

/-- PORTS: an enabled port. -/
def State.votePorts (s : State) (d : Nat) : Bool :=
  (d == domPIPE || d == domTRUNK || d == domEDGE) && domainPortAny d fun p => s.dget (pIdx p 0) 1 == 1

/-- FLOW: a group of a core of the domain is assigned. -/
def State.voteFlow (s : State) (d : Nat) : Bool :=
  s.flow.groups.any fun kv => kv.2.st != 0 && (d == domPIPE || d == domDRAM || 2 + kv.2.core / 8 == d)

/-- CIPHER_JOB: a cipher or check job is in flight, or an engine is locked. -/
def State.voteCipher (s : State) (d : Nat) : Bool :=
  d == domCIPHER && (!s.cipher.locks.isEmpty || !s.cipher.jobs.isEmpty || !s.cipher.checks.isEmpty || s.opInFlight cipherOp)

/-- STORAGE: a namespace is attached, or a storage command is in flight. -/
def State.voteStorage (s : State) (d : Nat) : Bool :=
  d == domSTOR && (!s.stor.jobs.isEmpty || s.opInFlight storageOp
    || s.stor.ns.any fun kv => (s.port kv.2.port).st == 2 || (s.port kv.2.port).st == 5)

/-- KILN: a kiln stream is open; the domain of each kiln ingress port of R134. -/
def State.voteKiln (s : State) (d : Nat) : Bool :=
  ((d == domKILN || d == domCIPHER || d == domSTOR || d == domPIPE) && s.kilnWork)
    || s.kiln.streams.any fun kv => kv.2.bound && kv.2.ports.any fun p => portDomain p == d

/-- WORKQ: an enabled queue needs the domain for its work: PIPE for packet I/O and table commands, DRAM for buffers there. -/
def State.voteWorkq (s : State) (d : Nat) : Bool :=
  (d == domPIPE && (!s.pipe.binds.isEmpty || s.opInFlight pipeOp))
    || (d == domDRAM && (s.q.ctxs.any Ctx.usesDram || s.pipe.binds.any fun kv => kv.2.area.any fun a => a.1))

/-- A domain's vote register (R98, Table 4-4, R523). -/
def State.votes (s : State) (d : Nat) : Nat :=
  let v (b : Bool) (i : Nat) : Nat := if b then 2 ^ i else 0
  v (fixedDomain d) 31 + v (s.dget 0x3C10 2 == 1) 11 + v (s.voteTime d) 10
    + v (d == domDRAM && s.peatOn) 9
    + v ((d == domPIPE || d == domTRUNK) && ((s.ring 0).on || (s.ring 1).on)) 8
    + v (s.votePorts d) 7 + v (s.voteFlow d) 6 + v (s.voteCipher d) 5 + v (s.voteStorage d) 4 + v (s.voteKiln d) 3
    + v (s.voteWorkq d) 2 + v (s.dget (0x2010 + d) 2 == 1) 1
    + v (d == domSTOR && [0, 1].any fun p => (s.port p).st == 1 || (s.port p).st == 5) 0

/-- What waits of a command anywhere in the blocks is taken away, a storage job that an SSD has excepted: that one goes on and serves
nobody. -/
def State.unqueue (s : State) (n q t : Nat) : State :=
  let same (a b c : Nat) : Bool := a == n && b == q && c == t
  let s := s.withCipher fun c => { c with keyWaits := c.keyWaits.filter fun w => !same w.fn w.queue w.tag }
  let s := s.withTable fun x => { x with waits := x.waits.filter fun w => !same w.fn w.queue w.tag }
  let s := s.withPipe fun p => { p with sends := p.sends.filter fun v => !same v.fn v.queue v.tag }
  (s.stor.jobs.filter fun j => j.owner == .command n q t).foldl (fun (s : State) j =>
    if j.next = 0 then s.dropJob j.id else s.withJob j.id fun x => { x with owner := .service, blocks := x.next }) s

/-- A command in flight ends with a status that its block did not choose (R524, Table 4-13). -/
def State.endCommand (s : State) (n q t : Nat) (st : Status) : State :=
  match s.cjob? n q t with
  | some j => s.cipherEnd j st 0
  | none =>
    match s.cipher.checks.find? fun j => j.fn == n && j.queue == q && j.tag == t with
    | some j => s.checkEnd j st 0 0
    | none =>
      let stor := s.stor.jobs.any fun j => j.owner == .command n q t
      let s := s.unqueue n q t
      if stor then s.storEnd n q t st else s.complete n q t st

/-- The command whose host access failed ends (R524). -/
def State.hostFailure (s : State) (n q t : Nat) (st : Status) : State := s.endCommand n q t st

/-- Data of a command's tracked read: only a cipher job leaves its reads outstanding. -/
def State.hostData (s : State) (n q t i : Nat) (b : Bytes) : State := s.cipherData n q t i b

/-- A command needs a domain for its work. -/
def Ctx.needs (c : Ctx) (d : Nat) : Bool :=
  (d == domSTOR && storageOp c.op) || (d == domCIPHER && cipherOp c.op) || (d == domPIPE && pipeOp c.op) || (d == domDRAM && c.usesDram)

/-- A domain that did not come up: the work that waits for it completes with INTERNAL_FAULT (Table 4-13). -/
def State.domainFailed (s : State) (d : Nat) : State :=
  (s.q.ctxs.filter fun c => c.needs d).foldl (fun (s : State) c => s.endCommand c.fn c.queue c.tag .internalFault) s

/-- A waiting cipher job is caught (R336). -/
def State.abortCipher (s : State) (c : Ctx) : Option State :=
  match s.cjob? c.fn c.queue c.tag with
  | some j => if j.on.isNone then some ((s.dropCJob c.fn c.queue c.tag).complete c.fn c.queue c.tag .aborted) else none
  | none => none

/-- A check job is caught before its first slice or between two (R335): one whose slice runs is, if another is still to come. -/
def State.abortCheck (s : State) (c : Ctx) : Option State :=
  match s.cipher.checks.find? fun j => j.fn == c.fn && j.queue == c.queue && j.tag == c.tag with
  | some j =>
    let d := kjSrc c.entry
    if j.unit.isNone || (!d.list && decide (j.done + 0x100000 < d.len)) then
      some (((s.withCipher fun x => { x with checks := x.checks.filter (· != j) }).complete c.fn c.queue c.tag .aborted).checkAssign 8)
    else none
  | none => none

/-- A command of packet I/O or of the table that waits is caught (R207). -/
def State.abortWaiting (s : State) (c : Ctx) : Option State :=
  let same (a b t : Nat) : Bool := a == c.fn && b == c.queue && t == c.tag
  if (s.pipe.sends.any fun v => same v.fn v.queue v.tag) || s.pipe.table.waits.any fun w => same w.fn w.queue w.tag then
    some ((s.unqueue c.fn c.queue c.tag).complete c.fn c.queue c.tag .aborted)
  else none

/-- ABORT of a command that has started: the state after it, if its block can still end it (R207, R208, R267, R335, R336). -/
def State.abortStarted (s : State) (c : Ctx) : Option State :=
  (s.storageAbort c.fn c.queue c.tag).orElse fun _ =>
    (s.abortCipher c).orElse fun _ => (s.abortCheck c).orElse fun _ => s.abortWaiting c

/-- Every engine abandons the commands of an instance (R173, R230): they are gone, but for those that an SSD has. -/
def State.abandon (s : State) (n : Nat) : State :=
  let s := s.storageAbandon n
  let s := s.withCipher fun c => { c with keyWaits := c.keyWaits.filter fun w => w.fn != n }
  let s := (s.cipher.jobs.filter fun j => j.fn == n).foldl (fun (s : State) j => s.dropCJob j.fn j.queue j.tag) s
  let s := (s.withCipher fun c => { c with checks := c.checks.filter fun j => j.fn != n }).checkAssign 8
  let s := (s.withTable fun t => { t with waits := t.waits.filter fun w => w.fn != n }).vpDrop n
  if n ≠ 0 then s
  else
    let gone (o : Option Nat) : Option Nat := o.map fun _ => 0x10000
    let s := s.withKiln fun k => { k with streams := k.streams.map fun kv =>
      (kv.1, { kv.2 with openTag := gone kv.2.openTag, closeTag := gone kv.2.closeTag }) }
    s.withStor fun x => { x with ports := x.ports.map fun kv =>
      (kv.1, { kv.2 with attach := gone kv.2.attach, detach := gone kv.2.detach }) }

/-- The commands of a function that still have a host access to make and can make none (R171). -/
def State.accessLost (s : State) (n : Nat) : State := s.storageAccessLost n

/-- What an instance held locked is released: engines and table handles (R230, R312, R364). -/
def State.locksRelease (s : State) (n : Nat) : State := (s.enginesRelease n).tblRelease n

/-- A CQ is named by a kiln stream or a receive binding (R205). -/
def State.cqNamed (s : State) (n q : Nat) : Bool :=
  (s.kiln.streams.any fun kv => kv.2.bind == 1 && kv.2.bindFn == n && kv.2.bindCq == q)
    || ((s.vpBind? n).map fun b => b.cqid == q).getD false

/-- The stream that names a CQ of the instance (Table 8-5). -/
def State.kilnNames (s : State) (n : Nat) : Option Nat :=
  (s.kiln.streams.find? fun kv => kv.2.bind == 1 && kv.2.bindFn == n).map (·.1)

/-- Bindings to CQs that are going: those of kiln streams and of the VP (R302, R367). -/
def State.bindingsVoid (s : State) (n : Nat) : State := (s.bindingsVoidOf n).vpUnbind n

/-- Threads of an instance run, or are still stopping. -/
def State.threadsRun (s : State) (n : Nat) : Bool := s.flow.groups.any fun kv => kv.2.inst == n && (kv.2.st == 2 || kv.2.st == 3)

/-- The groups of an instance keep no start for its return to ACTIVE (R233, R234: only RESUME_INSTANCE starts groups). -/
def State.resumeForgotten (s : State) (n : Nat) : State :=
  s.withFlow fun f => { f with groups := f.groups.map fun kv =>
    (kv.1, if kv.2.inst = n then { kv.2 with resume := false, after := .stay } else kv.2) }

/-- The groups of an instance become UNUSED with it (Table 8-1: its threads return to the pool). -/
def State.groupsGone (s : State) (n : Nat) : State :=
  s.withFlow fun f => { f with groups := f.groups.map fun kv => (kv.1, if kv.2.inst = n then Group.reset else kv.2) }

/-- A thread is assigned to a group. -/
def State.threadGrouped (s : State) (t : Nat) : Bool := (s.threadGroup t).isSome

/-- The shadows that a function's mailbox holds are discarded, but one whose commit waits for its apply (R57). -/
def State.shadowsDrop (s : State) (n : Nat) : State :=
  let waits (g : Nat) : Bool := (s.svc.commit.map fun c => c.1 == g).getD false
  let left := s.svc.shadows.keep fun g x => x.holder != Requester.mailbox n || waits g
  (s.withSvc fun k => { k with shadows := left })

/-- The shadow of the block of an instance is discarded (R233). -/
def State.shadowDropBlock (s : State) (n : Nat) : State :=
  if (s.svc.commit.map fun c => c.1 == 0x100 + n).getD false then s
  else s.withSvc fun k => { k with shadows := k.shadows.del (0x100 + n) }

/-- The mailbox of a function forgets what it asked (R40): requests that wait are dropped, a commit that waits is answered to nobody. -/
def State.mailboxForget (s : State) (n : Nat) : State :=
  let held := s.svc.held.filter fun r => r.who != Requester.mailbox n
  let commit := s.svc.commit.map fun c => if c.2.who = Requester.mailbox n then (c.1, { c.2 with route := .discard }) else c
  (s.withSvc fun k => { k with held := held, commit := commit })

/-- A slot of a range holds a key, or the vault does. -/
def State.keysHeld (s : State) (a n : Nat) : Bool :=
  s.cipher.keys.any fun kv => decide (a ≤ kv.1) && decide (kv.1 < a + n)

/-- The slots of a range emptied (R223). -/
def State.keysClear (s : State) (a n : Nat) : State :=
  (upFrom a n).foldl (fun (s : State) k =>
    if (s.slot? k).isSome ∨ (s.cipher.vault.get? k).isSome then s.slotGone k else s) s

/-- The meters of a range at their default (R223). -/
def State.metersClear (s : State) (a n : Nat) : State :=
  s.withPipe fun p => { p with meters := p.meters.keep fun k _ => !(decide (a ≤ k) && decide (k < a + n)) }

/-- The slices of threads zeroed (R223). -/
def State.slicesClear (s : State) (l : List Nat) : State :=
  l.foldl (fun (s : State) t => if (s.thread t).slice.isEmpty then s else s.withThread t fun x => { x with slice := [] }) s

/-- Namespaces on attached SSDs that an instance owns (R252). -/
def State.nsAttached (s : State) (n : Nat) : Nat :=
  (s.stor.ns.filter fun kv => kv.2.owner == n && ((s.port kv.2.port).st == 2 || (s.port kv.2.port).st == 5)).length

end Sys2Proof.Machine
end

