-- ==== Sys2Proof/Machine/Resets.lean ====
section
/-! DEFINITION. What a start clears and keeps (Chapters 3 and 16), what the hearth firmware sets up at READY, and what blocks do when the
device is Banked or a power domain comes and goes (Chapter 4). -/

namespace Sys2Proof.Machine

/-- The entries that a start keeps (R31): 0x3C11 is counted since AO power-on, 0x3A00–0x3AFF are kept by causes 3 and 4. -/
def dictKept (keep : Bool) (d : DictStore) : DictStore :=
  d.keep fun k _ => k / 256 == 0x3C11 || (keep && decide (0x3A00 ≤ k / 256) && decide (k / 256 ≤ 0x3AFF))

/-- Domain time and its rate start again; the slow count and elapsed time go on (R27, R29). -/
def TimeBase.started (t : TimeBase) : TimeBase := { TimeBase.reset with slow := t.slow, slowFrac := t.slowFrac, elapsed := t.elapsed }

/-- What of the power state is the main supplies' (R102): domains, drains and what the firmware waits for. -/
def Power.started (p : Power) (keep : Bool) : Power := { p with
  domains := []
  ssdWait := []
  egressDraining := false
  ignTimer := false
  ignRetry := false
  ignWaiting := false
  thermalTrip := false
  heldStart := if keep then p.heldStart else none
  vsenseLow := false }

/-- A function over a core reset (R65): its configuration space and link state stay, its BAR0 registers go. -/
def Fn.coreReset (x : Fn) : Fn := { x.barCleared with tags := [], hold := false, flr := none }

/-- The cipher blocks at a start: the vault is the NOR's. -/
def Cipher.started (c : Cipher) : Cipher := { Cipher.reset with vault := c.vault, copy := c.copy, vaultSeq := c.vaultSeq }

/-- A start of a cause (R64, R65, R468, R492): a core reset keeps the link, configuration space, the ash log and LPDDR5; what lies in
AO is kept by every start. -/
def State.startBase (s : State) (cause : Nat) : State :=
  let keep := cause == 3 || cause == 4
  { s with
    dict := dictKept keep s.dict
    time := s.time.started
    eg := Gatherer.reset
    ash := if keep then s.ash else Ash.reset
    peat := Peat.reset
    boot := { Boot.reset with
      sealOk := s.boot.sealOk
      bootLen := if keep then s.boot.bootLen else 0 }
    pow := s.pow.started keep
    damper := Damper.reset
    host := if keep then s.host else HostLink.reset
    fns := if keep then s.fns.map fun kv => (kv.1, kv.2.coreReset) else []
    q := Queues.reset
    insts := []
    stor := Storage.reset
    kiln := { Kiln.reset with pfail := s.kiln.pfail }
    cipher := s.cipher.started
    pipe := Pipe.reset
    flow := Flow.reset
    dbg := Dbg.reset
    svc := Svc.reset
    dram := if keep then s.dram else []
    lastFire := [] }

/-- The link and every function's configuration lost with the supplies or the main reset (Tables 4-5 and 3-1). -/
def State.hostLinkLost (s : State) : State := { s with host := HostLink.reset, fns := [] }

/-- The record of instance 0 at READY (R522, Table 8-11). -/
def recordZero : Bytes :=
  leBytes 2 256 ++ leBytes 2 256 ++ leBytes 4 8192 ++ leBytes 2 2048 ++ leBytes 2 0 ++ leBytes 2 256 ++ leBytes 1 4 ++ leBytes 1 64
    ++ zeros 32 ++ leBytes 4 0 ++ leBytes 4 0 ++ leBytes 4 65536 ++ leBytes 2 0 ++ leBytes 2 256 ++ leBytes 1 1 ++ zeros 3
    ++ leBytes 4 0 ++ leBytes 8 (2 ^ 64 - 1) ++ zeros 48

/-- Instance 0 exists from READY on (R522, R50). -/
def State.instanceZero (s : State) : State :=
  ((s.withInst 0 fun _ => { Inst.none_ with st := .active, record := recordZero }).dset 0x2140 1 1).dset 0x1FC0 1 (2 ^ 64 - 1)

/-- The header of a frozen record of k MiB at the top of LPDDR5 (R492, Table 16-12). -/
def State.frozenHeader (s : State) (k : Nat) : Option Bytes :=
  let h := s.dram.readN ((Config.dramMib - k) * 0x100000) 4096
  if leAt h 0 4 = 0x54414550 ∧ leAt h 4 2 = 1 ∧ leAt h 96 4 = k ∧ byteAt h 100 = 3 ∧ leAt h 4092 4 = crc32c (h.take 4092) then some h
  else none

/-- After a core reset a frozen record keeps its region size from its header, overriding the default (R492). -/
def State.peatRecover (s : State) : State :=
  if s.boot.cause = 3 ∨ s.boot.cause = 4 then
    match (upFrom 4 253).findSome? fun k => (s.frozenHeader k).map fun h => (k, h) with
    | some (k, h) =>
      (((s.dset 0x3B00 2 k).dset 0x3B00 3 3).dset 0x3B01 5 (leAt h 104 8)).dset 0x3B01 6 (byteAt h 101)
    | none => s
  else s

/-- The vaulted keys wait for the restore (R331); in RETIRED nothing is restored. -/
def State.vaultWaits (s : State) : State :=
  s.withCipher fun c => { c with
    restore := true
    keys := if s.sealStore.lifecycle = 2 then [] else c.vault.map fun kv => (kv.1, { kv.2 with restoring := true }) }

/-- What the hearth firmware has set up when READY sets (R94, R119, R522, R331, R492, Table 9-2). -/
def State.firmwareReady (s : State) : State :=
  (((s.instanceZero.peatRecover.damperFresh).vaultWaits).attachStart 0).attachStart 1

/-- The cores are loaded and released (R75, R86): every core measured good. -/
def State.loadCores (s : State) : State := (List.range 32).foldl (fun (s : State) c => s.coreLoad c 0) s

/-- Frames in the egress queues dropped at an entry, counted in 0x2000:07 (Table 4-6). -/
def State.dropEgressFrames (s : State) : State :=
  (List.range 20).foldl (fun (s : State) p =>
    let x := s.egPort p
    let n := sumNat (x.queues.map fun kv => kv.2.length)
    if n = 0 ∧ x.control.isEmpty then s
    else (s.withEg p fun y => { y with queues := [], control := [], deficit := [], visiting := false, busy := false }).dadd 0x2000 7 n) s

/-- The other frames of the packet buffer are dropped too: receive queues, and what a steering hold keeps (Table 4-5). -/
def State.dropBuffered (s : State) : State :=
  let s := s.withFlow fun f => { f with threads := f.threads.map fun kv => (kv.1, { kv.2 with rxq := [] }) }
  s.withPipe fun p => { p with rings := p.rings.map fun kv => (kv.1, { kv.2 with held := [] }) }

/-- Every port's link goes down. -/
def State.linksDown (s : State) : State := (List.range 20).foldl (fun (s : State) p => s.portDown p) s

/-- Peat recording pauses at a Banked entry (R487). -/
def State.peatPause (s : State) : State :=
  let s := s.peatRecord 10 hearthHart []
  if s.peatOn then s.dset 0x3B00 3 4 else s

/-- Peat recording goes on after Banked. -/
def State.peatResume (s : State) : State :=
  if s.dget 0x3B00 3 = 4 then (s.dset 0x3B00 3 (if s.peat.postLeft.isSome then 2 else 1)).peatRecord 11 hearthHart [] else s

/-- The link's stay in L1 is counted. -/
def State.l1Counted (s : State) : State :=
  if s.host.aspm = .l1 ∨ s.host.aspm = .l11 ∨ s.host.aspm = .l12 then s.dadd 0x2301 7 (s.time.elapsed - s.host.l1Since) else s

/-- The host link enters L1.2 for Banked or Ember (R159): the LTR message with both requirement bits clear first. -/
def State.hostLinkL12 (s : State) : State :=
  if !s.host.up then s
  else
    let s := if s.cfg 0 .ltrEnable = 1 ∧ !s.host.ltrClear then
        (s.emit (.pcieMessage 0x10 0)).withHost fun h => { h with ltrClear := true } else s
    if s.host.aspm = .l12 then s else s.l1Counted.enterL1

/-- The device starts the L1.2 exit (Table 4-7, step 7). -/
def State.hostLinkL0 (s : State) : State := if s.host.up then s.hostActivity else s

/-- PFAIL (R303): the power-fail sequence begins; the ports go down with forwarding (Table 10-11). -/
def State.pfailTaken (s : State) : State :=
  if s.kiln.stopped ∨ !s.boot.ready ∨ !s.awake then s else s.pfStart.linksDown

/-- Contents that a domain loses as it goes off in Glow (Table 4-3). -/
def State.domainLost (s : State) (d : Nat) : State :=
  if 2 ≤ d ∧ d ≤ 5 then
    (upFrom (8 * (d - 2)) 8).foldl (fun (s : State) c =>
      let s := (s.coreStop c .off).withCore c fun _ => FlowCore.reset
      (upFrom (8 * c) 8).foldl (fun (s : State) t =>
        (s.withThread t fun _ => Thread.reset).withChannel t fun _ => Channel.reset) s) s
  else if d = domPIPE then
    ((List.range 20).foldl (fun (s : State) p => s.egressFlush p) s).dropBuffered
  else s

/-- What a domain brings up (Table 4-3): FLOWC reloads its cores, those listed passing their measure (R75); TRUNK's rings return
(R377). -/
def State.domainPoweredUp (s : State) (d : Nat) (good : List Nat) : State :=
  if 2 ≤ d ∧ d ≤ 5 then
    (upFrom (8 * (d - 2)) 8).foldl (fun (s : State) c =>
      (if good.contains c then s.coreLoad c 5 else s.coreFailed c).deliveryClear c) s
  else if d = domTRUNK then s.zeludReturn
  else s

end Sys2Proof.Machine
end

