-- ==== Sys2Proof/Machine/BootOps.lean ====
section
/-! DEFINITION. Start-up (Chapter 3): reset release, the checks of the ROM and of the kindling, the seal-store commands, READY, the core
reset. -/

namespace Sys2Proof.Machine

/-- RESET_RELEASE (R64, R66, Table 3-2): the internal main reset is released, the mask ROM runs on FIRC and reads the
seal store. The link trains from Detect; host-wait follows at HOST_LINK_UP. -/
def State.resetRelease (s : State) : State :=
  let cause := s.pow.nextCause
  let wake := s.boot.wakeSrc
  let pins := s.pow.wakePins
  let s := s.startBase cause
  let s := s.withBoot fun b => { b with
    phase := 0, code := 0, detail := 0, attempts := 0, cause := cause
    wakeSrc := if cause = 2 then wake else 0, wakePins := if cause = 2 then pins else 0
    ready := false, windowOpen := false, sealWord := s.sealStore.word }
  let s := if s.pow.hostWake then (s.withPow fun p => { p with hostWake := false }).pin "HOST_WAKE_N" true else s
  s.withPow fun p => { p with st := .starting, mainReset := false, nextCause := 1, trans := 0, stage := 0,
                              wakeKept := false, egressDraining := false }

/-- The link has trained: the ROM opens the boot window and the device is in host-wait (Table 3-2, steps 4 and 5). -/
def State.enterHostWait (s : State) : State :=
  if s.boot.phase = 0 ∧ s.pow.st = .starting ∧ s.pow.mainReset = false then
    s.withBoot fun b => { b with phase := 2, windowOpen := true }
  else s

/-- CORE_RESET (R65): cause 3 or 4. BOOT_STATUS keeps its code, detail and count; the device reaches host-wait. -/
def State.coreReset (s : State) (cause : Nat) : State :=
  let s := s.peatTrigger 4 0
  let old := s.boot
  let s := s.startBase cause
  let s := s.withBoot fun b => { b with
    phase := 2, windowOpen := true, ready := false, cause := cause, wakeSrc := 0, wakePins := 0
    code := old.code, detail := old.detail, attempts := old.attempts, sealWord := s.sealStore.word
    sealOk := old.sealOk }
  s.withPow fun p => { p with st := .starting, trans := 0, stage := 0, egressDraining := false }

/-- IMAGE_REFUSAL (R77): back to host-wait with the code and detail of Table 3-13, ATTEMPTS one higher. -/
def State.imageRefusal (s : State) (st : Status) (detail : Nat) : State :=
  s.withBoot fun b => { b with
    phase := 2, windowOpen := true, code := st.code, detail := detail, attempts := min 15 (b.attempts + 1), bundle := none }

/-- A manifest entry (Table 3-11). -/
structure ManifestEntry where
  type : Nat
  mask : Nat
  offset : Nat
  len : Nat
  dest : Nat
  hash : Bytes
  reservedZero : Bool
deriving DecidableEq, Repr, Inhabited

/-- Entry i of the manifest in a bundle. -/
def manifestEntry (b : Bytes) (i : Nat) : ManifestEntry :=
  let e := sub b (256 + 16 + 80 * i) 80
  ⟨byteAt e 0, leAt e 4 4, leAt e 8 4, leAt e 12 4, leAt e 16 4, sub e 32 48,
   allZero (sub e 1 3) && allZero (sub e 20 12)⟩

/-- Two ranges overlap. -/
def rangesMeet (a la b lb : Nat) : Bool := decide (a < b + lb) && decide (b < a + la) && decide (0 < la) && decide (0 < lb)

/-- A section type whose destination is hearth SRAM (Table 3-12). -/
def sramType (t : Nat) : Bool := t == 1 || t == 2 || t == 5 || t == 8

/-- What entry i breaches by itself (R73, Table 3-12). -/
def entryBreach (e : ManifestEntry) (i crcOff manifestLen : Nat) : Bool :=
  !e.reservedZero || e.type == 0 || decide (8 < e.type) || (e.type != 3 && e.type != 4 && e.mask != 0)
  || e.offset % 256 != 0 || decide (e.offset < 256 + manifestLen) || decide (crcOff < e.offset + e.len)
  || ((i == 0) != (e.type == 1))
  || (e.type == 1 && (decide (e.len < 0x1000) || decide (0x40000 < e.len)))
  || (sramType e.type && decide (0x80000 < e.dest + e.len))
  || (e.type == 3 && decide (0x10000 < e.dest + e.len))
  || (e.type == 4 && decide (0x40000 < e.dest + e.len))
  || (e.type == 6 && decide (0x200000 < e.dest + e.len))
  || (e.type == 7 && e.len != 0x40000)
  || (e.type == 8 && (decide (e.len < 64) || decide (512 < e.len) || e.len % 64 != 0))

/-- What an entry breaches together with an earlier one: an overlap, or a second section of a type there is one of. -/
def pairBreach (a b : ManifestEntry) : Bool :=
  rangesMeet a.offset a.len b.offset b.len
  || (sramType a.type && sramType b.type && rangesMeet a.dest a.len b.dest b.len)
  || (a.type == 3 && b.type == 3 && (a.mask &&& b.mask) != 0)
  || (a.type == 4 && b.type == 4 && (a.mask &&& b.mask) != 0 && rangesMeet a.dest a.len b.dest b.len)
  || (a.type == b.type && (a.type == 5 || a.type == 6 || a.type == 7 || a.type == 8))

/-- The bytes of SRAM sections, and of one core's FLOW_DATA, up to entry i exceed their limit. -/
def sumBreach (es : List ManifestEntry) (i : Nat) : Bool :=
  let upto := es.take (i + 1)
  let e := es.getD i default
  (sramType e.type && decide (0x80000 < sumNat ((upto.filter fun x => sramType x.type).map (·.len))))
  || (e.type == 4 && (List.range 32).any fun c =>
      bit e.mask c && decide (0x40000 < sumNat ((upto.filter fun x => x.type == 4 && bit x.mask c).map (·.len))))

/-- The kindling's check of the manifest: none, or the DETAIL of the breach (R73, Table 3-13). -/
def manifestCheck (b : Bytes) : Option Nat :=
  let count := leAt b 18 2
  let mlen := leAt b 24 4
  let crcOff := leAt b 28 4
  if count = 0 ∨ 64 < count ∨ mlen ≠ 16 + 80 * count ∨ leAt b 260 2 ≠ count ∨ !(allZero (sub b 262 10)) then some 0xFF
  else
    let es := (List.range count).map (manifestEntry b)
    match (List.range count).find? fun i =>
        let e := es.getD i default
        entryBreach e i crcOff mlen || (es.take i).any (fun a => pairBreach a e) || sumBreach es i with
    | some i => some i
    | none =>
      let cover := es.foldl (fun m e => if e.type = 3 then m ||| e.mask else m) 0
      if !(es.any fun e => e.type == 5) ∨ cover ≠ 0xFFFFFFFF then some 0xFF else none

/-- What the ROM finds (R76, Table 3-13): a refusal with its DETAIL, or the slot that verified. -/
def romCheck (s : State) (b : Bytes) : Except (Status × Nat) Nat :=
  let len := s.boot.bootLen
  let crcOff := leAt b 28 4
  let n := ceilDiv crcOff 65536
  let tbl := sub b crcOff (4 * n)
  let key := sub b 48 96
  let kh := sha384Hash key
  let hits := (List.range 4).filter fun k => s.sealStore.hashes.get? k == some kh
  let slot := (hits.find? (bit s.sealStore.revoked)) <|> hits.head?
  if !s.boot.sealOk then .error (.internalFault, 0x30)
  else if len ≠ leAt b 8 4 ∨ len < 4096 ∨ 16777216 < len then .error (.lengthMismatch, 0)
  else if leAt b 0 4 ≠ 0x4C444E4B ∨ leAt b 4 2 ≠ 1 ∨ leAt b 6 2 ≠ 0x100 ∨ leAt b 12 4 ≠ 0x960 ∨ leAt b 20 4 ≠ 0x100
      ∨ leAt b 256 4 ≠ 0x5453464D ∨ 0x20 < byteAt b 17 ∨ crcOff % 4 ≠ 0 ∨ 256 < n ∨ len ≠ crcOff + 4 * n + 4 then
    .error (.fieldInvalid, 0)
  else if leAt b (crcOff + 4 * n) 4 ≠ crc32c tbl then .error (.crcTableBad, 0)
  else match (List.range n).find? fun i =>
      leAt tbl (4 * i) 4 != crc32c (sub (b.take crcOff) (65536 * i) 65536) with
  | some i => .error (.bundleCrcBad, i)
  | none =>
    match slot with
    | none => .error (.keyUnknown, 0)
    | some k =>
      let e0 := manifestEntry b 0
      if bit s.sealStore.revoked k then .error (.keyRevoked, k)
      else if !(ecdsaVerify key (sub b 144 96) (sha384Hash (b.take 144 ++ sub b 240 16 ++ sub b 256 (leAt b 24 4)))) then
        .error (.signatureBad, k)
      else if byteAt b 16 < s.sealStore.minVersion then .error (.versionTooLow, s.sealStore.minVersion)
      else if sha384Hash (sub b e0.offset e0.len) ≠ e0.hash then .error (.measureMismatch, 0)
      else .ok k

/-- CLOCK_SWITCH (R85): the PLLs are locked; domain time and the HCLK grid start at zero (Table 3-17, R473). -/
def State.clockSwitch (s : State) : State :=
  s.withTime fun t => { t with ns := 0, frac := 0, hclkNs := 0 }

/-- The kindling's part up to LPDDR5 training (Table 3-17, steps 5 to 7): the manifest, then every on-die section copied
and measured. -/
def State.kindle (s : State) (b : Bytes) (slot : Nat) (sealArm : Bool) : State :=
  let s := (s.withBoot fun x => { x with phase := 4, code := 0, detail := 0 }).clockSwitch
  match manifestCheck b with
  | some d => (s.coreReset 3).imageRefusal .fieldInvalid d
  | none =>
    let count := leAt b 18 2
    let es := (List.range count).map (manifestEntry b)
    match (List.range count).find? fun i =>
        let e := es.getD i default
        e.type != 7 && sha384Hash (sub b e.offset e.len) != e.hash with
    | some i => (s.coreReset 3).imageRefusal .measureMismatch i
    | none =>
      let data (e : ManifestEntry) : Bytes := sub b e.offset e.len
      let sram := es.foldl (fun m e => if sramType e.type then Mem.writeN m e.dest (data e) else m) ([] : Mem)
      let fl := (es.filter fun e => e.type == 3 || e.type == 4).map fun e =>
        (⟨e.type == 4, e.mask, e.dest, e.hash, data e⟩ : FlowSection)
      let one (t : Nat) : Option ManifestEntry := es.find? fun e => e.type == t
      s.withBoot fun x => { x with
        phase := 5, window := [], sram := sram, flowStage := fl
        pipeInit := ((one 6).map fun e => zeros e.dest ++ data e).getD []
        bundle := some ⟨sealArm, byteAt b 16, slot, (sub b 32 16).takeWhile (· != 0),
          sha384Hash (sub b 256 (leAt b 24 4)), (one 8).map data, (one 7).map data, ((one 7).map (·.hash)).getD []⟩ }

/-- The effect of one seal-store command (Table 3-15). -/
def Seal.apply (z : Seal) (c : Bytes) : Seal :=
  let a := byteAt c 1
  match byteAt c 0 with
  | 1 => { z with hashes := z.hashes.put a (sub c 16 48) }
  | 2 => { z with revoked := z.revoked ||| 2 ^ a }
  | 3 => { z with minVersion := max z.minVersion a }
  | 4 => { z with lifecycle := a }
  | _ => z

/-- One command's own check against the seal store as the commands before it leave it (R81, Table 3-15). -/
def Seal.accepts (z : Seal) (info : BundleInfo) (c : Bytes) : Bool :=
  let a := byteAt c 1
  allZero (sub c 2 14) && (byteAt c 0 == 1 || allZero (sub c 16 48)) &&
  match byteAt c 0 with
  | 1 => decide (a < 4) && !(bit z.revoked a) &&
      (match z.hashes.get? a with
       | none => true
       | some h => h == sub c 16 48)
  | 2 => decide (a < 4) && a != info.slot
  | 3 => decide (a ≤ 64) && decide (a ≤ info.securityVersion)
  | 4 => (a == 1 || a == 2) && decide (z.lifecycle ≤ a)
  | _ => false

/-- At least one programmed slot is unrevoked (R81). -/
def Seal.hasLive (z : Seal) : Bool := (List.range 4).any fun k => bit z.programmed k && !bit z.revoked k

/-- The first failing command of a section, checked in order (R81); after every REVOKE_KEY and PROGRAM_KEY a live slot
must remain. -/
def sealFirstBad (info : BundleInfo) : Seal → Nat → List Bytes → Option Nat
  | _, _, [] => none
  | z, i, c :: t =>
    if z.accepts info c && ((byteAt c 0 != 1 && byteAt c 0 != 2) || (z.apply c).hasLive) then
      sealFirstBad info (z.apply c) (i + 1) t
    else some i

/-- SEAL_COMMAND_APPLY (R81, R82). -/
def State.sealCommands (s : State) (info : BundleInfo) : State :=
  match info.sealCmd with
  | none => s
  | some b =>
    if !info.sealArm then s.dset 0x2202 1 Status.notInThisState.code
    else
      let cs := chunksOf 64 b
      match sealFirstBad info s.sealStore 0 cs with
      | some i => (s.dset 0x2202 1 Status.fieldInvalid.code).dset 0x2202 2 i
      | none => { s with sealStore := cs.foldl Seal.apply s.sealStore }

/-- The ember slot an EMBER_FW section goes to: the one that does not hold the running firmware (R90). -/
def State.emberTarget (s : State) : Nat := if s.pow.emberSlot = 0 then 1 else 0

/-- The section's SEQUENCE is higher than the running firmware's, or none runs (R90). -/
def State.emberNewer (s : State) (fw : Bytes) : Bool :=
  if s.pow.emberSlot = 0 then decide (s.pow.emberSeq0 < leAt fw 4 4)
  else if s.pow.emberSlot = 1 then decide (s.pow.emberSeq1 < leAt fw 4 4)
  else true

/-- What READY brings but for the seal store (Table 3-17, step 10; R94, R84): entries from the header, HST_STATUS.READY, Glow
with every domain on, the edges kept during the start raised. -/
def State.enterReady (s : State) (info : BundleInfo) : State :=
  let s := s.withBoot fun b => { b with phase := 7, ready := true, bundle := none, emberFw := info.emberFw }
  let s := ((s.dset 0x2200 3 info.securityVersion).dset 0x2200 4 info.slot).dset 0x2200 5 ((s.time.elapsed - s.boot.goAt) / 1000)
  let s := (s.dsetv 0x2200 7 (.bytes info.manifestHash)).dsetv 0x100A 0 (.bytes info.version)
  let s := match info.emberFw with
    | none => s
    | some fw => if s.emberNewer fw then s.dset 0x2203 4 1
        else (s.dset 0x2203 4 4).withBoot fun b => { b with emberFw := none }
  let s := s.withGatherer fun _ => Gatherer.started
  let s := s.withPow fun p => { p with st := .glow, trans := 0, stage := 0, domains := [] }
  let s := s.firmwareReady
  let s := s.pow.edgesKept.foldl (fun (s : State) e => s.event e) s
  s.withPow fun p => { p with edgesKept := [] }

/-- READY (Table 3-17, step 10): the seal-store commands of the bundle, then the rest. -/
def State.becomeReady (s : State) (info : BundleInfo) : State := (s.sealCommands info).enterReady info

end Sys2Proof.Machine
end

