-- ==== Sys2Proof/Machine/PowerSteps.lean ====
section
/-! DEFINITION. Power states, votes and wake (Chapter 4), and the supplies and resets of Chapter 17, as operations: transitions, the drain, Banked
and Ember and back, the wake sources, the domains. -/

namespace Sys2Proof.Machine

/-- The sub-index by which a dictionary value of 0x2001–0x2003 is read in Ember: the copies of R103; the dictionary
otherwise. -/
def State.aoGet (s : State) (idx sub : Nat) : Nat :=
  if s.pow.st = .ember then ((s.pow.emberCopies.get? (dkey idx sub)).getD (dictDefault idx sub)).nat else s.dget idx sub

/-- A transition ends with a status: TRANSITION 0 and LAST_TRANSITION_STATUS. The requests held by R97 are served by the settling that
ends every command. -/
def State.transitionEnd (s : State) (st : Status) : State :=
  let s := s.withPow fun p => { p with trans := 0, stage := 0, egressDraining := false }
  s.dset 0x2000 4 st.code

/-- An entry is abandoned in its drain (R104, R105, R107): ingress and fetching reopen, the ring ports run again. -/
def State.entryAbandoned (s : State) (st : Status) : State := s.zeludReturn.transitionEnd st

/-- Blaze: every domain is powered whatever its votes (R101). -/
def State.goBlaze (s : State) : State :=
  let off := (List.range 14).filter fun d => !fixedDomain d && !((s.dom d).st == 2 || (s.dom d).st == 3)
  let s := s.withPow fun p => { p with st := .blaze }
  let s : State := off.foldl (fun s d => ((s.setDom d ⟨2, 0, false⟩).dinc (0x2010 + d) 5).domainPoweredUp d (List.range 32)) s
  let s : State := (List.range 14).foldl (fun s d => if (s.dom d).st = 3 then s.setDom d ⟨2, 0, false⟩ else s) s
  (s.event 17).transitionEnd .ok

/-- The drain of Table 4-6 or 4-8 begins: LEAVE goes out (R378), fetching stops, every port closes ingress. -/
def State.beginDrain (s : State) (trans : Nat) : State :=
  s.zeludLeave.withPow fun p => { p with trans := trans, stage := 1, egressDraining := true }

/-- The checks of R96 on a request for a state. -/
def State.requestCheck (s : State) (v : Nat) : Status :=
  if (v = 2 ∨ v = 3) ∧ (s.kilnOpenAny ∨ s.evidenceBusy) then .notInThisState
  else if v = 3 ∧ (!s.pow.emberRun ∨ s.pow.emberBusy) then .notInThisState
  else .ok

/-- Blaze is left for Glow at once, with event 17 (Table 4-4); in Glow nothing happens. -/
def State.blazeLeft (s : State) : State := if s.pow.st = .blaze then (s.withPow fun p => { p with st := .glow }).event 17 else s

/-- A request for a state that passed R96 (R95, Table 4-2): 0 Blaze, 1 Glow, 2 Banked, 3 Ember. -/
def State.requestStart (s : State) (v : Nat) : State :=
  match v with
  | 0 => if s.pow.st = .blaze then s else s.goBlaze
  | 1 => if s.pow.st = .blaze then s.blazeLeft.transitionEnd .ok else s
  | 2 => s.blazeLeft.beginDrain 1
  | _ => s.blazeLeft.beginDrain 2

/-- The hearth firmware's own request (R112, R139): it waits for a running transition, and for a hearth
that is held (R516); refused, it is repeated every
10 s. -/
def State.firmwareRequest (s : State) : State :=
  let v := s.dget 0x2001 1
  if v = 0 ∨ !s.live then s
  else if s.pow.trans ≠ 0 ∨ s.dbg.hearthHalted then s.withPow fun p => { p with ignWaiting := true }
  else if s.requestCheck v = .ok then (s.withPow fun p => { p with ignRetry := false, ignWaiting := false }).requestStart v
  else s.withPow fun p => { p with ignRetry := true, ignWaiting := false }

/-- A firmware request that waited for a transition is made now that none runs (R112). -/
def State.waitingRequest (s : State) : State :=
  if s.pow.ignWaiting ∧ s.pow.trans = 0 ∧ s.hearthRuns then s.firmwareRequest else s

/-- Step 5 of Table 4-6: the clocks stop, domain time stops, the device is Banked. -/
def State.enterBanked (s : State) : State :=
  let s := (s.leaveWaited.dropEgressFrames.dropBuffered.peatPause.linksDown).hostLinkL12
  let s := s.dinc 0x2000 6
  let s := s.withTime fun t => { t with stopNs := t.ns, stopSlow := t.slow }
  s.withPow fun p => { p with st := .banked, trans := 0, stage := 0, egressDraining := false, bankedSlow := s.time.slow
                              vsenseLow := false }

/-- Steps 3 and 4 of Table 4-8: the copies of R103, MAIN_EN low, the link and every domain but AO lost. -/
def State.emberOff (s : State) : State :=
  let s := s.hostLinkLost
  let copies := s.dict.filter fun kv => decide (dkey 0x2001 0 ≤ kv.1) && decide (kv.1 < dkey 0x2004 0)
  let s := s.startBase 2
  let s := s.withBoot fun b => { b with phase := 0, ready := false, windowOpen := false }
  (s.withPow fun p => { p with st := .ember, trans := 2, stage := 3, egressDraining := false, ssdWait := []
                               mainEn := false, mainReset := true, emberCopies := copies }).pin "MAIN_EN" false

/-- BANKED_WAKE (R105, Table 4-7): Glow again, domain time advanced by the slow ticks (R29), event 17, the
bucket full (R119), the ring ports and the link back. -/
def State.bankedWake (s : State) : State :=
  let el := (s.time.slow - s.time.stopSlow) * 1953125 / 64
  let s := s.withTime fun t => { t with ns := t.stopNs + el }
  let s := s.withPow fun p => { p with st := .glow, trans := 0, stage := 0 }
  let s := ((s.dset 0x2000 8 el).dset 0x2000 4 Status.ok.code).event 17
  s.peatResume.damperFresh.zeludReturn.hostLinkL0

/-- EMBER_WAKE (R108): HOST_WAKE_N low, MAIN_EN high, then MAIN_PG is awaited. -/
def State.emberWake (s : State) (src : Nat) : State :=
  let s := s.withBoot fun b => { b with wakeSrc := src }
  let s := (s.withPow fun p => { p with hostWake := true }).pin "HOST_WAKE_N" false
  (s.withPow fun p => { p with mainEn := true, mainTries := 0, mainRetry := false, nextCause := 2, trans := 0
                               stage := 0, wakeKept := false }).pin "MAIN_EN" true

/-- A wake is reported (Table 4-15, 0x2005): of several in one 32.768 kHz tick the lowest source number (R111). -/
def State.wakeReport (s : State) (src : Nat) : State :=
  let same := s.pow.lastWakeSrc ≠ 0 ∧ s.pow.lastWakeTime = s.time.slow
  let r := if same then min src s.pow.lastWakeSrc else src
  let s := s.withPow fun p => { p with lastWakeSrc := r, lastWakeTime := s.time.slow }
  s.wakeNote src

/-- A wake source's condition has come (R110): source number, its bit of WAKE_ENABLE, its event. Latched always; in
Blaze and Glow it raises its event, in a drain it abandons the entry, in Banked and Ember it wakes, before READY its
edge is kept (R84). -/
def State.wakeTake (s : State) (src bitNo ev : Nat) : State :=
  let s := s.withPow fun p => { p with lastWakeLatched := setBit p.lastWakeLatched bitNo true }
  let enabled := bit (s.aoGet 0x2003 1) bitNo
  match s.pow.st with
  | .off => s
  | .starting => s.withPow fun p => { p with edgesKept := p.edgesKept ++ [ev] }
  | .banked => if enabled then (s.wakeReport src).bankedWake else s
  | .ember =>
    if !enabled then s
    else if s.pow.mainEn then s
    else if s.pow.stage = 0 then (s.wakeReport src).emberWake src
    else
      let s := s.wakeReport src
      (s.withPow fun p => { p with wakeKept := true }).withBoot fun b => { b with wakeSrc := s.pow.lastWakeSrc }
  | _ =>
    if s.pow.stage = 1 ∧ enabled then ((s.wakeReport src).entryAbandoned .wakePending)
    else if s.pow.stage = 2 ∧ enabled then
      let s := s.wakeReport src
      (s.withPow fun p => { p with wakeKept := true }).withBoot fun b => { b with wakeSrc := s.pow.lastWakeSrc }
    else if s.pow.stage = 0 then s.event ev
    else s

/-- A wake source through the ember controller: during an ember start it is latched and handed over at the end (R91). -/
def State.wakeSource (s : State) (src bitNo ev : Nat) : State :=
  if s.pow.emberBusy then s.withPow fun p => { p with
      wakesLatched := p.wakesLatched ++ [(src, bitNo, ev)], lastWakeLatched := setBit p.lastWakeLatched bitNo true }
  else s.wakeTake src bitNo ev

/-- An ember start begins (R88): the firmware stops, the ROM checks the slots. -/
def State.emberStart (s : State) : State := s.withPow fun p => { p with emberBusy := true, emberRun := false, tinderHeld := none }

/-- A slot is valid (R88). -/
def State.emberSlotValid (s : State) (e : EmberSlot) : Bool :=
  e.magicOk && e.crcOk && e.signatureOk && e.sequence != 0 && decide (e.sequence < 0xFFFFFFFF) &&
    (List.range 4).any fun k => s.sealStore.hashes.get? k == some e.keyHash && !bit s.sealStore.revoked k

/-- A start of cause 1 or 5 (R64, R506): the main reset is asserted; a JTAG reset is released at once. -/
def State.mainResetStart (s : State) (cause : Nat) : State :=
  let s := s.hostLinkLost
  let s := s.startBase cause
  let s := s.withBoot fun b => { b with phase := 0, ready := false, windowOpen := false }
  let s := s.withPow fun p => { p with
    st := .starting, mainReset := true, nextCause := cause, trans := 0, stage := 0, heldStart := none }
  if cause = 5 ∧ !s.pow.perst then s.resetRelease else s

/-- A start request that meets the power-fail sequence is held until its end (R506). -/
def State.startOrHold (s : State) (cause : Nat) : State :=
  if s.pfRuns then (s.dinc 0x3C11 2).withPow fun p => { p with heldStart := some cause } else s.mainResetStart cause

/-- Step 3 of Table 4-6 can complete (R159): the link down, or ASPM L1 and ASPM L1.2 enabled. -/
def State.l12Possible (s : State) : Bool := !s.host.up || (s.cfg 0 .aspmL1Enable == 1 && s.cfg 0 .aspmL12Enable == 1)

/-- The longest stretch seen, in µs (0x2004:03), at most 300 (R113). -/
def State.tinderStretch (s : State) : State := s.dmax 0x2004 3 (min 300 ((s.time.elapsed - s.pow.tinderAt) / 1000))

/-- The value of a Tinder register (Table 11 of Chapter 4). -/
def State.tinderReg (s : State) (p : Nat) : Nat :=
  match p with
  | 0 => 0x96
  | 1 => if s.pow.trans ≠ 0 then 4 else match s.pow.st with
      | .blaze => 0 | .glow => 1 | .banked => 2 | .ember => 3 | _ => 4
  | 2 => s.pow.lastWakeSrc
  | 3 => s.pow.lastWakeLatched
  | 4 => s.pow.vsense % 256
  | 5 => s.pow.vsense / 256
  | 6 => s.pow.emberSlot
  | _ => 0

/-- The move from Banked to Ember (R109): Table 4-7 runs without a wake source reported, Table 4-8 follows at once. -/
def State.bankedToEmber (s : State) : State :=
  let s := s.bankedWake
  if s.requestCheck 3 = .ok then s.beginDrain 2 else s

/-- A domain waits for its power-up: off, voted, its last try not failed (R99, Table 4-13). -/
def State.domWaits (s : State) (d : Nat) : Bool :=
  !fixedDomain d && decide (d < 14) && (s.dom d).st == 0 && s.votes d != 0 && !(s.dom d).failed

/-- The domain whose power-up starts next: ascending d, DRAM before a FLOWC domain (R99). -/
def State.nextPowerUp (s : State) : Option Nat :=
  match (List.range 14).find? fun d => s.domWaits d with
  | none => none
  | some d => if 2 ≤ d ∧ d ≤ 5 ∧ s.domWaits domDRAM then some domDRAM else some d

end Sys2Proof.Machine
end

