-- ==== Sys2Proof/Machine/DamperSteps.lean ====
section
/-! DEFINITION. The damper's tick, its ladder and its caps (Chapter 5), as operations. -/

namespace Sys2Proof.Machine

/-- The ladder moves to a step (R131, R132): event 18 or 19, a Notice entry with the step and B, LADDER_MAX. -/
def State.ladderMove (s : State) (k : Nat) (climb : Bool) : State :=
  let s := ((s.dset 0x2100 5 k).dmax 0x2100 6 k).withDamper fun d =>
    { d with since := if climb then 0 else d.since, holding := if climb then d.holding else false }
  let s := s.eventLog (if climb then 18 else 19) .notice 0x8002 (leBytes 1 k ++ zeros 3 ++ leBytes 4 (s.damper.budget / 100))
  s.portsCheck

/-- Step 5 of a tick (R131, R133): the ladder stays while forced; from 8 to 7 by the evidence draw; else it climbs one
step when the level is below a quarter, the net was negative and the last step's response time has passed. -/
def State.ladderStep (s : State) : State :=
  let k := s.ladder
  let depth : Int := s.dget 0x2100 2 * 100
  let past := decide (s.dget 0x2101 1 < s.evidenceDraw)
  if s.dget 0x2100 0x0B ≠ 0 then s
  else if k = 8 ∧ !past then s.ladderMove 7 false
  else if s.damper.level * 4 < depth ∧ s.damper.negative ∧ stepResponse k ≤ s.damper.since + (if k = 0 then 1 else 0)
      ∧ (k < 7 ∨ (k = 7 ∧ past)) then s.ladderMove (k + 1) true
  else s

/-- The kiln energy of a tick (Table 5-1): KILN, and of each root port's SerDes the share of kiln bytes. -/
def tickKiln (dom : Nat → Nat) (i : TickInput) : Nat :=
  dom 7 + sumNat ((List.range 2).map fun p =>
    let w := i.portBytes.getD p 0
    if w = 0 then 0 else i.serdesUj.getD p 0 * i.kilnBytes.getD p 0 / w)

/-- The energy attributed to one instance in a tick (R127). -/
def tickShare (dom : Nat → Nat) (i : TickInput) (a : TickActivity) : Nat :=
  let part (e n d : Nat) : Nat := if d = 0 then 0 else e * n / d
  sumNat ((List.range 4).map fun k => part (dom (2 + k)) (a.slots.getD k 0) (i.totalSlots.getD k 0))
    + part (dom 8) a.busyCycles i.totalBusy + part (dom 9) a.storageBytes i.totalStorage
    + part (dom 13) a.dramBytes i.totalDram

/-- An instance's cap at a tick (R128). -/
def State.capTick (s : State) (n uj : Nat) : State :=
  let c := s.damper.caps.getD n ⟨[], false, false⟩
  let w := (uj :: c.window).take 100
  let draw := sumNat w
  let cap := s.dget (0x2140 + n) 2
  let s := (s.dadd (0x2140 + n) 3 uj).dset (0x2140 + n) 4 draw
  let past := decide (cap ≠ 0) && decide (cap < draw)
  let acting := decide (cap ≠ 0) && (c.acting || past)
  let s := s.withDamper fun d => { d with caps := d.caps.put n ⟨w, acting, decide (draw * 10 < cap * 9)⟩ }
  if past && !c.acting then (s.dinc (0x2140 + n) 5).eventLimited 25 n else s

/-- DAMPER_TICK (R117, R118, R120, R124, R127, R139; Table 5-7). -/
def State.damperTickOp (s : State) (i : TickInput) : State :=
  -- 1: the meters of the tick just ended
  let s := s.withDamper fun d => { d with lost := d.lost.keep fun k _ => i.domainUj.getD k 0 == 0 }
  let dom (k : Nat) : Nat := if (s.damper.lost.get? k).isSome then domainMax k else i.domainUj.getD k 0
  let total := sumNat ((List.range 14).map dom)
  let s : State := (List.range 14).foldl (fun s k => s.dadd 0x2104 (k + 1) (dom k)) s
  let s := s.dadd 0x2104 0x0F total
  let kiln := tickKiln dom i
  let s := s.dadd 0x2105 2 kiln
  let ev := kiln + i.evidenceStorUj + i.evidenceCipherUj
  let shares := sumNat (i.activity.map (tickShare dom i))
  let s : State := (List.range 64).foldl (fun s n =>
    s.capTick n (sumNat ((i.activity.filter fun a => a.inst == n).map (tickShare dom i)))) s
  let s := s.withDamper fun d => { d with
    evidence := (ev :: d.evidence).take 100, base := ((total - ev - shares) :: d.base).take 100 }
  let s := (s.dset 0x2101 3 s.evidenceDraw).dmax 0x2101 5 (sumNat s.damper.base)
  let s := if s.damper.ignCounting then s.dadd 0x2106 1 total else s
  -- 2: the budget
  let tj := hottest i.sensors
  let s := s.withPow fun p => { p with sensors := i.sensors }
  let s := s.dset 0x2103 3 (ofInt 32 tj)
  let s := if s.dint 0x2103 4 < tj then s.dset 0x2103 4 (ofInt 32 tj) else s
  let soft := decide ((s.dget 0x2103 1 : Int) * 1000 < tj)
  let s := if soft && !s.damper.overSoft then s.event 21 else s
  let hot := decide (125000 ≤ tj)
  let s := if hot && !s.damper.over125 then s.eventLog 23 .critical 0x800E (leBytes 4 (ofInt 32 tj)) else s
  let low := s.dget 0x2102 1
  let fell := decide (low ≠ 0) && decide (i.vsenseAverage < low)
  let stays := decide (low ≠ 0) && s.damper.supplyLow && decide (i.vsenseAverage < low + 200)
  let s := if fell && !s.damper.supplyLow then s.event 22 else s
  let s := s.withDamper fun d => { d with overSoft := soft, over125 := hot, supplyLow := fell || stays }
  let (b, lim) := s.budgetOf tj
  let s := (s.dset 0x2100 3 (b / 100)).dset 0x2100 8 lim
  -- 3 and 4: the bucket
  let depth : Int := s.dget 0x2100 2 * 100
  let raw : Int := s.damper.level + b - total * 100
  let lvl : Int := max (-depth) (min depth raw)
  let s := if raw < -depth then s.dadd 0x2100 9 ((-depth - raw).toNat / 100) else s
  let s := s.dset 0x2100 4 (ofInt 32 (lvl / 100))
  let s := s.withDamper fun d => { d with
    level := lvl, budget := b, negative := decide (b < total * 100), since := d.since + 1
    holding := decide (depth * 3 ≤ lvl * 4) }
  -- a run over budget at step 7 or 8
  let breach := decide (7 ≤ s.ladder) && decide (b < total * 100)
  let s := if breach then s.dinc 0x2100 0x0A else s
  let s := if breach && !s.damper.breachRun then
      s.eventLog 20 .error 0x8004 (leBytes 4 b ++ leBytes 4 (total * 100)) else s
  let s := s.withDamper fun d => { d with breachRun := breach, fomTicks := d.fomTicks + 1 }
  -- the kiln figure of each whole second
  let s := if 100000 ≤ s.damper.fomTicks then
      let dj := s.dget 0x2105 2 - s.damper.fomKiln
      let db := s.dget 0x2105 1 - s.damper.fomSealed
      let (v, s) := if dj = 0 then s.drawBits 64 else (db * 1000000 / dj, s)
      (s.dset 0x2105 4 v).withDamper fun d => { d with fomTicks := 0, fomSealed := s.dget 0x2105 1, fomKiln := s.dget 0x2105 2 }
    else s
  -- 5: the ladder, which waits while the hearth is held
  if s.dbg.hearthHalted then s else s.ladderStep

/-- The effect of a FORCE_STEP write (R133): the ladder stands at the step; a Warning entry. -/
def State.forceStepEffect (s : State) (v : Nat) : State :=
  let s := (s.dset 0x2100 0x0B v).logCls 1 .warning 0x8003 (leBytes 1 v)
  if v = 0 then s
  else (((s.dset 0x2100 5 v).dmax 0x2100 6 v).withDamper fun d => { d with since := 0, holding := false }).portsCheck

/-- The effect of a SNAPSHOT write (R137). -/
def State.snapshotEffect (s : State) : State :=
  (((s.dset 0x2105 6 s.time.ns).dset 0x2105 7 (s.dget 0x2105 1)).dset 0x2105 8 (s.dget 0x2105 2)).dset 0x2105 9 (s.dget 0x2104 0x0F)

end Sys2Proof.Machine
end

