-- ==== Sys2Proof/Machine/DictView.lean ====
section
/-! DEFINITION. What the entries of the dictionary read (R31–R34): the value each entry table gives, for the entries whose home is
a register, a memory or a count of the state. Every other entry reads what the store holds. -/

namespace Sys2Proof.Machine

/-- The highest sub-index in use of an index (R33); none where the index does not exist. -/
def indexTop (idx : Nat) : Option Nat :=
  ((dictRows.filter fun r => (r.pos idx).isSome).map DRow.hi).max?

/-- A byte string of one bit per number, set where the test holds (80-, 32- and 16-byte masks). -/
def maskBytes (n : Nat) (p : Nat → Bool) : Bytes :=
  (List.range n).map fun k => BitVec.ofNat 8 (sumNat ((List.range 8).map fun j => b2n (p (8 * k + j)) * 2 ^ j))

/-- The commit group that a control index controls (R59, R238). -/
def groupAt (idx : Nat) : Option Nat :=
  if 0x1F01 ≤ idx ∧ idx ≤ 0x1F2F then some (idx - 0x1F00)
  else if 0x6000 ≤ idx ∧ idx < 0x7000 ∧ idx % 0x40 = 0x3F then some (0x100 + (idx - 0x6000) / 0x40)
  else none

/-- The control index of a commit group. -/
def groupIdx (g : Nat) : Nat := if g < 0x100 then 0x1F00 + g else blk (g - 0x100) 0x3F

/-- The word that HOLDER gives of a session (Table 2-15). -/
def holderWord : Requester → Nat
  | .mailbox fn => 0x01000000 + fn
  | .can port => 0x02000000 + port
  | .onsia _ _ session => 0x03000000 + session

/-- STATE and HOLDER of a group (Table 2-15). -/
def State.groupView (s : State) (g sub : Nat) : Option Nat :=
  match sub, s.svc.shadows.get? g with
  | 2, none => some 0
  | 3, none => some 0
  | 2, some x => some (if x.refused then 2 else 1)
  | 3, some x => some (holderWord x.holder)
  | _, _ => none

/-- Start-up and the seal store (Table 3-19). -/
def State.bootView (s : State) (idx sub : Nat) : Option DVal :=
  match idx, sub with
  | 0x2200, 1 => some (.num s.boot.cause)
  | 0x2200, 2 => some (.num s.boot.wakeSrc)
  | 0x2200, 6 => some (.num s.boot.attempts)
  | 0x2201, 5 => some (.num s.sealStore.minVersion)
  | 0x2201, 6 => some (.num s.sealStore.lifecycle)
  | 0x2201, k =>
    if 1 ≤ k ∧ k ≤ 4 then
      some (.num (if bit s.sealStore.revoked (k - 1) then 2 else b2n (s.sealStore.hashes.get? (k - 1)).isSome))
    else if 7 ≤ k ∧ k ≤ 10 then some (.bytes (padTo 48 (s.sealStore.hashes.getD (k - 7) [])))
    else none
  | 0x2203, 1 => some (.num s.pow.emberSlot)
  | 0x2203, 2 => some (.num s.pow.emberSeq0)
  | 0x2203, 3 => some (.num s.pow.emberSeq1)
  | _, _ => none

/-- Power states, wakes and domains (Table 4-15). -/
def State.powerView (s : State) (idx sub : Nat) : Option DVal :=
  match idx, sub with
  | 0x2000, 1 => some (.num (b2n (s.pow.st != .blaze)))
  | 0x2000, 3 => some (.num s.pow.trans)
  | 0x2003, 5 => some (.num (s.time.slow % 2 ^ 48))
  | 0x2004, 1 => some (.num (0x58 + s.pow.straps))
  | 0x2005, 1 => some (.num s.pow.lastWakeSrc)
  | 0x2005, 2 => some (.num s.pow.lastWakeLatched)
  | 0x2005, 3 => some (.num s.pow.lastWakeTime)
  | 0x2005, 4 => some (.bytes s.wakeHistBytes)
  | _, _ =>
    if 0x2010 ≤ idx ∧ idx ≤ 0x201D then
      match sub with
      | 1 => some (.num (s.votes (idx - 0x2010)))
      | 4 => some (.num (s.dom (idx - 0x2010)).st)
      | _ => none
    else none

/-- The ladder acts on an instance's class: from step 4 on BULK, from step 6 on CRITICAL (Table 5-3). -/
def State.ladderActs (s : State) (n : Nat) : Bool := decide ((if s.isCritical n then 6 else 4) ≤ s.ladder)

/-- An instance's attributed draw over the last 1 ms, in mW (R127, R128). -/
def State.instDraw (s : State) (n : Nat) : Nat := sumNat (s.damper.caps.getD n ⟨[], false, false⟩).window

/-- The damper and an instance's view of it (Tables 5-9 and 5-10). -/
def State.damperView (s : State) (idx sub : Nat) : Option DVal :=
  if idx = 0x2107 ∧ sub = 1 then some (.num s.shapeScale)
  else if 0x2140 ≤ idx ∧ idx ≤ 0x217F ∧ sub = 4 then some (.num (s.instDraw (idx - 0x2140)))
  else none

/-- The PCI Express endpoint and the work queues (Tables 6-17 and 7-20). -/
def State.hostView (s : State) (idx sub : Nat) : Option DVal :=
  match idx, sub with
  | 0x2300, 1 => some (.num (if s.host.up then s.host.speed else 0))
  | 0x2300, 2 => some (.num (if s.host.up then s.host.width else 0))
  | 0x2302, 1 => some (.num s.completionTimeout)
  | 0x2302, 4 => some (.num (sumNat (s.fns.map fun kv => (kv.2.tags.filter fun t => t.2.quarantined).length)))
  | 0x2303, 2 => some (.num (b2n (s.fns.any fun kv => kv.2.hold)))
  | 0x2400, 1 => some (.num (4096 - (ioOnly (s.q.sqs.map fun kv => (kv.1 % 65536, kv.2))).length))
  | 0x2400, 2 => some (.num (4096 - (ioOnly (s.q.cqs.map fun kv => (kv.1 % 65536, kv.2))).length))
  | 0x2400, 3 => some (.num (64512 - s.reserveUsed))
  | 0x2400, 6 => some (.num s.contextsInUse)
  | _, _ =>
    if 0x2440 ≤ idx ∧ idx ≤ 0x247F then
      let n := idx - 0x2440
      match sub with
      | 1 => some (.num (ioOnly (s.sqsOf n)).length)
      | 2 => some (.num (ioOnly (s.cqsOf n)).length)
      | 3 => some (.num (sumNat ((ioOnly (s.cqsOf n)).map fun x => x.2.share.length)))
      | _ => none
    else none

/-- A pool less what is granted of it (0x2500:02–0B): its size, the place and length of the field that grants it. -/
def poolOf (sub : Nat) : Option (Nat × Nat × Nat) :=
  match sub with
  | 2 => some (4096, 0, 2)
  | 3 => some (4096, 2, 2)
  | 4 => some (64512, 4, 4)
  | 5 => some (16384, 8, 2)
  | 6 => some (4096, 12, 2)
  | 7 => some (16, 14, 1)
  | 9 => some (235929, 56, 4)
  | 10 => some (4096, 62, 2)
  | 11 => some (128, 15, 1)
  | _ => none

/-- The tenant manager's entries (Table 8-9). -/
def State.poolView (s : State) (idx sub : Nat) : Option DVal :=
  if idx ≠ 0x2500 then none
  else match sub with
    | 1 => some (.num s.instances.length)
    | 8 => some (.num (256 - sumNat (s.instances.map fun n => (s.threadsOf n).length)))
    | 12 => some (.num s.dramPool)
    | 13 => some (.num (s.dramPool - s.grantedElse 64 52 4))
    | _ => (poolOf sub).map fun p => .num (p.1 - s.grantedElse 64 p.2.1 p.2.2)

/-- Storage (Table 9-15). -/
def State.storageView (s : State) (idx sub : Nat) : Option DVal :=
  if idx = 0x2600 then
    match sub with
    | 2 => some (.num s.stor.locksInUse)
    | 7 => some (.num s.stor.ns.length)
    | _ => none
  else if idx = 0x2601 ∨ idx = 0x2602 then
    let p := idx - 0x2601
    match sub with
    | 1 => some (.num (s.port p).st)
    | 3 => some (.num (s.port p).mode)
    | 4 => some (.num (((s.port p).ident.map (·.capacityBlocks)).getD 0 * 4096))
    | 5 => some (.num (s.freeBlocks p * 4096))
    | 10 => some (.bytes (((s.port p).ident.map (·.model)).getD []))
    | _ => none
  else if 0x2610 ≤ idx ∧ idx ≤ 0x268F then
    let k := idx - 0x260F
    match s.ns? k with
    | none => if sub = 5 then some (.num 0xFF) else some (.num 0)
    | some x => match sub with
      | 1 => some (.num (s.nsState k))
      | 2 => some (.num (b2n x.evidence))
      | 3 => some (.num x.port)
      | 4 => some (.num x.owner)
      | 5 => some (.num (x.reader.getD 0xFF))
      | 6 => some (.num x.size)
      | 7 => some (.num x.rp)
      | 8 => some (.num x.cp)
      | 9 => some (.num x.ap)
      | 10 => some (.num x.mismatches)
      | _ => none
  else none

/-- The streams bound to an SSD (Table 10-2). -/
def State.boundStreams (s : State) : List Stream := (s.kiln.streams.map Prod.snd).filter Stream.bound

/-- The kiln (Table 10-15). -/
def State.kilnView (s : State) (idx sub : Nat) : Option DVal :=
  if idx = 0x2700 then
    match sub with
    | 1 => some (.num s.boundStreams.length)
    | 2 => some (.num (2048 - s.stagedAll))
    | 8 => some (.num (sumNat (s.boundStreams.map Stream.rate)))
    | _ => none
  else if idx = 0x2701 ∧ 1 ≤ sub ∧ sub ≤ 4 then
    some (.num (sumNat ((s.boundStreams.filter fun x => x.engine == some (sub - 1)).map Stream.rate)))
  else if 0x2710 ≤ idx ∧ idx ≤ 0x274F then
    let x := s.stream (idx - 0x2710)
    match sub with
    | 1 => some (.num x.st.num)
    | 2 => some (.num x.cause)
    | 3 => some (.num x.ns)
    | 4 => some (.num x.sid)
    | 5 => some (.num (x.engine.getD 0xFF))
    | 6 => some (.num (x.slot.getD 0xFFFF))
    | 7 => some (.num x.nextSeq)
    | 8 => some (.num x.lease)
    | 15 => some (.num (if x.st == .unused then 0 else x.keys.length - 1 - x.cur.getD 0))
    | 17 => some (.num x.bind)
    | _ => none
  else none

/-- The divider that an engine's clock has (R130): its LOCK owner's class, else its job's. -/
def State.dividerOf (s : State) (e : Nat) : Nat :=
  match s.engineOwner e, s.engineJob e with
  | some n, _ => s.engineDivider n
  | none, some j => s.engineDivider j.fn
  | none, none => if 7 ≤ s.ladder then 4 else 1

/-- The cipher engines and the key store (Table 11-18). -/
def State.cipherView (s : State) (idx sub : Nat) : Option DVal :=
  match idx with
  | 0x2800 =>
    match sub with
    | 3 => some (.num ((s.cipher.keys.filter fun kv => s.slotState kv.1 == 1).length))
    | 4 => some (.num ((s.cipher.keys.filter fun kv => s.slotState kv.1 == 2).length))
    | 5 => some (.num s.cipher.vault.length)
    | _ => none
  | 0x2801 => if 1 ≤ sub then some (.num (((s.engineOwner (sub - 1)).map (· + 1)).getD 0)) else none
  | 0x2802 => if 1 ≤ sub then some (.num (s.dividerOf (sub - 1))) else none
  | _ => none

/-- A meter's parameters and counters by the sub-index of its window (Table 13-4, 0x3781). -/
def Meter.field (x : Meter) (sub : Nat) : Option Nat :=
  match sub with
  | 2 => some x.mode
  | 3 => some x.colour
  | 4 => some x.cir
  | 5 => some x.cbs
  | 6 => some x.eir
  | 7 => some x.ebs
  | 8 => some x.actions
  | _ => none

/-- A meter's counters (0x3781:01–04). -/
def Meter.counter (x : Meter) (sub : Nat) : Option Nat :=
  match sub with
  | 1 => some x.green
  | 2 => some x.yellow
  | 3 => some x.red
  | 4 => some x.redDropped
  | _ => none

/-- METER_SELECT of an instance's window: its first meter until it writes one in its range (Table 13-6). -/
def State.meterSelect (s : State) (n : Nat) : Nat :=
  let r := recMeters (s.inst n).record
  match s.dict.get? (dkey (blk n 0x2A) 1) with
  | some v => if n = 0 ∨ inRange r v.nat then v.nat else r.1
  | none => r.1

/-- Ports, domain time, the table, Zelud and scheduling (Tables 12-13 and 13-6). -/
def State.pipeView (s : State) (idx sub : Nat) : Option DVal :=
  if 0x3000 ≤ idx ∧ idx < 0x3140 then
    if idx % 16 = 1 ∧ sub = 1 then some (.num (s.linkView ((idx - 0x3000) / 16))) else none
  else if 0x3600 ≤ idx ∧ idx < 0x3740 then
    let p := (idx - 0x3600) / 16
    if idx % 16 = 6 ∧ sub = 9 then
      some (.num (if s.portRate p = 0 then 0 else guardNs (s.dget (pIdx p 0) 4) (s.portRate p)))
    else none
  else match idx, sub with
    | 0x3180, 1 => some (.num s.time.ns)
    | 0x3180, 4 => some (.num (ofInt 32 s.time.ppb))
    | 0x3400, 1 => some (.num s.pipe.table.entries.length)
    | 0x3400, 2 => some (.num s.pipe.table.stashed)
    | 0x3400, 11 => some (.num mgmtMac)
    | 0x3503, 1 => some (.num ((s.ring 0).devices ++ (s.ring 1).devices).eraseDups.length)
    | 0x3783, 2 => some (.num s.bufferFree)
    | 0x3780, k => ((s.meter (s.dget 0x3780 1)).field k).map DVal.num
    | 0x3781, k => ((s.meter (s.dget 0x3780 1)).counter k).map DVal.num
    | _, _ =>
      if idx = 0x3501 ∨ idx = 0x3502 then
        let x := s.ring (idx - 0x3501)
        match sub with
        | 1 => some (.num x.state)
        | 2 => some (.num x.size)
        | _ => none
      else none

/-- The parameters and counts of a group as its window shows them (Table 14-12). -/
def Group.field (x : Group) (sub : Nat) : Option DVal :=
  match sub with
  | 2 => some (.num x.inst)
  | 3 => some (.num x.core)
  | 4 => some (.num x.threads)
  | 5 => some (.num x.spares)
  | 6 => some (.num x.entry)
  | 7 => some (.bytes x.weights)
  | 8 => some (.num x.queueKib)
  | 9 => some (.num x.standby)
  | 11 => some (.num x.watchdog)
  | 12 => some (.num x.stallAction)
  | 13 => some (.num x.faultLimit)
  | 14 => some (.num x.st)
  | 15 => some (.num x.rxDrops)
  | 16 => some (.num x.stalls)
  | 17 => some (.num x.faultCount)
  | 18 => some (.bytes (padTo 64 (x.steering.map (BitVec.ofNat 8))))
  | _ => none

/-- Flow cores (Table 14-12). -/
def State.flowView (s : State) (idx sub : Nat) : Option DVal :=
  if 0x3840 ≤ idx ∧ idx ≤ 0x385F then
    let c := idx - 0x3840
    if 1 ≤ sub ∧ sub ≤ 8 then some (.num (s.threadState (8 * c + sub - 1)))
    else if sub = 11 then some (.num (s.fcore c).st)
    else none
  else match idx, sub with
    | 0x3800, 3 => some (.num ((s.flow.groups.filter fun kv => kv.2.st != 0).length))
    | 0x3801, k => (s.groupOf (s.dget 0x3801 1)).field k
    | 0x3803, 1 => some (.bytes ((List.range 256).map fun g => BitVec.ofNat 8 (s.groupOf g).st))
    | _, _ => none

/-- The event gatherer (Table 15-13). -/
def State.gathererView (s : State) (idx sub : Nat) : Option DVal :=
  match idx, sub with
  | 0x3900, 7 => some (.num (sumNat (s.eg.frozenList.map fun t => 2 ^ t)))
  | 0x3901, 1 => some (.bytes s.eg.mapBytes)
  | 0x3901, 2 => some (.bytes s.eg.pendingBytes)
  | 0x3902, k => if 1 ≤ k then some (.num (s.eg.tstat (k - 1))) else none
  | _, _ => none

/-- The ash log, alarms, peat and the sensors (Tables 16-14 and 17-11). PULL is no plain read (R478). -/
def State.watchView (s : State) (idx sub : Nat) : Option DVal :=
  match idx, sub with
  | 0x3A00, 1 => some (.num s.ash.log.length)
  | 0x3A00, 2 => some (.num s.ash.nextSeq)
  | 0x3A00, 6 => some (.num s.ash.fok.length)
  | 0x3A10, 2 => some (.bytes s.ashWindow)
  | 0x3A11, 1 => some (.bytes (s.fokWindow 0))
  | 0x3A11, 2 => some (.bytes (s.fokWindow 1))
  | 0x3A20, 3 => some (.num (s.ash.backlog 0).length)
  | 0x3A21, 3 => some (.num (s.ash.backlog 1).length)
  | 0x3A22, 3 => some (.num (s.ash.backlog 2).length)
  | 0x3A30, 4 => some (.num s.alarmsRaised)
  | 0x3B10, 2 => some (.bytes s.peatWindow)
  | 0x3C00, k => if 1 ≤ k then some (.num (ofInt 32 (s.pow.sensors.getD (k - 1) 0))) else none
  | _, _ => none

/-- The threads of an instance that run, issuing or waiting (+0x11:03). -/
def State.threadsRunning (s : State) (n : Nat) : Nat :=
  ((s.threadsOf n).filter fun t => s.threadState t == 1 || s.threadState t == 2).length

/-- The THREAD_MASK of a record (Table 8-2). -/
def recThreads (r : Bytes) : Bytes := sub r 16 32

/-- An instance's own block (R237, Tables 8-2, 8-9 and the blocks' own tables). -/
def State.instView (s : State) (n off sub : Nat) : Option DVal :=
  let r := (s.inst n).record
  match off, sub with
  | 0x00, 1 => some (.num (leAt r 0 2))
  | 0x00, 2 => some (.num (leAt r 2 2))
  | 0x00, 3 => some (.num (leAt r 4 4))
  | 0x00, 4 => some (.num (leAt r 8 2))
  | 0x01, 1 => some (.num (leAt r 10 2))
  | 0x01, 2 => some (.num (leAt r 12 2))
  | 0x02, 1 => some (.num (byteAt r 14))
  | 0x03, 1 => some (.bytes (recThreads r))
  | 0x04, 1 => some (.num (leAt r 48 4))
  | 0x04, 2 => some (.num (leAt r 52 4))
  | 0x05, 1 => some (.num (leAt r 56 4))
  | 0x06, 1 => some (.num (leAt r 60 2))
  | 0x06, 2 => some (.num (leAt r 62 2))
  | 0x07, 1 => some (.num (byteAt r 15))
  | 0x10, 1 => some (.num (s.inst n).st.num)
  | 0x11, 1 => some (.num (s.cipher.keys.filter fun kv => inRange (recKeys r) kv.1).length)
  | 0x11, 2 => some (.num (s.enginesHeld n).length)
  | 0x11, 3 => some (.num (s.threadsRunning n))
  | 0x11, 4 => some (.num (s.pipe.table.owned n))
  | 0x11, 6 => some (.num (s.nsOwnedBy n))
  | 0x11, 7 => some (.num (leAt r 4 4 - s.reserveGiven n))
  | 0x18, 1 => some (.bytes (maskBytes 16 fun k => ((s.ns? (k + 1)).map fun x => x.owner == n).getD false))
  | 0x18, 2 => some (.bytes (maskBytes 16 fun k => ((s.ns? (k + 1)).map fun x => x.reader == some n).getD false))
  | 0x23, 1 => some (.num (((s.vpBind? n).map (·.cqid)).getD 0))
  | 0x23, 2 => some (.num (((s.vpBind? n).map (·.free)).getD 0))
  | 0x2A, 1 => some (.num (s.meterSelect n))
  | 0x2A, k => ((s.meter (s.meterSelect n)).field k).map DVal.num
  | 0x2B, k => ((s.meter (s.meterSelect n)).counter k).map DVal.num
  | 0x2C, 1 => some (.bytes (maskBytes 32 fun g => s.ownsGroup n g))
  | 0x30, 1 => some (.num (b2n (s.ladderActs n) + 2 * b2n (s.capActing n)))
  | 0x30, 2 => some (.num s.ladder)
  | 0x30, 3 => some (.num (s.dget (0x2140 + n) 3))
  | 0x30, 4 => some (.num (s.dget (0x2140 + n) 2))
  | _, _ => none

/-- The value that an entry shows where the state and not the store is its home. -/
def State.view (s : State) (idx sub : Nat) : Option DVal :=
  if idx < 0x2000 then
    match idx, sub with
    | 0x1018, 4 => some (.num (Config.serial % 2 ^ 32))
    | 0x1019, 0 => some (.num (Config.serial % 2 ^ 64))
    | _, _ => (groupAt idx).bind fun g => (s.groupView g sub).map DVal.num
  else if idx < 0x2100 then s.powerView idx sub
  else if idx < 0x2200 then s.damperView idx sub
  else if idx < 0x2300 then s.bootView idx sub
  else if idx < 0x2500 then s.hostView idx sub
  else if idx < 0x2600 then s.poolView idx sub
  else if idx < 0x2700 then s.storageView idx sub
  else if idx < 0x2800 then s.kilnView idx sub
  else if idx < 0x3000 then s.cipherView idx sub
  else if idx < 0x3800 then s.pipeView idx sub
  else if idx < 0x3900 then s.flowView idx sub
  else if idx < 0x3A00 then s.gathererView idx sub
  else if idx < 0x6000 then s.watchView idx sub
  else if (idx - 0x6000) % 0x40 = 0x3F then (groupAt idx).bind fun g => (s.groupView g sub).map DVal.num
  else s.instView ((idx - 0x6000) / 0x40) ((idx - 0x6000) % 0x40) sub

/-- The value that an existing entry reads; sub-index 00 by R33. A DOMAIN whose default is Zero reads that many zero bytes until it
is written. -/
def State.dictValue (s : State) (idx sub : Nat) : DVal :=
  match dictRow? idx sub with
  | none => .num (((indexTop idx).getD 0))
  | some r =>
    match s.view idx sub with
    | some v => v
    | none =>
      match s.dict.get? (dkey idx sub) with
      | some v => v
      | none => if r.ty = .domain ∧ r.dflt = .bytes [] then .bytes (zeros r.maxLen) else r.dflt

/-- An entry that measures what no command of the model brings in: the FEC codeword counts of a port and the voltages of the
rails. What it reads is free. -/
def measured (idx sub : Nat) : Bool :=
  idx == 0x3C02 || (decide (0x3000 ≤ idx) && decide (idx < 0x3140) && idx % 16 == 1 && (sub == 4 || sub == 5))

/-- A READ: its value, and what the read does. PULL removes what it returns (R478); a measured entry draws a free value. -/
def State.dictRead (s : State) (idx sub : Nat) : Bytes × State :=
  match dictRow? idx sub with
  | none => (leBytes 1 ((indexTop idx).getD 0), s)
  | some r =>
    if idx = 0x3A20 ∧ sub = 9 then s.exportPull
    else if measured idx sub then
      let (v, s) := s.drawBits (8 * r.ty.len)
      (leBytes r.ty.len v, s)
    else ((s.dictValue idx sub).enc r.ty, s)

end Sys2Proof.Machine
end

