-- ==== Sys2Proof/Machine/GroupCheck.lean ====
section
/-! DEFINITION. Commit groups (R52–R57): the members of a group, its shadow, the checks of the owning chapters (R60, R61, R121, R344,
R380, R386, R395, R405, R406, R418), what an apply does. -/

namespace Sys2Proof.Machine

/-- The entries of a commit group, in ascending order. -/
def groupMembers (g : Nat) : List (Nat × Nat) :=
  (dictRows.filter fun r => r.acc == .rwc && decide (r.group ≤ g)).flatMap fun r =>
    let k := if r.gstep = 0 then 0 else (g - r.group) / r.gstep
    if r.group + r.gstep * k = g ∧ k < max 1 r.count then (upFrom r.lo (r.hi + 1 - r.lo)).map fun q => (r.base + r.stride * k, q) else []

/-- The value of a member as the shadow holds it (R52). -/
def State.shadowVal (s : State) (g idx sub : Nat) : DVal :=
  match s.svc.shadows.get? g with
  | some x => (x.vals.get? (dkey idx sub)).getD (s.dictValue idx sub)
  | none => s.dictValue idx sub

/-- Its number. -/
def State.shadowNum (s : State) (g idx sub : Nat) : Nat := (s.shadowVal g idx sub).nat

/-- Its bytes. -/
def State.shadowBytes (s : State) (g idx sub : Nat) : Bytes :=
  match s.shadowVal g idx sub with
  | .bytes b => b
  | .num _ => []

/-- A new shadow: a copy of every active value (R52). -/
def State.shadowOpen (s : State) (g : Nat) (who : Requester) : Shadow :=
  ⟨who, false, (groupMembers g).foldl (fun m e => m.put (dkey e.1 e.2) (s.dictValue e.1 e.2)) []⟩

/-- The window entry of a group that names what its other entries show, and where the window stands (R405, R418). -/
def windowOf (g : Nat) : Option Nat :=
  if g = 46 then some 0x3780 else if g = 47 then some 0x3801 else if 0x100 ≤ g then some (blk (g - 0x100) 0x2A) else none

/-- The window entries of a meter or a group in the shadow, loaded with the active values of the one named (R405, R418). -/
def State.windowLoad (s : State) (w sel : Nat) (m : SMap DVal) : SMap DVal :=
  if w = 0x3801 then
    (upFrom 2 12).foldl (fun m q => match (s.groupOf sel).field q with
      | some v => m.put (dkey w q) v
      | none => m) m
  else
    (upFrom 2 7).foldl (fun m q => match (s.meter sel).field q with
      | some v => m.put (dkey w q) (.num v)
      | none => m) m

/-- A write to an entry of a group (R52): the shadow opens if it must and takes the value. -/
def State.shadowWrite (s : State) (g : Nat) (who : Requester) (idx sub : Nat) (v : DVal) : State :=
  let x := (s.svc.shadows.get? g).getD (s.shadowOpen g who)
  let m := x.vals.put (dkey idx sub) v
  let m := if sub = 1 ∧ windowOf g = some idx then s.windowLoad idx v.nat m else m
  (s.withSvc fun k => { k with shadows := k.shadows.put g { x with vals := m } })

/-- The shadow of a group is discarded and the group closes. -/
def State.shadowDrop (s : State) (g : Nat) : State := s.withSvc fun k => { k with shadows := k.shadows.del g }

/-- The conflicting entry of a rule (R55), as CONFLICT_FIRST gives it. -/
def conflictAt (idx sub : Nat) : Nat := idx * 0x10000 + sub * 0x100

/-- A rule of a check: none where it holds, else its conflicting entry. -/
def rule (ok : Bool) (idx sub : Nat) : List Nat := if ok then [] else [conflictAt idx sub]

/-- An address is neither the network nor the broadcast address of a prefix. -/
def hostAddress (a prefixLen : Nat) : Bool :=
  let m := 2 ^ (32 - prefixLen)
  a % m != 0 && a % m != m - 1

/-- The check of group 3 (R61). -/
def State.checkMgmt (s : State) : List Nat :=
  let a := s.shadowNum 3 0x1040 1
  let p := s.shadowNum 3 0x1040 2
  let g := s.shadowNum 3 0x1040 3
  let m := 2 ^ (32 - p)
  rule (a != 0 || g == 0) 0x1040 3 ++ rule (a == 0 || hostAddress a p) 0x1040 2
    ++ rule (g == 0 || (g / m == a / m && g != a && hostAddress g p)) 0x1040 3

/-- The check of group 4 (R121). -/
def State.checkDamper (s : State) : List Nat :=
  let limit := s.shadowNum 4 0x2100 1
  let sum := s.shadowNum 4 0x2101 1 + s.shadowNum 4 0x2101 2
  let cap := s.shadowNum 4 0x2102 2
  rule (decide (sum ≤ limit)) 0x2101 2
    ++ rule (s.shadowNum 4 0x2102 1 == 0 || (decide (sum ≤ cap) && decide (cap ≤ limit))) 0x2102 2
    ++ rule (decide (s.shadowNum 4 0x2103 1 + 5 ≤ s.shadowNum 4 0x2103 2)) 0x2103 2

/-- The check of a port's group (R344, Table 12-1). -/
def State.checkPort (s : State) (p : Nat) : List Nat :=
  let g := 5 + p
  let mode := s.shadowNum g (pIdx p 0) 2
  let fec := s.shadowNum g (pIdx p 0) 3
  let mtu := s.shadowNum g (pIdx p 0) 4
  rule (if p < 4 then mode == 1 || mode == 2 else mode == 3 || mode == 4 || mode == 5) (pIdx p 0) 2
    ++ rule (if p < 4 then decide (fec ≤ (if mode = 1 then 2 else 1)) else fec == 0) (pIdx p 0) 3
    ++ rule (decide (1518 ≤ mtu) && decide (mtu ≤ 9600)) (pIdx p 0) 4

/-- A ring's ports name two different trunk ports. -/
def trunkPair (v : Nat) : Bool := decide (v % 16 < 4) && decide (v / 16 < 4) && v % 16 != v / 16

/-- The check of group 25 (R380). -/
def State.checkZelud (s : State) : List Nat :=
  let a := s.shadowNum 25 0x3500 4
  let b := s.shadowNum 25 0x3500 5
  let ports := [a % 16, a / 16] ++ (if b = 0xFF then [] else [b % 16, b / 16])
  if s.shadowNum 25 0x3500 1 = 0 then []
  else rule (s.shadowNum 25 0x3500 3 != 0) 0x3500 3 ++ rule (trunkPair a) 0x3500 4
    ++ rule (b == 0xFF || (trunkPair b && !([a % 16, a / 16] : List Nat).contains (b % 16) && !([a % 16, a / 16] : List Nat).contains (b / 16))) 0x3500 5
    ++ rule (ports.all fun p => decide (s.shadowNum 25 0x3500 6 ≤ s.dget (pIdx p 0) 4)) 0x3500 6

/-- The check of a port's scheduling group (R395). -/
def State.checkSched (s : State) (p : Nat) : List Nat :=
  let g := 26 + p
  let shaped := s.shadowNum g (sIdx p 4) 1
  let n := s.shadowNum g (sIdx p 5) 4
  let b := padTo 2048 (s.shadowBytes g (sIdx p 5) 5)
  let l := gateEntries n b
  rule ((List.range 8).all fun q => !bit shaped q || s.shadowNum g (sIdx p 2) (q + 1) != 0) (sIdx p 4) 1
    ++ rule (decide (1 ≤ n) && decide (n ≤ 256)) (sIdx p 5) 4
    ++ rule ((List.range n).all fun i => decide (32 ≤ leAt b (8 * i) 4) && decide (leAt b (8 * i) 4 ≤ 1000000000)
        && allZero (sub b (8 * i + 5) 3)) (sIdx p 5) 5
    ++ rule (decide (sumNat (l.map Prod.fst) ≤ s.shadowNum g (sIdx p 5) 3)) (sIdx p 5) 5

/-- The check of a meter window at an index (R405). -/
def State.checkMeter (s : State) (g w : Nat) : List Nat :=
  let f := s.shadowNum g w
  rule (f 2 == 0 || (f 2 == 1 && f 6 == 0 && decide (0 < f 5 + f 7))
    || (f 2 == 2 && decide (f 4 ≤ f 6) && decide (0 < f 5) && decide (0 < f 7))) w 7

/-- The weights that a group other than one puts on a core: those of its threads and spares. -/
def State.weightsOn (s : State) (core but : Nat) : Nat :=
  sumNat ((s.flow.groups.filter fun kv => kv.1 != but && kv.2.st != 0 && kv.2.core == core).map fun kv =>
    sumNat ((maskList kv.2.members).map fun i => byteAt kv.2.weights i))

/-- The check of group 47 (R418). -/
def State.checkGroup (s : State) : List Nat :=
  let f := s.shadowNum 47 0x3801
  let b := s.shadowBytes 47 0x3801 7
  let g := f 1
  let x := s.groupOf g
  let all := maskList (Nat.lor (f 4) (f 5))
  let named := all.map fun i => 8 * f 3 + i
  rule (f 4 != 0) 0x3801 4 ++ rule (Nat.land (f 4) (f 5) == 0) 0x3801 5
    ++ rule (named.all fun t => (s.threadsOf (f 2)).contains t
        && !(s.flow.groups.any fun kv => kv.1 != g && kv.2.has t)) 0x3801 5
    ++ rule (f 6 % 2 == 0 && decide (f 6 < 0x10000)) 0x3801 6
    ++ rule (decide (sumNat (all.map fun i => byteAt b i) + s.weightsOn (f 3) g ≤ 16)) 0x3801 7
    ++ rule (f 9 == 0xFFFF || (let y := s.groupOf (f 9)
        y.st != 0 && y.inst == f 2 && y.core != f 3 && y.standby == 0xFFFF)) 0x3801 9
    ++ rule (x.st != 2 || (x.inst == f 2 && x.core == f 3 && x.threads == f 4 && x.spares == f 5 && x.entry == f 6)) 0x3801 6

/-- The check of an instance's group (R386, R405, R406). -/
def State.checkBlock (s : State) (n : Nat) : List Nat :=
  let g := 0x100 + n
  let mac := s.shadowNum g (blk n 0x20) 1
  rule (!bit mac 40) (blk n 0x20) 1 ++ rule (s.shadowNum g (blk n 0x20) 2 == 0 || mac != 0) (blk n 0x20) 2
    ++ rule (inVlan (padTo 512 (s.shadowBytes g (blk n 0x21) 1)) (s.shadowNum g (blk n 0x20) 4)) (blk n 0x21) 1
    ++ rule (s.shadowNum g (blk n 0x28) 3 == 0 || s.shadowNum g (blk n 0x28) 1 != 0) (blk n 0x28) 3
    ++ s.checkMeter g (blk n 0x2A)

/-- The conflicting entries of the rules of a group's check that fail (R55). -/
def State.groupCheck (s : State) (g : Nat) : List Nat :=
  if g = 1 ∨ g = 2 then
    let idx := 0x100F + g
    rule (s.shadowNum g idx 3 == 0 || decide (s.shadowNum g idx 2 ≤ s.shadowNum g idx 3)) idx 3
  else if g = 3 then s.checkMgmt
  else if g = 4 then s.checkDamper
  else if g < 25 then s.checkPort (g - 5)
  else if g = 25 then s.checkZelud
  else if g < 46 then s.checkSched (g - 26)
  else if g = 46 then s.checkMeter 46 0x3780
  else if g = 47 then s.checkGroup
  else s.checkBlock (g - 0x100)

/-- A meter takes the window's values with both buckets full (R405). -/
def State.meterApply (s : State) (m : Nat) (f : Nat → Nat) : State :=
  s.setMeter m { s.meter m with
    mode := f 2
    colour := f 3
    cir := f 4
    cbs := f 5
    eir := f 6
    ebs := f 7
    actions := f 8
    tc := f 5 * meterByte
    te := f 7 * meterByte
    filled := s.time.ns }

/-- A thread group takes the window's values; an UNUSED one becomes STOPPED (R418). -/
def State.threadGroupApply (s : State) (g : Nat) (f : Nat → Nat) (weights : Bytes) : State :=
  s.withGroup g fun x => { x with
    st := if x.st = 0 then 1 else x.st
    inst := f 2
    core := f 3
    threads := f 4
    spares := f 5
    entry := f 6
    weights := weights
    queueKib := f 8
    standby := f 9
    watchdog := f 11
    stallAction := f 12
    faultLimit := f 13
    active := x.active.map fun a => (a.1, byteAt weights a.1) }

/-- The shadow becomes the active set in one step (R54), and the block acts on it. -/
def State.groupApply (s : State) (g : Nat) : State :=
  match s.svc.shadows.get? g with
  | none => s
  | some x =>
    let w := windowOf g
    let plain := x.vals.filter fun kv => match w with
      | some i => !(kv.1 / 256 == i) || kv.1 % 256 == 1
      | none => true
    let f (i q : Nat) : Nat := ((x.vals.get? (dkey i q)).getD (.num 0)).nat
    let s : State := plain.foldl (fun s kv => s.dsetv (kv.1 / 256) (kv.1 % 256) kv.2) s
    let s :=
      if g < 5 then s
      else if g < 25 then s.portDown (g - 5)
      else if g = 25 then s.zeludApply
      else if g < 46 then s.schedApply (g - 26)
      else if g = 46 then s.meterApply (f 0x3780 1) (f 0x3780)
      else if g = 47 then
        s.threadGroupApply (f 0x3801 1) (f 0x3801) (match x.vals.get? (dkey 0x3801 7) with
          | some (.bytes b) => b
          | _ => [])
      else
        let n := g - 0x100
        let i := blk n 0x2A
        if n = 0 ∨ inRange (recMeters (s.inst n).record) (f i 1) then s.meterApply (f i 1) (f i) else s
    s.shadowDrop g

end Sys2Proof.Machine
end

