-- ==== Sys2Proof/Machine/DictWrite.lean ====
section
/-! DEFINITION. What a dictionary write does beyond storing a value (R34): the ranges that are more than a range of numbers, the
effects and refusals that the owning chapters give. -/

namespace Sys2Proof.Machine

/-- The value lies in the row's range (check 8 of Table 2-13). -/
def DRow.admits (r : DRow) (v : DVal) : Bool :=
  match r.ty, v with
  | .bool, .num k => decide (k ≤ 1)
  | .vstr, .bytes b => b.all fun x => decide (0x20 ≤ x.toNat) && decide (x.toNat ≤ 0x7E)
  | _, .num k => r.range.isEmpty || inRanges r.range k
  | _, .bytes _ => true

/-- A content that an entry's own table refuses (check 8). -/
def State.contentBad (s : State) (idx sub : Nat) (v : DVal) : Bool :=
  let b := match v with
    | .bytes b => b
    | .num _ => []
  match idx, sub with
  | 0x2003, 4 => v.nat != 0 && decide (v.nat ≤ s.time.slow % 2 ^ 48)
  | 0x3782, 1 => b.any fun x => decide (2 < x.toNat)
  | 0x3801, 7 => (padTo 8 b).any fun x => x.toNat == 0 || decide (16 < x.toNat)
  | 0x3B00, 4 => decide (8 < ((List.range 256).filter fun t => bit (byteAt b (t / 8)) (t % 8)).length)
  | 0x3B10, 1 => v.nat % 4096 != 0
  | 0x3802, 1 => decide (v.nat / 256 = 0) || decide (4 < v.nat / 256)
  | _, _ =>
    if 0x3600 ≤ idx ∧ idx < 0x3740 ∧ idx % 16 = 0 ∧ sub = 2 then b.any fun x => decide (7 < x.toNat)
    else if 0x6040 ≤ idx ∧ (idx - 0x6000) % 0x40 = 0x2A ∧ sub = 1 then
      !inRange (recMeters (s.inst ((idx - 0x6000) / 0x40)).record) v.nat
    else false

/-- A write to the peat region's size (R486). -/
def State.regionWrite (s : State) (mib : Nat) : Status × State :=
  let top := s.instances.foldl (fun m n => let d := recDram (s.inst n).record; if d.2 = 0 then m else max m (d.1 + d.2)) 0
  if s.dget 0x3B00 1 ≠ 0 then (.notInThisState, s)
  else if s.dget 0x3B00 2 < mib ∧ Config.dramMib < top + 64 + mib then (.poolExhausted, s)
  else (.ok, s.dset 0x3B00 2 mib)

/-- REPLAY_ARM (R494): the device leaves service and its recorded harts go to the replayer. -/
def State.replayArm (s : State) : Status × State :=
  if s.imageCheck ≠ .ok ∨ !s.boundStreams.isEmpty ∨ s.evidenceBusy then (.notInThisState, s)
  else
    let s : State := s.flow.groups.foldl (fun s kv => if kv.2.st = 2 then s.groupStop kv.1 .stay else s) s
    let s : State := (List.range 20).foldl State.portDown s
    (.ok, s)

/-- Writes of the power, boot and damper entries that act (Tables 3-19, 4-15 and 5-9). -/
def State.powerWrite (s : State) (idx sub : Nat) (v : DVal) : Option (Status × State) :=
  match idx, sub with
  | 0x2203, 6 =>
    some (if s.dget 0x2203 4 = 1 then (.notInThisState, s) else (.ok, s.emberStart))
  | 0x2000, 2 =>
    some (if s.requestCheck v.nat = .ok then (.ok, s.requestStart v.nat) else (s.requestCheck v.nat, s))
  | 0x2100, 11 => some (.ok, s.forceStepEffect v.nat)
  | 0x2105, 5 => some (.ok, s.snapshotEffect)
  | _, _ => none

/-- Writes of the pipeline, flow-core and gatherer entries that act (Tables 12-13, 14-12 and 15-13). -/
def State.blockWrite (s : State) (idx sub : Nat) (v : DVal) : Option (Status × State) :=
  match idx, sub with
  | 0x3180, 14 => some (.ok, s.withPipe fun p => { p with timeSet := some v.nat })
  | 0x3802, 1 => some (s.groupCommand (v.nat % 256) (v.nat / 256))
  | 0x3900, 8 => some (.ok, (s.withGatherer fun g => g.clear v.nat))
  | 0x3901, 1 =>
    let b := match v with
      | .bytes b => b
      | .num _ => []
    some (if sourceMapCheck b = .ok then (.ok, (s.withGatherer fun g => g.applyMap b)) else (sourceMapCheck b, s))
  | _, _ =>
    if 0x3840 ≤ idx ∧ idx ≤ 0x385F ∧ sub = 10 then
      let t := s.dset idx 10 v.nat
      some (.ok, if s.dget idx 10 = v.nat then t else t.deliveryClear (idx - 0x3840))
    else if 0x6000 ≤ idx ∧ (idx - 0x6000) % 0x40 = 0x2D ∧ sub = 1 then
      some (s.groupRestartOwn ((idx - 0x6000) / 0x40) v.nat)
    else none

/-- Writes of the ash log's, the alarms' and peat's entries that act, and of DEBUG_ENABLE (Tables 16-14 and 17-11). -/
def State.watchWrite (s : State) (idx sub : Nat) (v : DVal) : Option (Status × State) :=
  match idx, sub with
  | 0x3A00, 3 => some (.ok, if v.nat = 1 then s.logClear else s.fokClear)
  | 0x3A30, 3 => some (.ok, s.ackAll)
  | 0x3B00, 1 => some (.ok, s.peatMode v.nat)
  | 0x3B00, 2 => some (s.regionWrite v.nat)
  | 0x3B00, 4 => some (if s.peatOn then (.notInThisState, s) else (.ok, s.dsetv 0x3B00 4 v))
  | 0x3B01, 1 => some (.ok, if s.dget 0x3B00 3 = 1 then s.peatTrigger 1 0 else s)
  | 0x3B02, 1 => some s.replayArm
  | 0x3B10, 2 =>
    some (match v with
      | .bytes b => s.peatWindowWrite b
      | .num _ => (.lengthMismatch, s))
  | 0x3C10, 1 =>
    let s := s.dset 0x3C10 1 v.nat
    some (.ok, if s.debugPermitted ∨ s.dget 0x3C10 2 = 0 then s else (s.dset 0x3C10 2 0).event 555)
  | _, _ =>
    if 0x3A40 ≤ idx ∧ idx ≤ 0x3ABF then
      if sub = 8 then some (.ok, s.alarmAck (idx - 0x3A40))
      else if sub ≤ 4 then some (.ok, (s.alarmAck (idx - 0x3A40)).dsetv idx sub v)
      else none
    else none

/-- The write mask of an instance (R50, R51): its fixed bits are forced, and the shadows the instance holds are discarded. -/
def State.maskWrite (s : State) (n v : Nat) : State :=
  (s.dset (0x1FC0 + n) 1 (setBit (v / 0x10000 * 0x10000) 63 true)).shadowsDrop n

/-- A write that passed the checks of Table 2-13 up to the ninth: the tenth, and its effect. -/
def State.entryWrite (s : State) (idx sub : Nat) (v : DVal) : Status × State :=
  match s.powerWrite idx sub v with
  | some r => r
  | none => match s.blockWrite idx sub v with
    | some r => r
    | none => match s.watchWrite idx sub v with
      | some r => r
      | none =>
        if 0x1FC1 ≤ idx ∧ idx ≤ 0x1FFF ∧ sub = 1 then (.ok, s.maskWrite (idx - 0x1FC0) v.nat)
        else (.ok, s.dsetv idx sub v)

end Sys2Proof.Machine
end

