-- ==== Sys2Proof/Machine/Service.lean ====
section
/-! DEFINITION. The dictionary service (R35–R58): who sees and may write what, the order of the checks of Table 2-13, the answers of the
mailbox, CAN and Onsia paths, the requests that wait. -/

namespace Sys2Proof.Machine

/-- The rights entry of an external path (R47); the mailbox has none. -/
def State.pathRights (s : State) : Requester → Nat
  | .mailbox _ => 2
  | .can port => s.dget (0x1010 + port) 4
  | .onsia _ _ _ => s.dget 0x1041 2

/-- The requester may see the index (R49, Table 2-10). -/
def visible (who : Requester) (idx : Nat) : Bool :=
  match who with
  | .mailbox 0 => true
  | .mailbox n => (decide (0x1000 ≤ idx) && decide (idx ≤ 0x101F)) || (decide (blk n 0 ≤ idx) && decide (idx ≤ blk n 0x3F))
  | _ => true

/-- A rights entry, which only the mailbox of PF0 writes (R47, Table 17-11). -/
def rightsEntry (idx sub : Nat) : Bool :=
  ((idx == 0x1010 || idx == 0x1011) && sub == 4) || (idx == 0x1041 && sub == 2) || (idx == 0x3C10 && sub == 1)

/-- The requester, on its path, may write the entries of the index that take writes (R47, R49, R50). -/
def State.mayWrite (s : State) (who : Requester) (idx sub : Nat) : Bool :=
  match who with
  | .mailbox 0 => true
  | .mailbox n => decide (blk n 0 ≤ idx) && decide (idx ≤ blk n 0x3F) && bit (s.dget (0x1FC0 + n) 1) (idx - blk n 0)
  | _ => s.pathRights who == 2 && !rightsEntry idx sub

/-- The index exists. -/
def indexExists (idx : Nat) : Bool := (indexTop idx).isSome

/-- The sub-index exists: a row has it, or R33 adds it. -/
def subExists (idx sub : Nat) : Bool := (dictRow? idx sub).isSome || (sub == 0 && indexExists idx)

/-- The type of an existing entry. -/
def entryType (idx sub : Nat) : DTy := ((dictRow? idx sub).map DRow.ty).getD .u8

/-- Its access code; the sub-index 00 of R33 is CONST. -/
def entryAccess (idx sub : Nat) : DAcc := ((dictRow? idx sub).map DRow.acc).getD .const

/-- Its commit group, 0 for none. -/
def entryGroup (idx sub : Nat) : Nat := ((dictRow? idx sub).map fun r => r.groupOf idx).getD 0

/-- Its greatest length. -/
def entryMax (idx sub : Nat) : Nat := ((dictRow? idx sub).map DRow.maxLen).getD 1

/-- A write of instance n to its own block whose mask bit is clear is counted (R50). -/
def State.denied (s : State) (who : Requester) (idx : Nat) : State :=
  match who with
  | .mailbox 0 => s
  | .mailbox n => if blk n 0 ≤ idx ∧ idx ≤ blk n 0x3F ∧ !bit (s.dget (0x1FC0 + n) 1) (idx - blk n 0) then s.dinc (0x1FC0 + n) 2 else s
  | _ => s

/-- Checks 3 to 5 of Table 2-13. -/
def placeCheck (who : Requester) (idx sub : Nat) : Status :=
  if !visible who idx then .notYourInstance
  else if !indexExists idx then .unknownIndexOrOpcode
  else if !subExists idx sub then .unknownSubindex
  else .ok

/-- Check 9: the group that a write meets is held by another session (R53). -/
def State.heldByOther (s : State) (who : Requester) (g : Nat) : Bool :=
  match s.svc.shadows.get? g with
  | some x => x.holder != who
  | none => false

/-- Checks 6 to 9 of Table 2-13 on a write. -/
def State.writeCheck (s : State) (who : Requester) (idx sub : Nat) (data : Bytes) : Status :=
  let acc := entryAccess idx sub
  match dictRow? idx sub with
  | none => .readOnly
  | some r =>
    let v := DVal.dec r.ty data
    if !s.mayWrite who idx sub || acc == .ro || acc == .const then .readOnly
    else if (if r.ty.len = 0 then decide (r.maxLen < data.length) else data.length != r.ty.len) then .lengthMismatch
    else if !r.admits v || s.contentBad idx sub v then .outOfRange
    else
      let g := if acc = .rwc then some (r.groupOf idx) else if sub = 1 then groupAt idx else none
      match g with
      | some g => if s.heldByOther who g then .groupHeld else .ok
      | none => .ok

/-- The next entry after one that the requester can see (Table 2-3); 0, 0 for none. -/
def nextEntry (who : Requester) (idx sub : Nat) : Nat × Nat :=
  let here := if visible who idx then
      (dictRows.filterMap fun r => if (r.pos idx).isSome ∧ sub < r.hi then some (max r.lo (sub + 1)) else none).min?
    else none
  match here with
  | some q => (idx, q)
  | none =>
    let later := (dictRows.map fun r =>
      ((List.range (max 1 r.count)).map fun k => r.base + r.stride * k).filter fun i => decide (idx < i) && visible who i).flatten
    match later.min? with
    | some i => (i, 0)
    | none => (0, 0)

/-- The access code that INFO gives a requester: what it may not write reads as RO (Table 2-3). -/
def State.infoAccess (s : State) (who : Requester) (idx sub : Nat) : Nat :=
  let acc := entryAccess idx sub
  if (acc = .rw ∨ acc = .rwc) ∧ !s.mayWrite who idx sub then DAcc.ro.code else acc.code

/-- The answer data of INFO (Table 2-3). -/
def State.infoBytes (s : State) (who : Requester) (idx sub : Nat) : Bytes :=
  leBytes 1 (entryType idx sub).code ++ leBytes 1 (s.infoAccess who idx sub) ++ leBytes 2 (entryGroup idx sub)
    ++ leBytes 2 (entryMax idx sub) ++ zeros 2

/-- What the service makes of a request: an answer now, or a commit that waits for its apply point. -/
inductive Served where
  | answer (st : Status) (data : Bytes) (s : State)
  | commit (g : Nat) (s : State)

/-- A write to a commit entry (R54–R56). -/
def State.commitWrite (s : State) (g v : Nat) : Served :=
  match s.svc.shadows.get? g with
  | none => .answer .notInThisState [] s
  | some x =>
    if v = 2 then .answer .ok [] (s.shadowDrop g)
    else match (s.groupCheck g).min? with
      | none => .commit g s
      | some c =>
        let s := s.withSvc fun k => { k with shadows := k.shadows.put g { x with refused := true } }
        .answer .groupConflict [] ((s.dset (groupIdx g) 4 Status.groupConflict.code).dset (groupIdx g) 5 c)

/-- A WRITE request through the checks of Table 2-13 and its effect. -/
def State.serveWrite (s : State) (who : Requester) (idx sub : Nat) (data : Bytes) : Served :=
  match placeCheck who idx sub with
  | .ok =>
    match s.writeCheck who idx sub data with
    | .ok =>
      let v := DVal.dec (entryType idx sub) data
      if entryAccess idx sub = .rwc then .answer .ok [] (s.shadowWrite (entryGroup idx sub) who idx sub v)
      else match (if sub = 1 then groupAt idx else none) with
        | some g => s.commitWrite g v.nat
        | none =>
          let (st, t) := s.entryWrite idx sub v
          if st = .ok then .answer .ok [] t else .answer st [] s
    | .readOnly => .answer .readOnly [] (s.denied who idx)
    | st => .answer st [] s
  | st => .answer st [] s

/-- One request through the checks of Table 2-13 (R58). -/
def State.serveRequest (s : State) (r : DictReq) : Served :=
  if !s.boot.ready then .answer .notInThisState [] s
  else match r.op with
    | .unknown => .answer .unknownIndexOrOpcode [] s
    | .next =>
      let (i, q) := nextEntry r.who r.index r.sub
      .answer .ok (leBytes 2 i ++ leBytes 1 q ++ zeros 1) s
    | .write => s.serveWrite r.who r.index r.sub r.data
    | .info =>
      match placeCheck r.who r.index r.sub with
      | .ok => .answer .ok (s.infoBytes r.who r.index r.sub) s
      | st => .answer st [] s
    | .read =>
      match placeCheck r.who r.index r.sub with
      | .ok =>
        if entryAccess r.index r.sub = .wo then .answer .writeOnly [] s
        else
          let (b, t) := s.dictRead r.index r.sub
          .answer .ok b t
      | st => .answer st [] s
    | .readShadow =>
      match placeCheck r.who r.index r.sub with
      | .ok =>
        if entryAccess r.index r.sub = .wo then .answer .writeOnly [] s
        else if entryAccess r.index r.sub = .rwc then
          .answer .ok ((s.shadowVal (entryGroup r.index r.sub) r.index r.sub).enc (entryType r.index r.sub)) s
        else
          let (b, t) := s.dictRead r.index r.sub
          .answer .ok b t
      | st => .answer st [] s

/-- The answer of a mailbox request (R38): data, RLEN and CODE, then DONE and BUSY in one update, then the message. -/
def State.mailboxAnswer (s : State) (n : Nat) (st : Status) (data : Bytes) : State :=
  let data := if st = .ok then data else []
  let s := s.withFn n fun x => { x with box := { x.box with
    data := Mem.writeN x.box.data 0 data
    rlen := data.length
    code := st.code
    done := true
    busy := false } }
  let s := s.emit (.mailbox n st.code data)
  let irq := (s.fn n).box.irq
  if bit irq 31 then s.raise n (bits irq 0 11) else s

/-- A USDO abort of a port (R42): the cause in the port's LAST_ABORT entry. -/
def State.usdoAbort (s : State) (port : Nat) (st : Status) : State :=
  (s.dset (0x1010 + port) 5 st.code).emit (.usdo port true (leBytes 4 0x08000000))

/-- The bytes of a value that one USDO frame carries. -/
def usdoFrameBytes : Nat := 56

/-- The answer of a USDO request (R41): expedited where the value fits in one frame, else the first segment of an upload. -/
def State.usdoAnswer (s : State) (port idx sub : Nat) (upload : Bool) (st : Status) (data : Bytes) : State :=
  if st ≠ .ok then s.usdoAbort port st
  else if upload ∧ usdoFrameBytes < data.length then
    let s := s.withSvc fun k => { k with
      transfers := k.transfers.put port ⟨true, idx, sub, data.length, data.drop usdoFrameBytes, false⟩ }
    s.emit (.usdo port false (data.take usdoFrameBytes))
  else s.emit (.usdo port false data)

/-- A session of the Onsia path. -/
def State.session? (s : State) (a p k : Nat) : Option OnsiaSession :=
  s.svc.sessions.find? fun x => x.addr == a && x.port == p && x.session == k

/-- A session changed. -/
def State.withSession (s : State) (a p k : Nat) (f : OnsiaSession → OnsiaSession) : State :=
  s.withSvc fun v => { v with sessions := v.sessions.map fun x => if x.addr == a && x.port == p && x.session == k then f x else x }

/-- An Onsia answer sent (R43, R45): counted, kept by its session; it leaves in the VLAN given. -/
def State.onsiaSend (s : State) (a p k vlan : Nat) (b : Bytes) : State :=
  ((s.dinc 0x1041 5).withSession a p k fun x => { x with answer := b }).emit (.datagram a p vlan b)

/-- An answer travels to its requester, in the management VLAN given (R54). -/
def State.answer (s : State) (r : DictReq) (vlan : Nat) (st : Status) (data : Bytes) : State :=
  let data := if st = .ok then data else []
  let code : Nat := match r.op with
    | .read => 0
    | .write => 1
    | .info => 2
    | .next => 3
    | .readShadow => 4
    | .unknown => 0
  match r.route, r.who with
  | .discard, _ => s
  | .onsia op seq flags off, .onsia a p k =>
    s.onsiaSend a p k vlan (onsiaBytes (Nat.lor 0x80 (op % 8)) k seq r.index r.sub flags st.code off data)
  | .usdo up, .can port => s.usdoAnswer port r.index r.sub up st data
  | _, .mailbox n => s.mailboxAnswer n st data
  | _, .can port => if st = .ok then s.emit (.usdo port false data) else s.usdoAbort port st
  | _, .onsia a p k => s.onsiaSend a p k vlan (onsiaBytes (0x80 + code) k 0 r.index r.sub 0 st.code 0 data)

/-- The copy of a value that a session's READ at offset 0 took, served from an offset on (R46): status, bytes, LAST. -/
def copyPart (copy : Option (Nat × Nat × Bytes)) (idx sub off : Nat) : Status × Bytes × Bool :=
  match copy with
  | some (i, q, b) =>
    if i ≠ idx ∨ q ≠ sub then (.notInThisState, [], false)
    else if b.length ≤ off then (.outOfRange, [], false)
    else (.ok, (b.drop off).take 1024, decide (b.length ≤ off + 1024))
  | none => (.notInThisState, [], false)

/-- One Onsia answer with its LAST flag; a copy whose last part has left is freed (R46). -/
def State.onsiaPart (s : State) (a p k : Nat) (r : DictReq) (op seq off : Nat) (x : Status × Bytes × Bool) : State :=
  let s := if x.2.2 then s.withSession a p k fun y => { y with copy := none } else s
  s.answer { r with route := .onsia op seq (2 * b2n x.2.2) off } (s.dget 0x1040 4) x.1 x.2.1

/-- The WRITE part of a session after a segment (R46): the whole value when it is complete, none while parts are missing, or
the refusal of a segment out of place. -/
def joinPart (part : Option (Nat × Nat × Bytes)) (idx sub off : Nat) (first last : Bool) (b : Bytes) :
    Except Status (Bytes × Bool) :=
  if first then (if off = 0 then .ok (b, last) else .error .fieldInvalid)
  else match part with
    | some (i, q, x) => if i = idx ∧ q = sub ∧ off = x.length then .ok (x ++ b, last) else .error .fieldInvalid
    | none => .error .fieldInvalid

/-- A commit that passed its check waits for its apply (R54). -/
def State.commitWaits (s : State) (g : Nat) (r : DictReq) : State := s.withSvc fun k => { k with commit := some (g, r) }

/-- What follows an answered request: the replay takes over after its last answer (R494). -/
def State.afterAnswer (s : State) (r : DictReq) (st : Status) : State :=
  if r.op = .write ∧ r.index = 0x3B02 ∧ r.sub = 1 ∧ st = .ok then
    (s.withPeat fun p => { p with replay := true }).replayBegin
  else s

/-- A request served and answered on its path, Onsia's segments apart. -/
def State.servePlain (s : State) (r : DictReq) : State :=
  let vlan := s.dget 0x1040 4
  match s.serveRequest r with
  | .answer st b t => (t.answer r vlan st b).afterAnswer r st
  | .commit g t => t.commitWaits g r

/-- A request of an Onsia session (R46). -/
def State.serveOnsia (s : State) (r : DictReq) (a p k op seq flags off : Nat) : State :=
  let x := s.session? a p k
  match r.op with
  | .write =>
    match joinPart (x.bind (·.part)) r.index r.sub off (bit flags 0) (bit flags 1) r.data with
    | .error st => (s.withSession a p k fun y => { y with part := none }).answer r (s.dget 0x1040 4) st []
    | .ok (b, true) => (s.withSession a p k fun y => { y with part := none }).servePlain { r with data := b }
    | .ok (b, false) =>
      (s.withSession a p k fun y => { y with part := some (r.index, r.sub, b) }).answer r (s.dget 0x1040 4) .ok []
  | .read =>
    if off ≠ 0 then s.onsiaPart a p k r op seq off (copyPart (x.bind (·.copy)) r.index r.sub off)
    else match s.serveRequest r with
      | .answer .ok b t =>
        (t.withSession a p k fun y => { y with copy := some (r.index, r.sub, b) }).onsiaPart a p k r op seq 0
          (.ok, b.take 1024, decide (b.length ≤ 1024))
      | .answer st _ t => (t.withSession a p k fun y => { y with copy := none }).onsiaPart a p k r op seq 0 (st, [], false)
      | .commit g t => t.commitWaits g r
  | .readShadow =>
    match s.serveRequest r with
    | .answer .ok b t =>
      if off < b.length ∨ off = 0 then
        t.onsiaPart a p k r op seq off (.ok, (b.drop off).take 1024, decide (b.length ≤ off + 1024))
      else t.onsiaPart a p k r op seq off (.outOfRange, [], false)
    | .answer st _ t => t.onsiaPart a p k r op seq off (st, [], false)
    | .commit g t => t.commitWaits g r
  | _ => s.servePlain r

/-- One request served (R35). -/
def State.serveOne (s : State) (r : DictReq) : State :=
  match r.route, r.who with
  | .onsia op seq flags off, .onsia a p k => s.serveOnsia r a p k op seq flags off
  | _, _ => s.servePlain r

/-- The service takes requests: the hearth runs, no transition runs (R97), no commit waits for its apply (R35). -/
def State.canServe (s : State) : Bool := s.hearthRuns && s.pow.trans == 0 && s.svc.commit.isNone

/-- The waiting requests are served in order while the service can (R35, R97). -/
def State.serveN (s : State) : Nat → State
  | 0 => s
  | f + 1 =>
    if s.canServe then
      match s.svc.held with
      | [] => s
      | r :: t => ((s.withSvc fun k => { k with held := t }).serveOne r).serveN f
    else s

/-- Every waiting request that can be served. -/
def State.serveHeld (s : State) : State := s.serveN s.svc.held.length

/-- A request joins the queue of the service. -/
def State.enqueue (s : State) (r : DictReq) : State := s.withSvc fun k => { k with held := k.held ++ [r] }

/-- A GO of function n's mailbox (R38–R40): ignored while BUSY; before READY, and where the instance is ABSENT (Table 8-3) or FENCED
(R174), it is done at once. -/
def State.mailboxGo (s : State) (n : Nat) (r : DictReq) : State :=
  if !s.host.up ∨ !s.fnPresent n ∨ (s.fn n).box.busy then s
  else if !s.boot.ready ∨ (s.inst n).st = .absent ∨ (s.inst n).st = .fenced then
    let s := s.withFn n fun x => { x with box := { x.box with
      done := true
      code := Status.notInThisState.code
      rlen := 0 } }
    let s := s.emit (.mailbox n Status.notInThisState.code [])
    if bit (s.fn n).box.irq 31 then s.raise n (bits (s.fn n).box.irq 0 11) else s
  else (s.withFn n fun x => { x with box := { x.box with
      done := false
      busy := true } }).enqueue r

/-- A request arrives on its path. CAN and Onsia reach the device awake, on a path that is served (R47). -/
def State.request (s : State) (r : DictReq) : State :=
  match r.who with
  | .mailbox n => s.mailboxGo n r
  | .can port => if s.live ∧ port < 2 ∧ s.pathRights r.who ≠ 0 then s.enqueue r else s
  | .onsia _ _ _ => if s.live ∧ s.dget 0x1040 1 ≠ 0 ∧ s.pathRights r.who ≠ 0 then s.enqueue r else s

/-- The request of a row that names an operation, an entry and data: the registers of a mailbox hold it as the driver wrote it. -/
def State.dictRequest (s : State) (who : Requester) (op : DictOp) (idx sub : Nat) (data : Bytes) : State :=
  let code : Nat := match op with
    | .read => 0
    | .write => 1
    | .info => 2
    | .next => 3
    | .readShadow => 4
    | .unknown => 7
  let s := match who with
    | .mailbox n =>
      if !s.host.up ∨ !s.fnPresent n ∨ (s.fn n).box.busy then s
      else s.withFn n fun x => { x with box := { x.box with
        cmd := code * 0x1000000 + sub * 0x10000 + idx
        len := if op == DictOp.write then data.length else x.box.len
        data := if op == DictOp.write then Mem.writeN x.box.data 0 data else x.box.data } }
    | _ => s
  s.request ⟨who, op, idx, sub, data, .plain⟩

/-- A write request of a number in an entry's own length. -/
def State.writeRequest (s : State) (who : Requester) (idx sub v : Nat) : State :=
  s.dictRequest who .write idx sub (leBytes (entryType idx sub).len v)

/-- GROUP_APPLY (R54): the shadow becomes active, the group closes, APPLY_COUNT rises, the committer is answered under the
settings at its commit. -/
def State.applyNow (s : State) (g : Nat) : State :=
  match s.svc.commit with
  | some (h, r) =>
    if h = g then
      let vlan := s.dget 0x1040 4
      let s := (s.withSvc fun k => { k with commit := none }).groupApply g
      let s := (s.dset (groupIdx g) 4 Status.ok.code).dinc (groupIdx g) 6
      s.answer r vlan .ok []
    else s
  | none => s

/-- SHADOW_TIMEOUT (R56): the shadow is discarded, one Notice entry. A commit that waits for its apply is no shadow without a
commit. -/
def State.shadowExpire (s : State) (g : Nat) : State :=
  match s.svc.shadows.get? g, s.svc.commit with
  | some _, none => (s.shadowDrop g).logCls 0 .notice 0x8005 (leBytes 2 g)
  | some _, some (h, _) => if h = g then s else (s.shadowDrop g).logCls 0 .notice 0x8005 (leBytes 2 g)
  | none, _ => s

/-- An Onsia datagram (R43–R46) at the management address and VLAN. -/
def State.onsiaTake (s : State) (a p dst vlan : Nat) (b : Bytes) : State :=
  let mgmt := s.dget 0x1040 1
  if !s.live ∨ mgmt = 0 ∨ dst ≠ mgmt ∨ vlan ≠ s.dget 0x1040 4 then s
  else
    let len := leAt b 14 2
    if leAt b 0 2 ≠ 0xD960 ∨ byteAt b 2 ≠ 1 ∨ 1024 < len ∨ b.length ≠ 24 + len ∨ leAt b (20 + len) 4 ≠ crc32c (b.take (20 + len)) then
      s.dinc 0x1041 6
    else if s.dget 0x1041 2 = 0 then s
    else
      let op := byteAt b 3
      let k := leAt b 4 2
      let seq := leAt b 6 2
      let idx := leAt b 8 2
      let q := byteAt b 10
      let flags := byteAt b 11
      let off := leAt b 16 4
      let r : DictReq := ⟨.onsia a p k, dictOp op, idx, q, Machine.sub b 20 len, .onsia op seq flags off⟩
      match s.session? a p k with
      | some x =>
        if x.seq = some seq then (if x.answer.isEmpty then s else s.emit (.datagram a p vlan x.answer))
        else (s.withSession a p k fun y => { y with
            seq := some seq
            answer := [] }).request r
      | none =>
        if 16 ≤ s.svc.sessions.length then s.answer r vlan .poolExhausted []
        else (s.withSvc fun v => { v with sessions := v.sessions ++ [⟨a, p, k, some seq, [], none, none⟩] }).request r
where
  /-- The operation of an OP byte (Table 2-3); reserved bits make it unknown. -/
  dictOp (op : Nat) : DictOp :=
    match op with
    | 0 => .read
    | 1 => .write
    | 2 => .info
    | 3 => .next
    | 4 => .readShadow
    | _ => .unknown

/-- A port serves the USDO path: the device is awake and the port's rights entry is not 0 (R47). -/
def State.usdoServed (s : State) (port : Nat) : Bool := s.live && decide (port < 2) && s.pathRights (.can port) != 0

/-- A USDO initiate of a port (R41, R42). -/
def State.usdoInitiate (s : State) (port idx sub : Nat) (write : Option (Nat × Bytes)) : State :=
  if !s.usdoServed port then s
  else if (s.svc.transfers.get? port).isSome then s.usdoAbort port .poolExhausted
  else match write with
    | none => s.request ⟨.can port, .read, idx, sub, [], .usdo true⟩
    | some (size, data) =>
      if size < data.length ∨ (size ≤ usdoFrameBytes ∧ data.length ≠ size) then s.usdoAbort port .protocolError
      else if data.length = size then s.request ⟨.can port, .write, idx, sub, data, .usdo false⟩
      else (s.withSvc fun k => { k with transfers := k.transfers.put port ⟨false, idx, sub, size, data, false⟩ }).emit
        (.usdo port false [])

/-- A transfer of a port is over. -/
def State.usdoDrop (s : State) (port : Nat) : State := s.withSvc fun k => { k with transfers := k.transfers.del port }

/-- A frame of a segmented USDO transfer (R41, R42). -/
def State.usdoSegment (s : State) (port : Nat) (f : UsdoFrame) : State :=
  if !s.usdoServed port then s
  else match f, s.svc.transfers.get? port with
    | .segment toggle last data, some x =>
      if toggle ≠ x.toggle then (s.usdoDrop port).usdoAbort port .protocolError
      else if x.upload then
        let s := s.emit (.usdo port false (x.data.take usdoFrameBytes))
        if x.data.length ≤ usdoFrameBytes then s.usdoDrop port
        else s.withSvc fun k => { k with
          transfers := k.transfers.put port { x with
            data := x.data.drop usdoFrameBytes
            toggle := !x.toggle } }
      else
        let b := x.data ++ data
        if x.size < b.length ∨ (last ∧ b.length ≠ x.size) then (s.usdoDrop port).usdoAbort port .protocolError
        else if last then (s.usdoDrop port).request ⟨.can port, .write, x.index, x.sub, b, .usdo false⟩
        else (s.withSvc fun k => { k with
          transfers := k.transfers.put port { x with
            data := b
            toggle := !x.toggle } }).emit (.usdo port false [])
    | _, _ => (s.usdoDrop port).usdoAbort port .protocolError

/-- 1,000 ms without a frame of the client (R41, R42). -/
def State.usdoTimeout (s : State) (port : Nat) : State :=
  match s.svc.transfers.get? port with
  | some _ => (s.usdoDrop port).usdoAbort port .transferTimeout
  | none => s

/-- The heartbeat of both CAN ports (0x1017:00): identifier 0x700 + node ID, state operational. -/
def State.heartbeatSend (s : State) : State :=
  if s.hearthRuns ∧ s.dget 0x1017 0 ≠ 0 then
    [0, 1].foldl (fun (s : State) p => s.emit (.canFrame p (0x700 + s.dget (0x1010 + p) 1) [5])) s
  else s

end Sys2Proof.Machine
end

