-- ==== Sys2Proof/Machine/Settle.lean ====
section
/-! DEFINITION. What every command leaves the blocks to do at once: work whose wait has ended goes on, power domains follow their votes, the
dictionary service takes what waits. Every command's meaning ends with it. -/

namespace Sys2Proof.Machine

/-- One power domain in Glow follows its votes (R98, R100, R101): hysteresis starts with the last vote gone, a vote ends it, a failed
power-up is forgotten with its vote (Table 4-13). -/
def State.domainSettle (s : State) (d : Nat) : State :=
  let x := s.dom d
  if x.st = 2 then (if s.votes d = 0 then s.setDom d ⟨3, s.dget (0x2010 + d) 3, false⟩ else s)
  else if x.st = 3 then (if s.votes d = 0 then s else s.setDom d ⟨2, 0, false⟩)
  else if x.failed ∧ s.votes d = 0 then s.setDom d { x with failed := false }
  else s

/-- Every domain without the fixed vote follows its votes; in Blaze none does (R101). -/
def State.domainsSettle (s : State) : State :=
  if s.pow.st = .glow then [2, 3, 4, 5, 6, 7, 8, 9, 11, 12, 13].foldl State.domainSettle s else s

/-- The running cipher jobs go on while the engines run (R303, Table 4-3). -/
def State.cipherSettle (s : State) : State :=
  if s.cipher.jobs.isEmpty then s
  else if s.domOn domCIPHER ∧ !s.kiln.stopped then (s.cipherPump 4096).lockedOut else s.lockedOut

/-- The kiln streams post what their CQs could not take (R22, R301). -/
def State.indexSettle (s : State) : State :=
  (s.kiln.streams.filter fun kv => kv.2.bind == 1).foldl (fun (s : State) kv => s.indexRetry kv.1) s

/-- A start held for the power-fail sequence follows its end (R506). -/
def State.heldStartSettle (s : State) : State :=
  match s.pow.heldStart with
  | some c => if s.pfRuns then s else s.mainResetStart c
  | none => s

/-- The blocks' waiting work goes on as far as it can. -/
def State.workSettle (s : State) : State :=
  ((s.storageSettle.cipherSettle.indexSettle.keyWaitsSettle.vpSends).tblRetry.flowSettle.portsCheck).deletionsSettle.domainsSettle

/-- What follows a command in a device that serves: the waiting work, the requests that wait, the firmware's own. -/
def State.settleLive (s : State) : State :=
  let s := s.workSettle.serveHeld.waitingRequest.workSettle
  s.heldStartSettle

/-- What follows a command. A device that does not serve (before READY, in Banked, in Ember) has nothing to go on with. -/
def State.settle (s : State) : State := if s.live then s.settleLive else s

/-- The end of a command: the next state, settled. -/
def done (s : State) : Host.Outcome State Fault Refusal := .next s.settle

end Sys2Proof.Machine
end

