-- ==== Sys2Proof/Machine/Boot.lean ====
section
/-! DEFINITION. The commands of start-up (Chapter 3): the boot window, BOOT_GO, the memories' training, the ember firmware, the watchdog of the
hearth. -/

namespace Sys2Proof.Machine

/-- A write to BOOT_GO (R70, R76, R77). -/
def State.bootGo (s : State) (v : Nat) : State :=
  if v / 0x10000 = 0x960B ∧ bit v 0 ∧ s.boot.phase = 2 then
    let b := s.boot.window.readN 0 s.boot.bootLen
    let s := s.withBoot fun x => { x with phase := 3, windowOpen := false, goAt := s.time.elapsed }
    match romCheck s b with
    | .error (st, d) => s.imageRefusal st d
    | .ok slot => s.kindle b slot (bit v 1)
  else s

/-- BOOT_GO. -/
def execBootGo (value : Word) (s : State) : Host.Outcome State Fault Refusal :=
  let s := s.hostActivity
  if s.decodes 0 then done (s.bootGo value.toNat) else done (s.unsupportedRequest 0 false)

/-- BOOT_WINDOW_ACCESS: the 16 MiB window of host-wait (R67); closed, writes are discarded and reads return zero (R68). -/
def execBootWindowAccess (access : WindowAccess) (s : State) : Host.Outcome State Fault Refusal :=
  let isOpen := s.boot.windowOpen && s.boot.phase == 2
  let s := s.hostActivity
  if !s.decodes 0 then
    done (s.unsupportedRequest 0 (match access with
      | .read _ _ => true
      | .write _ _ => false))
  else match access with
  | .read off len =>
    done (s.emit (.pcieCompletion true (if isOpen then s.boot.window.readN off len else zeros len)))
  | .write off b =>
    if isOpen then done (s.withBoot fun x => { x with window := x.window.writeN off (b.take (0x1000000 - off)) }) else done s

/-- PLL_LOCK_TIMEOUT (Table 3-13): a core reset, then INTERNAL_FAULT with DETAIL 0x10 + PLL number. -/
def execPllLockTimeout (pll : Nat) (s : State) : Host.Outcome State Fault Refusal :=
  if s.boot.phase = 4 ∨ s.boot.phase = 5 then done ((s.coreReset 3).imageRefusal .internalFault (0x10 + pll)) else done s

/-- LPDDR5_TRAINING_DONE (R83, Table 3-17 steps 8 to 10, Table 3-13). -/
def execLpddr5TrainingDone (failedChannel : Option Nat) (s : State) : Host.Outcome State Fault Refusal :=
  match s.boot.phase, s.boot.bundle, failedChannel with
  | 5, some _, some c => done ((s.coreReset 3).imageRefusal .internalFault (0x20 + c))
  | 5, some info, none => done (s.loadCores.becomeReady info)
  | _, _, _ => done s

/-- Sector k of a NOR slot is erased (R90). -/
def State.sectorErase (s : State) (base k : Nat) : State := s.emit (.nor 0x20 (base + 0x1000 * k) [])

/-- Sector k of a NOR slot is programmed from an image, page by page (R90). -/
def State.sectorProgram (s : State) (base : Nat) (fw : Bytes) (k : Nat) : State :=
  (List.range 16).foldl (fun (s : State) i =>
    s.emit (.nor 0x02 (base + 0x1000 * k + 0x100 * i) (sub fw (0x1000 * k + 0x100 * i) 0x100))) s

/-- EMBER_FW_WRITE (R90): the section goes to the idle slot, header sector last, and is read back. Writes of the key
vault go ahead of it (R331). -/
def execEmberFwWrite (readBackOk : Bool) (s : State) : Host.Outcome State Fault Refusal :=
  match s.hearthRuns && s.cipher.writes.isEmpty, s.boot.emberFw with
  | true, some fw =>
    let base := s.emberTarget * 0x40000
    let used := 260 + leAt fw 8 4
    let s := s.sectorErase base 0
    let s := ((List.range 63).map (63 - ·)).foldl (fun (s : State) k =>
      if 0x1000 * k < used then (s.sectorErase base k).sectorProgram base fw k else s.sectorErase base k) s
    let s := s.sectorProgram base fw 0
    let s := (s.dset 0x2203 5 0x40000).dset 0x2203 4 (if readBackOk then 2 else 3)
    done (s.withBoot fun b => { b with emberFw := none })
  | _, _ => done s

/-- HEARTH_WATCHDOG_EXPIRY (R468, Table 3-1): one Fatal entry, then a core reset of cause 4. No watchdog runs in
host-wait (R67), and it pauses while the debugger holds the hearth (R516). -/
def execHearthWatchdogExpiry (s : State) : Host.Outcome State Fault Refusal :=
  if 3 ≤ s.boot.phase ∧ (s.awake ∨ s.pow.st = .starting) ∧ !s.dbg.hearthHalted then
    done ((s.logCls 0 .fatal Status.internalFault.code []).coreReset 4)
  else done s

end Sys2Proof.Machine
end

