-- ==== Sys2Proof/Machine/Queues.lean ====
section
/-! DEFINITION. The work-queue commands (Chapter 7): doorbells, the fetch with checks 1 to 6 of Table 7-5, the queue
admin commands with checks 7 to 9, the admin pair's registers, AGG_TIME. -/

namespace Sys2Proof.Machine

/-- The meaning of a command's row: the fetched command with the row's opcode, if it may start now. -/
def onCommand (op n q tag : Nat) (s : State) (k : Ctx → State → State) : Host.Outcome State Fault Refusal :=
  match s.starting? op n q tag with
  | some c => done (k c s)
  | none => done s

/-- Writes to a function's admin registers and doorbells take effect: READY, and the instance neither ABSENT nor FENCED
(R148, R174, R199, Table 8-3). -/
def State.adminWritable (s : State) (n : Nat) : Bool :=
  s.boot.ready && (s.inst n).st != .absent && (s.inst n).st != .fenced && (s.fn n).flr.isNone

/-- A doorbell for no queue (R186). -/
def State.strayDoorbell (s : State) (n : Nat) : State := (s.dinc 0x2400 7).eventLimited 44 n

/-- The check of an SQ's doorbell value (R188). -/
def State.sqBell (s : State) (n q v : Nat) : State :=
  match s.sq? n q with
  | some x =>
    let s := s.setSq n q { x with bell := v }
    if onArc x.depth x.tail ((x.head + x.depth - 1) % x.depth) v then s.setSq n q { x with bell := v, tail := v }
    else s.freeze n q 0 4 .queueFrozen []
  | none => s

/-- The check of a CQ's doorbell value (R188, R216). -/
def State.cqBell (s : State) (n q v : Nat) : State :=
  match s.cq? n q with
  | some c =>
    let s := s.setCq n q { c with bell := v }
    if onArc c.depth c.head c.tail v then (s.setCq n q { c with bell := v, head := v }).cqDrain n q
    else (s.freeze n q 1 5 .queueFrozen []).stallCheck n q
  | none => s

/-- SQ_TAIL_DOORBELL (R185, R186, R188). -/
def State.sqDoorbell (s : State) (n q value : Nat) : State :=
  if !s.decodes n then s.unsupportedRequest n false
  else if !s.adminWritable n then s
  else match s.sq? n q with
    | none => s.strayDoorbell n
    | some x =>
      let v := value % 65536
      if doorbellQueues n ≤ q then s.strayDoorbell n
      else if v = x.bell then s
      else if x.frozen then s.setSq n q { x with bell := v }
      else s.sqBell n q v

/-- CQ_HEAD_DOORBELL (R185, R186, R188, R216). -/
def State.cqDoorbell (s : State) (n q value : Nat) : State :=
  if !s.decodes n then s.unsupportedRequest n false
  else if !s.adminWritable n then s
  else match s.cq? n q with
    | none => s.strayDoorbell n
    | some c =>
      let v := value % 65536
      if doorbellQueues n ≤ q then s.strayDoorbell n
      else if v = c.bell then s
      else if c.frozen then s.setCq n q { c with bell := v }
      else s.cqBell n q v

/-- SQ_TAIL_DOORBELL. -/
def execSqTailDoorbell (fn queue value : Nat) (s : State) : Host.Outcome State Fault Refusal :=
  done (s.hostActivity.sqDoorbell fn queue value)

/-- CQ_HEAD_DOORBELL. -/
def execCqHeadDoorbell (fn queue value : Nat) (s : State) : Host.Outcome State Fault Refusal :=
  done (s.hostActivity.cqDoorbell fn queue value)

/-- An entry as the fetch read it (R193): checks 1 to 3 freeze; PAD is consumed (R191); the head moves past the entry
(R194, R210); checks 4 to 6 complete it at once; else it is a command in flight. -/
def State.takeEntry (s : State) (n q : Nat) (b : Bytes) : State :=
  match s.sq? n q with
  | none => s
  | some x =>
    let unit := padTo 32 b
    let units := entryUnits unit
    let e := padTo (32 * units) b
    let d0 := leAt e 0 4
    if bit d0 11 != x.phase then s.freeze n q 0 3 .queueFrozen unit
    else if x.depth < x.head + units then s.freeze n q 0 1 .queueFrozen unit
    else if (x.tail + x.depth - x.head) % x.depth < units then s.freeze n q 0 2 .queueFrozen unit
    else
      let h := (x.head + units) % x.depth
      let s := s.setSq n q { x with head := h, phase := if h = 0 then !x.phase else x.phase }
      let op := bits d0 0 8
      let tag := bits d0 16 16
      let imm := bit d0 12
      let r0 := if q = 0 ∧ n = 0 ∧ tenantOp op then (s.inst (dw e 1 % 64)).st.num else 0
      if op = 0 then s
      else if !opcodeAllowed n q x.cls op then s.finish n q tag imm .unknownIndexOrOpcode r0 0 none
      else if !entryShapeOk e ∨ (s.ctx? n q tag).isSome then s.finish n q tag imm .fieldInvalid r0 0 none
      else s.withQ fun k => { k with ctxs := k.ctxs ++ [⟨n, q, tag, e, false⟩] }

/-- SQ_FETCH (R187, R193, R211): the SQ is the one R211 chooses; the read is issued under a free tag (R162) and answered
now, or stays outstanding. -/
def execSqFetch (fn queue : Nat) (answer : FetchAnswer) (s : State) : Host.Outcome State Fault Refusal :=
  match s.sq? fn queue, s.freeTag fn with
  | some x, some t =>
    if s.fetchable fn queue ∧ s.nextTurn = some fn ∧ s.wrrAllows fn queue then
      let s := s.wrrCount fn queue
      match answer with
      | .outstanding =>
        done ((s.issueRead fn t (x.base + 32 * x.head) 32 (.fetch queue)).withSq fn queue fun y => { y with fetchTag := some t })
      | .entry b => done ((s.hostActivity.emit (.hostRead fn t (x.base + 32 * x.head) 32)).takeEntry fn queue b)
    else done s
  | _, _ => done s

/-- The moderation fields of CREATE_CQ's DW4: IRQ_EN, VECTOR, AGG_COUNT. -/
def modFields (w : Nat) : Bool × Nat × Nat := (bit w 31, bits w 16 11, bits w 0 8)

/-- The refusal of a CREATE_CQ (R204, Table 7-15), or OK. -/
def State.createCqCheck (s : State) (n : Nat) (e : Bytes) : Status :=
  let qid := bits (dw e 1) 0 16
  let depth := bits (dw e 1) 16 16 + 1
  let base := leAt e 8 8
  let (_, vec, agg) := modFields (dw e 4)
  let res := bits (dw e 5) 16 16
  if qid = 0 ∨ maxQid n < qid ∨ depth < 16 ∨ res = 0 ∨ 16384 < res then .outOfRange
  else if (s.cq? n qid).isSome ∨ base = 0 ∨ base % 4096 ≠ 0 ∨ (1 < agg ∧ bits (dw e 5) 0 16 = 0) ∨ !s.vectorOk n vec then .fieldInvalid
  else if s.limit n 2 2 ≤ (ioOnly (s.cqsOf n)).length ∨ 4096 ≤ (ioOnly s.q.cqs).length
      ∨ s.limit n 4 4 < s.reserveGiven n + res then .poolExhausted
  else .ok

/-- CREATE_CQ (0x01). -/
def execCreateCq (fn tag : Nat) (s : State) : Host.Outcome State Fault Refusal :=
  onCommand 0x01 fn 0 tag s fun c s =>
    let e := c.entry
    match s.createCqCheck fn e with
    | .ok =>
      let (irq, vec, agg) := modFields (dw e 4)
      let s := s.setCq fn (bits (dw e 1) 0 16) ⟨leAt e 8 8, bits (dw e 1) 16 16 + 1, irq, vec, agg, bits (dw e 5) 0 16,
        bits (dw e 5) 16 16, 0, true, 0, 0, false, false, [], [], 0⟩
      s.reserveLow.complete fn 0 tag .ok
    | st => s.complete fn 0 tag st

/-- The refusal of a CREATE_SQ (R204, Table 7-15), or OK. -/
def State.createSqCheck (s : State) (n : Nat) (e : Bytes) : Status :=
  let qid := bits (dw e 1) 0 16
  let depth := bits (dw e 1) 16 16 + 1
  let base := leAt e 8 8
  let w := bits (dw e 4) 24 8
  let cls := bits (dw e 4) 16 2
  let cqid := bits (dw e 4) 0 16
  let inf := bits (dw e 5) 0 11
  if cls = 1 ∧ n ≠ 0 then .notYourInstance
  else if 1 < cls ∨ qid = 0 ∨ maxQid n < qid ∨ depth < 16 ∨ w = 0 ∨ inf = 0 ∨ 1024 < inf then .outOfRange
  else if (s.sq? n qid).isSome ∨ base = 0 ∨ base % 4096 ≠ 0 ∨ cqid = 0 ∨ (s.cq? n cqid).isNone then .fieldInvalid
  else if s.limit n 0 2 ≤ (ioOnly (s.sqsOf n)).length ∨ 4096 ≤ (ioOnly (s.q.sqs.map fun kv => (kv.1 % 65536, kv.2))).length then
    .poolExhausted
  else .ok

/-- CREATE_SQ (0x02). -/
def execCreateSq (fn tag : Nat) (s : State) : Host.Outcome State Fault Refusal :=
  onCommand 0x02 fn 0 tag s fun c s =>
    let e := c.entry
    match s.createSqCheck fn e with
    | .ok =>
      let s := s.setSq fn (bits (dw e 1) 0 16) ⟨leAt e 8 8, bits (dw e 1) 16 16 + 1, bits (dw e 4) 24 8, bits (dw e 4) 16 2,
        bits (dw e 4) 0 16, bits (dw e 5) 0 11, 0, true, 0, 0, false, none, none, 0⟩
      s.complete fn 0 tag .ok
    | st => s.complete fn 0 tag st

/-- DELETE_SQ (0x03): R205, R527; it completes once the SQ's commands are completed and written. -/
def execDeleteSq (fn tag : Nat) (s : State) : Host.Outcome State Fault Refusal :=
  onCommand 0x03 fn 0 tag s fun c s =>
    let qid := bits (dw c.entry 1) 0 16
    if qid = 0 ∨ maxQid fn < qid then s.complete fn 0 tag .outOfRange
    else match s.sq? fn qid with
      | none => s.complete fn 0 tag .fieldInvalid
      | some x =>
        if x.deleting.isSome then s.complete fn 0 tag .notInThisState
        else
          let s := s.setSq fn qid { x with deleting := some (tag, (x.tail + x.depth - x.head) % x.depth), tail := x.head }
          s.markStarted fn 0 tag

/-- DELETE_CQ (0x04): R205, R527. -/
def execDeleteCq (fn tag : Nat) (s : State) : Host.Outcome State Fault Refusal :=
  onCommand 0x04 fn 0 tag s fun c s =>
    let qid := bits (dw c.entry 1) 0 16
    if qid = 0 ∨ maxQid fn < qid then s.complete fn 0 tag .outOfRange
    else match s.cq? fn qid with
      | none => s.complete fn 0 tag .fieldInvalid
      | some x =>
        if (s.sqsOf fn).any (fun y => y.2.cqid == qid) ∨ s.cqNamed fn qid then s.complete fn 0 tag .notInThisState
        else
          let s := (s.withQ fun k => { k with cqs := k.cqs.del (qkey fn qid) }).reserveLow
          s.complete fn 0 tag .ok x.share.length

/-- A restart (R206): the queue's new head and phase, then its kept doorbell value. -/
def State.restart (s : State) (n q kind head : Nat) (phase : Bool) : State × Status :=
  if kind = 0 then
    match s.sq? n q with
    | none => (s, .fieldInvalid)
    | some x =>
      if !x.frozen then (s, .notInThisState)
      else if x.depth ≤ head then (s, .outOfRange)
      else ((s.setSq n q { x with frozen := false, head := head, phase := phase }).sqBell n q x.bell, .ok)
  else
    match s.cq? n q with
    | none => (s, .fieldInvalid)
    | some c =>
      if !c.frozen then (s, .notInThisState)
      else if !onArc c.depth c.head c.tail head then
        ((s.setCq n q { c with frozen := false }).freeze n q 1 5 .queueFrozen [], .ok)
      else ((s.setCq n q { c with frozen := false, head := head }).cqBell n q c.bell, .ok)

/-- RESTART_QUEUE (0x05): R206, R527. -/
def execRestartQueue (fn tag : Nat) (s : State) : Host.Outcome State Fault Refusal :=
  onCommand 0x05 fn 0 tag s fun c s =>
    let o := dw c.entry 1
    let qid := bits o 0 16
    if qid = 0 ∨ maxQid fn < qid then s.complete fn 0 tag .outOfRange
    else
      let (s, st) := s.restart fn qid (bits o 16 1) (bits (dw c.entry 2) 0 16) (bit o 17)
      s.complete fn 0 tag st

/-- GET_ERROR_LOG (0x06): R198, R526. -/
def execGetErrorLog (fn tag : Nat) (buf : HostRead) (s : State) : Host.Outcome State Fault Refusal :=
  onCommand 0x06 fn 0 tag s fun c s =>
    let want := bits (dw c.entry 1) 0 5
    let d := descAt c.entry 8
    if !s.descOwn fn d then s.complete fn 0 tag .notYourInstance
    else if want = 0 ∨ 16 < want ∨ d.len < 64 * want then s.complete fn 0 tag .outOfRange
    else
      let recs := (s.fn fn).errlog.take want
      let (s, bad) := s.scatter fn d 0 buf recs.flatten
      match bad with
      | some st => s.complete fn 0 tag st
      | none => s.complete fn 0 tag .ok recs.length

/-- ABORT (0x07): R207, R208, R209. A command that has not started is caught; one that has, where its block can still end
it. -/
def execAbort (fn tag : Nat) (s : State) : Host.Outcome State Fault Refusal :=
  onCommand 0x07 fn 0 tag s fun c s =>
    let q := bits (dw c.entry 1) 0 16
    let t := bits (dw c.entry 1) 16 16
    if ((s.sq? fn q).map (·.cls)) = some 1 then s.complete fn 0 tag .fieldInvalid
    else match s.ctx? fn q t with
      | none => s.complete fn 0 tag .abortNotCaught
      | some x =>
        if q = 0 ∧ t = tag then s.complete fn 0 tag .abortNotCaught
        else if !x.started then (s.complete fn q t .aborted).complete fn 0 tag .ok
        else match s.abortStarted x with
          | some s => s.complete fn 0 tag .ok
          | none => s.complete fn 0 tag .abortNotCaught

/-- SET_MODERATION (0x08): R213, R527, and the vector and AGG rules of Table 7-15. -/
def execSetModeration (fn tag : Nat) (s : State) : Host.Outcome State Fault Refusal :=
  onCommand 0x08 fn 0 tag s fun c s =>
    let qid := bits (dw c.entry 1) 0 16
    let (irq, vec, agg) := modFields (dw c.entry 2)
    let time := bits (dw c.entry 3) 0 16
    if qid = 0 ∨ maxQid fn < qid then s.complete fn 0 tag .outOfRange
    else match s.cq? fn qid with
      | none => s.complete fn 0 tag .fieldInvalid
      | some x =>
        if (1 < agg ∧ time = 0) ∨ !s.vectorOk fn vec then s.complete fn 0 tag .fieldInvalid
        else
          let s := s.setCq fn qid { x with irqEn := irq, vector := vec, aggCount := agg, aggTime := time }
          let s := if irq ∧ x.unsignalled ≠ 0 ∧ (agg ≤ 1 ∨ agg ≤ x.unsignalled) then s.cqMessage fn qid else s
          s.complete fn 0 tag .ok

/-- Fetching is stopped on an SQ for another reason than an empty ring or a full INFLIGHT (Table 7-14, bit 22). -/
def State.fetchStopped (s : State) (n q : Nat) : Bool :=
  match s.sq? n q with
  | some x =>
    x.frozen || x.deleting.isSome || !s.usable n || !s.canMaster n || s.draining || s.heldOnDie n q
      || (match s.cq? n x.cqid with
          | some c => c.frozen || c.stalled || !c.share.isEmpty || !c.held.isEmpty
          | none => true)
  | none => true

/-- GET_QUEUE_STATUS (0x09): R527, Table 7-14. -/
def execGetQueueStatus (fn tag : Nat) (s : State) : Host.Outcome State Fault Refusal :=
  onCommand 0x09 fn 0 tag s fun c s =>
    let q := bits (dw c.entry 1) 0 16
    if maxQid fn < q then s.complete fn 0 tag .outOfRange
    else if bits (dw c.entry 1) 16 1 = 0 then
      match s.sq? fn q with
      | none => s.complete fn 0 tag .fieldInvalid
      | some x =>
        let st := ((s.cq? fn x.cqid).map (·.stalled)).getD false
        s.complete fn 0 tag .ok (x.bell * 65536 + x.head)
          (b2n x.frozen * 0x800000 + b2n (s.fetchStopped fn q) * 0x400000 + b2n st * 0x200000 + min 0x7FF (s.inFlight fn q))
    else
      match s.cq? fn q with
      | none => s.complete fn 0 tag .fieldInvalid
      | some x =>
        let bound := (s.sqsOf fn).filter fun y => y.2.cqid == q
        s.complete fn 0 tag .ok (x.bell * 65536 + x.head)
          (b2n x.frozen * 0x800000 + b2n (bound.any fun y => s.fetchStopped fn y.1) * 0x400000 + b2n x.stalled * 0x200000
            + min 0x7FF (sumNat (bound.map fun y => s.inFlight fn y.1)))

/-- TQ_ registers of a function changed. -/
def State.withTq (s : State) (n : Nat) (f : TqRegs → TqRegs) : State := s.withFn n fun x => { x with tq := f x.tq }

/-- LAST_ERR of TQ_ASTAT. -/
def State.lastErr (s : State) (n : Nat) (st : Status) : State := s.withTq n fun t => { t with lastErr := st.code }

/-- A write of ENABLE = 1 (R200). -/
def State.adminEnable (s : State) (n : Nat) : State :=
  let t := (s.fn n).tq
  let sq := bits t.aqs 0 12
  let cq := bits t.aqs 16 12
  if (s.sq? n 0).isNone ∧ t.asqb ≠ 0 ∧ t.acqb ≠ 0 ∧ 15 ≤ sq ∧ 15 ≤ cq then
    ((s.setSq n 0 ⟨t.asqb, sq + 1, 1, 0, 0, 16, 0, true, 0, 0, false, none, none, 0⟩).setCq n 0
      ⟨t.acqb, cq + 1, true, 0, 0, 0, 16, 0, true, 0, 0, false, false, [], [], 0⟩).lastErr n .ok
  else s.lastErr n .fieldInvalid

/-- A write of ENABLE = 0 (R201). -/
def State.adminDisable (s : State) (n : Nat) : State :=
  if !(ioOnly (s.sqsOf n)).isEmpty ∨ !(ioOnly (s.cqsOf n)).isEmpty then s.lastErr n .notInThisState
  else if (s.sq? n 0).isNone then s.lastErr n .ok
  else (s.withTq n fun t => { t with disabling := true }).lastErr n .ok

/-- A write of RESTART = 1 (R202). -/
def State.adminRestart (s : State) (n : Nat) : State :=
  let a := (s.fn n).tq.arest
  let kind := bits a 16 1
  let head := bits a 0 16
  let (frozen, depth) := if kind = 0 then ((s.sq? n 0).map fun x => (x.frozen, x.depth)).getD (false, 0)
    else ((s.cq? n 0).map fun x => (x.frozen, x.depth)).getD (false, 0)
  if !frozen then s.lastErr n .notInThisState
  else if depth ≤ head then s.lastErr n .outOfRange
  else ((s.restart n 0 kind head (bit a 17)).1).lastErr n .ok

/-- A write to TQ_ACTRL where it is accepted (R147, R148, R174, R199). -/
def State.actrl (s : State) (n : Nat) (k : State → State) : State :=
  if !s.decodes n then s.unsupportedRequest n false
  else if s.adminWritable n then k s
  else s

/-- ADMIN_ENABLE. -/
def execAdminEnable (fn : Nat) (s : State) : Host.Outcome State Fault Refusal :=
  done (s.hostActivity.actrl fn fun s => s.adminEnable fn)

/-- ADMIN_DISABLE. -/
def execAdminDisable (fn : Nat) (s : State) : Host.Outcome State Fault Refusal :=
  done (s.hostActivity.actrl fn fun s => s.adminDisable fn)

/-- ADMIN_RESTART. -/
def execAdminRestart (fn : Nat) (s : State) : Host.Outcome State Fault Refusal :=
  done (s.hostActivity.actrl fn fun s => s.adminRestart fn)

/-- AGG_TIME_EXPIRY (R212). -/
def execAggTimeExpiry (fn queue : Nat) (s : State) : Host.Outcome State Fault Refusal :=
  match s.cq? fn queue with
  | some c => if c.irqEn ∧ c.aggTime ≠ 0 ∧ c.unsignalled ≠ 0 ∧ queue ≠ 0 then done (s.cqMessage fn queue) else done s
  | none => done s

end Sys2Proof.Machine
end

