-- ==== Sys2Proof/Machine/Flow.lean ====
section
/-! DEFINITION. The flow cores' commands (Chapter 14): instructions, timers, operations in flight, groups as the hardware and the
firmware move them, faults, the debugger. The commands that are dictionary writes stand with the dictionary service. -/

namespace Sys2Proof.Machine

/-- THREAD_INSTRUCTION (R411): the instruction at the thread's pc; under replay, as the record supplies it (R495). -/
def execThreadInstruction (thread : Nat) (s : State) : Host.Outcome State Fault Refusal :=
  if s.peat.replay then done (s.replayStep thread) else done (s.threadStep thread)

/-- An instruction of the Torolo extension as a thread issues it, registers named by number. -/
def State.trRow (s : State) (t : Nat) (op : TrOp) (rd rs1 rs2 : Nat) : State :=
  if s.threadIssues t then s.trExec t op (rd % 32) (rs1 % 32) (rs2 % 32) else s

/-- TR_WAIT (R427). -/
def execTrWait (thread rd rs1 : Nat) (s : State) : Host.Outcome State Fault Refusal := done (s.trRow thread .wait rd rs1 0)

/-- TR_RXF (R429). -/
def execTrRxf (thread rd rs1 rs2 : Nat) (s : State) : Host.Outcome State Fault Refusal := done (s.trRow thread .rxf rd rs1 rs2)

/-- TR_TXF (R430). -/
def execTrTxf (thread rd rs1 : Nat) (s : State) : Host.Outcome State Fault Refusal := done (s.trRow thread .txf rd rs1 0)

/-- TR_DMA (R431). -/
def execTrDma (thread rd rs1 : Nat) (s : State) : Host.Outcome State Fault Refusal := done (s.trRow thread .dma rd rs1 0)

/-- TR_CLAIM (R434). -/
def execTrClaim (thread rd rs1 : Nat) (s : State) : Host.Outcome State Fault Refusal := done (s.trRow thread .claim rd rs1 0)

/-- TR_PUT (R434). -/
def execTrPut (thread rd rs1 rs2 : Nat) (s : State) : Host.Outcome State Fault Refusal := done (s.trRow thread .put rd rs1 rs2)

/-- TR_COMMIT (R434). -/
def execTrCommit (thread rd rs1 : Nat) (s : State) : Host.Outcome State Fault Refusal := done (s.trRow thread .commit rd rs1 0)

/-- TR_RECV (R435). -/
def execTrRecv (thread rd rs1 : Nat) (s : State) : Host.Outcome State Fault Refusal := done (s.trRow thread .recv rd rs1 0)

/-- TR_DROP (R434). -/
def execTrDrop (thread rd rs1 : Nat) (s : State) : Host.Outcome State Fault Refusal := done (s.trRow thread .drop rd rs1 0)

/-- A CSR written by an instruction of the thread. -/
def State.csrRow (s : State) (t num v : Nat) : State :=
  if s.threadIssues t then (s.csrWrite t num (v % 2 ^ 32)).retire t ((s.thread t).pc + 4) 1 else s

/-- TTIMER_WRITE (Table 14-2, R416). -/
def execTtimerWrite (thread value : Nat) (s : State) : Host.Outcome State Fault Refusal := done (s.csrRow thread 0x8C2 value)

/-- TPET_WRITE (Table 14-2, Table 14-7 cause 8). -/
def execTpetWrite (thread : Nat) (s : State) : Host.Outcome State Fault Refusal := done (s.csrRow thread 0x8C3 0)

/-- TTIMER_EXPIRY (R427): TIMER is pending. -/
def execTtimerExpiry (thread : Nat) (s : State) : Host.Outcome State Fault Refusal :=
  if (s.thread thread).timer.isSome ∧ s.fclkOn then
    done (s.withThread thread fun x => { x with timer := none, timerPend := true })
  else done s

/-- The watchdog of a thread runs: its group has one, it is neither halted nor out of service (Table 14-7, R443). -/
def State.watched (s : State) (t : Nat) : Bool :=
  let x := s.thread t
  s.fclkOn && s.coreUp (t / 8) && !x.halted && s.takesSlots t
    && (match s.threadGroup t with
        | some g => (s.groupOf g).watchdog != 0 && (s.groupOf g).st == 2
        | none => false)

/-- THREAD_WATCHDOG_EXPIRY (Table 14-7 cause 8). -/
def execThreadWatchdogExpiry (thread : Nat) (s : State) : Host.Outcome State Fault Refusal :=
  if s.watched thread then done (s.threadFault thread 8) else done s

/-- RECEIVE_COPY_DONE (R429). -/
def execReceiveCopyDone (thread : Nat) (s : State) : Host.Outcome State Fault Refusal := done (s.copyDone thread)

/-- DMA_DONE (R431). -/
def execDmaDone (thread tag : Nat) (s : State) : Host.Outcome State Fault Refusal := done (s.dmaEnd thread tag)

/-- TXF_DONE (R430). -/
def execTxfDone (thread : Nat) (s : State) : Host.Outcome State Fault Refusal := done (s.txfDone thread)

/-- GROUP_STOP_COMPLETE (R420). -/
def execGroupStopComplete (group : Nat) (s : State) : Host.Outcome State Fault Refusal := done (s.groupStopped group)

/-- STALL_DETECTED (R437, R438). -/
def execStallDetected (group : Nat) (s : State) : Host.Outcome State Fault Refusal :=
  if s.hearthRuns then done (s.stall group) else done s

/-- THREAD_FAULT_HANDLING (R440). -/
def execThreadFaultHandling (thread : Nat) (s : State) : Host.Outcome State Fault Refusal :=
  if s.hearthRuns then done (s.faultHandle thread) else done s

/-- SLICE_DOUBLE_BIT_ERROR (R415): cause 9. -/
def execSliceDoubleBitError (thread : Nat) (s : State) : Host.Outcome State Fault Refusal :=
  if thread < 256 ∧ s.coreUp (thread / 8) ∧ (s.thread thread).run ≠ .faulted ∧ (s.thread thread).run ≠ .off then
    done (s.threadFault thread 9)
  else done s

/-- CORE_FAULT (R415, R442). -/
def execCoreFault (core : Nat) (s : State) : Host.Outcome State Fault Refusal :=
  if core < 32 then done (s.coreFault core) else done s

/-- CORE_RELOAD_DONE (R75, R442). -/
def execCoreReloadDone (core : Nat) (measureOk : Bool) (s : State) : Host.Outcome State Fault Refusal :=
  done (s.coreReloaded core measureOk)

/-- A debugger acts on a thread: attached, with access permitted (R515). -/
def State.debugger (s : State) : Bool := s.debugPermitted && s.dget 0x3C10 2 == 1

/-- DEBUG_HALT (R443). -/
def execDebugHalt (thread : Nat) (s : State) : Host.Outcome State Fault Refusal :=
  if s.debugger then done (s.debugHalt thread) else done s

/-- DEBUG_RESUME (R443). -/
def execDebugResume (thread : Nat) (s : State) : Host.Outcome State Fault Refusal :=
  if s.debugger then done (s.debugResume thread) else done s

/-- CLAIM_RELEASE (R444, R515): DMI 0x70. -/
def execClaimRelease (thread : Nat) (s : State) : Host.Outcome State Fault Refusal :=
  if s.debugger then done (s.forceRelease thread) else done s

end Sys2Proof.Machine
end

