-- ==== Sys2Proof/Machine/Gatherer.lean ====
section
/-! DEFINITION. The event gatherer's commands (Chapter 15) that the hearth core gives: claim, end of service, clear, set and clear of
pending bits, routing. Those that are dictionary writes stand with the dictionary service. -/

namespace Sys2Proof.Machine

/-- A read of target t's CLAIM register (R455, R465): the word returned, the hearth's load recorded, and for target 0 the work that
the firmware does on source 0 (R461). A CLAIM that returns none is no work. -/
def State.claimRead (s : State) (t : Nat) : State :=
  let (w, s) := s.egClaimOp t
  let s := s.emit (.claimed t w)
  let s := if t = 0 then s.peatRecord 3 hearthHart (leBytes 4 0x24002000 ++ leBytes 4 w) else s
  if t = 0 ∧ w % 1024 = 0 then s.stackFaultHandling else s

/-- EG_CLAIM (R455): EG_CLAIMt by the hearth. -/
def execEgClaim (target : Nat) (s : State) : Host.Outcome State Fault Refusal :=
  if target ≤ 32 ∧ s.hearthRuns then done (s.claimRead target) else done s

/-- EG_EOI (R456, R458). -/
def execEgEoi (target source : Nat) (s : State) : Host.Outcome State Fault Refusal :=
  if target ≤ 32 ∧ s.hearthRuns then done (s.egEoiOp target (source % 1024)) else done s

/-- EG_TCTRL_CLEAR (R460). -/
def execEgTctrlClear (target : Nat) (s : State) : Host.Outcome State Fault Refusal :=
  if target ≤ 32 ∧ s.hearthRuns then done (s.withGatherer fun g => g.clear target) else done s

/-- The sources of bits of a word of 32 sources. -/
def wordSources (k : Nat) (mask : Word) : List Nat :=
  ((List.range 32).filter fun j => bit mask.toNat j).map fun j => 32 * k + j

/-- EG_PSET (R466): each source of the mask fires. -/
def execEgPset (k : Nat) (mask : Word) (s : State) : Host.Outcome State Fault Refusal :=
  if k < 20 ∧ s.hearthRuns then done ((wordSources k mask).foldl (fun (s : State) n => s.event n) s) else done s

/-- EG_PCLR (R451): the bits clear; a source that fires in the same cycle stays set. -/
def execEgPclr (k : Nat) (mask : Word) (firing : List Nat) (s : State) : Host.Outcome State Fault Refusal :=
  if k < 20 ∧ s.hearthRuns then
    let s := (wordSources k mask).foldl (fun (s : State) n => (s.withGatherer fun g => { g with pending := g.pending.del n })) s
    done ((firing.filter fun n => decide (n < 640)).foldl (fun (s : State) n => s.event n) s)
  else done s

/-- EG_SRC_WRITE (Table 15-4, R453, R463). -/
def execEgSrcWrite (source : Nat) (value : Word) (s : State) : Host.Outcome State Fault Refusal :=
  let p := value.toNat % 16
  let t := value.toNat / 256 % 64
  if source < 640 ∧ s.hearthRuns ∧ Gatherer.acceptsRoute source p t then
    done (s.withGatherer fun g => { g with src := g.src.put source ⟨p, t⟩ })
  else done s

end Sys2Proof.Machine
end

