-- ==== Sys2Proof/Machine/Ash.lean ====
section
/-! DEFINITION. The timers of the ash log, its export paths and the alarms, and the peat recorder's own commands (Chapter 16). Those that
are dictionary accesses stand with the dictionary service. -/

namespace Sys2Proof.Machine

/-- ADMISSION_TOKEN_GAIN (R472). -/
def execAdmissionTokenGain (cls : Nat) (s : State) : Host.Outcome State Fault Refusal :=
  if cls < 16 ∧ s.awake then done (s.tokenGain cls) else done s

/-- ADMISSION_SUMMARY (R473): the grid stands still in Banked. -/
def execAdmissionSummary (s : State) : Host.Outcome State Fault Refusal := if s.awake then done s.summaries else done s

/-- UDP_PUSH (R480). -/
def execUdpPush (s : State) : Host.Outcome State Fault Refusal := if s.hearthRuns then done s.udpPush else done s

/-- CAN_EXPORT (R480, R481). -/
def execCanExport (s : State) : Host.Outcome State Fault Refusal := if s.hearthRuns then done s.canExport else done s

/-- ALARM_INHIBIT_EXPIRY (R484). -/
def execAlarmInhibitExpiry (alarm : Nat) (s : State) : Host.Outcome State Fault Refusal :=
  if alarm < 128 ∧ s.awake then done (s.inhibitOver alarm) else done s

/-- PEAT_CHECKPOINT (R490): the interval has passed; the hearth's memory comes with the command. -/
def execPeatCheckpoint (hearthMemory : Bytes) (s : State) : Host.Outcome State Fault Refusal :=
  if s.awake then done (s.peatCheckpoint hearthMemory) else done s

/-- PEAT_FREEZE (R491). -/
def execPeatFreeze (s : State) : Host.Outcome State Fault Refusal := done s.peatFreezeNow

/-- PEAT_TRIGGER (R491 cause 5, R514, R515): BYPASS while debug is not permitted. -/
def execPeatTrigger (s : State) : Host.Outcome State Fault Refusal :=
  if s.debugPermitted then done (s.peatTrigger 5 0) else done s

end Sys2Proof.Machine
end

