-- ==== Sys2Proof/Machine/Storage.lean ====
section
/-! DEFINITION. The storage commands and the events of the root ports (Chapter 9). -/

namespace Sys2Proof.Machine

/-- The namespace number in OBJECT. -/
def Ctx.nsNumber (c : Ctx) : Nat := bits (dw c.entry 1) 0 8

/-- The port in OBJECT. -/
def Ctx.portNumber (c : Ctx) : Nat := bits (dw c.entry 1) 0 1

/-- A storage command that has started: its job joins the start order. -/
def State.startStorage (s : State) (c : Ctx) (j : Job) : State := (s.markStarted c.fn c.queue c.tag).startJob j

/-- The refusal of NS_CREATE, in the order of Table 9-10. -/
def State.nsCreateCheck (s : State) (e : Bytes) (k : Nat) : Status :=
  let d2 := dw e 2
  let owner := bits d2 0 6
  let cls := bits d2 6 1
  let p := bits d2 7 1
  let size := dw e 3 + bits (dw e 4) 0 16 * 2 ^ 32
  let x := s.port p
  let nn := (x.ident.map (·.namespaceCount)).getD 0
  let attached := x.st == 2 || x.st == 5
  if k = 0 ∨ 128 < k ∨ size = 0 then .outOfRange
  else if (s.ns? k).isSome ∨ (cls = 1 ∧ owner ≠ 0) then .fieldInvalid
  else if (s.inst owner).st = .absent then .notInThisState
  else if cls = 1 ∧ (x.mode = 2 ∨ s.dget (0x2601 + p) 2 = 0) then .mediaUnsuitable
  else if s.limit owner 15 1 ≤ s.nsOwnedBy owner
      ∨ (attached ∧ (s.freeBlocks p < size ∨ nn ≤ (s.nsOn p).length + 1 + b2n (x.mode == 2))) then .poolExhausted
  else if !s.portUsable p then .backendUnavailable
  else .ok

/-- NS_CREATE (0x20). -/
def execNsCreate (fn tag : Nat) (s : State) : Host.Outcome State Fault Refusal :=
  onCommand 0x20 fn 0 tag s fun c s =>
    let e := c.entry
    let k := c.nsNumber
    match s.nsCreateCheck e k with
    | .ok =>
      let d2 := dw e 2
      let p := bits d2 7 1
      let x : Ns := ⟨bits d2 6 1 == 1, bits d2 0 6, if bit d2 14 then some (bits d2 8 6) else none, p,
        dw e 3 + bits (dw e 4) 0 16 * 2 ^ 32, 0, 0, 0, false, 0, 0, 0, [], [], 0, false⟩
      (s.withStor fun y => { y with ns := y.ns.put k x }).startStorage c (Job.new (.command fn 0 tag) 0x20 k p 3 0 1 1)
    | st => s.complete fn 0 tag st

/-- NS_DELETE (0x21). -/
def execNsDelete (fn tag : Nat) (s : State) : Host.Outcome State Fault Refusal :=
  onCommand 0x21 fn 0 tag s fun c s =>
    let k := c.nsNumber
    match s.nsRefused fn k false, s.nsNamed k with
    | some st, _ => s.complete fn 0 tag st
    | none, none => s.complete fn 0 tag .fieldInvalid
    | none, some x =>
      if x.evidence ∧ (x.rp ≠ x.ap ∨ s.nsBound k) then s.complete fn 0 tag .notInThisState
      else if !s.portUsable x.port then s.complete fn 0 tag .backendUnavailable
      else s.startStorage c { Job.new (.command fn 0 tag) 0x21 k x.port 3 0 1 1 with locks := true, span := wholeNs }

/-- The namespace descriptor (Table 9-8) as instance n reads it. -/
def State.nsDescriptor (s : State) (n k : Nat) (x : Ns) : Bytes :=
  let other := x.owner != n && n != 0
  padTo 64 (leBytes 1 k ++ leBytes 1 (b2n x.evidence) ++ leBytes 1 x.port ++ leBytes 1 (if other then 0xFF else x.owner)
    ++ leBytes 1 (x.reader.getD 0xFF) ++ leBytes 1 (s.nsState k) ++ zeros 2 ++ leBytes 8 x.size
    ++ (if x.evidence then leBytes 8 x.rp ++ leBytes 8 x.cp ++ leBytes 8 x.ap else zeros 24) ++ leBytes 4 x.mismatches)

/-- NS_IDENTIFY (0x22). -/
def execNsIdentify (fn tag : Nat) (buf : HostRead) (s : State) : Host.Outcome State Fault Refusal :=
  onCommand 0x22 fn 0 tag s fun c s =>
    let k := c.nsNumber
    let d := descAt c.entry 8
    match s.nsRefused fn k true, s.nsNamed k with
    | some st, _ => s.complete fn 0 tag st
    | none, none => s.complete fn 0 tag .fieldInvalid
    | none, some x =>
      if !s.descOwn fn d then s.complete fn 0 tag .notYourInstance
      else if !d.list ∧ d.len < 64 then s.complete fn 0 tag .outOfRange
      else if !s.portUsable x.port then s.complete fn 0 tag .backendUnavailable
      else
        let (s, bad) := s.scatter fn d 0 buf (s.nsDescriptor fn k x)
        s.storEnd fn 0 tag (bad.getD .ok)

/-- NS_ERASE (0x23): the reader is refused at check 4 (R258). -/
def execNsErase (fn tag : Nat) (s : State) : Host.Outcome State Fault Refusal :=
  onCommand 0x23 fn 0 tag s fun c s =>
    let k := c.nsNumber
    match s.nsRefused fn k true, s.nsNamed k with
    | some st, _ => s.complete fn 0 tag st
    | none, none => s.complete fn 0 tag .fieldInvalid
    | none, some x =>
      if fn ≠ 0 ∧ x.owner ≠ fn then s.complete fn 0 tag .unknownIndexOrOpcode
      else if x.evidence then s.complete fn 0 tag .fieldInvalid
      else if !s.portUsable x.port then s.complete fn 0 tag .backendUnavailable
      else s.startStorage c { Job.new (.command fn 0 tag) 0x23 k x.port 3 0 1 1 with locks := true, span := wholeNs }

/-- EVIDENCE_RELEASE (0x24): R249. -/
def execEvidenceRelease (fn tag : Nat) (s : State) : Host.Outcome State Fault Refusal :=
  onCommand 0x24 fn 0 tag s fun c s =>
    let k := c.nsNumber
    let rp := leAt c.entry 8 8
    match s.nsRefused fn k false, s.nsNamed k with
    | some st, _ => s.complete fn 0 tag st
    | none, none => s.complete fn 0 tag .fieldInvalid
    | none, some x =>
      if x.evidence ∧ (rp < x.rp ∨ x.cp < rp) then s.complete fn 0 tag .outOfRange
      else if !x.evidence then s.complete fn 0 tag .fieldInvalid
      else if !s.portUsable x.port then s.complete fn 0 tag .backendUnavailable
      else s.startStorage c { Job.new (.command fn 0 tag) 0x24 k x.port 3 x.rp (rp - x.rp) (rp - x.rp) with
        locks := true, fua := true }

/-- SSD_PREPARE (0x25): R244, R245. -/
def execSsdPrepare (fn tag : Nat) (s : State) : Host.Outcome State Fault Refusal :=
  onCommand 0x25 fn 0 tag s fun c s =>
    let p := c.portNumber
    let st := (s.port p).st
    if bits (dw c.entry 2) 16 16 ≠ 0x960D then s.complete fn 0 tag .fieldInvalid
    else if st ≠ 3 ∧ st ≠ 6 ∧ !(st = 2 ∧ (s.nsOn p).isEmpty) then s.complete fn 0 tag .notInThisState
    else s.startStorage c (Job.new (.command fn 0 tag) 0x25 0 p 3 0 1 1)

/-- SSD_DETACH (0x26): R258. -/
def execSsdDetach (fn tag : Nat) (s : State) : Host.Outcome State Fault Refusal :=
  onCommand 0x26 fn 0 tag s fun c s =>
    let p := c.portNumber
    if (s.nsOn p).any (fun kv => s.nsBound kv.1) then s.complete fn 0 tag .notInThisState
    else if (s.port p).detach.isSome then s.complete fn 0 tag .backendUnavailable
    else (s.markStarted fn 0 tag).withPort p fun x => { x with detach := some tag, shutdown := false }

/-- SSD_ATTACH (0x27). -/
def execSsdAttach (fn tag : Nat) (s : State) : Host.Outcome State Fault Refusal :=
  onCommand 0x27 fn 0 tag s fun c s =>
    let p := c.portNumber
    let st := (s.port p).st
    if st = 1 ∨ st = 2 ∨ st = 5 then s.complete fn 0 tag .notInThisState
    else ((s.markStarted fn 0 tag).attachStart p).withPort p fun x => { x with attach := some tag }

/-- Checks 8 and 9 of a storage I/O command on a namespace (Table 9-10): blocks, the kinds of namespace it takes. -/
def State.ioCheck (s : State) (x : Ns) (first blocks : Nat) (lengthBad ranged generalOk evidenceOk : Bool) : Status :=
  if lengthBad then .outOfRange
  else if ranged ∧ !x.evidence ∧ x.size < first + blocks then .outOfRange
  else if ranged ∧ x.evidence ∧ (first < x.rp ∨ x.cp < first + blocks) then .outOfRange
  else if (x.evidence ∧ !evidenceOk) ∨ (!x.evidence ∧ !generalOk) then .fieldInvalid
  else if !s.portUsable x.port then .backendUnavailable
  else .ok

/-- The namespace a storage I/O command names, or the status that check 7 refuses it with. -/
def State.ioNs (s : State) (n k : Nat) (readerMay : Bool) : Except Status Ns :=
  match s.nsRefused n k readerMay, s.nsNamed k with
  | some st, _ => .error st
  | none, some x => .ok x
  | none, none => .error .fieldInvalid

/-- READ (0x40): R256, R259, Tables 9-9 and 9-10. -/
def execRead (fn queue tag : Nat) (buf : HostRead) (s : State) : Host.Outcome State Fault Refusal :=
  onCommand 0x40 fn queue tag s fun c s =>
    let d := descAt c.entry 16
    let first := leAt c.entry 8 8
    match s.ioNs fn c.nsNumber true with
    | .error st => s.complete fn queue tag st
    | .ok x =>
      if !s.descOwn fn d then s.complete fn queue tag .notYourInstance
      else match s.bufLen fn d 0 buf with
        | .error st => s.storEnd fn queue tag st
        | .ok len =>
          match s.ioCheck x first (len / 4096) (!storageLengthOk len) true true true with
          | .ok => s.startStorage c { Job.new (.command fn queue tag) 0x40 c.nsNumber x.port (b2n x.evidence) first (len / 4096) 256
              with locks := true, shared := true, lists := buf }
          | st => s.complete fn queue tag st

/-- The data that a WRITE or an EVIDENCE_APPEND takes in. -/
def State.writeData (s : State) (n : Nat) (d : Desc) (r : HostRead) (len : Nat) : Except Status Bytes := s.gather n d len 0 r

/-- WRITE (0x41): R257, R259, R263. -/
def execWrite (fn queue tag : Nat) (data : HostRead) (s : State) : Host.Outcome State Fault Refusal :=
  onCommand 0x41 fn queue tag s fun c s =>
    let d := descAt c.entry 16
    let first := leAt c.entry 8 8
    match s.ioNs fn c.nsNumber false with
    | .error st => s.complete fn queue tag st
    | .ok x =>
      if !s.descOwn fn d then s.complete fn queue tag .notYourInstance
      else match s.bufLen fn d 0 data with
        | .error st => s.storEnd fn queue tag st
        | .ok len =>
          match s.ioCheck x first (len / 4096) (!storageLengthOk len) true true false with
          | .ok => match s.writeData fn d data len with
            | .error st => s.storEnd fn queue tag st
            | .ok b => s.startStorage c { Job.new (.command fn queue tag) 0x41 c.nsNumber x.port 0 first (len / 4096) 256 with
                locks := true, data := b, fua := bit (dw c.entry 1) 8 }
          | st => s.complete fn queue tag st

/-- FLUSH (0x42): R261. From an evidence SQ it waits for the appends of its SQ and sends nothing. -/
def execFlush (fn queue tag : Nat) (s : State) : Host.Outcome State Fault Refusal :=
  onCommand 0x42 fn queue tag s fun c s =>
    let ev := ((s.sq? fn queue).map (·.cls)).getD 0 == 1
    match s.ioNs fn c.nsNumber false with
    | .error st => s.complete fn queue tag st
    | .ok x =>
      match s.ioCheck x 0 0 false false (!ev) ev with
      | .ok =>
        let j := Job.new (.command fn queue tag) 0x42 c.nsNumber x.port (b2n ev) 0 (if ev then 0 else 1) 1
        s.startStorage c { j with gathered := !ev && s.flushGathered }
      | st => s.complete fn queue tag st

/-- DEALLOCATE (0x43). -/
def execDeallocate (fn queue tag : Nat) (s : State) : Host.Outcome State Fault Refusal :=
  onCommand 0x43 fn queue tag s fun c s =>
    let first := leAt c.entry 8 8
    let n := dw c.entry 4
    match s.ioNs fn c.nsNumber false with
    | .error st => s.complete fn queue tag st
    | .ok x =>
      match s.ioCheck x first n (n == 0) true true false with
      | .ok => s.startStorage c { Job.new (.command fn queue tag) 0x43 c.nsNumber x.port 0 first n n with locks := true }
      | st => s.complete fn queue tag st

/-- WRITE_ZEROES (0x44). -/
def execWriteZeroes (fn queue tag : Nat) (s : State) : Host.Outcome State Fault Refusal :=
  onCommand 0x44 fn queue tag s fun c s =>
    let first := leAt c.entry 8 8
    let n := dw c.entry 4
    match s.ioNs fn c.nsNumber false with
    | .error st => s.complete fn queue tag st
    | .ok x =>
      match s.ioCheck x first n (n == 0) true true false with
      | .ok => s.startStorage c { Job.new (.command fn queue tag) 0x44 c.nsNumber x.port 0 first n 65536 with
          locks := true, fua := bit (dw c.entry 1) 8 }
      | st => s.complete fn queue tag st

/-- VERIFY (0x45): R256, R257. -/
def execVerify (fn queue tag : Nat) (s : State) : Host.Outcome State Fault Refusal :=
  onCommand 0x45 fn queue tag s fun c s =>
    let first := leAt c.entry 8 8
    let n := dw c.entry 4
    match s.ioNs fn c.nsNumber true with
    | .error st => s.complete fn queue tag st
    | .ok x =>
      match s.ioCheck x first n (n == 0) true true true with
      | .ok => s.startStorage c { Job.new (.command fn queue tag) 0x45 c.nsNumber x.port (b2n x.evidence) first n 256 with
          locks := true, shared := true }
      | st => s.complete fn queue tag st

/-- EVIDENCE_APPEND (0x48): R248, R250, R262, R279. Its positions are taken as it starts. -/
def execEvidenceAppend (fn queue tag : Nat) (data : HostRead) (s : State) : Host.Outcome State Fault Refusal :=
  onCommand 0x48 fn queue tag s fun c s =>
    let d := descAt c.entry 16
    let k := c.nsNumber
    match s.ioNs fn k false with
    | .error st => s.complete fn queue tag st
    | .ok x =>
      if !s.descOwn fn d then s.complete fn queue tag .notYourInstance
      else match s.bufLen fn d 0 data with
        | .error st => s.storEnd fn queue tag st
        | .ok len =>
          let n := len / 4096
          if !storageLengthOk len then s.complete fn queue tag .outOfRange
          else if !x.evidence then s.complete fn queue tag .fieldInvalid
          else if s.nsBound k then s.complete fn queue tag .notInThisState
          else if !x.room n then (s.eventLimited 103 k).complete fn queue tag .evidenceFull
          else if !s.portUsable x.port then s.complete fn queue tag .backendUnavailable
          else match s.writeData fn d data len with
            | .error st => s.storEnd fn queue tag st
            | .ok b => (s.takePositions k n).startStorage c
                { Job.new (.command fn queue tag) 0x48 k x.port 1 x.ap n 256 with locks := true, fua := true, data := b }

/-- ROOT_PORT_LINK_UP (Table 9-2, step 2). -/
def execRootPortLinkUp (port : Nat) (s : State) : Host.Outcome State Fault Refusal :=
  if (s.port port).linkUp then done s
  else
    let s := s.withPort port fun x => { x with linkUp := true }
    if (s.port port).st = 1 then done (s.emit (.nvme port 0 0x102 0 0 0 [])) else done s

/-- ROOT_PORT_LINK_DOWN (R273, Table 9-12). -/
def execRootPortLinkDown (port : Nat) (s : State) : Host.Outcome State Fault Refusal :=
  let s := s.withPort port fun x => { x with linkUp := false }
  done (if (s.port port).st = 7 ∨ (s.port port).st = 0 then s else s.portFail port 0)

/-- CONTROLLER_READY: step 3 of Table 9-2 in an attach; in state 5 the commands outstanding are issued once more, in the
order first issued (R273). -/
def execControllerReady (port : Nat) (identity : SsdIdentity) (s : State) : Host.Outcome State Fault Refusal :=
  let x := s.port port
  if x.st = 1 ∧ x.linkUp ∧ !x.recovering then done (s.attachIdentified port identity)
  else if x.st = 5 then
    let s := s.withPort port fun y => { y with st := y.back, cmds := y.cmds.map fun b => { b with reissued := true } }
    done (x.cmds.foldl (fun (s : State) b => s.emit (.nvme port b.id b.opcode b.ns b.lba b.blocks b.data)) s)
  else done s

/-- CONTROLLER_READY_TIMEOUT (R273, Table 9-2): state 6; a port whose link has not trained is ABSENT. -/
def execControllerReadyTimeout (port : Nat) (s : State) : Host.Outcome State Fault Refusal :=
  let x := s.port port
  if x.st = 5 then done (s.portFail port 6)
  else if x.st = 1 ∧ !x.recovering then done (s.attachEnd port (if x.linkUp then 6 else 0))
  else done s

/-- BACKEND_COMPLETION. -/
def execBackendCompletion (port command : Nat) (result : BackendResult) (s : State) : Host.Outcome State Fault Refusal :=
  match (s.port port).cmds.find? fun b => b.id == command with
  | some b => match result with
    | .ok bl => done (s.backendEnds port b true bl)
    | .failed bl => done (s.backendEnds port b false bl)
  | none => done s

/-- BACKEND_TIMEOUT (R273): the first time a controller reset; of a command issued again, its failure. -/
def execBackendTimeout (port command : Nat) (s : State) : Host.Outcome State Fault Refusal :=
  let x := s.port port
  match x.cmds.find? fun b => b.id == command with
  | some b =>
    if x.st = 5 then done s
    else if b.reissued then done (s.backendEnds port b false [])
    else
      let s := s.withPort port fun y => { y with st := 5, back := y.st }
      let s := (s.dinc (0x2601 + port) 6).eventLog 98 .warning Status.backendUnavailable.code (leBytes 1 port)
      done (s.emit (.nvme port 0 0x101 0 0 0 []))
  | none => done s

/-- SSD_ASYNC_EVENT: the SMART Critical Warning byte (Table 9-12). -/
def execSsdAsyncEvent (port warning : Nat) (s : State) : Host.Outcome State Fault Refusal :=
  let s := s.dset (0x2601 + port) 0x0B (warning % 256)
  if warning % 256 = 0 then done s
  else done (s.eventLog 99 .warning Status.backendUnavailable.code (leBytes 1 port ++ leBytes 1 warning))

/-- CATALOGUE_CHECKPOINT: at least once a second (R251). -/
def execCatalogueCheckpoint (ns : Nat) (s : State) : Host.Outcome State Fault Refusal :=
  match s.ns? ns with
  | some x =>
    if x.evidence ∧ (s.port x.port).st = 2 then done ((s.withNs ns fun y => { y with unsaved := 0 }).catalogueWrite x.port) else done s
  | none => done s

/-- FLUSH_GATHER_EXPIRY (Table 5-3, step 1): the flushes gathered on one namespace are served by one Flush, and end with
it. -/
def execFlushGatherExpiry (s : State) : Host.Outcome State Fault Refusal :=
  let n := (s.stor.jobs.filter fun j => j.gathered && j.stage == 0).length
  done ((s.dadd 0x2600 6 n).withStor fun x => { x with jobs := mergeFlushes x.jobs })

end Sys2Proof.Machine
end

