-- ==== Sys2Proof/Machine/Kiln.lean ====
section
/-! DEFINITION. The kiln commands, admission, the timers of segments, the lease writes and the power-fail rows (Chapter 10). -/

namespace Sys2Proof.Machine

/-- The meaning of a kiln admin row: the command on PF0's admin SQ, and the stream it names. -/
def onKiln (op tag : Nat) (s : State) (k : Ctx → Nat → State → State) : Host.Outcome State Fault Refusal :=
  onCommand op 0 0 tag s fun c s => k c (bits (dw c.entry 1) 0 6) s

/-- A stream record's field lies outside its range (Table 10-3). -/
def kilnRecordOut (r : Bytes) : Bool :=
  let x := leAt r 0 4
  let out (v lo hi : Nat) : Bool := decide (v < lo) || decide (hi < v)
  x == 0 || out (byteAt r 4) 1 128 || out (byteAt r 5) 4 9 || decide (1 < byteAt r 6) || out (leAt r 8 2) 10 60000
    || leAt r 10 2 == 0 || decide (63 < byteAt r 12) || out (leAt r 14 2) 2 256 || out (leAt r 16 2) 64 4096
    || out (leAt r 18 2) 1 1600 || (keyList (sub r 20 16)).any fun k => decide (4095 < k)

/-- Reserved bytes of a stream record are zero. -/
def kilnRecordZero (r : Bytes) : Bool := decide (byteAt r 7 < 2) && byteAt r 13 == 0 && allZero (sub r 36 28)

/-- The key rows of Table 10-5: slots of instance 0 that hold an AES-256 key for GCM with KILN, not bound to another
STREAM_ID. -/
def State.kilnKeysBad (s : State) (keys : List Nat) (sid : Nat) : Option Status :=
  if keys.any (fun k => !s.ownsSlot 0 k) then some .notYourInstance
  else if keys.any (fun k => match s.slot? k with
      | some x => x.restoring || x.type != 3 || x.mode != 1 || !bit x.usage 6 || (x.stream != 0 && x.stream != sid)
      | none => true) then some .fieldInvalid
  else none

/-- NAMESPACE is an evidence namespace. -/
def State.evidenceNs (s : State) (k : Nat) : Bool := ((s.nsNamed k).map (·.evidence)).getD false

/-- INDEX_CQ is an I/O CQ of INDEX_INSTANCE. -/
def State.indexCqOk (s : State) (n q : Nat) : Bool := q != 0 && (s.cq? n q).isSome

/-- The namespace is bound to another stream, or being opened by one. -/
def State.nsTaken (s : State) (i k : Nat) : Bool :=
  s.kiln.streams.any fun kv => kv.1 != i && (kv.2.bound || kv.2.openTag.isSome) && kv.2.ns == k

/-- A buffer of a kiln command: its bytes, or the status by which the command ends. -/
def State.kilnBuffer (s : State) (c : Ctx) (want : Nat) (r : HostRead) : Except Status Bytes :=
  let d := descAt c.entry 8
  if !s.descOwn 0 d then .error .notYourInstance
  else if !d.list ∧ d.len < want then .error .outOfRange
  else s.gather 0 d want 0 r

/-- KILN_STREAM_CREATE (0x28): R280, R281, R302. -/
def execKilnStreamCreate (tag : Nat) (record : HostRead) (s : State) : Host.Outcome State Fault Refusal :=
  onKiln 0x28 tag s fun c i s =>
    match s.kilnBuffer c 64 record with
    | .error st => s.complete 0 0 tag st
    | .ok r =>
      if kilnRecordOut r then s.complete 0 0 tag .outOfRange
      else if !kilnRecordZero r then s.complete 0 0 tag .fieldInvalid
      else match s.kilnKeysBad (keyList (sub r 20 16)) (leAt r 0 4) with
        | some st => s.complete 0 0 tag st
        | none =>
          if !s.evidenceNs (byteAt r 4) ∨ !s.indexCqOk (byteAt r 12) (leAt r 10 2) then s.complete 0 0 tag .fieldInvalid
          else if (s.stream i).st ≠ .unused ∨ s.nsTaken i (byteAt r 4) then s.complete 0 0 tag .notInThisState
          else
            let s := s.withStream i fun x => { x with
              record := r, cur := none, cause := 0, lastTag := zeros 16, bind := 1, bindFn := byteAt r 12, bindCq := leAt r 10 2 }
            (s.streamTo i .closed).complete 0 0 tag .ok

/-- The declared rate on a seal engine (R282). -/
def State.engineRate (s : State) (e : Nat) : Nat :=
  sumNat (s.kiln.streams.map fun kv => if (kv.2.bound || kv.2.openTag.isSome) && kv.2.engine == some e then kv.2.rate else 0)

/-- The seal engine whose declared rates sum lowest, the lower-numbered on a tie (R282). -/
def State.sealEngine (s : State) : Nat :=
  [1, 2, 3].foldl (fun m e => if s.engineRate e < s.engineRate m then e else m) 0

/-- The totals of Table 10-1 over the streams bound or being opened, a stream beside them. -/
def State.kilnTotalsBad (s : State) (i : Nat) : Bool :=
  let l := (s.kiln.streams.filter fun kv => kv.1 != i && (kv.2.bound || kv.2.openTag.isSome)).map (·.2)
  let x := s.stream i
  decide (1024 < sumNat (l.map (·.stageMin)) + x.stageMin) || decide (8192 < sumNat (l.map (·.queueKib)) + x.queueKib)
    || decide (6400 < sumNat (l.map (·.rate)) + x.rate) || decide (1600 < s.engineRate s.sealEngine + x.rate)

/-- KILN_STREAM_OPEN (0x29): R281, R282, R291; it completes once its lease is written. -/
def execKilnStreamOpen (tag : Nat) (s : State) : Host.Outcome State Fault Refusal :=
  onKiln 0x29 tag s fun _ i s =>
    let x := s.stream i
    let keys := x.keys.drop (x.cur.getD 0)
    if x.st = .unused then s.complete 0 0 tag .notInThisState
    else match s.kilnKeysBad keys x.sid with
      | some st => s.complete 0 0 tag st
      | none =>
        match s.nsNamed x.ns with
        | none => s.complete 0 0 tag .fieldInvalid
        | some n =>
          if !n.evidence ∨ (n.streamId ≠ 0 ∧ n.streamId ≠ x.sid) then s.complete 0 0 tag .fieldInvalid
          else if x.st ≠ .closed ∨ x.openTag.isSome ∨ s.nsTaken i x.ns then s.complete 0 0 tag .notInThisState
          else if (s.port n.port).st ≠ 2 then s.complete 0 0 tag .backendUnavailable
          else if s.kilnTotalsBad i then s.complete 0 0 tag .poolExhausted
          else if (s.usableKey x).isNone then s.complete 0 0 tag .keySpent
          else
            let e := s.sealEngine
            let s := (s.markStarted 0 0 tag).withStream i fun y => { y with
              openTag := some tag, engine := some e, leaseWrite := some (n.lease + 1048576) }
            s.emit (.nvme n.port 0 0x106 x.ns 0 0 (leBytes 4 x.sid ++ leBytes 8 (n.lease + 1048576)))

/-- LEASE_WRITTEN (R291, Table 10-13): an opening stream is OPEN; an open one goes on under the new lease. -/
def execLeaseWritten (stream : Nat) (ok : Bool) (s : State) : Host.Outcome State Fault Refusal :=
  let x := s.stream stream
  match x.leaseWrite with
  | none => done s
  | some l =>
    let s := s.withStream stream fun y => { y with leaseWrite := none }
    let old := ((s.ns? x.ns).map (·.lease)).getD 0
    let s := if ok then s.withNs x.ns fun n => { n with lease := l, streamId := if n.streamId = 0 then x.sid else n.streamId } else s
    match x.openTag with
    | none => done (if ok ∧ x.bound then s.withStream stream fun y => { y with lease := l } else s)
    | some t =>
      if s.kiln.pf.isSome then done s
      else if !ok ∨ s.streamPort x ≥ 2 ∨ (s.port (s.streamPort x)).st ≠ 2 ∨ s.kiln.stopped then
        let st := if s.kiln.stopped then Status.notInThisState else if (s.port (s.streamPort x)).st ≠ 2 then .backendUnavailable else .mediaError
        done ((s.withStream stream fun y => { y with openTag := none, engine := none }).complete 0 0 t st)
      else
        let s := s.withStream stream fun y => { y with
          openTag := none, nextSeq := old, lease := l, first := true, cause := 0, gap := 0, gapNext := false, queue := [] }
        done ((s.streamTo stream .opened).complete 0 0 t .ok (old % 2 ^ 32) (x.engine.getD 0))

/-- KILN_STREAM_CLOSE (0x2A): R283. -/
def execKilnStreamClose (tag : Nat) (s : State) : Host.Outcome State Fault Refusal :=
  onKiln 0x2A tag s fun _ i s =>
    let x := s.stream i
    if x.st ≠ .opened ∧ x.st ≠ .paused then s.complete 0 0 tag .notInThisState
    else
      let s := (s.markStarted 0 0 tag).kilnFlush i
      let s := s.withStream i fun y => { y with closeTag := some tag }
      if x.openSeg.isSome then ((s.closeSeg i 3).streamTo i .closing).closingSettle i else s.streamClosed i .ok

/-- KILN_STREAM_KEYS (0x2B): R284. -/
def execKilnStreamKeys (tag : Nat) (list : HostRead) (s : State) : Host.Outcome State Fault Refusal :=
  onKiln 0x2B tag s fun c i s =>
    match s.kilnBuffer c 16 list with
    | .error st => s.complete 0 0 tag st
    | .ok b =>
      let x := s.stream i
      let new := keyList b
      if new.any (fun k => decide (4095 < k)) then s.complete 0 0 tag .outOfRange
      else match s.kilnKeysBad new x.sid with
        | some st => s.complete 0 0 tag st
        | none =>
          if x.st ≠ .closed ∧ x.st ≠ .opened ∧ x.st ≠ .paused then s.complete 0 0 tag .notInThisState
          else
            let keys := ((match x.slot with
              | some k => [k]
              | none => []) ++ new).take 8
            let enc := (keys.map (leBytes 2)).flatten
            let s := s.withStream i fun y => { y with
              cur := y.cur.map fun _ => 0
              record := overlay y.record 20 (enc ++ List.replicate (16 - enc.length) 0xFF) }
            let x := s.stream i
            let s := if x.st = .paused ∧ x.cause = Status.keySpent.code ∧ (s.usableKey x).isSome then s.streamTo i .opened else s
            s.complete 0 0 tag .ok (keys.length - 1)

/-- KILN_STREAM_DELETE (0x2C). -/
def execKilnStreamDelete (tag : Nat) (s : State) : Host.Outcome State Fault Refusal :=
  onKiln 0x2C tag s fun _ i s =>
    let x := s.stream i
    if x.st ≠ .closed ∨ x.openTag.isSome then s.complete 0 0 tag .notInThisState
    else ((s.withStream i fun y => { y with bind := 0, cur := none }).streamTo i .unused).complete 0 0 tag .ok

/-- KILN_STREAM_GET (0x2D): the record in force. -/
def execKilnStreamGet (tag : Nat) (buf : HostRead) (s : State) : Host.Outcome State Fault Refusal :=
  onKiln 0x2D tag s fun c i s =>
    let d := descAt c.entry 8
    if !s.descOwn 0 d then s.complete 0 0 tag .notYourInstance
    else if !d.list ∧ d.len < 64 then s.complete 0 0 tag .outOfRange
    else if (s.stream i).st = .unused then s.complete 0 0 tag .notInThisState
    else
      let (s, bad) := s.scatter 0 d 0 buf (s.stream i).record
      s.complete 0 0 tag (bad.getD .ok)

/-- KILN_STREAM_INDEX (0x2E): R302. -/
def execKilnStreamIndex (tag : Nat) (s : State) : Host.Outcome State Fault Refusal :=
  onKiln 0x2E tag s fun c i s =>
    let d2 := dw c.entry 2
    let q := bits d2 0 16
    let n := bits d2 16 6
    let x := s.stream i
    if q = 0 then s.complete 0 0 tag .outOfRange
    else if !s.indexCqOk n q then s.complete 0 0 tag .fieldInvalid
    else if x.st ≠ .closed ∧ x.st ≠ .opened ∧ x.st ≠ .paused then s.complete 0 0 tag .notInThisState
    else
      let un := s.dget (streamIdx i) 0x0D
      let s := s.withStream i fun y => { y with
        bind := 1, bindFn := n, bindCq := q
        record := overlay (overlay y.record 10 (leBytes 2 q ++ leBytes 1 n)) 7 (leBytes 1 (bits d2 22 1)) }
      (s.rangePost i).complete 0 0 tag .ok un

/-- KILN_ADMISSION (R296): one attempt. -/
def execKilnAdmission (stream : Nat) (s : State) : Host.Outcome State Fault Refusal := done (s.admission stream)

/-- SEGMENT_AGE_EXPIRY (R300): CLOSE_AGE has passed since the first record. -/
def execSegmentAgeExpiry (stream : Nat) (s : State) : Host.Outcome State Fault Refusal := done (s.closeSeg stream 2)

/-- RUN_AGE_EXPIRY (R299): 1 ms since the first block of the run filled. -/
def execRunAgeExpiry (stream : Nat) (s : State) : Host.Outcome State Fault Refusal :=
  match (s.stream stream).openSeg with
  | some g => done (s.issueRun stream g.seq)
  | none => done s

/-- PFAIL (R303, R507, R84): after READY the power-fail sequence begins. -/
def execPfail (s : State) : Host.Outcome State Fault Refusal :=
  let s := s.withKiln fun k => { k with pfail := true }
  done (if s.awake then s.pfailTaken else s)

/-- PFAIL_RELEASE: the 10 ms of R305 begin. -/
def execPfailRelease (s : State) : Host.Outcome State Fault Refusal := done (s.withKiln fun k => { k with pfail := false })

/-- PF_SEQUENCE_BOUND_EXPIRY (Table 10-11): event 169. -/
def execPfSequenceBoundExpiry (s : State) : Host.Outcome State Fault Refusal :=
  if s.kiln.pf.isSome ∧ !s.kiln.pfBound then done ((s.event 169).withKiln fun k => { k with pfBound := true }) else done s

/-- PFAIL_RELEASE_EXPIRY (R305): released for 10 ms after the sequence; the stops of step 1 end. -/
def execPfailReleaseExpiry (s : State) : Host.Outcome State Fault Refusal :=
  if s.kiln.stopped ∧ s.kiln.pf.isNone ∧ !s.kiln.pfail ∧ s.awake then
    done ((s.withKiln fun k => { k with stopped := false }).event 171)
  else done s

end Sys2Proof.Machine
end

