-- ==== Sys2Proof/Machine/Cipher.lean ====
section
/-! DEFINITION. The cipher jobs, the key commands, the key vault, the check jobs and the engines' locks (Chapter 11). -/

namespace Sys2Proof.Machine

/-- A cipher job checked (checks 5, 7, 8, 9) and left to wait for an engine; one whose slot is RESTORING waits for it too
(R326). -/
def State.cipherSubmit (s : State) (c : Ctx) (op : Nat) : State :=
  let e := c.entry
  let n := c.fn
  if !cipherZeroOk op e then s.complete n c.queue c.tag .fieldInvalid
  else match s.cipherCheck n op e with
    | some st => s.complete n c.queue c.tag st
    | none =>
      let eng := cjEngine e
      (s.markStarted n c.queue c.tag).withCipher fun x => { x with
        jobs := x.jobs ++ [⟨n, c.queue, c.tag, if eng = 31 then none else some eng, none,
          if (cipherKind op).mode = 0 then 0xFFFF else cjSlot e, [], 0, 0, []⟩] }

/-- GCM_ENCRYPT (0x60). -/
def execGcmEncrypt (fn queue tag : Nat) (s : State) : Host.Outcome State Fault Refusal :=
  onCommand 0x60 fn queue tag s fun c s => s.cipherSubmit c 0x60

/-- GCM_DECRYPT (0x61). -/
def execGcmDecrypt (fn queue tag : Nat) (s : State) : Host.Outcome State Fault Refusal :=
  onCommand 0x61 fn queue tag s fun c s => s.cipherSubmit c 0x61

/-- CCM_ENCRYPT (0x62). -/
def execCcmEncrypt (fn queue tag : Nat) (s : State) : Host.Outcome State Fault Refusal :=
  onCommand 0x62 fn queue tag s fun c s => s.cipherSubmit c 0x62

/-- CCM_DECRYPT (0x63). -/
def execCcmDecrypt (fn queue tag : Nat) (s : State) : Host.Outcome State Fault Refusal :=
  onCommand 0x63 fn queue tag s fun c s => s.cipherSubmit c 0x63

/-- CTR (0x64). -/
def execCtr (fn queue tag : Nat) (s : State) : Host.Outcome State Fault Refusal :=
  onCommand 0x64 fn queue tag s fun c s => s.cipherSubmit c 0x64

/-- CBC_ENCRYPT (0x65). -/
def execCbcEncrypt (fn queue tag : Nat) (s : State) : Host.Outcome State Fault Refusal :=
  onCommand 0x65 fn queue tag s fun c s => s.cipherSubmit c 0x65

/-- CBC_DECRYPT (0x66). -/
def execCbcDecrypt (fn queue tag : Nat) (s : State) : Host.Outcome State Fault Refusal :=
  onCommand 0x66 fn queue tag s fun c s => s.cipherSubmit c 0x66

/-- XTS_ENCRYPT (0x67). -/
def execXtsEncrypt (fn queue tag : Nat) (s : State) : Host.Outcome State Fault Refusal :=
  onCommand 0x67 fn queue tag s fun c s => s.cipherSubmit c 0x67

/-- XTS_DECRYPT (0x68). -/
def execXtsDecrypt (fn queue tag : Nat) (s : State) : Host.Outcome State Fault Refusal :=
  onCommand 0x68 fn queue tag s fun c s => s.cipherSubmit c 0x68

/-- CHACHA20_POLY1305_ENCRYPT (0x69). -/
def execChacha20Poly1305Encrypt (fn queue tag : Nat) (s : State) : Host.Outcome State Fault Refusal :=
  onCommand 0x69 fn queue tag s fun c s => s.cipherSubmit c 0x69

/-- CHACHA20_POLY1305_DECRYPT (0x6A). -/
def execChacha20Poly1305Decrypt (fn queue tag : Nat) (s : State) : Host.Outcome State Fault Refusal :=
  onCommand 0x6A fn queue tag s fun c s => s.cipherSubmit c 0x6A

/-- CMAC_GENERATE (0x6B). -/
def execCmacGenerate (fn queue tag : Nat) (s : State) : Host.Outcome State Fault Refusal :=
  onCommand 0x6B fn queue tag s fun c s => s.cipherSubmit c 0x6B

/-- CMAC_VERIFY (0x6C). -/
def execCmacVerify (fn queue tag : Nat) (s : State) : Host.Outcome State Fault Refusal :=
  onCommand 0x6C fn queue tag s fun c s => s.cipherSubmit c 0x6C

/-- SHA_256 (0x6D). -/
def execSha256 (fn queue tag : Nat) (s : State) : Host.Outcome State Fault Refusal :=
  onCommand 0x6D fn queue tag s fun c s => s.cipherSubmit c 0x6D

/-- SHA_384 (0x6E). -/
def execSha384 (fn queue tag : Nat) (s : State) : Host.Outcome State Fault Refusal :=
  onCommand 0x6E fn queue tag s fun c s => s.cipherSubmit c 0x6E

/-- HMAC_GENERATE (0x6F). -/
def execHmacGenerate (fn queue tag : Nat) (s : State) : Host.Outcome State Fault Refusal :=
  onCommand 0x6F fn queue tag s fun c s => s.cipherSubmit c 0x6F

/-- HMAC_VERIFY (0x70). -/
def execHmacVerify (fn queue tag : Nat) (s : State) : Host.Outcome State Fault Refusal :=
  onCommand 0x70 fn queue tag s fun c s => s.cipherSubmit c 0x70

/-- CIPHER_JOB_START (R313, R314, R322): the job whose turn it is starts on its engine. A slot emptied or spent since its
check refuses it; the use is taken; its reads begin. -/
def execCipherJobStart (fn queue tag : Nat) (s : State) : Host.Outcome State Fault Refusal :=
  match s.cjob? fn queue tag, s.ctx? fn queue tag with
  | some j, some c =>
    if j.on.isSome ∨ !s.domOn domCIPHER ∨ s.kiln.stopped then done s
    else match s.engineFor j with
      | none => done s
      | some e =>
        if s.slotWaits c.op j.slot then done s
        else match s.slotRefusal c.op j.slot with
          | some st => done (s.cipherEnd j st 0)
          | none =>
            if ((s.slot? j.slot).map (·.leaseHolds)).getD false ∧ (cipherKind c.op).mode ≠ 0 then done s
            else
              let key := ((s.slot? j.slot).map (·.key)).getD []
              let hashing := (cipherKind c.op).mode == 0
              let reads := s.listReads c.op c.entry
              let s := s.withCJob fn queue tag fun x => { x with
                on := some e
                key := if hashing then [] else key
                type := ((s.slot? j.slot).map (·.type)).getD 0
                reads := reads }
              let s := if j.named.isNone then s.withCipher fun x => { x with turn := fn } else s
              done (if hashing then s else s.keyUse j.slot)
  | _, _ => done s

/-- The output of a job written to DST, and the job's end (R316, R317). A failed check leaves zeros where output was. -/
def State.cipherFinish (s : State) (j : CJob) (c : Ctx) (e : Nat) : State :=
  let en := c.entry
  let src := s.cjBytes j en 0
  let aad := if (cipherKind c.op).aad then s.cjBytes j en 2 else []
  let lists := HostRead.bytes [[], j.got 1 true] []
  let s := (s.dadd (0x2803) (e + 1) src.length).dadd (blk j.fn 0x1C) 2 src.length
  match cipherCompute c.op j.type en j.key src aad with
  | .ok out =>
    if !cipherWrites c.op then s.cipherEnd j .ok 0
    else if segmentsLength (s.cjSegments j en 1).1 < out.length then s.cipherEnd j .outOfRange 0
    else
      let (s, bad) := s.scatter j.fn (cjDesc en 1) 1 lists out
      match bad with
      | some st => s.cipherEnd j st 0
      | none => s.cipherEnd j .ok (out.length % 2 ^ 32)
  | .error (st, n) =>
    let (s, _) := if n = 0 ∨ !cipherWrites c.op then (s, none) else s.scatter j.fn (cjDesc en 1) 1 lists (zeros n)
    let s := (s.event (if st = .paddingBad then 228 else 227)).dinc (blk j.fn 0x1C) 3
    s.cipherEnd j st 0

/-- CIPHER_JOB_DONE (R317): the engine has all its input and finishes its job. -/
def execCipherJobDone (engine : Nat) (s : State) : Host.Outcome State Fault Refusal :=
  match s.engineJob engine with
  | some j =>
    match s.ctx? j.fn j.queue j.tag with
    | some c =>
      if j.phase = 1 ∧ j.readsDone ∧ s.domOn domCIPHER ∧ !s.kiln.stopped then done (s.cipherFinish j c engine) else done s
    | none => done (s.dropCJob j.fn j.queue j.tag)
  | none => done s

/-- The slot of a key command. -/
def Ctx.keySlot (c : Ctx) : Nat := bits (dw c.entry 1) 0 12

/-- The meaning of a key command's row: check 7 of its slot, then its own checks. -/
def onKey (op fn queue tag : Nat) (s : State) (k : Ctx → Nat → State → State) : Host.Outcome State Fault Refusal :=
  onCommand op fn queue tag s fun c s =>
    if !s.domOn domCIPHER then s
    else if !s.ownsSlot fn c.keySlot then s.complete fn queue tag .notYourInstance
    else k c c.keySlot s

/-- A slot is filled (R324, R331): COUNT, LIMIT and, with PERSIST, its first lease and vault entry. -/
def State.fillSlot (s : State) (c : Ctx) (k : Nat) (x : KeySlot) : State :=
  let x := { x with warned := decide (x.limit * 9 ≤ x.count * 10) }
  if bit x.usage 8 then
    let y := { x with lease := x.count + 0x100000 }
    ((s.setSlot k y).vaultPush ⟨k, some y, false, some (c.fn, c.queue, c.tag), none⟩).keyEnd c k true .ok 0
  else (s.setSlot k x).keyEnd c k false .ok 0

/-- KEY_GENERATE (0x78): R321, R324–R326, R331. -/
def execKeyGenerate (fn queue tag : Nat) (s : State) : Host.Outcome State Fault Refusal :=
  onKey 0x78 fn queue tag s fun c k s =>
    let e := c.entry
    let type := byteAt e 8
    let mode := byteAt e 9
    let usage := leAt e 10 2
    let hm := type == 7 || type == 8
    let len := if hm then byteAt e 12 else typeLen type
    let limit := leAt e 16 8
    let cap := limitCap mode usage
    if attrsOutOfRange type mode usage ∨ 2 ^ 48 < limit then s.complete fn queue tag .outOfRange
    else if (s.slot? k).isSome then s.complete fn queue tag .notInThisState
    else if !attrsAgree type mode usage len ∨ (!hm ∧ byteAt e 12 ≠ 0) then s.complete fn queue tag .fieldInvalid
    else if cap < limit then s.complete fn queue tag .outOfRange
    else if bit usage 8 ∧ fn ≠ 0 then s.complete fn queue tag .notYourInstance
    else if bit usage 8 ∧ s.sealStore.lifecycle = 2 then s.complete fn queue tag .notInThisState
    else if bit usage 8 ∧ s.vaultFull then s.complete fn queue tag .poolExhausted
    else
      let (key, s) := s.random len
      s.fillSlot c k ⟨false, type, mode, usage, key, 0, if limit = 0 then cap else limit, 0, false, 0⟩

/-- The refusals of a WRAP_SLOT (Table 11-10): EMPTY, then MODE and USAGE, then SPENT. -/
def State.wrapRefusal (s : State) (k useBit : Nat) : Option Status :=
  match s.slot? k with
  | none => some .keyEmpty
  | some x => if x.mode ≠ 9 ∨ !bit x.usage useBit then some .keyUsage else if x.spent then some .keySpent else none

/-- A WRAP_SLOT is RESTORING or waits for its lease: the command waits. -/
def State.wrapWaits (s : State) (k : Nat) : Bool := ((s.slot? k).map fun x => x.restoring || x.leaseHolds).getD false

/-- The key under which a blob of a form is sealed. -/
def State.blobKey (s : State) (form n wrap : Nat) : Bytes :=
  if form = 1 then ((s.slot? wrap).map (·.key)).getD [] else formTwoKey n

/-- The key that an import leaves in its slot (R324, R329): USAGE masked, LIMIT 0 the cap, a slot that cannot encrypt
unlimited. -/
def importedSlot (x : KeySlot) (mask : Nat) : KeySlot :=
  let usage := x.usage &&& mask
  let limit := if (usage &&& 0x55) = 0 then 2 ^ 48 else if x.limit = 0 then limitCap x.mode x.usage else x.limit
  { x with usage := usage, limit := limit }

/-- The refusals of a blob that has been opened (Table 11-10, the rows from agreement on), or the slot it fills. -/
def State.blobCheck (s : State) (n : Nat) (x : KeySlot) (mask : Nat) : Except Status KeySlot :=
  let y := importedSlot x mask
  let cap := limitCap x.mode x.usage
  if attrsOutOfRange x.type x.mode x.usage ∨ !attrsAgree x.type x.mode x.usage x.key.length then .error .fieldInvalid
  else if cap < x.limit ∨ (if x.limit = 0 then cap else x.limit) < x.count then .error .outOfRange
  else if bit y.usage 8 ∧ n = 0 ∧ s.vaultFull then .error .poolExhausted
  else .ok y

/-- KEY_IMPORT (0x79): R326, R328, R329. -/
def execKeyImport (fn queue tag : Nat) (blob : HostRead) (s : State) : Host.Outcome State Fault Refusal :=
  onKey 0x79 fn queue tag s fun c k s =>
    let e := c.entry
    let form := byteAt e 8
    let mask := leAt e 10 2
    let wrap := leAt e 12 2
    let d := descAt e 16
    if !s.descOwn fn d ∨ (form = 1 ∧ !s.ownsSlot fn wrap) then s.complete fn queue tag .notYourInstance
    else if 2 < form ∨ (form ≠ 1 ∧ wrap ≠ 0) ∨ (!d.list ∧ d.len < 128) then s.complete fn queue tag .outOfRange
    else if (s.slot? k).isSome then s.complete fn queue tag .notInThisState
    else if form = 1 ∧ s.wrapWaits wrap then s
    else match (if form = 1 then s.wrapRefusal wrap 5 else none) with
      | some st => s.complete fn queue tag st
      | none =>
        match s.gather fn d 128 0 blob with
        | .error st => s.complete fn queue tag st
        | .ok b =>
          let persist := bit (leAt b 8 2 &&& mask) 8
          if !blobShaped b form then s.complete fn queue tag .fieldInvalid
          else if (form = 0 ∧ fn ≠ 0 ∧ s.dget (0x2840 + fn) 1 = 0) ∨ (persist ∧ fn ≠ 0) then s.complete fn queue tag .notYourInstance
          else if form = 2 ∧ byteAt b 11 ≠ fn then s.complete fn queue tag .notYourInstance
          else if (form = 2 ∨ persist) ∧ s.sealStore.lifecycle = 2 then s.complete fn queue tag .notInThisState
          else match (if form = 0 then some (sub b 48 64) else openBlob (s.blobKey form fn wrap) b) with
            | none => ((if form = 1 then s.keyUse wrap else s).event 227).complete fn queue tag .authTagMismatch
            | some field =>
              match s.blobCheck fn (blobSlot b field) mask with
              | .error st => s.complete fn queue tag st
              | .ok x => (if form = 1 then s.keyUse wrap else s).fillSlot c k x

/-- KEY_EXPORT (0x7A): R326, R328, R329. -/
def execKeyExport (fn queue tag : Nat) (buf : HostRead) (s : State) : Host.Outcome State Fault Refusal :=
  onKey 0x7A fn queue tag s fun c k s =>
    let e := c.entry
    let form := byteAt e 8
    let wrap := leAt e 12 2
    let d := descAt e 16
    if !s.descOwn fn d ∨ (form = 1 ∧ !s.ownsSlot fn wrap) then s.complete fn queue tag .notYourInstance
    else if form = 0 ∨ 2 < form ∨ (form ≠ 1 ∧ wrap ≠ 0) ∨ (!d.list ∧ d.len < 128) then s.complete fn queue tag .outOfRange
    else match s.slot? k with
      | none => s.complete fn queue tag .notInThisState
      | some x =>
        if x.restoring then s.complete fn queue tag .notInThisState
        else if form = 1 ∧ s.wrapWaits wrap then s
        else match (if form = 1 then s.wrapRefusal wrap 4 else none) with
          | some st => s.complete fn queue tag st
          | none =>
            if !bit x.usage 7 then s.complete fn queue tag .keyUsage
            else if form = 2 ∧ s.sealStore.lifecycle = 2 then s.complete fn queue tag .notInThisState
            else
              let (nonce, s) := s.random 12
              let b := sealBlob (s.blobKey form fn wrap) form (if form = 2 then fn else 0xFF) nonce x
              let s := if form = 1 then s.keyUse wrap else s
              let (s, err) := s.scatter fn d 0 buf b
              match err with
              | some st => s.complete fn queue tag st
              | none => s.keyEnd c k false .ok 128

/-- KEY_CLEAR (0x7B): R327, Table 11-10. -/
def execKeyClear (fn queue tag : Nat) (s : State) : Host.Outcome State Fault Refusal :=
  onKey 0x7B fn queue tag s fun c k s =>
    if s.slotListed k then s.complete fn queue tag .notInThisState
    else
      let vaulted := (s.cipher.vault.get? k).isSome || s.cipher.writes.any fun w => w.slot == k
      let s := s.emptySlot k
      if vaulted then (s.vaultPush ⟨k, none, false, some (fn, queue, tag), none⟩).keyEnd c k true .ok 0
      else s.keyEnd c k false .ok 0

/-- KEY_INFO (0x7C): bytes 0–47 of the blob layout with the slot's state, no key bytes (R325). -/
def execKeyInfo (fn queue tag : Nat) (buf : HostRead) (s : State) : Host.Outcome State Fault Refusal :=
  onKey 0x7C fn queue tag s fun c k s =>
    let d := descAt c.entry 16
    if !s.descOwn fn d then s.complete fn queue tag .notYourInstance
    else if !d.list ∧ d.len < 48 then s.complete fn queue tag .outOfRange
    else
      let x := (s.slot? k).getD ⟨false, 0, 0, 0, [], 0, 0, 0, false, 0⟩
      let (s, err) := s.scatter fn d 0 buf (blobHead (s.slotState k) 0xFF [] x)
      match err with
      | some st => s.complete fn queue tag st
      | none => s.keyEnd c k false .ok 48

/-- KEY_SET_LIMIT (0x7D): R324. -/
def execKeySetLimit (fn queue tag : Nat) (s : State) : Host.Outcome State Fault Refusal :=
  onKey 0x7D fn queue tag s fun c k s =>
    let l := leAt c.entry 8 8
    match s.slot? k with
    | none => s.complete fn queue tag .notInThisState
    | some x =>
      if 2 ^ 48 < l then s.complete fn queue tag .outOfRange
      else if x.restoring ∨ x.spent ∨ s.slotListed k then s.complete fn queue tag .notInThisState
      else if x.limit < l then s.complete fn queue tag .outOfRange
      else
        let y := { x with limit := l }
        let s := s.setSlot k y
        (if y.spent then s.slotSpent k else s).keyEnd c k false .ok 0

/-- The key command that waits for a vault write goes on, or ends with MEDIA_ERROR (R331, Table 11-16). -/
def State.vaultAnswer (s : State) (w : VaultWrite) (ok : Bool) : State :=
  match w.cmd with
  | some (n, q, t) =>
    let s := if ok then s else s.emptySlot w.slot
    (s.withCipher fun c => { c with keyWaits := c.keyWaits.map fun x =>
      if x.fn = n ∧ x.queue = q ∧ x.tag = t then { x with vault := false, status := if ok then x.status else .mediaError } else x }).keyWaitsSettle
  | none => s

/-- VAULT_WRITE_DONE (R331, Table 11-16): the entry stands, or the other copy is tried, or both have failed. -/
def execVaultWriteDone (ok : Bool) (s : State) : Host.Outcome State Fault Refusal :=
  match s.cipher.writes with
  | [] => done s
  | w :: rest =>
    if !ok ∧ !w.retried then
      done (((s.event 230).withCipher fun c => { c with writes := { w with retried := true } :: rest }).vaultSend)
    else
      let s := s.withCipher fun c => { c with
        writes := rest
        vault := if ok then (match w.entry with
          | some x => c.vault.put w.slot x
          | none => c.vault.del w.slot) else c.vault
        keys := if ok then (match w.lease, c.keys.get? w.slot with
          | some l, some x => c.keys.put w.slot { x with lease := l }
          | _, _ => c.keys) else c.keys
        copy := if ok then (if w.retried then c.copy else 1 - c.copy) else c.copy
        vaultSeq := c.vaultSeq + b2n ok }
      done (((if ok then s else s.event 230).vaultAnswer w ok).vaultSend)

/-- VAULT_RESTORE (R331): within 20 ms of READY the vaulted slots are LIVE with COUNT at their lease; in RETIRED nothing is
restored. -/
def execVaultRestore (s : State) : Host.Outcome State Fault Refusal :=
  if !s.cipher.restore then done s
  else
    let s := s.withCipher fun c => { c with restore := false }
    if s.sealStore.lifecycle = 2 then done ((s.event 230).dset 0x2800 6 Status.notInThisState.code)
    else
      let s := s.withCipher fun c => { c with keys := c.keys.map fun kv =>
        (kv.1, if kv.2.restoring then { kv.2 with restoring := false, count := kv.2.lease, lease := kv.2.lease + 0x100000 } else kv.2) }
      let s : State := (s.cipher.keys.filter fun kv => kv.2.lease != 0).foldl (fun (s : State) kv =>
        s.vaultPush ⟨kv.1, some kv.2, false, none, some kv.2.lease⟩) s
      done ((s.event 229).dset 0x2800 6 Status.ok.code)

/-- KEY_STORE_DOUBLE_BIT_ERROR (Table 11-16): the slot becomes EMPTY; jobs that wait on it end with KEY_EMPTY. -/
def execKeyStoreDoubleBitError (slot : Nat) (s : State) : Host.Outcome State Fault Refusal :=
  let s := (s.emptySlot slot).logCls 7 .critical Status.keyEmpty.code (leBytes 2 slot)
  done ((s.waitingJobs.filter fun j => j.slot == slot && ((s.ctx? j.fn j.queue j.tag).map fun c => (cipherKind c.op).mode != 0).getD true).foldl
    (fun (s : State) j => s.cipherEnd j .keyEmpty 0) s)

/-- ENGINE_TAKE (R311): a write of n + 1 to HST_ELOCKe. -/
def State.engineTake (s : State) (n e : Nat) : State :=
  if (s.engineOwner e).isNone ∧ e < 16 ∧ (s.inst n).st = .active ∧ (s.enginesHeld n).length < s.limit n 14 1 then
    ((s.withCipher fun c => { c with locks := c.locks.put e n }).event 224).lockedOut
  else s

/-- ENGINE_RELEASE (R311): a write of 0 to HST_ELOCKe. -/
def State.engineRelease (s : State) (n e : Nat) : State :=
  if s.engineOwner e = some n then (s.withCipher fun c => { c with locks := c.locks.del e }).event 224 else s

/-- ENGINE_TAKE. -/
def execEngineTake (fn engine : Nat) (s : State) : Host.Outcome State Fault Refusal :=
  done (if s.decodes fn then (if s.boot.ready then s.hostActivity.engineTake fn engine else s.hostActivity)
    else s.hostActivity.unsupportedRequest fn false)

/-- ENGINE_RELEASE. -/
def execEngineRelease (fn engine : Nat) (s : State) : Host.Outcome State Fault Refusal :=
  done (if s.decodes fn then (if s.boot.ready then s.hostActivity.engineRelease fn engine else s.hostActivity)
    else s.hostActivity.unsupportedRequest fn false)

/-- The fold header with INSTANCE as the device sets it (R333). -/
def foldHeader (n : Nat) (e : Bytes) (i : Nat) : Bytes :=
  let h := sub e 32 16
  (if n = 0 then h.take 2 else leBytes 2 n) ++ sub h 2 6 ++ leBytes 8 ((leAt h 8 8 + i) % 2 ^ 64)

/-- The length of SRC is outside Table 11-14. -/
def checkLenOut (op len : Nat) : Bool :=
  if op = 0x80 then decide (2 ^ 48 ≤ len) else len % 4096 != 0 || decide (2 ^ 36 < len)

/-- A check job submitted: checks 7 to 9 (Tables 11-13 and 11-14, R334). -/
def State.checkSubmit (s : State) (c : Ctx) (op : Nat) : State :=
  let e := c.entry
  let o := dw e 1
  let src := kjSrc e
  let arr := kjArray e
  if !s.descOwn c.fn src ∨ (op ≠ 0x80 ∧ !s.descOwn c.fn arr) then s.complete c.fn c.queue c.tag .notYourInstance
  else if (!src.list ∧ checkLenOut op src.len)
      ∨ (op ≠ 0x80 ∧ !src.list ∧ !arr.list ∧ arr.len < src.len / 4096 * 4) then s.complete c.fn c.queue c.tag .outOfRange
  else if op = 0x80 ∧ !bit o 1 ∧ bit o 0 then s.complete c.fn c.queue c.tag .fieldInvalid
  else
    let start := if bit o 1 then (if bit o 0 then crcRun 0xFFFFFFFF (foldHeader c.fn e 0) else 0xFFFFFFFF) else dw e 2
    let s := (s.markStarted c.fn c.queue c.tag).withCipher fun x => { x with
      checks := x.checks ++ [⟨c.fn, c.queue, c.tag, none, start, 0, 0, none⟩] }
    let s := s.checkAssign 8
    s.dmax 0x2900 5 s.checksWaiting.length

/-- CHECK_COMPUTE (0x80): R334. -/
def execCheckCompute (fn queue tag : Nat) (s : State) : Host.Outcome State Fault Refusal :=
  onCommand 0x80 fn queue tag s fun c s => s.checkSubmit c 0x80

/-- CHECK_BLOCKS (0x81). -/
def execCheckBlocks (fn queue tag : Nat) (s : State) : Host.Outcome State Fault Refusal :=
  onCommand 0x81 fn queue tag s fun c s => s.checkSubmit c 0x81

/-- CHECK_VERIFY_BLOCKS (0x82). -/
def execCheckVerifyBlocks (fn queue tag : Nat) (s : State) : Host.Outcome State Fault Refusal :=
  onCommand 0x82 fn queue tag s fun c s => s.checkSubmit c 0x82

/-- Segments from an offset on. -/
def dropSegs : Nat → List Desc → List Desc
  | _, [] => []
  | k, d :: t => if k < d.len then { d with addr := d.addr + k, len := d.len - k } :: t else dropSegs (k - d.len) t

/-- The bytes of one slice of a buffer: from LPDDR5, or as the host's reads returned them; or the status that ends the job. -/
def State.sliceBytes (s : State) (n : Nat) (d : Desc) (off len : Nat) (r : HostRead) : Except Status Bytes :=
  if d.dev then .ok (padTo len ((((s.segments n d []).1.map fun x => s.readDram n x).flatten).drop off))
  else if !s.canMaster n then .error .hostAccessLost
  else match r with
    | .timeout => .error .hostReadTimeout
    | .error => .error .hostReadError
    | .bytes _ b => .ok (padTo len b)

/-- The check of each block of a slice. -/
def sliceChecks (n : Nat) (e b : Bytes) (first : Nat) : List Nat :=
  (chunksOf 4096 b).mapIdx fun i x => crc32c (foldHeader n e (first + i) ++ x)

/-- A slice done: the job ends, or waits for a unit for its next slice (R335). -/
def State.checkNext (s : State) (last : Bool) (x : KJob) (st : Status) (r0 : Nat) : State :=
  if last ∨ st ≠ .ok then s.checkEnd x st r0 0
  else (s.withKJob x.fn x.queue x.tag fun _ => { x with unit := none }).checkAssign 8

/-- One slice of a check job (R334, R335): the job after it, or its end. -/
def State.checkSlice (s : State) (j : KJob) (c : Ctx) (payload array : HostRead) : State :=
  let e := c.entry
  let src := kjSrc e
  let arr := kjArray e
  match s.bufLen j.fn src 0 payload with
  | .error st => s.checkEnd j st 0 0
  | .ok total =>
    if checkLenOut c.op total then s.checkEnd j .outOfRange 0 0
    else
      let len := min 0x100000 (total - j.done)
      match s.sliceBytes j.fn src j.done len payload with
      | .error st => s.checkEnd j st 0 0
      | .ok b =>
        let last := decide (total ≤ j.done + len)
        let first := j.done / 4096
        match c.op with
        | 0x80 =>
          let v := crcRun j.value b
          s.checkNext last { j with value := v, done := j.done + len } .ok (if bit (dw e 1) 2 then Nat.xor v 0xFFFFFFFF else v)
        | 0x81 =>
          let out := ((sliceChecks j.fn e b first).map (leBytes 4)).flatten
          let (g, bad) := s.segments j.fn arr (match array with
            | .bytes ls _ => ls.getD 0 []
            | _ => [])
          if !arr.dev ∧ !s.canMaster j.fn then s.checkEnd j .hostAccessLost 0 0
          else
            let s := s.scatterInto j.fn (dropSegs (4 * first) g) out
            s.checkNext last { j with done := j.done + len }
              (if segmentsLength g < 4 * first + out.length then (if bad then .bufferListInvalid else .outOfRange) else .ok) 0
        | _ =>
          match s.sliceBytes j.fn arr (4 * first) (len / 4096 * 4) array with
          | .error st => s.checkEnd j st 0 0
          | .ok a =>
            let bad := ((sliceChecks j.fn e b first).mapIdx fun i v => (i, v)).filter fun x => x.2 != leAt a (4 * x.1) 4
            let fails := j.fails + bad.length
            let ff := j.firstFail.orElse fun _ => bad.head?.map fun x => first + x.1
            let x := { j with done := j.done + len, fails := fails, firstFail := ff }
            if last then s.checkEnd x (if fails = 0 then .ok else .checkMismatch) (ff.getD 0xFFFFFFFF) (min fails 0xFFFFFF)
            else s.checkNext last x .ok 0

/-- CHECK_SLICE_DONE (R335): the unit has done a slice of its job. -/
def execCheckSliceDone (unit : Nat) (payload array : HostRead) (s : State) : Host.Outcome State Fault Refusal :=
  match s.cipher.checks.find? fun j => j.unit == some unit with
  | some j =>
    match s.ctx? j.fn j.queue j.tag with
    | some c => if s.domOn domCIPHER then done (s.checkSlice j c payload array) else done s
    | none => done (s.withCipher fun x => { x with checks := x.checks.filter fun y => y.unit != some unit })
  | none => done s

end Sys2Proof.Machine
end

