-- ==== Sys2Proof/Machine/Damper.lean ====
section
/-! DEFINITION. The commands of the damper (Chapter 5). -/

namespace Sys2Proof.Machine

/-- DAMPER_TICK: the damper runs in Blaze and Glow (R119). -/
def execDamperTick (input : TickInput) (s : State) : Host.Outcome State Fault Refusal :=
  if s.awake ∧ s.boot.ready then done (s.damperTickOp input) else done s

/-- DESCENT_HOLD_EXPIRY (R131): one step down, not from a forced step and not from step 8. -/
def execDescentHoldExpiry (s : State) : Host.Outcome State Fault Refusal :=
  if s.awake ∧ s.damper.holding ∧ 0 < s.ladder ∧ s.ladder < 8 ∧ s.dget 0x2100 0x0B = 0 ∧ !s.dbg.hearthHalted then
    done (s.ladderMove (s.ladder - 1) false)
  else done s

/-- CAP_RELEASE_HOLD_EXPIRY (R128). -/
def execCapReleaseHoldExpiry (inst : Nat) (s : State) : Host.Outcome State Fault Refusal :=
  let c := s.damper.caps.getD inst ⟨[], false, false⟩
  if c.acting ∧ c.below then
    done (s.withDamper fun d => { d with caps := d.caps.put inst { c with acting := false } })
  else done s

/-- SHED_PORT_SEARCH (R130, Table 5-7): a partner found ends the port's shedding. -/
def execShedPortSearch (port : Nat) (partner : Bool) (s : State) : Host.Outcome State Fault Refusal :=
  if 2 ≤ s.ladder ∧ partner then
    done ((s.withDamper fun d => { d with partner := d.partner.put port () }).portsCheck)
  else done s

/-- METER_SAMPLE_TIMEOUT (Table 5-7): counted at its maximum until samples return; an Error entry. -/
def execMeterSampleTimeout (domain : Nat) (s : State) : Host.Outcome State Fault Refusal :=
  if s.awake ∧ (s.damper.lost.get? domain).isNone then
    done ((s.withDamper fun d => { d with lost := d.lost.put domain () }).logCls 1 .error 0x800D (leBytes 1 domain))
  else done s

/-- IGN_OFF_ALLOWANCE_REACHED (R139): event 24 once; the state of IGN_OFF_ACTION is requested when the action says so. -/
def execIgnOffAllowanceReached (s : State) : Host.Outcome State Fault Refusal :=
  let lim := s.dget 0x2106 2 * 1000000
  if s.awake ∧ lim ≠ 0 ∧ lim ≤ s.dget 0x2106 1 ∧ s.damper.ignCounting ∧ !s.damper.ignReached then
    let s := (s.event 24).withDamper fun d => { d with ignReached := true }
    done (if s.dget 0x2106 3 = 1 then s.firmwareRequest else s)
  else done s

/-- THERMAL_TRIP (R135): PFAIL inside the device and a wake-history entry with source byte 0x80. -/
def execThermalTrip (s : State) : Host.Outcome State Fault Refusal :=
  if s.pow.st = .off then done s
  else done (((s.wakeNote 0x80).withPow fun p => { p with thermalTrip := true }).pfailTaken)

/-- THERMAL_TRIP_SHUTDOWN (R135): 2 ms after the trip MAIN_EN goes low without a drain. -/
def execThermalTripShutdown (s : State) : Host.Outcome State Fault Refusal :=
  if s.pow.thermalTrip then done ((s.emberOff).withPow fun p => { p with thermalTrip := false }) else done s

/-- VSENSE_SAMPLE (R509): code and mV, the minimum, and whether the level is below VSENSE_EMBER. -/
def execVsenseSample (code : Nat) (s : State) : Host.Outcome State Fault Refusal :=
  let c := min code 4095
  let mv := (c * 9375 + 500) / 1000
  let s := ((s.dset 0x3C01 1 c).dset 0x2102 3 mv).withPow fun p => { p with
    vsense := mv, vsenseCode := c, vsenseLow := decide (mv < s.aoGet 0x2002 1) }
  done (if mv < s.dget 0x2102 5 then s.dset 0x2102 5 mv else s)

end Sys2Proof.Machine
end

