-- ==== Sys2Proof/Machine/Debug.lean ====
section
/-! DEFINITION. JTAG access to the debug module (R514–R516): sessions, DTMCS and DMI. The registers stand where the RISC-V External Debug
Support specification 0.13.2, which the manual names, places them (PRESUMED), with abstract commands of 32 bits, no program buffer
and no system bus. -/

namespace Sys2Proof.Machine

/-- A session is attached (R515): event 555 and the DEBUG vote, which follows DEBUG_ATTACHED. -/
def State.debugAttach (s : State) : State :=
  if s.dget 0x3C10 2 = 1 then s
  else (((s.withDbg fun d => { d with active := true }).dset 0x3C10 2 1).dinc 0x3C10 3).event 555

/-- A session ends (R515). -/
def State.debugDetach (s : State) : State :=
  if s.dget 0x3C10 2 = 1 then (s.dset 0x3C10 2 0).event 555 else s

/-- DEBUG_SESSION_ATTACH (R515): dmactive rises with access permitted. -/
def execDebugSessionAttach (s : State) : Host.Outcome State Fault Refusal :=
  if s.debugPermitted then done s.debugAttach else done s

/-- DEBUG_SESSION_DETACH (R515): dmactive falls, or access is no longer permitted. -/
def execDebugSessionDetach (s : State) : Host.Outcome State Fault Refusal :=
  done ((s.withDbg fun d => { d with active := false }).debugDetach)

/-- The hart exists: 0–255 the threads, 256 the hearth (R515). -/
def hartExists (h : Nat) : Bool := decide (h ≤ 256)

/-- The hart can be reached: the hearth, or a thread whose core runs. -/
def State.hartAvailable (s : State) (h : Nat) : Bool :=
  h == 256 || (decide (h < 256) && s.coreUp (h / 8) && (s.thread h).run != .off) || (decide (h < 256) && s.peat.replay)

/-- The hart is halted by the debugger. -/
def State.hartHalted (s : State) (h : Nat) : Bool := if h = 256 then s.dbg.hearthHalted else (s.thread h).halted

/-- A hart halted (R443, R516). -/
def State.hartHalt (s : State) (h : Nat) : State :=
  if h = 256 then s.withDbg fun d => { d with hearthHalted := true } else s.debugHalt h

/-- The hearth resumes after a halt: the entries that the firmware owes are written (R516). -/
def State.hearthResume (s : State) : State :=
  let l := s.dbg.owed
  l.foldl State.logSubmit (s.withDbg fun d => { d with hearthHalted := false, owed := [] })

/-- One instruction of a stepped thread, then the halt again. -/
def State.hartStep (s : State) (h : Nat) : State :=
  let s := s.debugResume h
  let s := if s.peat.replay then s.replayStep h else s.threadStep h
  s.withThread h fun x => { x with halted := true }

/-- A hart resumed; a thread whose step bit is set executes one instruction. -/
def State.hartResume (s : State) (h : Nat) : State :=
  if !s.hartHalted h then s
  else
    let s := s.withDbg fun d => { d with resumeAck := d.resumeAck.put h () }
    if h = 256 then s.hearthResume
    else if (s.dbg.step.get? h).isSome then s.hartStep h
    else s.debugResume h

/-- dmstatus of the selected hart: version 2, authenticated, and the any/all pairs. -/
def State.dmstatus (s : State) : Nat :=
  let h := s.dbg.hartsel
  let ex := hartExists h
  let av := ex && s.hartAvailable h
  let ha := av && s.hartHalted h
  2 + 0x80 + 0x300 * b2n ha + 0xC00 * b2n (av && !ha) + 0x3000 * b2n (ex && !av) + 0xC000 * b2n (!ex)
    + 0x30000 * b2n ((s.dbg.resumeAck.get? h).isSome)

/-- dmcontrol as it reads. -/
def Dbg.dmcontrol (d : Dbg) : Nat := b2n d.active + (d.hartsel % 1024) * 0x10000 + (d.hartsel / 1024) * 0x40

/-- A write of dmcontrol: dmactive first, then the selected hart halted or resumed. -/
def State.dmcontrolWrite (s : State) (v : Nat) : State :=
  if !bit v 0 then
    (s.withDbg fun d => { Dbg.reset with
        hearthHalted := d.hearthHalted, owed := d.owed }).debugDetach
  else
    let s := if s.dbg.active then s else s.debugAttach
    let h := bits v 16 10 + bits v 6 10 * 1024
    let s := s.withDbg fun d => { d with hartsel := h }
    if !hartExists h ∨ !s.hartAvailable h then s
    else if bit v 31 then s.hartHalt h
    else if bit v 30 then (s.withDbg fun d => { d with resumeAck := d.resumeAck.del h }).hartResume h
    else s

/-- An abstract command failed with a cmderr. -/
def State.dbgErr (s : State) (n : Nat) : State := s.withDbg fun d => { d with cmderr := n }

/-- A register of a thread by its abstract number: CSRs with dpc and dcsr, x0–x31; none for others. -/
def State.dbgReg (s : State) (t n : Nat) : Option (Nat × State) :=
  let x := s.thread t
  if n = 0x7B1 then some (x.pc, s)
  else if n = 0x7B0 then some (0x40000003 + 4 * b2n ((s.dbg.step.get? t).isSome), s)
  else if 0x1000 ≤ n ∧ n < 0x1020 then some (x.reg (n - 0x1000), s)
  else if n < 0x1000 ∧ (s.csrAccess t n).isSome then
    some (match n with
      | 0xCC4 => (x.dmadone, s)
      | 0x8C8 => (0, s)
      | _ => s.csrRead t n)
  else none

/-- A register of a thread written, with the BREAK that it means for a recorded thread (Table 16-11). -/
def State.dbgRegWrite (s : State) (t n v : Nat) : Option State :=
  if n = 0x7B1 then some ((s.withThread t fun x => { x with pc := v % 2 ^ 32 / 2 * 2 }).peatBreak t 1)
  else if n = 0x7B0 then some (s.withDbg fun d => { d with step := if bit v 2 then d.step.put t () else d.step.del t })
  else if 0x1000 ≤ n ∧ n < 0x1020 then some ((s.withThread t fun x => x.setReg (n - 0x1000) v).peatBreak t 1)
  else if n < 0x1000 ∧ s.csrAccess t n = some true then some ((s.csrWrite t n v).peatBreak t 1)
  else none

/-- Memory of a thread as the debugger reads it: its instruction memory, its slice, the shared window. -/
def State.dbgLoad (s : State) (t a n : Nat) : Option Nat :=
  match s.threadLoad t a n with
  | .value v _ => some v
  | _ => none

/-- Memory of a thread written by the debugger: its slice. -/
def State.dbgStore (s : State) (t a n v : Nat) : Option State :=
  if a % n = 0 ∧ inSlice a n then some ((s.withThread t fun x => x.sliceWrite a (leBytes n v)).peatBreak t 1) else none

/-- The address of an abstract memory access moves on where the command asks for it (aampostincrement). -/
def State.dbgAdvance (s : State) (v n : Nat) : State :=
  if bit v 19 then s.withDbg fun d => { d with data1 := (d.data1 + n) % 2 ^ 32 } else s

/-- A write of `command`: Access Register and Access Memory of 32 bits; the hearth's registers and memory are free, and a write to
them ends its replayable span. -/
def State.dmCommand (s : State) (v : Nat) : State :=
  let h := s.dbg.hartsel
  let size := bits v 20 3
  let wr := bit v 16
  if s.dbg.cmderr ≠ 0 then s
  else if !hartExists h ∨ !s.hartHalted h then s.dbgErr 4
  else match bits v 24 8 with
    | 0 =>
      if size ≠ 2 ∨ bit v 18 ∨ bit v 19 then s.dbgErr 2
      else if !bit v 17 then s
      else if h = 256 then
        if wr then s.peatBreak hearthHart 1
        else
          let (x, s) := s.drawBits 32
          s.withDbg fun d => { d with data0 := x }
      else if wr then match s.dbgRegWrite h (bits v 0 16) s.dbg.data0 with
        | some s => s
        | none => s.dbgErr 3
      else match s.dbgReg h (bits v 0 16) with
        | some (x, s) => s.withDbg fun d => { d with data0 := x }
        | none => s.dbgErr 3
    | 2 =>
      let n := 2 ^ size
      let a := s.dbg.data1
      if 2 < size ∨ bit v 23 then s.dbgErr 2
      else if h = 256 then
        if wr then (s.peatBreak hearthHart 1).dbgAdvance v n
        else
          let (x, s) := s.drawBits 32
          (s.withDbg fun d => { d with data0 := x }).dbgAdvance v n
      else if wr then match s.dbgStore h a n (s.dbg.data0 % 2 ^ (8 * n)) with
        | some s => s.dbgAdvance v n
        | none => s.dbgErr 5
      else match s.dbgLoad h a n with
        | some x => (s.withDbg fun d => { d with data0 := x }).dbgAdvance v n
        | none => s.dbgErr 5
    | _ => s.dbgErr 2

/-- Bit i of the halt summary: hart `first + i` is halted. -/
def State.haltsum (s : State) (first : Nat) : Nat :=
  sumNat ((List.range 32).map fun i => b2n (hartExists (first + i) && s.hartHalted (first + i)) * 2 ^ i)

/-- A DMI read (R515 and the specification it names); addresses without a register read zero. -/
def State.dmiRead (s : State) (votes : Nat → Nat) (a : Nat) : Nat :=
  let d := s.dbg
  if a = 0x10 then d.dmcontrol
  else if a = 0x71 then votes d.vote
  else if a = 0x72 then d.vote
  else if !d.active then 0
  else match a with
    | 0x04 => d.data0
    | 0x05 => d.data1
    | 0x11 => s.dmstatus
    | 0x13 => sumNat ((List.range 9).map fun i => b2n (s.haltsum (32 * i) != 0) * 2 ^ i)
    | 0x16 => 2 + d.cmderr * 0x100
    | 0x40 => s.haltsum (d.hartsel / 32 * 32)
    | _ => 0

/-- A DMI write. -/
def State.dmiWrite (s : State) (a v : Nat) : State :=
  if a = 0x10 then s.dmcontrolWrite v
  else if a = 0x70 then (if v < 256 then s.forceRelease v else s)
  else if a = 0x72 then s.withDbg fun d => { d with vote := v % 2 ^ 32 }
  else if !s.dbg.active then s
  else match a with
    | 0x04 => s.withDbg fun d => { d with data0 := v % 2 ^ 32 }
    | 0x05 => s.withDbg fun d => { d with data1 := v % 2 ^ 32 }
    | 0x16 => s.withDbg fun d => { d with cmderr := d.cmderr - Nat.land d.cmderr (bits v 8 3) }
    | 0x17 => s.dmCommand v
    | _ => s

/-- DTMCS as it reads: version 1, 7 address bits, dmistat 0: an operation that fails does nothing (R515). -/
def dtmcsValue : Nat := 0x71

/-- A DMI or DTMCS operation (R515). While debug is not permitted the operation fails with status 2 and does nothing. -/
def State.dmiAccess (s : State) (op : DmiOp) : State :=
  if !s.debugPermitted then s.emit (.dmi false 0)
  else match op with
    | .dtmcs _ => s.emit (.dmi true dtmcsValue)
    | .read a => s.emit (.dmi true (s.dmiRead s.votes (a % 128)))
    | .write a v => (s.dmiWrite (a % 128) v).emit (.dmi true 0)

/-- DMI_ACCESS (R515). -/
def execDmiAccess (op : DmiOp) (s : State) : Host.Outcome State Fault Refusal := done (s.dmiAccess op)

end Sys2Proof.Machine
end

