-- ==== Sys2Proof/Machine/Dictionary.lean ====
section
/-! DEFINITION. The commands of the dictionary service and its paths (Chapter 2), and the commands of other chapters that are writes or
reads of a dictionary entry. -/

namespace Sys2Proof.Machine

/-- DICT_READ (Table 2-3, operation 0). -/
def execDictRead (who : Requester) (index sub : Nat) (s : State) : Host.Outcome State Fault Refusal :=
  done (s.dictRequest who .read index sub [])

/-- DICT_WRITE (Table 2-3, operation 1). -/
def execDictWrite (who : Requester) (index sub : Nat) (data : Bytes) (s : State) : Host.Outcome State Fault Refusal :=
  done (s.dictRequest who .write index sub data)

/-- DICT_INFO (Table 2-3, operation 2). -/
def execDictInfo (who : Requester) (index sub : Nat) (s : State) : Host.Outcome State Fault Refusal :=
  done (s.dictRequest who .info index sub [])

/-- DICT_NEXT (Table 2-3, operation 3). -/
def execDictNext (who : Requester) (index sub : Nat) (s : State) : Host.Outcome State Fault Refusal :=
  done (s.dictRequest who .next index sub [])

/-- DICT_READ_SHADOW (Table 2-3, operation 4). -/
def execDictReadShadow (who : Requester) (index sub : Nat) (s : State) : Host.Outcome State Fault Refusal :=
  done (s.dictRequest who .readShadow index sub [])

/-- ONSIA_DATAGRAM (R43–R46). -/
def execOnsiaDatagram (srcAddr srcPort dstAddr vlan : Nat) (payload : Bytes) (s : State) : Host.Outcome State Fault Refusal :=
  done (s.onsiaTake srcAddr srcPort dstAddr vlan payload)

/-- ONSIA_SESSION_TIMEOUT (R45): the session closes, its partial transfers are discarded. -/
def execOnsiaSessionTimeout (addr port session : Nat) (s : State) : Host.Outcome State Fault Refusal :=
  done (s.withSvc fun k => { k with
    sessions := k.sessions.filter fun x => !(x.addr == addr && x.port == port && x.session == session) })

/-- USDO_INITIATE_UPLOAD (R41). -/
def execUsdoInitiateUpload (port index sub : Nat) (s : State) : Host.Outcome State Fault Refusal :=
  done (s.usdoInitiate port index sub none)

/-- USDO_INITIATE_DOWNLOAD (R41). -/
def execUsdoInitiateDownload (port index sub size : Nat) (data : Bytes) (s : State) : Host.Outcome State Fault Refusal :=
  done (s.usdoInitiate port index sub (some (size, data)))

/-- USDO_SEGMENT (R41, R42). -/
def execUsdoSegment (port : Nat) (frame : UsdoFrame) (s : State) : Host.Outcome State Fault Refusal :=
  done (s.usdoSegment port frame)

/-- USDO_TRANSFER_TIMEOUT (R41, R42). -/
def execUsdoTransferTimeout (port : Nat) (s : State) : Host.Outcome State Fault Refusal := done (s.usdoTimeout port)

/-- HEARTBEAT (0x1017:00). -/
def execHeartbeat (s : State) : Host.Outcome State Fault Refusal := done s.heartbeatSend

/-- GROUP_COMMIT (R54, R55): a write of 1 to the group's commit entry. -/
def execGroupCommit (who : Requester) (group : Nat) (s : State) : Host.Outcome State Fault Refusal :=
  done (s.writeRequest who (groupIdx group) 1 1)

/-- GROUP_DISCARD (R56): a write of 2 to the group's commit entry. -/
def execGroupDiscard (who : Requester) (group : Nat) (s : State) : Host.Outcome State Fault Refusal :=
  done (s.writeRequest who (groupIdx group) 1 2)

/-- GROUP_APPLY (R54): the apply point of a commit that passed its check. -/
def execGroupApply (group : Nat) (s : State) : Host.Outcome State Fault Refusal := done (s.applyNow group)

/-- SHADOW_TIMEOUT (R56): it counts in Blaze and Glow only. -/
def execShadowTimeout (group : Nat) (s : State) : Host.Outcome State Fault Refusal :=
  if s.hearthRuns then done (s.shadowExpire group) else done s

/-- WRITE_MASK_WRITE (R50, R51). -/
def execWriteMaskWrite (who : Requester) (inst mask : Nat) (s : State) : Host.Outcome State Fault Refusal :=
  done (s.writeRequest who (0x1FC0 + inst) 1 mask)

/-- EMBER_RESTART (R91, Table 3-19). -/
def execEmberRestart (who : Requester) (s : State) : Host.Outcome State Fault Refusal := done (s.writeRequest who 0x2203 6 1)

/-- REQUEST_BLAZE (R95, R96). -/
def execRequestBlaze (who : Requester) (s : State) : Host.Outcome State Fault Refusal := done (s.writeRequest who 0x2000 2 0)

/-- REQUEST_GLOW (R95, R96). -/
def execRequestGlow (who : Requester) (s : State) : Host.Outcome State Fault Refusal := done (s.writeRequest who 0x2000 2 1)

/-- REQUEST_BANKED (R95, R96). -/
def execRequestBanked (who : Requester) (s : State) : Host.Outcome State Fault Refusal := done (s.writeRequest who 0x2000 2 2)

/-- REQUEST_EMBER (R95, R96). -/
def execRequestEmber (who : Requester) (s : State) : Host.Outcome State Fault Refusal := done (s.writeRequest who 0x2000 2 3)

/-- MANAGER_VOTE (Table 4-4). -/
def execManagerVote (who : Requester) (domain value : Nat) (s : State) : Host.Outcome State Fault Refusal :=
  done (s.writeRequest who (0x2010 + domain) 2 value)

/-- FORCE_STEP (R133). -/
def execForceStep (who : Requester) (value : Nat) (s : State) : Host.Outcome State Fault Refusal :=
  done (s.writeRequest who 0x2100 0x0B value)

/-- SNAPSHOT (R137). -/
def execSnapshot (who : Requester) (value : Nat) (s : State) : Host.Outcome State Fault Refusal :=
  done (s.writeRequest who 0x2105 5 value)

/-- TIME_SET (R384). -/
def execTimeSet (who : Requester) (value : Nat) (s : State) : Host.Outcome State Fault Refusal :=
  done (s.writeRequest who 0x3180 0x0E value)

/-- GROUP_START (R419, command 1). -/
def execGroupStart (who : Requester) (group : Nat) (s : State) : Host.Outcome State Fault Refusal :=
  done (s.writeRequest who 0x3802 1 (0x100 + group % 256))

/-- GROUP_STOP (R419, command 2). -/
def execGroupStop (who : Requester) (group : Nat) (s : State) : Host.Outcome State Fault Refusal :=
  done (s.writeRequest who 0x3802 1 (0x200 + group % 256))

/-- GROUP_RESTART (R419, command 3). -/
def execGroupRestart (who : Requester) (group : Nat) (s : State) : Host.Outcome State Fault Refusal :=
  done (s.writeRequest who 0x3802 1 (0x300 + group % 256))

/-- GROUP_DELETE (R419, command 4). -/
def execGroupDelete (who : Requester) (group : Nat) (s : State) : Host.Outcome State Fault Refusal :=
  done (s.writeRequest who 0x3802 1 (0x400 + group % 256))

/-- RESTART_GROUP (R449): a write to +0x2D:01 of the instance's block. -/
def execRestartGroup (who : Requester) (inst group : Nat) (s : State) : Host.Outcome State Fault Refusal :=
  done (s.writeRequest who (blk inst 0x2D) 1 group)

/-- DELIVERY_THREAD_WRITE (R445, R462). -/
def execDeliveryThreadWrite (who : Requester) (core thread : Nat) (s : State) : Host.Outcome State Fault Refusal :=
  done (s.writeRequest who (0x3840 + core) 0x0A thread)

/-- CLEAR_TARGET (0x3900:08, R460). -/
def execClearTarget (who : Requester) (target : Nat) (s : State) : Host.Outcome State Fault Refusal :=
  done (s.writeRequest who 0x3900 8 target)

/-- SOURCE_MAP (R463, R467). -/
def execSourceMap (who : Requester) (data : Bytes) (s : State) : Host.Outcome State Fault Refusal :=
  done (s.dictRequest who .write 0x3901 1 data)

/-- LOG_CLEAR (R477). -/
def execLogClear (who : Requester) (s : State) : Host.Outcome State Fault Refusal := done (s.writeRequest who 0x3A00 3 1)

/-- FIRST_OF_KIND_CLEAR (R477). -/
def execFirstOfKindClear (who : Requester) (s : State) : Host.Outcome State Fault Refusal := done (s.writeRequest who 0x3A00 3 2)

/-- EXPORT_PULL (R478): a read of 0x3A20:09. -/
def execExportPull (who : Requester) (s : State) : Host.Outcome State Fault Refusal := done (s.dictRequest who .read 0x3A20 9 [])

/-- ALARM_ACK (R483). -/
def execAlarmAck (who : Requester) (alarm : Nat) (s : State) : Host.Outcome State Fault Refusal :=
  done (s.writeRequest who (0x3A40 + alarm) 8 1)

/-- ACK_ALL (R483). -/
def execAckAll (who : Requester) (s : State) : Host.Outcome State Fault Refusal := done (s.writeRequest who 0x3A30 3 1)

/-- ALARM_DEFINE (R482, R483). -/
def execAlarmDefine (who : Requester) (alarm sub value : Nat) (s : State) : Host.Outcome State Fault Refusal :=
  done (s.writeRequest who (0x3A40 + alarm) sub value)

/-- PEAT_OFF (R487). -/
def execPeatOff (who : Requester) (s : State) : Host.Outcome State Fault Refusal := done (s.writeRequest who 0x3B00 1 0)

/-- PEAT_RING (R487). -/
def execPeatRing (who : Requester) (s : State) : Host.Outcome State Fault Refusal := done (s.writeRequest who 0x3B00 1 1)

/-- PEAT_ONE_SHOT (R487). -/
def execPeatOneShot (who : Requester) (s : State) : Host.Outcome State Fault Refusal := done (s.writeRequest who 0x3B00 1 2)

/-- TRIGGER (R491, cause 1). -/
def execTrigger (who : Requester) (s : State) : Host.Outcome State Fault Refusal := done (s.writeRequest who 0x3B01 1 1)

/-- PEAT_WINDOW_WRITE (R493). -/
def execPeatWindowWrite (who : Requester) (data : Bytes) (s : State) : Host.Outcome State Fault Refusal :=
  done (s.dictRequest who .write 0x3B10 2 data)

/-- REPLAY_ARM (R494). -/
def execReplayArm (who : Requester) (s : State) : Host.Outcome State Fault Refusal := done (s.writeRequest who 0x3B02 1 1)

end Sys2Proof.Machine
end

