-- ==== Sys2Proof/Machine/Tenants.lean ====
section
/-! DEFINITION. The tenant admin commands (Chapter 8): create, modify, quiesce, resume, reset, destroy, re-arm, get. -/

namespace Sys2Proof.Machine

/-- The meaning of a tenant admin row: the command on PF0's admin SQ, and the instance it names. -/
def onTenant (op tag : Nat) (s : State) (k : Ctx → Nat → State → State) : Host.Outcome State Fault Refusal :=
  onCommand op 0 0 tag s fun c s => k c c.target s

/-- A tenant admin command ends; RESULT0 is the state of the instance (Table 8-4). -/
def State.tenantEnd (s : State) (tag n : Nat) (st : Status) (r1 : Nat := 0) : State :=
  s.complete 0 0 tag st (s.inst n).st.num r1

/-- The resources of one record that another does not have, cleaned (R223). -/
def State.cleanDifference (s : State) (a b : Bytes) : State :=
  let s := (rangeMinus (recKeys a) (recKeys b)).foldl (fun (s : State) r => s.keysClear r.1 r.2) s
  let s := (rangeMinus (recMeters a) (recMeters b)).foldl (fun (s : State) r => s.metersClear r.1 r.2) s
  let s : State := (rangeMinus (recDram a) (recDram b)).foldl (fun (s : State) r =>
    (s.withDram fun m => m.clear (r.1 * 0x100000) (r.2 * 0x100000))) s
  s.slicesClear ((maskThreads (sub a 16 32)).filter fun t => !(maskThreads (sub b 16 32)).contains t)

/-- A record comes into force (R223, R224, R229, R446). -/
def State.putRecord (s : State) (n : Nat) (r : Bytes) : State :=
  let old := (s.inst n).record
  let s := (s.cleanDifference old r).cleanDifference r old
  let s := s.withInst n fun x => { x with record := r }
  let moved := (List.range 256).filter fun t =>
    (maskThreads (sub old 16 32)).contains t != (maskThreads (sub r 16 32)).contains t
  let s := s.threadsMoved moved
  let s := (s.dset (0x2140 + n) 1 (byteAt r 64)).dset (0x2140 + n) 2 (leAt r 68 4)
  if n = 0 ∨ s.dget (0x1FC0 + n) 1 = recMask n r then s
  else (s.dset (0x1FC0 + n) 1 (recMask n r)).shadowsDrop n

/-- The buffer of a creation record (checks 7 and 8, R526), or the status by which the command ends. -/
def State.recordOf (s : State) (c : Ctx) (r : HostRead) : Except Status Bytes :=
  let d := descAt c.entry 8
  if !s.descOwn 0 d then .error .notYourInstance
  else if d.len < 128 then .error .outOfRange
  else s.gather 0 d 128 0 r

/-- CREATE_INSTANCE (0x10): R228, R252, Table 8-5. -/
def execCreateInstance (tag : Nat) (record : HostRead) (s : State) : Host.Outcome State Fault Refusal :=
  onTenant 0x10 tag s fun c n s =>
    match s.recordOf c record with
    | .error st => s.tenantEnd tag n st
    | .ok r =>
      if s.recordOutOfRange n r then s.tenantEnd tag n .outOfRange
      else if byteAt r 15 < s.nsAttached n then s.tenantEnd tag n .outOfRange (s.nsAttached n)
      else if !recordReservedOk r ∨ s.recordOverlaps n r then s.tenantEnd tag n .fieldInvalid
      else if (s.inst n).st ≠ .absent then s.tenantEnd tag n .notInThisState
      else if s.poolsExceeded n r then s.tenantEnd tag n .poolExhausted
      else
        let s := (s.withInst n fun x => { x with record := zeros 128 }).putRecord n r
        ((s.dinc (blk n 0x10) 2).instTo n .active).tenantEnd tag n .ok

/-- A new record lowers a limit below present use (Table 8-5): of the named limits. -/
def State.lowersBelowUse (s : State) (n : Nat) (r : Bytes) : Bool :=
  decide (leAt r 0 2 < (ioOnly (s.sqsOf n)).length) || decide (leAt r 2 2 < (ioOnly (s.cqsOf n)).length)
  || decide (leAt r 4 4 < s.reserveGiven n) || decide (byteAt r 15 < s.nsOwnedBy n) || decide (leAt r 56 4 < s.pipe.table.owned n)

/-- A new record removes a thread assigned to a group. -/
def State.removesGrouped (s : State) (n : Nat) (r : Bytes) : Bool :=
  (s.threadsOf n).any fun t => !(maskThreads (sub r 16 32)).contains t && s.threadGrouped t

/-- MODIFY_INSTANCE (0x11): R229, Table 8-5. -/
def execModifyInstance (tag : Nat) (record : HostRead) (s : State) : Host.Outcome State Fault Refusal :=
  onTenant 0x11 tag s fun c n s =>
    match s.recordOf c record with
    | .error st => s.tenantEnd tag n st
    | .ok r =>
      let old := (s.inst n).record
      let st := (s.inst n).st
      if s.recordOutOfRange n r then s.tenantEnd tag n .outOfRange
      else if !recordReservedOk r ∨ s.recordOverlaps n r then s.tenantEnd tag n .fieldInvalid
      else if st ≠ .active ∧ st ≠ .quiesced then s.tenantEnd tag n .notInThisState
      else if st = .active ∧ (s.lowersBelowUse n r ∨ s.removesGrouped n r ∨ leAt r 8 2 < s.contextsOf n
          ∨ byteAt r 14 < (s.enginesHeld n).length ∨ (rangeMinus (recKeys old) (recKeys r)).any (fun x => s.keysHeld x.1 x.2)
          ∨ !(rangeMinus (recDram old) (recDram r)).all fun x => x.2 == 0) then s.tenantEnd tag n .instanceNotQuiesced
      else if st = .quiesced ∧ (s.lowersBelowUse n r ∨ s.removesGrouped n r) then s.tenantEnd tag n .notInThisState
      else if s.poolsExceeded n r then s.tenantEnd tag n .poolExhausted
      else (s.putRecord n r).tenantEnd tag n .ok

/-- Every command of an instance abandoned and its held completions discarded, its queues staying (R230). -/
def State.forceQuiet (s : State) (n : Nat) : State :=
  let s := s.abandon n
  s.withQ fun k => { k with
    ctxs := k.ctxs.filter fun c => c.fn != n
    cqs := k.cqs.map fun kv => if kv.1 / 65536 = n then (kv.1, { kv.2 with share := [], held := [] }) else kv }

/-- QUIESCE_INSTANCE (0x12): R226, R230. -/
def execQuiesceInstance (tag : Nat) (s : State) : Host.Outcome State Fault Refusal :=
  onTenant 0x12 tag s fun c n s =>
    let w := dw c.entry 2
    let force := bit w 31
    let t := bits w 0 14
    if n = 0 ∨ t = 0 ∨ 10000 < t then s.tenantEnd tag n .outOfRange
    else match (s.inst n).st with
      | .quiesced => s.tenantEnd tag n .ok
      | .active | .quiescing =>
        let s := s.withInst n fun x => { x with quiesceTag := some tag, forced := force }
        let s := (s.instTo n .quiescing).markStarted 0 0 tag
        if force then s.forceQuiet n else s
      | _ => s.tenantEnd tag n .notInThisState

/-- Nothing of an instance is in flight and no completion of it is held (R230). -/
def State.quiet (s : State) (n : Nat) : Bool :=
  !(s.q.ctxs.any fun c => c.fn == n) && (s.cqsOf n).all fun c => c.2.share.isEmpty && c.2.held.isEmpty

/-- The QUIESCE_INSTANCE in hand of an instance completes. -/
def State.quiesceEnd (s : State) (n : Nat) (st : Status) : State :=
  let t := (s.inst n).quiesceTag
  let s := s.withInst n fun x => { x with quiesceTag := none, forced := false }
  match t with
  | some tag => s.tenantEnd tag n st
  | none => s

/-- QUIESCE_COMPLETE (R230): threads stopped, claims and LOCKs released, QUIESCED. -/
def execQuiesceComplete (inst : Nat) (s : State) : Host.Outcome State Fault Refusal :=
  if (s.inst inst).st = .quiescing ∧ s.quiet inst ∧ (s.fn inst).flr = none ∧ s.hearthRuns then
    done ((((s.quiesceGroups inst).locksRelease inst).instTo inst .quiesced).quiesceEnd inst .ok)
  else done s

/-- QUIESCE_TIMEOUT (R231). -/
def execQuiesceTimeout (inst : Nat) (s : State) : Host.Outcome State Fault Refusal :=
  if (s.inst inst).st = .quiescing ∧ !(s.inst inst).forced ∧ (s.fn inst).flr = none ∧ s.hearthRuns then
    done ((s.instTo inst .active).quiesceEnd inst .notDrained)
  else done s

/-- RESUME_INSTANCE (0x13): R232. -/
def execResumeInstance (tag : Nat) (s : State) : Host.Outcome State Fault Refusal :=
  onTenant 0x13 tag s fun _ n s =>
    if (s.inst n).st = .quiesced then ((s.resumeGroups n).instTo n .active).tenantEnd tag n .ok
    else s.tenantEnd tag n .notInThisState

/-- The function registers, the mailbox and the error log of VF n after a manager reset (R40, R233). -/
def State.functionCleared (s : State) (n : Nat) : State :=
  (((s.mailboxForget n).shadowsDrop n).shadowDropBlock n).withFn n fun x => { x with epstat := 0, tq := TqRegs.reset, box := Mailbox.reset, errlog := [], errSeq := 0 }

/-- RESET_INSTANCE's cleaning (R223, R233): queues deleted, the admin pair disabled, resources cleaned unless kept. -/
def State.instanceCleaned (s : State) (n : Nat) (keep : Bool) : State :=
  let s := (((s.abandon n).locksRelease n).bindingsVoid n).queuesGone n
  let r := (s.inst n).record
  let s := if keep then s
    else (((s.cleanDifference r (zeros 128)).fwdClearOf n).dinc (blk n 0x10) 2)
  (if keep then s else s.nsInstanceEnds n).functionCleared n

/-- RESET_INSTANCE (0x14): R233, Table 8-5. -/
def execResetInstance (tag : Nat) (s : State) : Host.Outcome State Fault Refusal :=
  onTenant 0x14 tag s fun _ n s =>
    let st := (s.inst n).st
    if n = 0 then s.tenantEnd tag n .outOfRange
    else if st ≠ .quiesced ∧ st ≠ .fenced then s.tenantEnd tag n .notInThisState
    else if !s.quiet n ∨ s.threadsRun n then s.tenantEnd tag n .instanceNotQuiesced
    else match s.kilnNames n with
      | some k => s.tenantEnd tag n .notInThisState k
      | none => (((s.instanceCleaned n false).resumeForgotten n).instTo n .active).tenantEnd tag n .ok

/-- DESTROY_INSTANCE (0x15): R233, Table 8-5. -/
def execDestroyInstance (tag : Nat) (s : State) : Host.Outcome State Fault Refusal :=
  onTenant 0x15 tag s fun _ n s =>
    let st := (s.inst n).st
    if n = 0 then s.tenantEnd tag n .outOfRange
    else if st ≠ .quiesced ∧ st ≠ .fenced ∧ st ≠ .active then s.tenantEnd tag n .notInThisState
    else if !s.quiet n ∨ s.threadsRun n then s.tenantEnd tag n .instanceNotQuiesced
    else match s.kilnNames n with
      | some k => s.tenantEnd tag n .notInThisState k
      | none =>
        let old := s.threadsOf n
        let s := (s.instanceCleaned n false).groupsGone n
        let s := (s.withInst n fun x => { x with record := zeros 128 }).threadsMoved old
        (s.instTo n .absent).tenantEnd tag n .ok

/-- REARM_INSTANCE (0x16): R234. -/
def execRearmInstance (tag : Nat) (s : State) : Host.Outcome State Fault Refusal :=
  onTenant 0x16 tag s fun c n s =>
    if n = 0 then s.tenantEnd tag n .outOfRange
    else if (s.inst n).st ≠ .fenced then s.tenantEnd tag n .notInThisState
    else (((s.instanceCleaned n (bit (dw c.entry 2) 0)).resumeForgotten n).instTo n .active).tenantEnd tag n .ok

/-- GET_INSTANCE (0x17): the record in force. -/
def execGetInstance (tag : Nat) (buf : HostRead) (s : State) : Host.Outcome State Fault Refusal :=
  onTenant 0x17 tag s fun c n s =>
    let d := descAt c.entry 8
    if !s.descOwn 0 d then s.tenantEnd tag n .notYourInstance
    else if d.len < 128 then s.tenantEnd tag n .outOfRange
    else
      let (s, bad) := s.scatter 0 d 0 buf (s.inst n).record
      s.tenantEnd tag n (bad.getD .ok)

end Sys2Proof.Machine
end

