-- ==== Sys2Proof/Machine/Host.lean ====
section
/-! DEFINITION. The PCI Express endpoint's commands (Chapter 6): link, bus mastering, function resets, interrupts, power
management, completions, timeouts, quarantine, link errors. -/

namespace Sys2Proof.Machine

/-- A function may master again (R172): held completions in the order of their ends, then a message for each pending
vector. -/
def State.resumeFn (s : State) (n : Nat) : State :=
  if s.canMaster n then
    let s := s.withFn n fun x => { x with accessHeld := false }
    let s := (s.cqsOf n).foldl (fun (s : State) c => s.cqDrain n c.1) s
    s.sendPending n
  else s

/-- A function may no longer master (R171): fetch reads and commands that need the host end; its completions are held. -/
def State.loseAccess (s : State) (n : Nat) : State :=
  let s := s.withFn n fun x => { x with accessHeld := true, tags := x.tags.map fun kv => (kv.1, match kv.2.owner with
    | .fetch _ => { kv.2 with owner := .nobody }
    | _ => kv.2) }
  let s := (s.sqsOf n).foldl (fun (s : State) x => s.withSq n x.1 fun y => { y with fetchTag := none }) s
  s.accessLost n

/-- BUS_MASTER_ENABLE_CLEAR (R171). -/
def execBusMasterEnableClear (fn : Nat) (s : State) : Host.Outcome State Fault Refusal :=
  if (s.fn fn).bme then
    let s := ((s.withFn fn fun x => { x with bme := false }).event 33).dinc (0x2340 + fn) 2
    done (s.loseAccess fn)
  else done s

/-- BUS_MASTER_ENABLE_SET (R172, R177): a hold of the function ends with it. -/
def execBusMasterEnableSet (fn : Nat) (s : State) : Host.Outcome State Fault Refusal :=
  if !(s.fn fn).bme ∧ s.host.up ∧ s.fnPresent fn then
    let s := (s.withFn fn fun x => { x with bme := true, hold := false }).event 33
    done (s.resumeFn fn)
  else done s

/-- An FLR of function n, or a fence as if by one (R173–R175, R178, Table 8-6); cause as in +0x10:03. -/
def State.flrBegin (s : State) (n cause : Nat) : State :=
  let st := (s.inst n).st
  if n ≠ 0 ∧ (st = .fenced ∨ (s.fn n).flr.isSome) then s
  else
    let s := s.withFn n fun x =>
      let x := if cause = 2 then x.barCleared else x.cfgCleared.barCleared
      { x with hold := false, tags := x.tags.map fun kv => (kv.1, ⟨.nobody, true, kv.2.timedOut⟩) }
    let s := (s.mailboxForget n).shadowsDrop n
    if st = .absent then s
    else
      let s := if cause = 2 ∨ cause = 3 then s else s.dinc (0x2340 + n) 1
      let s := s.event 34
      let s := ((s.abandon n).bindingsVoid n).queuesGone n
      let s : State := if n = 0 then s.withInsts fun m => m.map fun kv => (kv.1, { kv.2 with quiesceTag := none }) else s
      s.withFn n fun x => { x with flr := some cause }

/-- FUNCTION_LEVEL_RESET of a VF (R173). -/
def execFunctionLevelReset (fn : Nat) (s : State) : Host.Outcome State Fault Refusal :=
  if fn ≠ 0 ∧ s.fnPresent fn then done (s.flrBegin fn 1) else done s

/-- PF0_FUNCTION_LEVEL_RESET (R175): every enabled VF and PF0 at one moment, the SR-IOV capability with them. -/
def execPf0FunctionLevelReset (s : State) : Host.Outcome State Fault Refusal :=
  let s := (upFrom 1 s.numVfs).foldl (fun (s : State) n => s.flrBegin n 4) s
  done ((s.flrBegin 0 4).withHost fun h => { h with vfEnable := false, d3hot := false })

/-- FLR_QUIESCE_COMPLETE (R173–R175, R235, R312): threads stopped, claims and LOCKs released, the VF is fenced, event 35, a Notice entry; instance 0 is re-armed by the
hearth firmware. -/
def execFlrQuiesceComplete (inst : Nat) (s : State) : Host.Outcome State Fault Refusal :=
  match (s.fn inst).flr with
  | some cause =>
    if inst = 0 ∧ !s.hearthRuns then done s
    else
    let s := ((s.withFn inst fun x => { x with flr := none }).quiesceGroups inst).locksRelease inst
    let s := if inst = 0 then s
      else if (s.inst inst).st = .absent then s
      else ((s.instTo inst .fenced).dset (blk inst 0x10) 3 cause).quiesceEnd inst .ok
    done (s.eventLog 35 .notice 0x8007 (leBytes 1 inst))
  | none => done s

/-- VF_ENABLE_SET (R177): holding instances above a lowered NumVFs are fenced; holding ones whose function may master
resume. -/
def execVfEnableSet (s : State) : Host.Outcome State Fault Refusal :=
  if s.host.up ∧ !s.host.vfEnable then
    let s := s.withHost fun h => { h with vfEnable := true }
    let past := (upFrom 1 63).filter fun n => (s.fn n).hold && decide (s.numVfs < n)
    let s := past.foldl (fun (s : State) n => s.flrBegin n 3) s
    let back := (upFrom 1 s.numVfs).filter fun n => (s.fn n).hold && (s.fn n).bme
    done (back.foldl (fun (s : State) n => (s.withFn n fun x => { x with hold := false }).resumeFn n) s)
  else done s

/-- VF_ENABLE_CLEAR (R152). -/
def execVfEnableClear (s : State) : Host.Outcome State Fault Refusal :=
  if s.host.vfEnable then
    let s := (upFrom 1 s.numVfs).foldl (fun (s : State) n => s.flrBegin n 5) s
    done (s.withHost fun h => { h with vfEnable := false })
  else done s

/-- PF0 enters D3hot (R156). -/
def State.enterD3 (s : State) : State :=
  if s.host.d3hot then s
  else
    let s := s.withHost fun h => { h with d3hot := true }
    (List.range (s.numVfs + 1)).foldl (fun (s : State) n => if (s.fn n).bme then s.loseAccess n else s) s

/-- PF0 returns to D0 (R156). -/
def State.enterD0 (s : State) : State :=
  if s.host.d3hot then
    let s := s.withHost fun h => { h with d3hot := false }
    (List.range (s.numVfs + 1)).foldl (fun (s : State) n => s.resumeFn n) s
  else s

/-- POWER_STATE_D3HOT. -/
def execPowerStateD3hot (s : State) : Host.Outcome State Fault Refusal := done s.enterD3

/-- POWER_STATE_D0. -/
def execPowerStateD0 (s : State) : Host.Outcome State Fault Refusal := done s.enterD0

/-- MSI or MSI-X enabled (R153): one message for each pending vector, lowest first. -/
def State.modeEnable (s : State) (n : Nat) (msix : Bool) : State :=
  if msix then (s.withFn n fun x => { x with msixEn := true }).sendPending n
  else if n = 0 then (s.withFn n fun x => { x with msiEn := true }).sendPending n
  else s

/-- INTERRUPT_MODE_ENABLE. -/
def execInterruptModeEnable (fn : Nat) (msix : Bool) (s : State) : Host.Outcome State Fault Refusal :=
  if s.host.up ∧ s.fnPresent fn then done (s.modeEnable fn msix) else done s

/-- A vector's mask is cleared (R155): the MSI mask bit in MSI mode, the table entry's otherwise. -/
def State.unmask (s : State) (n v : Nat) : State :=
  let s := if s.intMode n = 1 then s.cfgPut 0 .msiMask (setBit (s.cfg 0 .msiMask) v false)
    else s.withFn n fun x => { x with msix := x.msix.put (4 * v + 3) (setBit (x.msixWord (4 * v + 3)) 0 false) }
  s.sendPending n

/-- VECTOR_UNMASK. -/
def execVectorUnmask (fn vector : Nat) (s : State) : Host.Outcome State Fault Refusal :=
  if s.host.up ∧ s.fnPresent fn ∧ vector < (if fn = 0 then 2048 else 64) then done (s.unmask fn vector) else done s

/-- The hold expires (R178). -/
def State.holdExpire (s : State) : State :=
  let l := (List.range 64).filter fun n => (s.fn n).hold
  if l.isEmpty then s
  else
    let mask := sumNat (l.map fun n => 2 ^ n)
    let s := l.foldl (fun (s : State) n => s.flrBegin n 2) s
    ((s.epstatSet 0 4).dinc 0x2303 3).eventLog 39 .warning 0x8008 (leBytes 8 mask)

/-- LINK_LOSS_HOLD_EXPIRY. -/
def execLinkLossHoldExpiry (s : State) : Host.Outcome State Fault Refusal := done s.holdExpire

/-- A loss of the link (R176): configuration space at reset but for sticky bits; every instance holds. -/
def State.linkLoss (s : State) : State :=
  let n := s.numVfs
  let s := s.withHost fun h => { h with vfEnable := false, d3hot := false, prevVfs := n, aspm := .l0, ltrClear := false }
  let s : State := s.withFns fun m => m.map fun kv => (kv.1, kv.2.cfgCleared)
  if !s.boot.ready then s
  else
    let holds := (List.range 64).filter fun i => i == 0 || (s.fn i).hold ||
      (decide (i ≤ n) && ((s.inst i).st == .active || (s.inst i).st == .quiescing || (s.inst i).st == .quiesced))
    let s := holds.foldl (fun (s : State) i => (s.withFn i fun x => { x with hold := true }).loseAccess i) s
    if s.dget 0x2303 1 = 0 then s.holdExpire else s

/-- HOST_LINK_UP (R144): at x8 or x4; in the first start the ROM then opens host-wait. -/
def execHostLinkUp (width speed : Nat) (s : State) : Host.Outcome State Fault Refusal :=
  if !s.host.up ∧ (width = 4 ∨ width = 8) ∧ 1 ≤ speed ∧ speed ≤ 5 ∧ !s.pow.mainReset ∧ s.pow.st ≠ .off ∧ s.pow.st ≠ .ember then
    done (((s.withHost fun h => { h with up := true, width := width, speed := speed, aspm := .l0 }).event 32).enterHostWait)
  else done s

/-- HOST_LINK_DOWN (R176). -/
def execHostLinkDown (s : State) : Host.Outcome State Fault Refusal :=
  if s.host.up then
    done ((((s.dinc 0x2300 3).event 32).withHost fun h => { h with up := false }).linkLoss)
  else done s

/-- HOT_RESET (R176). -/
def execHotReset (s : State) : Host.Outcome State Fault Refusal :=
  if s.host.up then done ((s.dinc 0x2300 5).linkLoss) else done s

/-- The command whose host access failed ends with a status (R524); a fetch freezes its SQ (R196). -/
def State.accessFailed (s : State) (n : Nat) (o : TagOwner) (st : Status) : State :=
  match o with
  | .command q t _ => s.hostFailure n q t st
  | .fetch q =>
    (s.withSq n q fun x => { x with fetchTag := none }).freeze n q 0 (if st = .hostReadTimeout then 7 else 8) st []
  | .nobody => s

/-- Data of a tracked read reach what it serves. -/
def State.accessData (s : State) (n : Nat) (o : TagOwner) (b : Bytes) : State :=
  match o with
  | .command q t i => s.hostData n q t i b
  | .fetch q =>
    match s.sq? n q with
    | some x =>
      let s := s.setSq n q { x with fetchTag := none }
      if x.frozen ∨ x.deleting.isSome then s else s.takeEntry n q b
    | none => s
  | .nobody => s.dinc 0x2302 5

/-- A completion that matches no tracked request, or comes after its timeout was reported (R167). -/
def State.unexpectedCpl (s : State) (n : Nat) : State := (((s.aerAdvisory n 16).epstatSet n 3).event 37).dinc 0x2302 3

/-- COMPLETION_RECEIVED (R166–R169, R171). -/
def execCompletionReceived (fn tag : Nat) (cpl : Cpl) (s : State) : Host.Outcome State Fault Refusal :=
  let s := s.hostActivity
  match (s.fn fn).tags.get? tag with
  | none => done (s.unexpectedCpl fn)
  | some r =>
    if r.timedOut then done (s.unexpectedCpl fn)
    else
      let s := s.withFn fn fun x => { x with tags := x.tags.del tag }
      if r.quarantined then done (s.dinc 0x2302 5)
      else match cpl with
        | .data b => done (s.accessData fn r.owner b)
        | .poisoned => done (((s.aerAdvisory fn 12).epstatSet fn 2).accessFailed fn r.owner .hostReadError)
        | .unsupported =>
          done (((s.cfgPut fn .statusErrorBits (setBit (s.cfg fn .statusErrorBits) 13 true)).epstatSet fn 2).accessFailed fn
            r.owner .hostReadError)
        | .aborted =>
          done (((s.cfgPut fn .statusErrorBits (setBit (s.cfg fn .statusErrorBits) 12 true)).epstatSet fn 2).accessFailed fn
            r.owner .hostReadError)

/-- COMPLETION_TIMEOUT (R165, R166). -/
def execCompletionTimeout (fn tag : Nat) (s : State) : Host.Outcome State Fault Refusal :=
  match (s.fn fn).tags.get? tag with
  | some r =>
    if r.timedOut then done s
    else
      let s := s.withFn fn fun x => { x with tags := x.tags.put tag ⟨.nobody, true, true⟩ }
      let s := (((s.aerUncor fn 14).epstatSet fn 1).event 36).dinc 0x2302 2
      done (s.accessFailed fn r.owner .hostReadTimeout)
  | none => done s

/-- QUARANTINE_WINDOW_CLOSE (R166). -/
def execQuarantineWindowClose (fn tag : Nat) (s : State) : Host.Outcome State Fault Refusal :=
  match (s.fn fn).tags.get? tag with
  | some r => if r.quarantined then done (s.withFn fn fun x => { x with tags := x.tags.del tag }) else done s
  | none => done s

/-- L0S_ENTRY (R157). -/
def execL0sEntry (s : State) : Host.Outcome State Fault Refusal :=
  if s.host.up ∧ s.host.aspm = .l0 ∧ s.cfg 0 .aspmL0sEnable = 1 then done (s.withHost fun h => { h with aspm := .l0s }) else done s

/-- L1_IDLE_EXPIRY (R157): no non-posted request may be outstanding. -/
def execL1IdleExpiry (s : State) : Host.Outcome State Fault Refusal :=
  if s.host.up ∧ (s.host.aspm = .l0 ∨ s.host.aspm = .l0s) ∧ s.cfg 0 .aspmL1Enable = 1 ∧ s.trackerUse = 0 then done s.enterL1
  else done s

/-- LTR_IDLE_EXPIRY (R158). -/
def execLtrIdleExpiry (s : State) : Host.Outcome State Fault Refusal :=
  if s.host.up ∧ s.cfg 0 .ltrEnable = 1 ∧ !s.host.ltrClear then
    done ((s.emit (.pcieMessage 0x10 0)).withHost fun h => { h with ltrClear := true })
  else done s

/-- HOST_BUFFER_DOUBLE_BIT_ERROR (Table 6-11): a fatal AER error, the command ends with INTERNAL_FAULT, a Critical entry. -/
def execHostBufferDoubleBitError (fn queue tag : Nat) (s : State) : Host.Outcome State Fault Refusal :=
  done ((s.aerUncor fn 22).logCls 3 .critical Status.internalFault.code []|>.hostFailure fn queue tag .internalFault)

/-- HOST_LINK_ERROR (R170, Table 6-11): logged in PF0. -/
def execHostLinkError (err : LinkError) (s : State) : Host.Outcome State Fault Refusal :=
  match aerUncorrectableBit err, aerCorrectableBit err with
  | some b, _ => done (s.aerUncor 0 b)
  | none, some b => done (s.aerCor 0 b)
  | none, none => done s

/-- CORRECTED_INTERNAL_ERROR (Table 6-11). -/
def execCorrectedInternalError (fn : Nat) (s : State) : Host.Outcome State Fault Refusal := done (s.aerCor fn 14)

end Sys2Proof.Machine
end

