-- ==== Sys2Proof/Machine/Pipeline.lean ====
section
/-! DEFINITION. The packet pipeline's commands (Chapter 12): frames, learning and ageing, table access, packet I/O, links, Zelud,
time. -/

namespace Sys2Proof.Machine

/-- The pipeline works: in service, its domain on, not stopped by a power fail (Table 4-3, R303). -/
def State.pipeOn (s : State) : Bool := s.live && s.domOn domPIPE && !s.kiln.stopped

/-- FRAME_RECEIVED (R341, R345–R350, R369). -/
def execFrameReceived (port : Nat) (frame : Bytes) (fcsOk : Bool) (stamp : Nat) (s : State) : Host.Outcome State Fault Refusal :=
  done (s.frameTake port frame fcsOk stamp)

/-- LEARN_INSERT (R354, R356–R358). -/
def execLearnInsert (s : State) : Host.Outcome State Fault Refusal :=
  if s.pipeOn then done s.learnHead else done s

/-- AGEING_SWEEP (R359, R362): one bucket, or the stash as bucket 65,536. -/
def execAgeingSweep (bucket : Nat) (s : State) : Host.Outcome State Fault Refusal :=
  if s.pipeOn then done (s.sweepBucket bucket) else done s

/-- A table or packet command (R361, R365): it starts once the pipeline's domain is on. -/
def onPipe (op n q tag : Nat) (s : State) (k : Ctx → State → State) : Host.Outcome State Fault Refusal :=
  if s.domOn domPIPE then onCommand op n q tag s k else done s

/-- A table command with its buffer read in: the least length of its layout (R526), then its bytes. -/
def onTable (op n q tag len : Nat) (r : HostRead) (s : State) (k : Ctx → Bytes → State → State) :
    Host.Outcome State Fault Refusal :=
  onPipe op n q tag s fun c s =>
    match s.tblBuffer n c.entry len with
    | .ok => match s.gather n (descAt c.entry 16) len 0 r with
      | .ok b => k c b s
      | .error st => s.complete n q tag st
    | st => s.complete n q tag st

/-- The lists that a read of host memory returned. -/
def HostRead.lists : HostRead → List Bytes
  | .bytes l _ => l
  | _ => []

/-- TBL_INSERT (0xA0): R352, R354, R361. -/
def execTblInsert (fn queue tag : Nat) (entry : HostRead) (s : State) : Host.Outcome State Fault Refusal :=
  onTable 0xA0 fn queue tag 64 entry s fun _ b s => (s.markStarted fn queue tag).tblBegin ⟨fn, queue, tag, b, []⟩

/-- TBL_DELETE (0xA1): R361. -/
def execTblDelete (fn queue tag : Nat) (key : HostRead) (s : State) : Host.Outcome State Fault Refusal :=
  onTable 0xA1 fn queue tag 48 key s fun _ b s =>
    match s.tblDelete fn b with
    | (.done st i, s) => s.complete fn queue tag st i
    | (.wait, s) => s

/-- TBL_LOOKUP (0xA2): R361. -/
def execTblLookup (fn queue tag : Nat) (key : HostRead) (s : State) : Host.Outcome State Fault Refusal :=
  onTable 0xA2 fn queue tag 64 key s fun c b s =>
    match s.pipe.table.lookup (b.take 48) with
    | none => s.complete fn queue tag .notInThisState
    | some (i, e) =>
      if fn ≠ 0 ∧ entryOwner e ≠ fn then s.complete fn queue tag .notInThisState
      else
        let (s, bad) := s.scatter fn (descAt c.entry 16) 0 (.bytes (HostRead.lists key) []) e
        match bad with
        | some st => s.complete fn queue tag st
        | none => s.complete fn queue tag .ok i

/-- TBL_LOCK (0xA3): R362. -/
def execTblLock (fn queue tag : Nat) (key : HostRead) (s : State) : Host.Outcome State Fault Refusal :=
  onTable 0xA3 fn queue tag 48 key s fun _ b s =>
    (s.markStarted fn queue tag).tblBegin ⟨fn, queue, tag, b, HostRead.lists key⟩

/-- TBL_STAGE (0xA4): R363. -/
def execTblStage (fn queue tag : Nat) (entry : HostRead) (s : State) : Host.Outcome State Fault Refusal :=
  onTable 0xA4 fn queue tag 64 entry s fun c b s =>
    let h := bits (dw c.entry 1) 0 8
    let op := bits (dw c.entry 1) 8 2
    let (h0, h1) := keyHash (b.take 48)
    if op = 3 then s.complete fn queue tag .outOfRange
    else match s.handle? fn h with
      | none => s.complete fn queue tag .notInThisState
      | some x =>
        if !([x.h0, x.h1].any fun k => k == h0 || k == h1) then s.complete fn queue tag .fieldInvalid
        else if 8 ≤ x.ops.length then s.complete fn queue tag .poolExhausted
        else
          let s := s.withTable fun t => { t with handles := t.handles.put h { x with ops := x.ops ++ [(op, b)] } }
          s.complete fn queue tag .ok (x.ops.length + 1)

/-- TBL_UNLOCK (0xA5): R363. -/
def execTblUnlock (fn queue tag : Nat) (s : State) : Host.Outcome State Fault Refusal :=
  onPipe 0xA5 fn queue tag s fun c s =>
    let d := descAt c.entry 16
    let h := bits (dw c.entry 1) 0 8
    if !s.descOwn fn d then s.complete fn queue tag .notYourInstance
    else if d.len ≠ 0 then s.complete fn queue tag .outOfRange
    else match s.handle? fn h with
      | none => s.complete fn queue tag .notInThisState
      | some _ =>
        if bit (dw c.entry 1) 8 then ((s.markStarted fn queue tag).tblBegin ⟨fn, queue, tag, [], []⟩).tblRetry
        else ((s.handleFree h).complete fn queue tag .ok).tblRetry

/-- The bucket of an entry index; the stash counts as bucket 65,536. -/
def bucketOf (i : Nat) : Nat := if i < stashBase then i / 4 else 65536

/-- TBL_READ's answer (R361): the entries written, whole buckets only, and the next bucket. -/
def FwdTable.readRange (t : FwdTable) (n first count cap : Nat) : List Bytes × Nat :=
  let fin := if n = 0 then 65537 else 65536
  let stop := min fin (first + count)
  let l := t.entries.filter fun kv =>
    decide (first ≤ bucketOf kv.1) && decide (bucketOf kv.1 < stop) && (n == 0 || entryOwner kv.2 == n)
  match l[cap]? with
  | none => (l.map Prod.snd, if fin ≤ stop then 0xFFFFFF else stop)
  | some kv => ((l.filter fun x => decide (bucketOf x.1 < bucketOf kv.1)).map Prod.snd, bucketOf kv.1)

/-- TBL_READ (0xA6): R361. -/
def execTblRead (fn queue tag : Nat) (buf : HostRead) (s : State) : Host.Outcome State Fault Refusal :=
  onPipe 0xA6 fn queue tag s fun c s =>
    let first := leAt c.entry 8 4
    let count := leAt c.entry 12 4
    let d := descAt c.entry 16
    if !s.descOwn fn d then s.complete fn queue tag .notYourInstance
    else if (if fn = 0 then 65536 else 65535) < first ∨ count = 0 ∨ 65536 < count then s.complete fn queue tag .outOfRange
    else match s.bufLen fn d 0 buf with
      | .error st => s.complete fn queue tag st
      | .ok len =>
        let (l, next) := s.pipe.table.readRange fn first count (len / 64)
        let (s, bad) := s.scatter fn d 0 buf l.flatten
        match bad with
        | some st => s.complete fn queue tag st
        | none => s.complete fn queue tag .ok l.length next

/-- LOCK_HOLD_EXPIRY (R364). -/
def execLockHoldExpiry (handle : Nat) (s : State) : Host.Outcome State Fault Refusal :=
  match s.pipe.table.handles.get? handle with
  | some _ => done ((((s.handleFree handle).dinc 0x3400 0x0A).event 312).tblRetry)
  | none => done s

/-- TABLE_DOUBLE_BIT_ERROR (Table 12-6): the bucket's entries are removed; event 314 and an Error entry with the bucket. -/
def execTableDoubleBitError (bucket : Nat) (s : State) : Host.Outcome State Fault Refusal :=
  let s := s.withTable fun t => { t with entries := t.entries.keep fun i _ => bucketOf i != bucket }
  done ((s.rehome.stashNote).eventLog 314 .error Status.internalFault.code (leBytes 4 bucket))

/-- VP_SEND (0x90): R365, R366, R406. It waits for its shaper and for buffer space. -/
def execVpSend (fn queue tag : Nat) (frame : HostRead) (s : State) : Host.Outcome State Fault Refusal :=
  onPipe 0x90 fn queue tag s fun c s =>
    let d := descAt c.entry 16
    if !s.descOwn fn d then s.complete fn queue tag .notYourInstance
    else match s.bufLen fn d 0 frame with
      | .error st => s.complete fn queue tag st
      | .ok len =>
        if len < 60 ∨ 9596 < len then s.complete fn queue tag .outOfRange
        else match s.gather fn d len 0 frame with
          | .error st => s.complete fn queue tag st
          | .ok b => (s.markStarted fn queue tag).withPipe fun p => { p with sends := p.sends ++ [⟨fn, queue, tag, b, false⟩] }

/-- The segments of a receive area, or the status by which the bind ends. -/
def State.areaOf (s : State) (n : Nat) (d : Desc) (r : HostRead) : Except Status (List (Bool × Nat × Nat)) :=
  if !d.dev ∧ d.list ∧ !s.canMaster n then .error .hostAccessLost
  else match d.dev, d.list, r with
    | false, true, .timeout => .error .hostReadTimeout
    | false, true, .error => .error .hostReadError
    | _, _, _ =>
      let (g, bad) := s.segments n d ((HostRead.lists r).getD 0 [])
      if bad then .error .bufferListInvalid else .ok (g.map fun e => (e.dev, e.addr, e.len))

/-- VP_RX_BIND (0x91): R367. -/
def execVpRxBind (fn queue tag : Nat) (area : HostRead) (s : State) : Host.Outcome State Fault Refusal :=
  onPipe 0x91 fn queue tag s fun c s =>
    let cq := bits (dw c.entry 1) 0 16
    let count := leAt c.entry 8 2
    let size := leAt c.entry 10 2
    let d := descAt c.entry 16
    if cq = 0 then (s.vpUnbind fn).complete fn queue tag .ok
    else if !s.descOwn fn d then s.complete fn queue tag .notYourInstance
    else if count < 16 ∨ 4096 < count ∨ size < 8 ∨ 40 < size ∨ (!d.list ∧ d.len < count * size * 256) then
      s.complete fn queue tag .outOfRange
    else if (s.cq? fn cq).isNone then s.complete fn queue tag .fieldInvalid
    else match s.areaOf fn d area with
      | .error st => s.complete fn queue tag st
      | .ok l =>
        if sumNat (l.map fun x => x.2.2) < count * size * 256 then s.complete fn queue tag .outOfRange
        else (s.withPipe fun p => { p with binds := p.binds.put fn ⟨cq, l, count, size * 256, 0, count⟩ }).complete fn queue tag .ok

/-- VP_RX_RETURN (0x92): R367: the buffers filled longest ago come back first. -/
def execVpRxReturn (fn queue tag : Nat) (s : State) : Host.Outcome State Fault Refusal :=
  onPipe 0x92 fn queue tag s fun c s =>
    let first := bits (dw c.entry 1) 0 16
    let n := leAt c.entry 8 2
    let d := descAt c.entry 16
    if !s.descOwn fn d then s.complete fn queue tag .notYourInstance
    else if n = 0 ∨ 4096 < n ∨ d.len ≠ 0 then s.complete fn queue tag .outOfRange
    else match s.vpBind? fn with
      | none => s.complete fn queue tag .notInThisState
      | some x =>
        if x.count ≤ first then s.complete fn queue tag .outOfRange
        else if first ≠ (x.next + x.free) % x.count ∨ x.count - x.free < n then s.complete fn queue tag .fieldInvalid
        else (s.withPipe fun p => { p with binds := p.binds.put fn { x with free := x.free + n } }).complete fn queue tag .ok

/-- PORT_LINK_UP (R340, R343). -/
def execPortLinkUp (port rate : Nat) (s : State) : Host.Outcome State Fault Refusal :=
  if port < 20 then done (s.portUp port rate) else done s

/-- PORT_LINK_DOWN (R343, R391). -/
def execPortLinkDown (port : Nat) (s : State) : Host.Outcome State Fault Refusal := done (s.portDown port)

/-- HELLO_TIMER (R370). -/
def execHelloTimer (s : State) : Host.Outcome State Fault Refusal := if s.pipeOn then done s.helloSend else done s

/-- TOPOLOGY_TIMER (R370). -/
def execTopologyTimer (s : State) : Host.Outcome State Fault Refusal := if s.pipeOn then done s.topologySend else done s

/-- KEEPALIVE_TIMER (R370, R375). -/
def execKeepaliveTimer (port : Nat) (s : State) : Host.Outcome State Fault Refusal :=
  if s.pipeOn then done (s.keepaliveSend port) else done s

/-- HELLO (R370, R372, R379): its ring and side name the sender's port. -/
def execHello (port : Nat) (src : ZeludSource) (serial _ring _side t1 echoT1 echoT2 echoT3 arrived : Nat) (s : State) :
    Host.Outcome State Fault Refusal :=
  if s.receives port then done (s.helloTake port src serial t1 echoT1 echoT2 echoT3 arrived) else done s

/-- TOPOLOGY (R371, R372, R379). -/
def execTopology (port : Nat) (src : ZeludSource) (serial eastDelay eastRate : Nat) (reach : List Nat) (s : State) :
    Host.Outcome State Fault Refusal :=
  if s.receives port then done (s.topologyTake port src serial eastDelay eastRate reach) else done s

/-- FAULT (R376). -/
def execFault (port : Nat) (src : ZeludSource) (side : Nat) (s : State) : Host.Outcome State Fault Refusal :=
  if s.receives port then done (s.faultTake port src side) else done s

/-- RESTORE (R377). -/
def execRestore (port : Nat) (src : ZeludSource) (side : Nat) (s : State) : Host.Outcome State Fault Refusal :=
  if s.receives port then done (s.restoreTake port src side) else done s

/-- LEAVE (R378). -/
def execLeave (port : Nat) (src : ZeludSource) (s : State) : Host.Outcome State Fault Refusal :=
  if s.receives port then done (s.leaveTake port src) else done s

/-- A ring port has failed (R375). -/
def State.ringPortLost (s : State) (port : Nat) : State :=
  match s.ringOf port with
  | some (r, east) => s.ringPortFails r east
  | none => s

/-- RING_PORT_FAIL (R375). -/
def execRingPortFail (port : Nat) (s : State) : Host.Outcome State Fault Refusal :=
  if s.pipeOn then done (s.ringPortLost port) else done s

/-- RING_PORT_SILENCE (R375). -/
def execRingPortSilence (port : Nat) (s : State) : Host.Outcome State Fault Refusal :=
  if s.pipeOn then done (s.ringPortLost port) else done s

/-- STEER_HOLD_EXPIRY (R376). -/
def execSteerHoldExpiry (ring : Nat) (s : State) : Host.Outcome State Fault Refusal :=
  if s.pipeOn then done (s.steerRelease ring) else done s

/-- RESTORE_HOLD_EXPIRY (R377). -/
def execRestoreHoldExpiry (port : Nat) (s : State) : Host.Outcome State Fault Refusal :=
  match s.ringOf port with
  | some (r, east) => if s.pipeOn then done (s.ringRestored r east) else done s
  | none => done s

/-- LEAVE_WAIT_EXPIRY (R378). -/
def execLeaveWaitExpiry (s : State) : Host.Outcome State Fault Refusal := done s.leaveWaited

/-- PTP_MESSAGE (R382, R383). -/
def execPtpMessage (port : Nat) (msg : PtpMessage) (s : State) : Host.Outcome State Fault Refusal := if s.hearthRuns then done (s.ptpTake port msg) else done s

/-- SYNC_TIMEOUT (R383): holdover at the last rate. -/
def execSyncTimeout (s : State) : Host.Outcome State Fault Refusal :=
  if s.hearthRuns ∧ s.dget 0x3180 2 = 1 then done ((s.dset 0x3180 2 2).event 331) else done s

/-- SYNC_INTERVAL_EXPIRY (R382): Sync with its Follow_Up, and the other periodic messages, on a master port. -/
def execSyncIntervalExpiry (port : Nat) (s : State) : Host.Outcome State Fault Refusal :=
  if s.hearthRuns ∧ port < 20 ∧ s.ptpRole port = 1 then
    let s := ((s.ptpSend port 0).ptpSend port 8).ptpSend port 11
    done (if s.ptpProfile port = 1 then s.ptpSend port 2 else s)
  else done s

/-- PPS_IN_EDGE (R384). -/
def execPpsInEdge (s : State) : Host.Outcome State Fault Refusal := done s.ppsEdge

/-- PPS_IN_TIMEOUT (R384). -/
def execPpsInTimeout (s : State) : Host.Outcome State Fault Refusal :=
  if s.live ∧ s.dget 0x3180 0x0B ≠ 0 then done (s.event 333) else done s

/-- PPS_OUT_EDGE (R384). -/
def execPpsOutEdge (rising : Bool) (s : State) : Host.Outcome State Fault Refusal := done (s.ppsOutput rising)

end Sys2Proof.Machine
end

