-- ==== Sys2Proof/Machine/Power.lean ====
section
/-! DEFINITION. The commands of the power states, the supplies, the resets, the wake sources, the Tinder port and the domains (Chapters 4 and
17). -/

namespace Sys2Proof.Machine

/-- AO_POWER_ON (Table 17-4): AO leaves reset, the straps are sampled, an ember start begins, MAIN_EN is driven high. -/
def execAoPowerOn (tinderStraps : Nat) (testMode : Bool) (s : State) : Host.Outcome State Fault Refusal :=
  if testMode then .refused .testModeHigh
  else
    let s := s.startBase 0
    let s := s.withTime fun t => { t with slow := 0, slowFrac := 0, elapsed := 0 }
    let s := (s.dset 0x3C11 1 0).dset 0x3C11 2 0
    done ((s.withPow fun p => { p with
      st := .starting, straps := tinderStraps % 4, emberBusy := true, emberRun := false, emberSlot := 0xFF, mainEn := true, mainPg := false
      mainReset := true, nextCause := 0, mainTries := 0, mainRetry := false, slowOk := false, wakeHist := [], lastWakeSrc := 0
      lastWakeLatched := 0, lastWakeTime := 0, wakesLatched := [], tinderHeld := none, hostWake := false }).pin "MAIN_EN" true)

/-- EMBER_WATCHDOG_EXPIRY (R88). -/
def execEmberWatchdogExpiry (s : State) : Host.Outcome State Fault Refusal :=
  if s.pow.emberRun then done s.emberStart else done s

/-- EMBER_START_COMPLETE (R88, R91): the valid slot with the higher SEQUENCE runs, slot 0 at equal ones; latched wakes
are taken. -/
def execEmberStartComplete (slot0 slot1 : EmberSlot) (s : State) : Host.Outcome State Fault Refusal :=
  if !s.pow.emberBusy then done s
  else
    let v0 := s.emberSlotValid slot0
    let v1 := s.emberSlotValid slot1
    let slot := if v0 && (!v1 || decide (slot1.sequence ≤ slot0.sequence)) then 0 else if v1 then 1 else 0xFF
    let l := s.pow.wakesLatched
    let s := s.withPow fun p => { p with
      emberBusy := false, emberRun := slot != 0xFF, emberSlot := slot
      emberSeq0 := if v0 then slot0.sequence else 0, emberSeq1 := if v1 then slot1.sequence else 0, wakesLatched := [] }
    done (l.foldl (fun (s : State) w => s.wakeTake w.1 w.2.1 w.2.2) s)

/-- MAIN_PG_RISE (R503, Table 17-4): the main reset is released once PERST_N is released too. -/
def execMainPgRise (s : State) : Host.Outcome State Fault Refusal :=
  if s.pow.mainEn ∧ !s.pow.mainPg then
    let s := s.withPow fun p => { p with mainPg := true, mainTries := 0 }
    done (if s.pow.perst then s else s.resetRelease)
  else done s

/-- MAIN_PG_TIMEOUT (R504). -/
def execMainPgTimeout (s : State) : Host.Outcome State Fault Refusal :=
  if s.pow.mainEn ∧ !s.pow.mainPg then
    let s := (s.withPow fun p => { p with mainEn := false, mainTries := p.mainTries + 1 }).pin "MAIN_EN" false
    if s.pow.mainTries = 3 then
      done ((s.wakeNote 0x81).withPow fun p => { p with mainTries := 0, mainRetry := false, st := .ember, stage := 0, trans := 0 })
    else done (s.withPow fun p => { p with mainRetry := true })
  else done s

/-- MAIN_EN_RETRY_EXPIRY (R504). -/
def execMainEnRetryExpiry (s : State) : Host.Outcome State Fault Refusal :=
  if s.pow.mainRetry then done ((s.withPow fun p => { p with mainEn := true, mainRetry := false }).pin "MAIN_EN" true) else done s

/-- MAIN_PG_LOSS (R505): the main reset at once; every domain but AO loses its contents. -/
def execMainPgLoss (s : State) : Host.Outcome State Fault Refusal :=
  if s.pow.mainEn ∧ s.pow.mainPg then
    let s := (s.wakeNote 0x82).hostLinkLost
    let s := (s.startBase 0).dinc 0x3C11 1
    let s := s.withBoot fun b => { b with phase := 0, ready := false, windowOpen := false }
    done (s.withPow fun p => { p with st := .starting, mainPg := false, mainReset := true, nextCause := 0, trans := 0, stage := 0 })
  else done s

/-- PERST_N_ASSERT (R506, R64). -/
def execPerstNAssert (s : State) : Host.Outcome State Fault Refusal :=
  let s := s.withPow fun p => { p with perst := true }
  if s.pow.mainPg ∧ !s.pow.mainReset then done (s.startOrHold 1) else done s

/-- PERST_N_RELEASE (R64, R506): a hold ends without effect; the main reset is released with valid supplies. -/
def execPerstNRelease (s : State) : Host.Outcome State Fault Refusal :=
  let s := s.withPow fun p => { p with perst := false, heldStart := if p.heldStart = some 1 then none else p.heldStart }
  if s.pow.mainReset ∧ s.pow.mainPg then done s.resetRelease else done s

/-- RESET_REQ (R514, R515): a start of cause 5 while debug is permitted, held as R506 gives. -/
def execResetReq (s : State) : Host.Outcome State Fault Refusal :=
  if s.debugPermitted ∧ s.pow.mainPg ∧ !s.pow.mainReset then done (s.startOrHold 5) else done s

/-- DRAIN_COMPLETE (R104, Tables 4-6 and 4-8): nothing is in flight; the device is Banked, or the Ember entry goes on
with the SSD shutdown (R274). -/
def execDrainComplete (s : State) : Host.Outcome State Fault Refusal :=
  if s.pow.stage = 1 ∧ !s.commandsInFlight ∧ s.l12Possible then
    if s.pow.trans = 1 then done s.enterBanked
    else
      let s := s.dropEgressFrames.hostLinkL12
      let ports := s.attachedSsds
      let s : State := ports.foldl (fun s p => s.emit (.nvme p 0 0x100 0 0 0 [])) s
      let s := s.withPow fun p => { p with stage := 2, ssdWait := ports, egressDraining := false }
      done (if ports.isEmpty then s.emberOff else s)
  else done s

/-- DRAIN_TIMEOUT (R104): ingress and fetching reopen, NOT_DRAINED. -/
def execDrainTimeout (s : State) : Host.Outcome State Fault Refusal :=
  if s.pow.stage = 1 then done (s.entryAbandoned .notDrained) else done s

/-- EGRESS_DRAIN_EXPIRY (Table 4-6, step 2): frames still in the egress queues after 1 ms are dropped. -/
def execEgressDrainExpiry (s : State) : Host.Outcome State Fault Refusal :=
  if s.pow.stage = 1 ∧ s.pow.egressDraining then
    done (s.dropEgressFrames.withPow fun p => { p with egressDraining := false })
  else done s

/-- SSD_SHUTDOWN_COMPLETE (R274, Table 4-8): when the last SSD has reported, the entry goes on. -/
def execSsdShutdownComplete (port : Nat) (s : State) : Host.Outcome State Fault Refusal :=
  if s.pow.stage = 2 ∧ s.pow.ssdWait.contains port then
    let s := s.withPow fun p => { p with ssdWait := p.ssdWait.filter (· != port) }
    done (if s.pow.ssdWait.isEmpty then s.emberOff else s)
  else done s

/-- SSD_SHUTDOWN_TIMEOUT (R274): the entry goes on without the SSDs still awaited. -/
def execSsdShutdownTimeout (s : State) : Host.Outcome State Fault Refusal :=
  if s.pow.stage = 2 then done s.emberOff else done s

/-- MAIN_PG_FALL (R107): the 10 ms count before a wake is answered begins. -/
def execMainPgFall (s : State) : Host.Outcome State Fault Refusal :=
  if !s.pow.mainEn then done (s.withPow fun p => { p with mainPg := false, stage := if p.stage = 3 then 4 else p.stage }) else done s

/-- EMBER_WAKE_HOLD_EXPIRY (R107): a wake kept meanwhile starts the exit. -/
def execEmberWakeHoldExpiry (s : State) : Host.Outcome State Fault Refusal :=
  if s.pow.st = .ember ∧ s.pow.stage = 4 then
    let s := s.withPow fun p => { p with stage := 0, trans := 0 }
    done (if s.pow.wakeKept then s.emberWake s.boot.wakeSrc else s)
  else done s

/-- IGN_RISE (R110, R112, R508): a wake, or event 8; the ignition-off timer and its repeats stop. -/
def execIgnRise (s : State) : Host.Outcome State Fault Refusal :=
  let s := s.withPow fun p => { p with ign := true, ignTimer := false, ignRetry := false, ignWaiting := false }
  let s := s.withDamper fun d => { d with ignCounting := false }
  done (s.wakeSource 3 5 8)

/-- IGN_FALL (R112): never a wake. Event 9; the ignition-off timer starts when IGN_OFF_ACTION is set; the
ignition-off energy count starts again (0x2106:01). -/
def execIgnFall (s : State) : Host.Outcome State Fault Refusal :=
  let s := (s.withPow fun p => { p with ign := false }).dset 0x2106 1 0
  let s := s.withDamper fun d => { d with ignCounting := true, ignReached := false }
  match s.pow.st with
  | .blaze | .glow =>
    let s := s.event 9
    done (if s.dget 0x2001 1 = 0 then s else s.withPow fun p => { p with ignTimer := true })
  | .starting => done (s.withPow fun p => { p with edgesKept := p.edgesKept ++ [9] })
  | _ => done s

/-- WAKE_EDGE (R110): a debounced edge of the configured polarity on WAKE0–WAKE3. -/
def execWakeEdge (pin : Nat) (s : State) : Host.Outcome State Fault Refusal :=
  let k := pin % 4
  let rise := bit (s.aoGet 0x2003 2) k
  let s := s.withPow fun p => { p with wakePins := setBit p.wakePins k rise }
  done (s.wakeSource 2 (1 + k) (10 + k))

/-- WAKE_ALARM (R110): the slow count has reached a non-zero ALARM. -/
def execWakeAlarm (s : State) : Host.Outcome State Fault Refusal :=
  if s.aoGet 0x2003 4 = 0 then done s else done (s.wakeSource 4 7 15)

/-- TINDER_ADDRESS_MATCH (R113): a match is acknowledged, SCL held, the wake latched; any other address does nothing. -/
def execTinderAddressMatch (address : Nat) (isRead : Bool) (s : State) : Host.Outcome State Fault Refusal :=
  if address = 0x58 + s.pow.straps ∧ s.pow.st ≠ .off then
    let s := s.withPow fun p => { p with tinderHeld := some isRead, tinderAt := s.time.elapsed, tinderRefused := false }
    done ((s.dinc 0x2004 2).wakeSource 1 0 14)
  else done s

/-- TINDER_TRANSFER_TAKEN (R113, R115): the ember controller takes the transfer and releases SCL; a read continues from
the pointer, which advances by one after each byte. -/
def execTinderTransferTaken (count : Nat) (s : State) : Host.Outcome State Fault Refusal :=
  match s.pow.tinderHeld with
  | some isRead =>
    if s.pow.emberRun ∧ !s.pow.emberBusy then
      let s := s.tinderStretch.withPow fun p => { p with tinderHeld := none }
      if isRead then
        let b := (List.range count).map fun i => BitVec.ofNat 8 (s.tinderReg ((s.pow.tinderPtr + i) % 256))
        done ((s.emit (.tinder b)).withPow fun p => { p with tinderPtr := (p.tinderPtr + count) % 256 })
      else done s
    else done s
  | none => done s

/-- TINDER_STRETCH_LIMIT (R113, R114): SCL is released; written bytes get NACK, read bytes return 0xFF. -/
def execTinderStretchLimit (s : State) : Host.Outcome State Fault Refusal :=
  match s.pow.tinderHeld with
  | some isRead =>
    let s := (s.dmax 0x2004 3 300).withPow fun p => { p with tinderHeld := none, tinderRefused := true }
    done (if isRead then s.emit (.tinder [0xFF]) else s)
  | none => done s

/-- TINDER_REGISTER_WRITE (R115): the first byte is the register pointer; data follow, the pointer advancing. Only
WAKE_LATCHED takes writes (RW1C). -/
def execTinderRegisterWrite (data : Bytes) (s : State) : Host.Outcome State Fault Refusal :=
  if s.pow.emberRun ∧ !s.pow.emberBusy ∧ !s.pow.tinderRefused then
    match data with
    | [] => done s
    | ptr :: rest =>
      let s := s.withPow fun p => { p with tinderPtr := ptr.toNat }
      done (rest.foldl (fun (s : State) b =>
        let s := if s.pow.tinderPtr = 3 then s.withPow fun p => { p with
            lastWakeLatched := p.lastWakeLatched - (p.lastWakeLatched &&& b.toNat) } else s
        s.withPow fun p => { p with tinderPtr := (p.tinderPtr + 1) % 256 }) s)
  else done s

/-- BANKED_MAX_EXPIRY (R109). -/
def execBankedMaxExpiry (s : State) : Host.Outcome State Fault Refusal :=
  if s.pow.st = .banked ∧ s.pow.emberRun ∧ s.dget 0x2001 3 ≠ 0 then done s.bankedToEmber else done s

/-- VSENSE_EMBER_HOLD_EXPIRY (R109). -/
def execVsenseEmberHoldExpiry (s : State) : Host.Outcome State Fault Refusal :=
  if s.pow.st = .banked ∧ s.pow.emberRun ∧ s.dget 0x2002 1 ≠ 0 ∧ s.pow.vsenseLow then done s.bankedToEmber else done s

/-- IGN_OFF_TIMER_EXPIRY (R112). -/
def execIgnOffTimerExpiry (s : State) : Host.Outcome State Fault Refusal :=
  if s.pow.ignTimer then done (s.withPow fun p => { p with ignTimer := false }).firmwareRequest else done s

/-- IGN_OFF_RETRY_EXPIRY (R112): the refused request again. -/
def execIgnOffRetryExpiry (s : State) : Host.Outcome State Fault Refusal :=
  if s.pow.ignRetry then done s.firmwareRequest else done s

/-- DOMAIN_POWER_UP_START (R99). -/
def execDomainPowerUpStart (domain : Nat) (s : State) : Host.Outcome State Fault Refusal :=
  if s.pow.st = .glow ∧ s.nextPowerUp = some domain then done (s.setDom domain ⟨1, 0, false⟩) else done s

/-- DOMAIN_POWER_GOOD (R99): the domain is usable; a FLOWC domain has reloaded its cores, those listed passing their
measure (R75). -/
def execDomainPowerGood (domain : Nat) (measureOk : List Nat) (s : State) : Host.Outcome State Fault Refusal :=
  if (s.dom domain).st = 1 then
    done (((s.setDom domain ⟨2, 0, false⟩).dinc (0x2010 + domain) 5).domainPoweredUp domain measureOk)
  else done s

/-- DOMAIN_POWER_GOOD_TIMEOUT (Table 4-13): left off, waiting work completes with INTERNAL_FAULT, event 16. -/
def execDomainPowerGoodTimeout (domain : Nat) (s : State) : Host.Outcome State Fault Refusal :=
  if (s.dom domain).st = 1 then
    done (((s.setDom domain ⟨0, 0, true⟩).eventLog 16 .critical Status.internalFault.code []).domainFailed domain)
  else done s

/-- HYSTERESIS_EXPIRY (R100): power-down begins; KILN only with the staging store empty (Table 4-3). -/
def execHysteresisExpiry (domain : Nat) (s : State) : Host.Outcome State Fault Refusal :=
  if s.pow.st = .glow ∧ (s.dom domain).st = 3 ∧ (domain ≠ domKILN ∨ s.stagingEmpty) then
    done ((s.setDom domain ⟨4, 0, false⟩).domainLost domain)
  else done s

/-- DOMAIN_POWER_DOWN_DONE (R100): off; with a vote set meanwhile, power-up starts at once. -/
def execDomainPowerDownDone (domain : Nat) (s : State) : Host.Outcome State Fault Refusal :=
  if (s.dom domain).st = 4 then
    done (s.setDom domain ⟨if s.votes domain ≠ 0 then 1 else 0, 0, false⟩)
  else done s

/-- SLOWCLK_1024_CYCLES (Chapter 17): AO counts ticks from SLOWCLK from here on. -/
def execSlowclk1024Cycles (s : State) : Host.Outcome State Fault Refusal := done (s.withPow fun p => { p with slowOk := true })

end Sys2Proof.Machine
end

