-- ==== Sys2Proof/Machine/Registers.lean ====
section
/-! DEFINITION. Writes of the host to a BAR0 register or to a configuration field (R141–R155, Tables 3-5 to 3-9, 2-4 to
2-8, 7-7 to 7-13, 11-3). Reserved bits are ignored (R10); read-only registers and offsets that no region covers ignore
writes (R146). -/

namespace Sys2Proof.Machine

/-- A field of a register replaced: the bits from lo on, len of them. -/
def putBits (w lo len v : Nat) : Nat := w % 2 ^ lo + v % 2 ^ len * 2 ^ lo + w / 2 ^ (lo + len) * 2 ^ (lo + len)

/-- Table 11-3: 0 releases, n + 1 takes. -/
def State.elockWrite (s : State) (n e v : Nat) : State :=
  let o := v % 128
  if o = 0 then s.engineRelease n e else if o = n + 1 then s.engineTake n e else s

/-- The admin pair exists: TQ_ASTAT.ENABLED. -/
def State.adminEnabled (s : State) (n : Nat) : Bool := (s.sq? n 0).isSome

/-- A register of the admin pair changed; while the pair is enabled it is not (Table 7-9). -/
def State.adminSet (s : State) (n : Nat) (f : TqRegs → TqRegs) : State := if s.adminEnabled n then s else s.withTq n f

/-- A write to a TQ_ register (Tables 7-8 to 7-12). -/
def State.tqWrite (s : State) (n off v : Nat) : State :=
  match off with
  | 0x104 => if bit v 1 then s.adminRestart n else if bit v 0 then s.adminEnable n else s.adminDisable n
  | 0x108 => s.adminSet n fun t => { t with asqb := putBits t.asqb 12 20 (v / 0x1000) }
  | 0x10C => s.adminSet n fun t => { t with asqb := putBits t.asqb 32 32 v }
  | 0x110 => s.adminSet n fun t => { t with acqb := putBits t.acqb 12 20 (v / 0x1000) }
  | 0x114 => s.adminSet n fun t => { t with acqb := putBits t.acqb 32 32 v }
  | 0x118 => s.adminSet n fun t => { t with aqs := bits v 16 12 * 0x10000 + bits v 0 12 }
  | 0x11C =>
    if s.vectorOk n (bits v 0 11) then
      s.withTq n fun t => { t with airq := b2n (bit v 31) * 0x80000000 + bits v 0 11 }
    else s
  | 0x120 => s.withTq n fun t => { t with arest := v % 0x40000 }
  | _ => s

/-- A write to a function register (Tables 3-5, 3-6, 6-7, 7-7 to 7-13, 11-3). -/
def State.functionRegWrite (s : State) (n off v : Nat) : State :=
  if off = 0x8 then s.withFn n fun x => { x with epstat := x.epstat - Nat.land x.epstat v }
  else if off = 0x14 then (if n = 0 then s.bootGo v else s)
  else if off = 0x18 then (if n = 0 then s.withBoot fun b => { b with bootLen := v % 0x2000000 } else s)
  else if 0x104 ≤ off ∧ off ≤ 0x120 then (if s.adminWritable n then s.tqWrite n off v else s)
  else if 0x200 ≤ off ∧ off < 0x240 ∧ s.boot.ready then s.elockWrite n ((off - 0x200) / 4) v
  else s

/-- A write to a doorbell slot (R185): the lower DWORD of an even slot is an SQ's tail, of an odd one a CQ's head. -/
def State.doorbellWrite (s : State) (n off v : Nat) : State :=
  if off % 8 ≠ 0 then s
  else if off / 8 % 2 = 0 then s.sqDoorbell n (off / 16) v
  else s.cqDoorbell n (off / 16) v

/-- A write to a DWORD of the MSI-X table (R155): of Vector Control, only the Mask bit is written. -/
def State.msixWrite (s : State) (n i v : Nat) : State :=
  let w := match i % 4 with
    | 0 => v / 4 * 4
    | 3 => v % 2
    | _ => v
  (s.withFn n fun x => { x with msix := x.msix.put i w }).sendPending n

/-- The request that a GO copies from the mailbox (R38, Tables 2-4 and 2-5): only a WRITE carries data. -/
def Mailbox.request (b : Mailbox) (n v : Nat) : DictReq :=
  let op : DictOp := match bits v 24 3 with
    | 0 => .read
    | 1 => .write
    | 2 => .info
    | 3 => .next
    | 4 => .readShadow
    | _ => .unknown
  ⟨.mailbox n, op, bits v 0 16, bits v 16 8, if op == DictOp.write then b.data.readN 0 b.len else [], .plain⟩

/-- A function's mailbox changed. -/
def State.withBox (s : State) (n : Nat) (f : Mailbox → Mailbox) : State := s.withFn n fun x => { x with box := f x.box }

/-- A write to a mailbox register or to its data buffer (R37, R38). -/
def State.mailboxWrite (s : State) (n off v : Nat) : State :=
  let b := (s.fn n).box
  if off = 0x8 then (if bit v 17 then s.withBox n fun m => { m with done := false } else s)
  else if off = 0x10 then
    if s.vectorOk n (bits v 0 11) then s.withBox n fun m => { m with irq := b2n (bit v 31) * 0x80000000 + bits v 0 11 } else s
  else if b.busy then s
  else if off = 0x0 then
    let s := s.withBox n fun m => { m with cmd := v % 0x8000000 }
    if bit v 31 then s.mailboxGo n (b.request n v) else s
  else if off = 0x4 then s.withBox n fun m => { m with len := v % 0x2000 }
  else if 0x1000 ≤ off ∧ off < 0x2000 then s.withBox n fun m => { m with data := m.data.writeN (off - 0x1000) (leBytes 4 v) }
  else s

/-- A one-DWORD write to a function's BAR0 (R145–R148, Table 6-5). Before READY a VF's registers ignore writes. -/
def State.bar0Write (s : State) (n off v : Nat) : State :=
  let s := s.hostActivity
  if !s.decodes n then s.unsupportedRequest n false
  else if off % 4 ≠ 0 then s
  else if n = 0 then
    if off < 0x100000 then s.functionRegWrite 0 off v
    else if off < 0x200000 then s.doorbellWrite 0 (off - 0x100000) v
    else if off < 0x208000 then s.msixWrite 0 ((off - 0x200000) / 4) v
    else if 0x300000 ≤ off ∧ off < 0x302000 then s.mailboxWrite 0 (off - 0x300000) v
    else s
  else if off < 0x4000 then (if s.boot.ready then s.functionRegWrite n off v else s)
  else if off < 0x8000 then s.doorbellWrite n (off - 0x4000) v
  else if off < 0x8400 then s.msixWrite n ((off - 0x8000) / 4) v
  else if 0xC000 ≤ off ∧ off < 0xE000 then s.mailboxWrite n (off - 0xC000) v
  else s

/-- A field that a VF's configuration space has as PF0's does (Table 6-1, R143, R155, R170). -/
def vfField (f : CfgField) : Bool :=
  f == .msixEnable || f == .msixFunctionMask || f == .statusErrorBits || cfgSticky f

/-- A configuration write to a field (R141, R143, R149, R152–R156). -/
def State.cfgWrite (s : State) (n : Nat) (f : CfgField) (v : Nat) : State :=
  if !s.host.up ∨ !s.fnPresent n ∨ (n ≠ 0 ∧ !vfField f) then s
  else match f with
    | .readOnly _ => s
    | .msixEnable => if v % 2 = 1 then s.modeEnable n true else (s.withFn n fun x => { x with msixEn := false }).sendPending n
    | .msiEnable => if v % 2 = 1 then s.modeEnable n false else s.withFn n fun x => { x with msiEn := false }
    | .powerState => if v % 4 = 0 then s.enterD0 else if v % 4 = 3 then s.enterD3 else s
    | .numVfs => if s.host.vfEnable ∨ 63 < v % 65536 then s else s.cfgPut n f v
    | .systemPageSize =>
      if v = 0x1 ∨ v = 0x2 ∨ v = 0x10 ∨ v = 0x40 ∨ v = 0x100 then s.cfgPut n f v else s
    | .aerUncorrectableStatus | .aerCorrectableStatus | .statusErrorBits =>
      s.cfgPut n f (s.cfg n f - Nat.land (s.cfg n f) v)
    | .msixFunctionMask | .msiMask | .multipleMessageEnable => (s.cfgPut n f v).sendPending n
    | _ => s.cfgPut n f v

/-- REGISTER_WRITE. -/
def execRegisterWrite (fn : Nat) (space : RegSpace) (value : Nat) (s : State) : Host.Outcome State Fault Refusal :=
  match space with
  | .bar0 off => done (s.bar0Write fn off (value % 2 ^ 32))
  | .cfg f => done (s.cfgWrite fn f value)

end Sys2Proof.Machine
end

