-- ==== Sys2Proof/Machine/Sched.lean ====
section
/-! DEFINITION. Egress scheduling's commands (Chapter 13): the transmitter, the shapers, the gate lists. -/

namespace Sys2Proof.Machine

/-- FRAME_TRANSMIT_DONE (R392, R393): the transmitter is free and takes the next frame. -/
def execFrameTransmitDone (port : Nat) (s : State) : Host.Outcome State Fault Refusal :=
  if (s.egPort port).busy then done ((s.withEg port fun x => { x with busy := false }).portServe port) else done s

/-- SHAPER_REFRESH (R394, R396, R406): every bucket gains its tokens; the transmitters look again. -/
def execShaperRefresh (s : State) : Host.Outcome State Fault Refusal :=
  if s.pipeOn then
    let s : State := (List.range 20).foldl (fun s p => s.portRefresh p) s
    let s : State := s.instances.foldl (fun s n => s.vpRefresh n) s
    done ((List.range 20).foldl (fun (s : State) p => s.portServe p) s)
  else done s

/-- GATE_INTERVAL_END (R397, R399). -/
def execGateIntervalEnd (port : Nat) (s : State) : Host.Outcome State Fault Refusal := done (s.gateAdvance port)

/-- GATE_LIST_CHANGE (R398). -/
def execGateListChange (port : Nat) (s : State) : Host.Outcome State Fault Refusal := done (s.gateChange port)

end Sys2Proof.Machine
end

