-- ==== Sys2Proof/Machine/Dispatch.lean ====
section
/-! DEFINITION. What each command does to everything but the queue: one arm for each constructor, one meaning for each
arm. -/

namespace Sys2Proof.Machine

/-- The effect of a command. -/
def exec (i : Instr) (s : State) : Host.Outcome State Fault Refusal :=
  match i with
  | .dictRead who index sub => Sys2Proof.Machine.execDictRead who index sub s
  | .dictWrite who index sub data => Sys2Proof.Machine.execDictWrite who index sub data s
  | .dictInfo who index sub => Sys2Proof.Machine.execDictInfo who index sub s
  | .dictNext who index sub => Sys2Proof.Machine.execDictNext who index sub s
  | .dictReadShadow who index sub => Sys2Proof.Machine.execDictReadShadow who index sub s
  | .onsiaDatagram srcAddr srcPort dstAddr vlan payload => Sys2Proof.Machine.execOnsiaDatagram srcAddr srcPort dstAddr vlan payload s
  | .onsiaSessionTimeout addr port session => Sys2Proof.Machine.execOnsiaSessionTimeout addr port session s
  | .usdoInitiateUpload port index sub => Sys2Proof.Machine.execUsdoInitiateUpload port index sub s
  | .usdoInitiateDownload port index sub size data => Sys2Proof.Machine.execUsdoInitiateDownload port index sub size data s
  | .usdoSegment port frame => Sys2Proof.Machine.execUsdoSegment port frame s
  | .usdoTransferTimeout port => Sys2Proof.Machine.execUsdoTransferTimeout port s
  | .groupCommit who group => Sys2Proof.Machine.execGroupCommit who group s
  | .groupDiscard who group => Sys2Proof.Machine.execGroupDiscard who group s
  | .groupApply group => Sys2Proof.Machine.execGroupApply group s
  | .shadowTimeout group => Sys2Proof.Machine.execShadowTimeout group s
  | .writeMaskWrite who inst mask => Sys2Proof.Machine.execWriteMaskWrite who inst mask s
  | .aoPowerOn tinderStraps testMode => Sys2Proof.Machine.execAoPowerOn tinderStraps testMode s
  | .emberRestart who => Sys2Proof.Machine.execEmberRestart who s
  | .hostLinkUp width speed => Sys2Proof.Machine.execHostLinkUp width speed s
  | .bootWindowAccess access => Sys2Proof.Machine.execBootWindowAccess access s
  | .bootGo value => Sys2Proof.Machine.execBootGo value s
  | .pllLockTimeout pll => Sys2Proof.Machine.execPllLockTimeout pll s
  | .lpddr5TrainingDone failedChannel => Sys2Proof.Machine.execLpddr5TrainingDone failedChannel s
  | .emberFwWrite readBackOk => Sys2Proof.Machine.execEmberFwWrite readBackOk s
  | .requestBlaze who => Sys2Proof.Machine.execRequestBlaze who s
  | .requestGlow who => Sys2Proof.Machine.execRequestGlow who s
  | .requestBanked who => Sys2Proof.Machine.execRequestBanked who s
  | .requestEmber who => Sys2Proof.Machine.execRequestEmber who s
  | .ssdShutdownComplete port => Sys2Proof.Machine.execSsdShutdownComplete port s
  | .wakeEdge pin => Sys2Proof.Machine.execWakeEdge pin s
  | .tinderAddressMatch address isRead => Sys2Proof.Machine.execTinderAddressMatch address isRead s
  | .tinderTransferTaken count => Sys2Proof.Machine.execTinderTransferTaken count s
  | .tinderRegisterWrite data => Sys2Proof.Machine.execTinderRegisterWrite data s
  | .managerVote who domain value => Sys2Proof.Machine.execManagerVote who domain value s
  | .domainPowerUpStart domain => Sys2Proof.Machine.execDomainPowerUpStart domain s
  | .domainPowerGood domain measureOk => Sys2Proof.Machine.execDomainPowerGood domain measureOk s
  | .domainPowerGoodTimeout domain => Sys2Proof.Machine.execDomainPowerGoodTimeout domain s
  | .hysteresisExpiry domain => Sys2Proof.Machine.execHysteresisExpiry domain s
  | .domainPowerDownDone domain => Sys2Proof.Machine.execDomainPowerDownDone domain s
  | .damperTick input => Sys2Proof.Machine.execDamperTick input s
  | .capReleaseHoldExpiry inst => Sys2Proof.Machine.execCapReleaseHoldExpiry inst s
  | .shedPortSearch port partner => Sys2Proof.Machine.execShedPortSearch port partner s
  | .meterSampleTimeout domain => Sys2Proof.Machine.execMeterSampleTimeout domain s
  | .forceStep who value => Sys2Proof.Machine.execForceStep who value s
  | .snapshot who value => Sys2Proof.Machine.execSnapshot who value s
  | .vsenseSample code => Sys2Proof.Machine.execVsenseSample code s
  | .busMasterEnableClear fn => Sys2Proof.Machine.execBusMasterEnableClear fn s
  | .busMasterEnableSet fn => Sys2Proof.Machine.execBusMasterEnableSet fn s
  | .functionLevelReset fn => Sys2Proof.Machine.execFunctionLevelReset fn s
  | .flrQuiesceComplete inst => Sys2Proof.Machine.execFlrQuiesceComplete inst s
  | .interruptModeEnable fn msix => Sys2Proof.Machine.execInterruptModeEnable fn msix s
  | .vectorUnmask fn vector => Sys2Proof.Machine.execVectorUnmask fn vector s
  | .completionReceived fn tag cpl => Sys2Proof.Machine.execCompletionReceived fn tag cpl s
  | .completionTimeout fn tag => Sys2Proof.Machine.execCompletionTimeout fn tag s
  | .quarantineWindowClose fn tag => Sys2Proof.Machine.execQuarantineWindowClose fn tag s
  | .hostBufferDoubleBitError fn queue tag => Sys2Proof.Machine.execHostBufferDoubleBitError fn queue tag s
  | .registerWrite fn space value => Sys2Proof.Machine.execRegisterWrite fn space value s
  | .engineTake fn engine => Sys2Proof.Machine.execEngineTake fn engine s
  | .engineRelease fn engine => Sys2Proof.Machine.execEngineRelease fn engine s
  | .sqTailDoorbell fn queue value => Sys2Proof.Machine.execSqTailDoorbell fn queue value s
  | .cqHeadDoorbell fn queue value => Sys2Proof.Machine.execCqHeadDoorbell fn queue value s
  | .sqFetch fn queue answer => Sys2Proof.Machine.execSqFetch fn queue answer s
  | .createCq fn tag => Sys2Proof.Machine.execCreateCq fn tag s
  | .createSq fn tag => Sys2Proof.Machine.execCreateSq fn tag s
  | .deleteSq fn tag => Sys2Proof.Machine.execDeleteSq fn tag s
  | .deleteCq fn tag => Sys2Proof.Machine.execDeleteCq fn tag s
  | .restartQueue fn tag => Sys2Proof.Machine.execRestartQueue fn tag s
  | .getErrorLog fn tag buf => Sys2Proof.Machine.execGetErrorLog fn tag buf s
  | .abort fn tag => Sys2Proof.Machine.execAbort fn tag s
  | .setModeration fn tag => Sys2Proof.Machine.execSetModeration fn tag s
  | .getQueueStatus fn tag => Sys2Proof.Machine.execGetQueueStatus fn tag s
  | .adminEnable fn => Sys2Proof.Machine.execAdminEnable fn s
  | .adminDisable fn => Sys2Proof.Machine.execAdminDisable fn s
  | .adminRestart fn => Sys2Proof.Machine.execAdminRestart fn s
  | .aggTimeExpiry fn queue => Sys2Proof.Machine.execAggTimeExpiry fn queue s
  | .createInstance tag record => Sys2Proof.Machine.execCreateInstance tag record s
  | .modifyInstance tag record => Sys2Proof.Machine.execModifyInstance tag record s
  | .quiesceInstance tag => Sys2Proof.Machine.execQuiesceInstance tag s
  | .quiesceComplete inst => Sys2Proof.Machine.execQuiesceComplete inst s
  | .quiesceTimeout inst => Sys2Proof.Machine.execQuiesceTimeout inst s
  | .resumeInstance tag => Sys2Proof.Machine.execResumeInstance tag s
  | .resetInstance tag => Sys2Proof.Machine.execResetInstance tag s
  | .destroyInstance tag => Sys2Proof.Machine.execDestroyInstance tag s
  | .rearmInstance tag => Sys2Proof.Machine.execRearmInstance tag s
  | .getInstance tag buf => Sys2Proof.Machine.execGetInstance tag buf s
  | .nsCreate fn tag => Sys2Proof.Machine.execNsCreate fn tag s
  | .nsDelete fn tag => Sys2Proof.Machine.execNsDelete fn tag s
  | .nsIdentify fn tag buf => Sys2Proof.Machine.execNsIdentify fn tag buf s
  | .nsErase fn tag => Sys2Proof.Machine.execNsErase fn tag s
  | .evidenceRelease fn tag => Sys2Proof.Machine.execEvidenceRelease fn tag s
  | .ssdPrepare fn tag => Sys2Proof.Machine.execSsdPrepare fn tag s
  | .ssdDetach fn tag => Sys2Proof.Machine.execSsdDetach fn tag s
  | .ssdAttach fn tag => Sys2Proof.Machine.execSsdAttach fn tag s
  | .read fn queue tag buf => Sys2Proof.Machine.execRead fn queue tag buf s
  | .write fn queue tag data => Sys2Proof.Machine.execWrite fn queue tag data s
  | .flush fn queue tag => Sys2Proof.Machine.execFlush fn queue tag s
  | .deallocate fn queue tag => Sys2Proof.Machine.execDeallocate fn queue tag s
  | .writeZeroes fn queue tag => Sys2Proof.Machine.execWriteZeroes fn queue tag s
  | .verify fn queue tag => Sys2Proof.Machine.execVerify fn queue tag s
  | .evidenceAppend fn queue tag data => Sys2Proof.Machine.execEvidenceAppend fn queue tag data s
  | .rootPortLinkUp port => Sys2Proof.Machine.execRootPortLinkUp port s
  | .rootPortLinkDown port => Sys2Proof.Machine.execRootPortLinkDown port s
  | .controllerReady port identity => Sys2Proof.Machine.execControllerReady port identity s
  | .controllerReadyTimeout port => Sys2Proof.Machine.execControllerReadyTimeout port s
  | .backendCompletion port command result => Sys2Proof.Machine.execBackendCompletion port command result s
  | .backendTimeout port command => Sys2Proof.Machine.execBackendTimeout port command s
  | .ssdAsyncEvent port warning => Sys2Proof.Machine.execSsdAsyncEvent port warning s
  | .catalogueCheckpoint ns => Sys2Proof.Machine.execCatalogueCheckpoint ns s
  | .kilnStreamCreate tag record => Sys2Proof.Machine.execKilnStreamCreate tag record s
  | .kilnStreamOpen tag => Sys2Proof.Machine.execKilnStreamOpen tag s
  | .kilnStreamClose tag => Sys2Proof.Machine.execKilnStreamClose tag s
  | .kilnStreamKeys tag list => Sys2Proof.Machine.execKilnStreamKeys tag list s
  | .kilnStreamDelete tag => Sys2Proof.Machine.execKilnStreamDelete tag s
  | .kilnStreamGet tag buf => Sys2Proof.Machine.execKilnStreamGet tag buf s
  | .kilnStreamIndex tag => Sys2Proof.Machine.execKilnStreamIndex tag s
  | .kilnAdmission stream => Sys2Proof.Machine.execKilnAdmission stream s
  | .segmentAgeExpiry stream => Sys2Proof.Machine.execSegmentAgeExpiry stream s
  | .runAgeExpiry stream => Sys2Proof.Machine.execRunAgeExpiry stream s
  | .leaseWritten stream ok => Sys2Proof.Machine.execLeaseWritten stream ok s
  | .gcmEncrypt fn queue tag => Sys2Proof.Machine.execGcmEncrypt fn queue tag s
  | .gcmDecrypt fn queue tag => Sys2Proof.Machine.execGcmDecrypt fn queue tag s
  | .ccmEncrypt fn queue tag => Sys2Proof.Machine.execCcmEncrypt fn queue tag s
  | .ccmDecrypt fn queue tag => Sys2Proof.Machine.execCcmDecrypt fn queue tag s
  | .ctr fn queue tag => Sys2Proof.Machine.execCtr fn queue tag s
  | .cbcEncrypt fn queue tag => Sys2Proof.Machine.execCbcEncrypt fn queue tag s
  | .cbcDecrypt fn queue tag => Sys2Proof.Machine.execCbcDecrypt fn queue tag s
  | .xtsEncrypt fn queue tag => Sys2Proof.Machine.execXtsEncrypt fn queue tag s
  | .xtsDecrypt fn queue tag => Sys2Proof.Machine.execXtsDecrypt fn queue tag s
  | .chacha20Poly1305Encrypt fn queue tag => Sys2Proof.Machine.execChacha20Poly1305Encrypt fn queue tag s
  | .chacha20Poly1305Decrypt fn queue tag => Sys2Proof.Machine.execChacha20Poly1305Decrypt fn queue tag s
  | .cmacGenerate fn queue tag => Sys2Proof.Machine.execCmacGenerate fn queue tag s
  | .cmacVerify fn queue tag => Sys2Proof.Machine.execCmacVerify fn queue tag s
  | .sha256 fn queue tag => Sys2Proof.Machine.execSha256 fn queue tag s
  | .sha384 fn queue tag => Sys2Proof.Machine.execSha384 fn queue tag s
  | .hmacGenerate fn queue tag => Sys2Proof.Machine.execHmacGenerate fn queue tag s
  | .hmacVerify fn queue tag => Sys2Proof.Machine.execHmacVerify fn queue tag s
  | .cipherJobStart fn queue tag => Sys2Proof.Machine.execCipherJobStart fn queue tag s
  | .cipherJobDone engine => Sys2Proof.Machine.execCipherJobDone engine s
  | .keyGenerate fn queue tag => Sys2Proof.Machine.execKeyGenerate fn queue tag s
  | .keyImport fn queue tag blob => Sys2Proof.Machine.execKeyImport fn queue tag blob s
  | .keyExport fn queue tag buf => Sys2Proof.Machine.execKeyExport fn queue tag buf s
  | .keyClear fn queue tag => Sys2Proof.Machine.execKeyClear fn queue tag s
  | .keyInfo fn queue tag buf => Sys2Proof.Machine.execKeyInfo fn queue tag buf s
  | .keySetLimit fn queue tag => Sys2Proof.Machine.execKeySetLimit fn queue tag s
  | .vaultWriteDone ok => Sys2Proof.Machine.execVaultWriteDone ok s
  | .keyStoreDoubleBitError slot => Sys2Proof.Machine.execKeyStoreDoubleBitError slot s
  | .checkCompute fn queue tag => Sys2Proof.Machine.execCheckCompute fn queue tag s
  | .checkBlocks fn queue tag => Sys2Proof.Machine.execCheckBlocks fn queue tag s
  | .checkVerifyBlocks fn queue tag => Sys2Proof.Machine.execCheckVerifyBlocks fn queue tag s
  | .checkSliceDone unit payload array => Sys2Proof.Machine.execCheckSliceDone unit payload array s
  | .frameReceived port frame fcsOk stamp => Sys2Proof.Machine.execFrameReceived port frame fcsOk stamp s
  | .ageingSweep bucket => Sys2Proof.Machine.execAgeingSweep bucket s
  | .tblInsert fn queue tag entry => Sys2Proof.Machine.execTblInsert fn queue tag entry s
  | .tblDelete fn queue tag key => Sys2Proof.Machine.execTblDelete fn queue tag key s
  | .tblLookup fn queue tag key => Sys2Proof.Machine.execTblLookup fn queue tag key s
  | .tblLock fn queue tag key => Sys2Proof.Machine.execTblLock fn queue tag key s
  | .tblStage fn queue tag entry => Sys2Proof.Machine.execTblStage fn queue tag entry s
  | .tblUnlock fn queue tag => Sys2Proof.Machine.execTblUnlock fn queue tag s
  | .tblRead fn queue tag buf => Sys2Proof.Machine.execTblRead fn queue tag buf s
  | .lockHoldExpiry handle => Sys2Proof.Machine.execLockHoldExpiry handle s
  | .tableDoubleBitError bucket => Sys2Proof.Machine.execTableDoubleBitError bucket s
  | .vpSend fn queue tag frame => Sys2Proof.Machine.execVpSend fn queue tag frame s
  | .vpRxBind fn queue tag area => Sys2Proof.Machine.execVpRxBind fn queue tag area s
  | .vpRxReturn fn queue tag => Sys2Proof.Machine.execVpRxReturn fn queue tag s
  | .portLinkUp port rate => Sys2Proof.Machine.execPortLinkUp port rate s
  | .portLinkDown port => Sys2Proof.Machine.execPortLinkDown port s
  | .keepaliveTimer port => Sys2Proof.Machine.execKeepaliveTimer port s
  | .hello port src serial ring side t1 echoT1 echoT2 echoT3 arrived => Sys2Proof.Machine.execHello port src serial ring side t1 echoT1 echoT2 echoT3 arrived s
  | .topology port src serial eastDelay eastRate reach => Sys2Proof.Machine.execTopology port src serial eastDelay eastRate reach s
  | .fault port src side => Sys2Proof.Machine.execFault port src side s
  | .restore port src side => Sys2Proof.Machine.execRestore port src side s
  | .leave port src => Sys2Proof.Machine.execLeave port src s
  | .ringPortFail port => Sys2Proof.Machine.execRingPortFail port s
  | .ringPortSilence port => Sys2Proof.Machine.execRingPortSilence port s
  | .steerHoldExpiry ring => Sys2Proof.Machine.execSteerHoldExpiry ring s
  | .restoreHoldExpiry port => Sys2Proof.Machine.execRestoreHoldExpiry port s
  | .ptpMessage port msg => Sys2Proof.Machine.execPtpMessage port msg s
  | .timeSet who value => Sys2Proof.Machine.execTimeSet who value s
  | .frameTransmitDone port => Sys2Proof.Machine.execFrameTransmitDone port s
  | .gateIntervalEnd port => Sys2Proof.Machine.execGateIntervalEnd port s
  | .gateListChange port => Sys2Proof.Machine.execGateListChange port s
  | .threadInstruction thread => Sys2Proof.Machine.execThreadInstruction thread s
  | .trWait thread rd rs1 => Sys2Proof.Machine.execTrWait thread rd rs1 s
  | .trRxf thread rd rs1 rs2 => Sys2Proof.Machine.execTrRxf thread rd rs1 rs2 s
  | .trTxf thread rd rs1 => Sys2Proof.Machine.execTrTxf thread rd rs1 s
  | .trDma thread rd rs1 => Sys2Proof.Machine.execTrDma thread rd rs1 s
  | .trClaim thread rd rs1 => Sys2Proof.Machine.execTrClaim thread rd rs1 s
  | .trPut thread rd rs1 rs2 => Sys2Proof.Machine.execTrPut thread rd rs1 rs2 s
  | .trCommit thread rd rs1 => Sys2Proof.Machine.execTrCommit thread rd rs1 s
  | .trRecv thread rd rs1 => Sys2Proof.Machine.execTrRecv thread rd rs1 s
  | .trDrop thread rd rs1 => Sys2Proof.Machine.execTrDrop thread rd rs1 s
  | .ttimerWrite thread value => Sys2Proof.Machine.execTtimerWrite thread value s
  | .tpetWrite thread => Sys2Proof.Machine.execTpetWrite thread s
  | .ttimerExpiry thread => Sys2Proof.Machine.execTtimerExpiry thread s
  | .threadWatchdogExpiry thread => Sys2Proof.Machine.execThreadWatchdogExpiry thread s
  | .receiveCopyDone thread => Sys2Proof.Machine.execReceiveCopyDone thread s
  | .dmaDone thread tag => Sys2Proof.Machine.execDmaDone thread tag s
  | .txfDone thread => Sys2Proof.Machine.execTxfDone thread s
  | .groupStart who group => Sys2Proof.Machine.execGroupStart who group s
  | .groupStop who group => Sys2Proof.Machine.execGroupStop who group s
  | .groupRestart who group => Sys2Proof.Machine.execGroupRestart who group s
  | .groupDelete who group => Sys2Proof.Machine.execGroupDelete who group s
  | .groupStopComplete group => Sys2Proof.Machine.execGroupStopComplete group s
  | .restartGroup who inst group => Sys2Proof.Machine.execRestartGroup who inst group s
  | .stallDetected group => Sys2Proof.Machine.execStallDetected group s
  | .threadFaultHandling thread => Sys2Proof.Machine.execThreadFaultHandling thread s
  | .sliceDoubleBitError thread => Sys2Proof.Machine.execSliceDoubleBitError thread s
  | .coreFault core => Sys2Proof.Machine.execCoreFault core s
  | .coreReloadDone core measureOk => Sys2Proof.Machine.execCoreReloadDone core measureOk s
  | .deliveryThreadWrite who core thread => Sys2Proof.Machine.execDeliveryThreadWrite who core thread s
  | .debugHalt thread => Sys2Proof.Machine.execDebugHalt thread s
  | .debugResume thread => Sys2Proof.Machine.execDebugResume thread s
  | .claimRelease thread => Sys2Proof.Machine.execClaimRelease thread s
  | .egClaim target => Sys2Proof.Machine.execEgClaim target s
  | .egEoi target source => Sys2Proof.Machine.execEgEoi target source s
  | .egTctrlClear target => Sys2Proof.Machine.execEgTctrlClear target s
  | .clearTarget who target => Sys2Proof.Machine.execClearTarget who target s
  | .egPset k mask => Sys2Proof.Machine.execEgPset k mask s
  | .egPclr k mask firing => Sys2Proof.Machine.execEgPclr k mask firing s
  | .egSrcWrite source value => Sys2Proof.Machine.execEgSrcWrite source value s
  | .sourceMap who data => Sys2Proof.Machine.execSourceMap who data s
  | .admissionTokenGain cls => Sys2Proof.Machine.execAdmissionTokenGain cls s
  | .logClear who => Sys2Proof.Machine.execLogClear who s
  | .firstOfKindClear who => Sys2Proof.Machine.execFirstOfKindClear who s
  | .exportPull who => Sys2Proof.Machine.execExportPull who s
  | .alarmAck who alarm => Sys2Proof.Machine.execAlarmAck who alarm s
  | .ackAll who => Sys2Proof.Machine.execAckAll who s
  | .alarmDefine who alarm sub value => Sys2Proof.Machine.execAlarmDefine who alarm sub value s
  | .alarmInhibitExpiry alarm => Sys2Proof.Machine.execAlarmInhibitExpiry alarm s
  | .peatOff who => Sys2Proof.Machine.execPeatOff who s
  | .peatRing who => Sys2Proof.Machine.execPeatRing who s
  | .peatOneShot who => Sys2Proof.Machine.execPeatOneShot who s
  | .peatCheckpoint hearthMemory => Sys2Proof.Machine.execPeatCheckpoint hearthMemory s
  | .trigger who => Sys2Proof.Machine.execTrigger who s
  | .peatWindowWrite who data => Sys2Proof.Machine.execPeatWindowWrite who data s
  | .replayArm who => Sys2Proof.Machine.execReplayArm who s
  | .dmiAccess op => Sys2Proof.Machine.execDmiAccess op s
  | .emberStartComplete slot0 slot1 => Sys2Proof.Machine.execEmberStartComplete slot0 slot1 s
  | .syncIntervalExpiry port => Sys2Proof.Machine.execSyncIntervalExpiry port s
  | .ppsOutEdge rising => Sys2Proof.Machine.execPpsOutEdge rising s
  | .hostLinkError err => Sys2Proof.Machine.execHostLinkError err s
  | .correctedInternalError fn => Sys2Proof.Machine.execCorrectedInternalError fn s
  | .heartbeat => Sys2Proof.Machine.execHeartbeat s
  | .emberWatchdogExpiry => Sys2Proof.Machine.execEmberWatchdogExpiry s
  | .mainPgRise => Sys2Proof.Machine.execMainPgRise s
  | .mainPgTimeout => Sys2Proof.Machine.execMainPgTimeout s
  | .mainEnRetryExpiry => Sys2Proof.Machine.execMainEnRetryExpiry s
  | .mainPgLoss => Sys2Proof.Machine.execMainPgLoss s
  | .perstNAssert => Sys2Proof.Machine.execPerstNAssert s
  | .perstNRelease => Sys2Proof.Machine.execPerstNRelease s
  | .hostLinkDown => Sys2Proof.Machine.execHostLinkDown s
  | .hotReset => Sys2Proof.Machine.execHotReset s
  | .hearthWatchdogExpiry => Sys2Proof.Machine.execHearthWatchdogExpiry s
  | .drainComplete => Sys2Proof.Machine.execDrainComplete s
  | .drainTimeout => Sys2Proof.Machine.execDrainTimeout s
  | .ssdShutdownTimeout => Sys2Proof.Machine.execSsdShutdownTimeout s
  | .emberWakeHoldExpiry => Sys2Proof.Machine.execEmberWakeHoldExpiry s
  | .ignRise => Sys2Proof.Machine.execIgnRise s
  | .ignFall => Sys2Proof.Machine.execIgnFall s
  | .wakeAlarm => Sys2Proof.Machine.execWakeAlarm s
  | .tinderStretchLimit => Sys2Proof.Machine.execTinderStretchLimit s
  | .bankedMaxExpiry => Sys2Proof.Machine.execBankedMaxExpiry s
  | .vsenseEmberHoldExpiry => Sys2Proof.Machine.execVsenseEmberHoldExpiry s
  | .ignOffTimerExpiry => Sys2Proof.Machine.execIgnOffTimerExpiry s
  | .ignOffRetryExpiry => Sys2Proof.Machine.execIgnOffRetryExpiry s
  | .thermalTrip => Sys2Proof.Machine.execThermalTrip s
  | .thermalTripShutdown => Sys2Proof.Machine.execThermalTripShutdown s
  | .descentHoldExpiry => Sys2Proof.Machine.execDescentHoldExpiry s
  | .ignOffAllowanceReached => Sys2Proof.Machine.execIgnOffAllowanceReached s
  | .pf0FunctionLevelReset => Sys2Proof.Machine.execPf0FunctionLevelReset s
  | .vfEnableSet => Sys2Proof.Machine.execVfEnableSet s
  | .vfEnableClear => Sys2Proof.Machine.execVfEnableClear s
  | .powerStateD3hot => Sys2Proof.Machine.execPowerStateD3hot s
  | .powerStateD0 => Sys2Proof.Machine.execPowerStateD0 s
  | .linkLossHoldExpiry => Sys2Proof.Machine.execLinkLossHoldExpiry s
  | .l0sEntry => Sys2Proof.Machine.execL0sEntry s
  | .l1IdleExpiry => Sys2Proof.Machine.execL1IdleExpiry s
  | .ltrIdleExpiry => Sys2Proof.Machine.execLtrIdleExpiry s
  | .flushGatherExpiry => Sys2Proof.Machine.execFlushGatherExpiry s
  | .pfail => Sys2Proof.Machine.execPfail s
  | .pfSequenceBoundExpiry => Sys2Proof.Machine.execPfSequenceBoundExpiry s
  | .pfailReleaseExpiry => Sys2Proof.Machine.execPfailReleaseExpiry s
  | .vaultRestore => Sys2Proof.Machine.execVaultRestore s
  | .learnInsert => Sys2Proof.Machine.execLearnInsert s
  | .helloTimer => Sys2Proof.Machine.execHelloTimer s
  | .topologyTimer => Sys2Proof.Machine.execTopologyTimer s
  | .leaveWaitExpiry => Sys2Proof.Machine.execLeaveWaitExpiry s
  | .syncTimeout => Sys2Proof.Machine.execSyncTimeout s
  | .ppsInEdge => Sys2Proof.Machine.execPpsInEdge s
  | .ppsInTimeout => Sys2Proof.Machine.execPpsInTimeout s
  | .shaperRefresh => Sys2Proof.Machine.execShaperRefresh s
  | .admissionSummary => Sys2Proof.Machine.execAdmissionSummary s
  | .udpPush => Sys2Proof.Machine.execUdpPush s
  | .canExport => Sys2Proof.Machine.execCanExport s
  | .peatFreeze => Sys2Proof.Machine.execPeatFreeze s
  | .debugSessionAttach => Sys2Proof.Machine.execDebugSessionAttach s
  | .debugSessionDetach => Sys2Proof.Machine.execDebugSessionDetach s
  | .resetReq => Sys2Proof.Machine.execResetReq s
  | .peatTrigger => Sys2Proof.Machine.execPeatTrigger s
  | .egressDrainExpiry => Sys2Proof.Machine.execEgressDrainExpiry s
  | .mainPgFall => Sys2Proof.Machine.execMainPgFall s
  | .pfailRelease => Sys2Proof.Machine.execPfailRelease s
  | .slowclk1024Cycles => Sys2Proof.Machine.execSlowclk1024Cycles s

end Sys2Proof.Machine
end

