-- ==== Sys2Proof/Machine/Tick.lean ====
section
/-! DEFINITION. One nanosecond without a command: the counts that the clocks drive (R26, R27, R422, R473). Nothing else happens of
itself; every expiry and every end of work is a command. -/

namespace Sys2Proof.Machine

/-- One nanosecond of the slow count: a tick of 32.768 kHz is 1,953,125 / 64 ns. -/
def TimeBase.slowTick (t : TimeBase) : TimeBase :=
  let f := t.slowFrac + 64
  if 1953125 ≤ f then { t with slow := (t.slow + 1) % 2 ^ 48, slowFrac := f - 1953125 } else { t with slowFrac := f }

/-- The PLLs run: from the clock switch on, but for Banked and Ember (Tables 3-17 and 4-1). -/
def State.clocksOn (s : State) : Bool := s.awake || (s.pow.st == .starting && decide (4 ≤ s.boot.phase))

/-- The pass counters of every core (R422): a pass is 10 ns of FCLK. -/
def State.passes (s : State) : State :=
  if s.flow.fclkNs % 10 = 0 then (List.range 32).foldl State.passIdle s else s

/-- One nanosecond passes. -/
def State.tick (s : State) : State :=
  if s.pow.st = .off then s
  else
    let s := s.withTime fun t => { t.slowTick with elapsed := t.elapsed + 1 }
    let s := if s.clocksOn then s.withTime fun t => { t.advance with hclkNs := t.hclkNs + 1 } else s
    if s.fclkOn then (s.withFlow fun f => { f with fclkNs := f.fclkNs + 1 }).passes else s

end Sys2Proof.Machine
end

