-- ==== Sys2Proof/Safety.lean ====
section
/-! DEFINITION. What counts as a safe run, in the terms the claims use: what every step keeps, how a step may move the seal store,
and the effect of a command told apart from the work that goes on after it. -/

namespace Sys2Proof.Machine

/-- A state that every step keeps: LPDDR5 and the dictionary store are in their one canonical form, so that equal contents are equal
data. -/
def State.Inv (s : State) : Prop := s.dram.wf = true ∧ s.dict.sorted = true

/-- The seal store may only move this way (R79, Table 3-15): no revoked slot returns, the minimum version and the lifecycle do not fall, a
programmed slot keeps its hash. -/
def Seal.Forward (a b : Seal) : Prop :=
  (∀ k, bit a.revoked k = true → bit b.revoked k = true) ∧ a.minVersion ≤ b.minVersion ∧ a.lifecycle ≤ b.lifecycle
    ∧ ∀ k h, a.hashes.get? k = some h → b.hashes.get? k = some h

/-- What a command leaves behind on its way from s to t, whatever else it does: the queue as it stood, everything sent still sent and in
its order, no free value drawn twice, the seal store as it was, the canonical forms kept. -/
structure Later (s t : State) : Prop where
  queue : t.pending = s.pending
  sent : s.out <+: t.out
  drawn : s.free ≤ t.free
  store : t.sealStore = s.sealStore
  dram : s.dram.wf = true → t.dram.wf = true
  dict : s.dict.sorted = true → t.dict.sorted = true

/-- As Later, but for the seal store, which LPDDR5_TRAINING_DONE may move. -/
structure Kept (s t : State) : Prop where
  queue : t.pending = s.pending
  sent : s.out <+: t.out
  drawn : s.free ≤ t.free
  store : Seal.Forward s.sealStore t.sealStore
  dram : s.dram.wf = true → t.dram.wf = true
  dict : s.dict.sorted = true → t.dict.sorted = true

/-- A command has an effect: exec answers the state that the effect and the work that goes on after it leave. -/
def Does (c : Instr) (s t : State) : Prop := exec c s = .next t.settle

/-- The request that a row of the table makes which is a write of a number to an entry, in the entry's own length. -/
def writeOf (who : Requester) (idx sub v : Nat) : DictReq := ⟨who, .write, idx, sub, leBytes (entryType idx sub).len v, .plain⟩

/-- The service takes a request as it comes: it is the only one waiting, the service can serve, and no block has waiting work that goes on
before it. -/
def State.Asks (s : State) (r : DictReq) : Prop :=
  let d := s.dictRequest r.who r.op r.index r.sub r.data
  d.svc.held = [r] ∧ d.canServe = true ∧ d.workSettle = d

/-- The state in which the service has taken a request: for a mailbox its registers hold the request and BUSY is set, and nothing else is
changed. -/
def State.taken (s : State) (r : DictReq) : State :=
  (s.dictRequest r.who r.op r.index r.sub r.data).withSvc fun k => { k with held := [] }

/-- What goes on in a command after the service has answered. -/
def State.served (s : State) : State := s.waitingRequest.workSettle.heldStartSettle

/-- A command that is a dictionary request has its effect: the service answers with a status and data from state t, by the path of the
request, in the management VLAN as it was when the request was taken. -/
def Answers (c : Instr) (s : State) (r : DictReq) (st : Status) (data : Bytes) (t : State) : Prop :=
  exec c s = .next (t.answer r ((s.taken r).dget 0x1040 4) st data).served

/-- A write passes checks 3 to 9 of Table 2-13. -/
def State.Accepts (s : State) (r : DictReq) : Prop :=
  placeCheck r.who r.index r.sub = .ok ∧ s.writeCheck r.who r.index r.sub r.data = .ok

/-- No block has work that waits: nothing is in flight in storage, cipher or the queues' deletions, no request, commit, recovery or start is
held, each link may be as it is, and the domains stand as their votes ask. -/
structure State.Quiet (s : State) : Prop where
  jobs : s.stor.jobs = []
  locks : s.stor.lockFull = false
  ports : ∀ p, p < 2 → (s.port p).recovering = false ∧ (s.port p).detach = none
  powerFail : s.kiln.pf = none
  streams : ∀ kv ∈ s.kiln.streams, kv.2.bind ≠ 1
  cipher : s.cipher.jobs = [] ∧ s.cipher.keyWaits = []
  packets : s.pipe.sends = [] ∧ s.pipe.table.waits = []
  threads : ∀ kv ∈ s.flow.threads, kv.2.wait = none
  links : ∀ p, p < 20 → (s.egPort p).up = true → s.dget (pIdx p 0) 1 ≠ 0 ∧ s.portShed p = false ∧ s.domOn (portDomain p) = true
  queues : ∀ kv ∈ s.q.sqs, kv.2.deleting = none ∧ (kv.1 % 65536 = 0 → (s.fn (kv.1 / 65536)).tq.disabling = false)
  domains : s.pow.st = .glow → ∀ d, d ∈ [2, 3, 4, 5, 6, 7, 8, 9, 11, 12, 13] → s.domainSettle d = s
  service : s.svc.held = []
  power : s.pow.ignWaiting = false ∧ s.pow.heldStart = none

/-- The priorities of a target's stack stand in order: each claim took one strictly above the running one (R457). -/
def EgTarget.Nested (x : EgTarget) : Prop :=
  (x.running :: x.stack.map Prod.snd).Pairwise (· < ·) ∧ ∀ p ∈ x.running :: x.stack.map Prod.snd, p ≤ 16

end Sys2Proof.Machine
end

