-- ==== Sys2Proof/Certificates/Slice0/Obligations.lean ====
section
/-! DEFINITION. The statements for the provers: what the commands do, family by family, by the numbered rules of spec/. Does c s u says that
exec answers next with u and the work that goes on after it; Answers says the same of a dictionary request and its answer. -/

open Sys2Proof Sys2Proof.Machine

/-- A step takes the command at the front of the queue and does it with the queue's rest: the model's form of a block that takes commands,
first in first out. -/
def Obligations.StepRunsFront : Prop :=
  ∀ (c : Instr) (s : State), step { s with pending := c :: s.pending } = exec c s

/-- What reset leaves: no command waits, nothing is sent or drawn, the canonical forms hold. The values of reset that the spec does not give
are the model's (log entries 1 and 2). -/
def Obligations.ResetKeepsInv : Prop :=
  State.reset.Inv ∧ State.reset.pending = [] ∧ State.reset.out = [] ∧ State.reset.dram = [] ∧ State.reset.boot.ready = false
    ∧ State.reset.pow.st = .off ∧ core.reset = State.reset

/-- Every step keeps the canonical forms of LPDDR5 and of the dictionary store. -/
def Obligations.StepKeepsInv : Prop :=
  ∀ s t : State, s.Inv → step s = .next t → t.Inv

/-- Every command that answers a next state leaves the queue as it stood, everything sent still sent in its order, no free value drawn
twice, and moves the seal store forward only (R79). -/
def Obligations.CommandsKeep : Prop :=
  ∀ (c : Instr) (s t : State), exec c s = .next t → Kept s t

/-- Every command answers a next state in every state, but AO_POWER_ON with TEST_MODE high, of which R501 gives no effect; no command
faults. -/
def Obligations.AlwaysNext : Prop :=
  (∀ (c : Instr) (s : State), (∃ t, exec c s = .next t) ∨ ((∃ st, c = .aoPowerOn st true) ∧ exec c s = .refused .testModeHigh))
  ∧ ∀ (s : State) (f : Fault), step s ≠ .fault f

/-- After a command nothing more happens in a state with no work that waits, nor in a device that does not serve (before READY, in Banked,
in Ember); in such a state a command that has no effect changes nothing. -/
def Obligations.QuietSettles : Prop :=
  ∀ s : State, (s.live = false → s.settle = s) ∧ (s.Quiet → s.settle = s)
    ∧ ∀ c, Does c s s → s.Quiet ∨ s.live = false → exec c s = .next s

/-- With no command waiting one nanosecond passes (the model's choice, log entry 3): while unpowered nothing moves; else the slow count
takes its share, and domain, HCLK and FCLK time count while their clocks run (R26, R27, R29); nothing is sent, and no block but the counters
of R422 changes. -/
def Obligations.IdleTicks : Prop :=
  ∀ s : State, s.pending = [] → ∃ t : State, step s = .next t
    ∧ (s.pow.st = .off → t = s)
    ∧ (s.pow.st ≠ .off → t.time.elapsed = s.time.elapsed + 1
        ∧ (s.time.slowFrac + 64 < 1953125 → t.time.slow = s.time.slow ∧ t.time.slowFrac = s.time.slowFrac + 64)
        ∧ (1953125 ≤ s.time.slowFrac + 64 → t.time.slow = (s.time.slow + 1) % 2 ^ 48)
        ∧ t.time.hclkNs = s.time.hclkNs + (if s.clocksOn = true then 1 else 0)
        ∧ (s.clocksOn = false → t.time.ns = s.time.ns)
        ∧ (s.clocksOn = true → s.time.ppb = 0 → s.time.slew = 0 → t.time.ns = s.time.ns + 1)
        ∧ t.flow.fclkNs = s.flow.fclkNs + (if s.fclkOn = true then 1 else 0))
    ∧ t.out = s.out ∧ t.dram = s.dram ∧ t.q = s.q ∧ t.fns = s.fns ∧ t.insts = s.insts ∧ t.stor = s.stor ∧ t.kiln = s.kiln
    ∧ t.cipher = s.cipher ∧ t.pipe = s.pipe ∧ t.pow = s.pow ∧ t.boot = s.boot ∧ t.host = s.host ∧ t.svc = s.svc ∧ t.eg = s.eg ∧ t.ash = s.ash
    ∧ t.pending = []

/-- The frame of the commands that store nothing, of the gatherer, the logs' timers, the dictionary's paths, the threads' timers and the
network's timers (R44, R375, R398, R427, R451, R460, R463, R472, R481, R515): whatever else they do before the work that waits goes on, no
byte of LPDDR5, no key, no stream, no instance, no queue and nothing of the seal store changes. A byte of memory written is read back, every
other byte is as before. -/
def Obligations.MemoryFrame : Prop :=
  (∀ (s : State) (n k p r : Nat) (m v : Word) (l : List Nat) (b : Bool),
    ∀ c ∈ [Instr.heartbeat, .admissionTokenGain n, .egTctrlClear n, .egPset k m, .egPclr k m l, .egSrcWrite n v, .ttimerExpiry n, .debugHalt n,
        .debugResume n, .onsiaSessionTimeout n p r, .usdoTransferTimeout p, .ppsOutEdge b, .portLinkUp p r, .canExport, .udpPush, .syncTimeout,
        .ppsInTimeout, .frameTransmitDone p, .keepaliveTimer p, .helloTimer, .topologyTimer, .learnInsert, .ageingSweep n, .debugSessionAttach,
        .debugSessionDetach],
      ∃ u : State, Does c s u ∧ (∀ a, u.dram.read a = s.dram.read a) ∧ u.dram = s.dram ∧ u.cipher = s.cipher ∧ u.kiln = s.kiln
        ∧ u.insts = s.insts ∧ u.q = s.q ∧ u.sealStore = s.sealStore ∧ u.stor = s.stor ∧ u.boot = s.boot)
  ∧ (∀ (m : Mem) (a k : Nat) (b : Bytes),
      (a ≤ k → k < a + b.length → some ((m.writeN a b).read k) = b[k - a]?)
      ∧ (k < a ∨ a + b.length ≤ k → (m.writeN a b).read k = m.read k)
      ∧ (m.wf = true → (m.writeN a b).wf = true) ∧ (m.readN a k).length = k)

/-- What a release of the main reset leaves (R64, R66, Table 3-2): the mask ROM runs with the cause that was kept, READY clear, nothing in
LPDDR5 or the queues, no instance, the seal store as it was and its word in BOOT_SEAL, HOST_WAKE_N released. The cause is one of a cold
start, a wake or a reset of the main supplies, not a core reset's. What a core reset keeps and clears (R65, R31, R468): the link and the
configuration space stay (bus mastering included), the ash log and its entries, LPDDR5 and the seal store; queues, instances, streams and
keys in use go; the device is in host-wait with the boot window open. The recorder's trigger of cause 4 comes first (R491), so s is the
state after it. The start of cause 1 or 5 (R64, R506): the main reset is asserted, nothing of the main domains is left and the cause is kept
for the release; a JTAG reset with PERST_N high is released at once. -/
def Obligations.Starts : Prop :=
  (∀ s : State, s.pow.nextCause ≠ 3 → s.pow.nextCause ≠ 4 →
      let t := s.resetRelease
      t.pow.st = .starting ∧ t.pow.mainReset = false ∧ t.pow.trans = 0 ∧ t.pow.stage = 0 ∧ t.pow.hostWake = false ∧ t.pow.domains = []
      ∧ t.boot.phase = 0 ∧ t.boot.cause = s.pow.nextCause ∧ t.boot.ready = false ∧ t.boot.windowOpen = false ∧ t.boot.code = 0
      ∧ t.boot.attempts = 0 ∧ t.boot.sealWord = s.sealStore.word
      ∧ t.boot.wakeSrc = (if s.pow.nextCause = 2 then s.boot.wakeSrc else 0)
      ∧ t.sealStore = s.sealStore ∧ t.cipher.vault = s.cipher.vault ∧ t.cipher.keys = [] ∧ t.dram = [] ∧ t.fns = [] ∧ t.insts = []
      ∧ t.q = Queues.reset ∧ t.ash = Ash.reset ∧ t.eg = Gatherer.reset ∧ t.time.slow = s.time.slow ∧ t.time.ns = 0
      ∧ (∀ idx sub, sub < 256 → idx ≠ 0x3C11 → t.dval idx sub = dictDefault idx sub)
      ∧ (∀ sub, sub < 256 → t.dval 0x3C11 sub = s.dval 0x3C11 sub)
      ∧ t.out = s.out ++ (if s.pow.hostWake then [.pin "HOST_WAKE_N" true] else []) ∧ t.pending = s.pending)
  ∧ (∀ (r : State) (cause : Nat), cause = 3 ∨ cause = 4 →
      let s := r.peatTrigger 4 0
      let t := r.coreReset cause
      t.boot.phase = 2 ∧ t.boot.windowOpen = true ∧ t.boot.ready = false ∧ t.boot.cause = cause ∧ t.boot.code = s.boot.code
      ∧ t.boot.detail = s.boot.detail ∧ t.boot.attempts = s.boot.attempts ∧ t.boot.bootLen = s.boot.bootLen
      ∧ t.pow.st = .starting ∧ t.pow.trans = 0 ∧ t.pow.stage = 0 ∧ t.pow.mainEn = s.pow.mainEn ∧ t.pow.mainPg = s.pow.mainPg
      ∧ t.host = s.host ∧ (∀ n, (t.fn n).bme = (s.fn n).bme ∧ (t.fn n).cfg = (s.fn n).cfg ∧ (t.fn n).tags = [] ∧ (t.fn n).errlog = [])
      ∧ t.ash = s.ash ∧ t.dram = s.dram ∧ t.sealStore = s.sealStore ∧ t.insts = [] ∧ t.q = Queues.reset ∧ t.stor = Storage.reset
      ∧ t.cipher.vault = s.cipher.vault ∧ t.cipher.keys = []
      ∧ (∀ idx sub, sub < 256 → 0x3A00 ≤ idx → idx ≤ 0x3AFF → t.dval idx sub = s.dval idx sub)
      ∧ (∀ sub, sub < 256 → t.dval 0x3C11 sub = s.dval 0x3C11 sub)
      ∧ (∀ idx sub, sub < 256 → idx ≠ 0x3C11 → idx < 0x3A00 ∨ 0x3AFF < idx → t.dval idx sub = dictDefault idx sub)
      ∧ t.out = s.out ∧ t.pending = s.pending)
  ∧ (∀ (s : State) (cause : Nat), cause = 1 ∨ cause = 5 →
      (s.pow.perst = true ∨ cause = 1 →
        let t := s.mainResetStart cause
        t.pow.st = .starting ∧ t.pow.mainReset = true ∧ t.pow.nextCause = cause ∧ t.pow.heldStart = none ∧ t.pow.trans = 0
        ∧ t.boot.ready = false ∧ t.boot.windowOpen = false ∧ t.fns = [] ∧ t.insts = [] ∧ t.q = Queues.reset ∧ t.dram = []
        ∧ t.host = HostLink.reset ∧ t.sealStore = s.sealStore ∧ t.cipher.vault = s.cipher.vault ∧ t.out = s.out
        ∧ t.pow.perst = s.pow.perst ∧ t.pending = s.pending)
      ∧ (s.pow.perst = false → cause = 5 →
        let t := s.mainResetStart cause
        t.pow.st = .starting ∧ t.pow.mainReset = false ∧ t.boot.cause = 5 ∧ t.boot.phase = 0 ∧ t.boot.ready = false ∧ t.fns = []
        ∧ t.dram = [] ∧ t.sealStore = s.sealStore ∧ t.pending = s.pending))

/-- The supplies (R501, R503–R505, Table 17-4): AO power-on starts everything but the seal store and the vault, and is refused with
TEST_MODE high; a rise of MAIN_PG releases the main reset unless PERST_N holds it; a rise that does not come is tried again after 100 ms,
three times; a loss of MAIN_PG resets the main domains at once, with source byte 0x82. The supply voltage and Banked's limits (R109, R509):
a sample gives its code and millivolts of supply to the nearest, and the lowest of them; BANKED_MAX, or a low supply's hold, moves the
device on from Banked toward Ember when the ember firmware runs and the limit is set. -/
def Obligations.Supplies : Prop :=
  (∀ s : State,
      (∀ straps, exec (.aoPowerOn straps true) s = .refused .testModeHigh)
      ∧ (∀ straps, ∃ t, Does (.aoPowerOn straps false) s t ∧ t.pow.st = .starting ∧ t.pow.mainEn = true ∧ t.pow.mainPg = false
          ∧ t.pow.mainReset = true ∧ t.pow.nextCause = 0 ∧ t.pow.emberBusy = true ∧ t.pow.emberRun = false ∧ t.pow.emberSlot = 0xFF
          ∧ t.pow.straps = straps % 4 ∧ t.pow.wakeHist = [] ∧ t.time.slow = 0 ∧ t.time.ns = 0 ∧ t.boot.ready = false
          ∧ t.dget 0x3C11 1 = 0 ∧ t.dget 0x3C11 2 = 0 ∧ t.dram = [] ∧ t.fns = [] ∧ t.insts = [] ∧ t.q = Queues.reset
          ∧ t.sealStore = s.sealStore ∧ t.cipher.vault = s.cipher.vault ∧ t.out = s.out ++ [.pin "MAIN_EN" true]
          ∧ t.free = s.free ∧ t.pending = s.pending)
      ∧ (s.pow.mainEn = true → s.pow.mainPg = false →
          Does .mainPgRise s (if s.pow.perst then s.withPow fun p => { p with mainPg := true, mainTries := 0 }
            else (s.withPow fun p => { p with mainPg := true, mainTries := 0 }).resetRelease))
      ∧ (s.pow.mainEn = false ∨ s.pow.mainPg = true → Does .mainPgRise s s)
      ∧ (s.pow.mainEn = true → s.pow.mainPg = false → s.pow.mainTries ≠ 2 →
          Does .mainPgTimeout s ((s.withPow fun p => { p with mainEn := false, mainTries := p.mainTries + 1, mainRetry := true }).pin
            "MAIN_EN" false))
      ∧ (s.pow.mainEn = true → s.pow.mainPg = false → s.pow.mainTries = 2 →
          Does .mainPgTimeout s ((s.withPow fun p => { p with
            mainEn := false, mainTries := 0, mainRetry := false, st := .ember, stage := 0, trans := 0
            wakeHist := ((s.time.slow, 0x81) :: p.wakeHist).take 16 }).pin "MAIN_EN" false))
      ∧ (s.pow.mainEn = false ∨ s.pow.mainPg = true → Does .mainPgTimeout s s)
      ∧ (s.pow.mainRetry = true →
          Does .mainEnRetryExpiry s ((s.withPow fun p => { p with mainEn := true, mainRetry := false }).pin "MAIN_EN" true))
      ∧ (s.pow.mainRetry = false → Does .mainEnRetryExpiry s s)
      ∧ (s.pow.mainEn = true → s.pow.mainPg = true → ∃ t, Does .mainPgLoss s t ∧ t.pow.st = .starting ∧ t.pow.mainPg = false
          ∧ t.pow.mainEn = true ∧ t.pow.mainReset = true ∧ t.pow.nextCause = 0 ∧ t.pow.trans = 0 ∧ t.pow.stage = 0
          ∧ t.pow.wakeHist = ((s.time.slow, 0x82) :: s.pow.wakeHist).take 16 ∧ t.boot.ready = false ∧ t.boot.windowOpen = false
          ∧ t.dget 0x3C11 1 = (s.dget 0x3C11 1 + 1) % 2 ^ 32 ∧ t.host = HostLink.reset ∧ t.fns = [] ∧ t.insts = [] ∧ t.q = Queues.reset
          ∧ t.dram = [] ∧ t.sealStore = s.sealStore ∧ t.cipher.vault = s.cipher.vault ∧ t.out = s.out ∧ t.pending = s.pending)
      ∧ (s.pow.mainEn = false ∨ s.pow.mainPg = false → Does .mainPgLoss s s)
      ∧ Does .slowclk1024Cycles s (s.withPow fun p => { p with slowOk := true }))
  ∧ (∀ s : State,
      (∀ code, let c := min code 4095
          let mv := (c * 9375 + 500) / 1000
          let u := ((s.dset 0x3C01 1 c).dset 0x2102 3 mv).withPow fun p =>
            { p with vsense := mv, vsenseCode := c, vsenseLow := decide (mv < s.aoGet 0x2002 1) }
          Does (.vsenseSample code) s (if mv < s.dget 0x2102 5 then u.dset 0x2102 5 mv else u))
      ∧ (s.pow.st = .banked → s.pow.emberRun = true → s.dget 0x2001 3 ≠ 0 → Does .bankedMaxExpiry s s.bankedToEmber)
      ∧ (s.pow.st ≠ .banked ∨ s.pow.emberRun = false ∨ s.dget 0x2001 3 = 0 → Does .bankedMaxExpiry s s)
      ∧ (s.pow.st = .banked → s.pow.emberRun = true → s.dget 0x2002 1 ≠ 0 → s.pow.vsenseLow = true →
          Does .vsenseEmberHoldExpiry s s.bankedToEmber)
      ∧ (s.pow.st ≠ .banked ∨ s.pow.emberRun = false ∨ s.dget 0x2002 1 = 0 ∨ s.pow.vsenseLow = false → Does .vsenseEmberHoldExpiry s s)
      ∧ (s.bankedWake.requestCheck 3 = .ok → s.bankedToEmber = s.bankedWake.beginDrain 2)
      ∧ (s.bankedWake.requestCheck 3 ≠ .ok → s.bankedToEmber = s.bankedWake))

/-- Resets and the link (R64, R144, R176, R506, R514, R515): PERST_N asserted with valid supplies starts the device with cause 1, and a JTAG
request, permitted, with cause 5, both held while the power-fail sequence runs and counted in 0x3C11:02; released, the main reset is
released. The link comes up at x8 or x4 and opens host-wait in a start; a link lost or a hot reset acts as linkLoss gives. -/
def Obligations.ResetsAndLink : Prop :=
  ∀ s : State,
    (s.pow.mainPg = true → s.pow.mainReset = false → s.pfRuns = false →
      Does .perstNAssert s ((s.withPow fun p => { p with perst := true }).mainResetStart 1))
    ∧ (s.pow.mainPg = true → s.pow.mainReset = false → s.pfRuns = true →
      Does .perstNAssert s ((s.dinc 0x3C11 2).withPow fun p => { p with perst := true, heldStart := some 1 }))
    ∧ (s.pow.mainPg = false ∨ s.pow.mainReset = true → Does .perstNAssert s (s.withPow fun p => { p with perst := true }))
    ∧ (s.pow.mainPg = true → s.pow.mainReset = true → Does .perstNRelease s
      (s.withPow fun p => { p with perst := false, heldStart := if p.heldStart = some 1 then none else p.heldStart }).resetRelease)
    ∧ (s.pow.mainPg = false ∨ s.pow.mainReset = false → Does .perstNRelease s
      (s.withPow fun p => { p with perst := false, heldStart := if p.heldStart = some 1 then none else p.heldStart }))
    ∧ (s.debugPermitted = true → s.pow.mainPg = true → s.pow.mainReset = false → s.pfRuns = false →
      Does .resetReq s (s.mainResetStart 5))
    ∧ (s.debugPermitted = true → s.pow.mainPg = true → s.pow.mainReset = false → s.pfRuns = true →
      Does .resetReq s ((s.dinc 0x3C11 2).withPow fun p => { p with heldStart := some 5 }))
    ∧ (s.debugPermitted = false ∨ s.pow.mainPg = false ∨ s.pow.mainReset = true → Does .resetReq s s)
    ∧ (∀ width speed, s.host.up = false → width = 4 ∨ width = 8 → 1 ≤ speed → speed ≤ 5 → s.pow.mainReset = false →
        s.pow.st ≠ .off → s.pow.st ≠ .ember →
        Does (.hostLinkUp width speed) s
          ((s.withHost fun h => { h with up := true, width := width, speed := speed, aspm := .l0 }).event 32).enterHostWait)
    ∧ (∀ width speed, s.host.up = true ∨ (width ≠ 4 ∧ width ≠ 8) ∨ speed = 0 ∨ 5 < speed ∨ s.pow.mainReset = true ∨ s.pow.st = .off
        ∨ s.pow.st = .ember → Does (.hostLinkUp width speed) s s)
    ∧ (s.host.up = true → Does .hostLinkDown s ((((s.dinc 0x2300 3).event 32).withHost fun h => { h with up := false }).linkLoss))
    ∧ (s.host.up = true → Does .hotReset s ((s.dinc 0x2300 5).linkLoss))
    ∧ (s.host.up = false → Does .hostLinkDown s s ∧ Does .hotReset s s)
    ∧ (s.boot.ready = false → ∃ t, t = s.linkLoss ∧ t.host.vfEnable = false ∧ t.host.d3hot = false
        ∧ (∀ n, (t.fn n).bme = false ∧ (t.fn n).msixEn = false ∧ (t.fn n).msiEn = false) ∧ t.dict = s.dict ∧ t.q = s.q
        ∧ t.insts = s.insts ∧ t.out = s.out)

/-- The ember controller (R88–R91): a slot is valid as R88 gives; a start stops the firmware and touches no main domain; while it runs,
wakes are latched; at its end the valid slot with the higher SEQUENCE runs, slot 0 at equal ones, none with neither valid, and the latched
wakes are taken in the order in which they came. Writing the ember firmware (R90): the flash operations lie in the slot that does not hold
the running firmware, the first erases its header sector, the result of the read-back stands in 0x2203:04, and nothing else changes. -/
def Obligations.EmberController : Prop :=
  (∀ s : State,
      (∀ e, s.emberSlotValid e = true ↔ e.magicOk = true ∧ e.crcOk = true ∧ e.signatureOk = true ∧ e.sequence ≠ 0
          ∧ e.sequence < 0xFFFFFFFF ∧ ∃ k, k < 4 ∧ s.sealStore.hashes.get? k = some e.keyHash ∧ bit s.sealStore.revoked k = false)
      ∧ (s.pow.emberRun = true → Does .emberWatchdogExpiry s
          (s.withPow fun p => { p with emberBusy := true, emberRun := false, tinderHeld := none }))
      ∧ (s.pow.emberRun = false → Does .emberWatchdogExpiry s s)
      ∧ (s.pow.emberBusy = true → ∀ a b slot,
          ((s.emberSlotValid a = true ∧ (s.emberSlotValid b = true → b.sequence ≤ a.sequence)) → slot = 0) →
          ((s.emberSlotValid b = true ∧ (s.emberSlotValid a = true → a.sequence < b.sequence)) → slot = 1) →
          (s.emberSlotValid a = false ∧ s.emberSlotValid b = false → slot = 0xFF) →
          Does (.emberStartComplete a b) s (s.pow.wakesLatched.foldl (fun (x : State) w => x.wakeTake w.1 w.2.1 w.2.2)
            (s.withPow fun p => { p with
              emberBusy := false, emberRun := slot != 0xFF, emberSlot := slot
              emberSeq0 := if s.emberSlotValid a then a.sequence else 0
              emberSeq1 := if s.emberSlotValid b then b.sequence else 0, wakesLatched := [] })))
      ∧ (s.pow.emberBusy = false → ∀ a b, Does (.emberStartComplete a b) s s)
      ∧ (s.pow.emberBusy = true → ∀ src k ev, s.wakeSource src k ev = s.withPow fun p => { p with
          wakesLatched := p.wakesLatched ++ [(src, k, ev)], lastWakeLatched := setBit p.lastWakeLatched k true }))
  ∧ (∀ (s : State) (ok : Bool) (fw : Bytes), s.hearthRuns = true → s.cipher.writes = [] → s.boot.emberFw = some fw →
      ∃ l : List Out,
        Does (.emberFwWrite ok) s ((({ s with out := s.out ++ l }.dset 0x2203 5 0x40000).dset 0x2203 4 (if ok then 2 else 3)).withBoot
          fun b => { b with emberFw := none })
        ∧ l.head? = some (.nor 0x20 (s.emberTarget * 0x40000) [])
        ∧ (∀ o ∈ l, ∃ cmd a data, o = .nor cmd a data ∧ s.emberTarget * 0x40000 ≤ a ∧ a < s.emberTarget * 0x40000 + 0x40000)
        ∧ (s.pow.emberSlot = 0 → s.emberTarget = 1) ∧ (s.pow.emberSlot = 1 → s.emberTarget = 0))

/-- Host-wait and the boot window (R67, R68, R70, R76, R77, Table 3-13): open, the window takes what is written and gives it back; closed, a
write is discarded and a read gives zeros. A BOOT_GO with the key in host-wait is acted on: the ROM's first failing check returns to
host-wait with its code and one more attempt, a bundle that passes goes to the kindling. The kindling (R73, R74, R77, Table 3-17): a
manifest that breaches a rule, or a section whose measure fails, takes a core reset of cause 3 and then host-wait with FIELD_INVALID or
MEASURE_MISMATCH and one more attempt; a bundle that passes is kept for the rest of the start, with its header's version and slot, and no
byte of the boot window stays. -/
def Obligations.BundleTaken : Prop :=
  (∀ s : State, s.hostActivity.decodes 0 = true →
      (∀ off b, s.boot.windowOpen = true → s.boot.phase = 2 → Does (.bootWindowAccess (.write off b)) s
          (s.hostActivity.withBoot fun x => { x with window := x.window.writeN off (b.take (0x1000000 - off)) }))
      ∧ (∀ off len, s.boot.windowOpen = true → s.boot.phase = 2 → Does (.bootWindowAccess (.read off len)) s
          (s.hostActivity.emit (.pcieCompletion true (s.boot.window.readN off len))))
      ∧ (s.boot.windowOpen = false ∨ s.boot.phase ≠ 2 →
          (∀ off b, Does (.bootWindowAccess (.write off b)) s s.hostActivity)
          ∧ ∀ off len, Does (.bootWindowAccess (.read off len)) s (s.hostActivity.emit (.pcieCompletion true (zeros len))))
      ∧ (∀ v : Word, v.toNat / 0x10000 ≠ 0x960B ∨ bit v.toNat 0 = false ∨ s.boot.phase ≠ 2 → Does (.bootGo v) s s.hostActivity)
      ∧ (∀ v : Word, v.toNat / 0x10000 = 0x960B → bit v.toNat 0 = true → s.boot.phase = 2 →
          let b := s.boot.window.readN 0 s.boot.bootLen
          let u := s.hostActivity.withBoot fun x => { x with phase := 3, windowOpen := false, goAt := s.time.elapsed }
          Does (.bootGo v) s (match romCheck u b with
            | .error (st, d) => u.withBoot fun x => { x with
                phase := 2, windowOpen := true, code := st.code, detail := d, attempts := min 15 (x.attempts + 1), bundle := none }
            | .ok k => u.kindle b k (bit v.toNat 1))))
  ∧ (∀ (s : State) (b : Bytes) (slot : Nat) (arm : Bool),
      let u := (s.withBoot fun x => { x with phase := 4, code := 0, detail := 0 }).clockSwitch
      let es := (List.range (leAt b 18 2)).map (manifestEntry b)
      let bad := (List.range (leAt b 18 2)).find? fun i =>
        (es.getD i default).type != 7 && sha384Hash (sub b (es.getD i default).offset (es.getD i default).len) != (es.getD i default).hash
      (∀ d, manifestCheck b = some d → s.kindle b slot arm = (u.coreReset 3).imageRefusal .fieldInvalid d)
      ∧ (∀ i, manifestCheck b = none → bad = some i → s.kindle b slot arm = (u.coreReset 3).imageRefusal .measureMismatch i)
      ∧ (manifestCheck b = none → bad = none →
          let t := s.kindle b slot arm
          t.boot.phase = 5 ∧ t.boot.window = [] ∧ t.boot.code = 0 ∧ t.boot.detail = 0 ∧ t.boot.attempts = s.boot.attempts
          ∧ t.boot.bundle.map (·.slot) = some slot ∧ t.boot.bundle.map (·.sealArm) = some arm
          ∧ t.boot.bundle.map (·.securityVersion) = some (byteAt b 16)
          ∧ t.time.ns = 0 ∧ t.time.hclkNs = 0 ∧ t.sealStore = s.sealStore ∧ t.dict = s.dict ∧ t.fns = s.fns ∧ t.dram = s.dram
          ∧ t.out = s.out ∧ t.pending = s.pending))

/-- The end of a start and its failures (R82–R84, R94, Tables 3-13 and 3-17): a PLL that does not lock, or a channel that does not train, is
a core reset and INTERNAL_FAULT with its number; training done in a start with a bundle applies the seal-store commands and brings READY and
Glow with every domain on; the watchdog of the hearth restarts the core with cause 4, but not in host-wait and not while a debugger holds
the hearth. The seal-store commands of a bundle (R81, R82): none without SEAL_ARM, none when one of them fails its check, and then the
number of the first; all of them in order otherwise. -/
def Obligations.StartEnds : Prop :=
  (∀ s : State,
      (∀ p, s.boot.phase = 4 ∨ s.boot.phase = 5 →
          Does (.pllLockTimeout p) s ((s.coreReset 3).imageRefusal .internalFault (0x10 + p)))
      ∧ (∀ p, s.boot.phase ≠ 4 → s.boot.phase ≠ 5 → Does (.pllLockTimeout p) s s)
      ∧ (∀ c info, s.boot.phase = 5 → s.boot.bundle = some info →
          Does (.lpddr5TrainingDone (some c)) s ((s.coreReset 3).imageRefusal .internalFault (0x20 + c)))
      ∧ (∀ info, s.boot.phase = 5 → s.boot.bundle = some info →
          Does (.lpddr5TrainingDone none) s ((s.loadCores.sealCommands info).enterReady info))
      ∧ (∀ c, s.boot.phase ≠ 5 ∨ s.boot.bundle = none → Does (.lpddr5TrainingDone c) s s)
      ∧ (∀ info, let t := s.enterReady info
          t.boot.ready = true ∧ t.boot.phase = 7 ∧ t.boot.bundle = none ∧ t.pow.st = .glow ∧ t.pow.trans = 0 ∧ t.pow.domains = []
          ∧ t.pow.edgesKept = [] ∧ t.dget 0x2200 3 = info.securityVersion ∧ t.dget 0x2200 4 = info.slot
          ∧ t.sealStore = s.sealStore ∧ s.out <+: t.out ∧ t.pending = s.pending)
      ∧ (3 ≤ s.boot.phase → s.awake = true ∨ s.pow.st = .starting → s.dbg.hearthHalted = false →
          Does .hearthWatchdogExpiry s ((s.logCls 0 .fatal Status.internalFault.code []).coreReset 4))
      ∧ (s.boot.phase < 3 ∨ (s.awake = false ∧ s.pow.st ≠ .starting) ∨ s.dbg.hearthHalted = true → Does .hearthWatchdogExpiry s s))
  ∧ (∀ (s : State) (info : BundleInfo) (b : Bytes), info.sealCmd = some b →
      (info.sealArm = false → s.sealCommands info = s.dset 0x2202 1 Status.notInThisState.code)
      ∧ (∀ i, info.sealArm = true → sealFirstBad info s.sealStore 0 (chunksOf 64 b) = some i →
          s.sealCommands info = (s.dset 0x2202 1 Status.fieldInvalid.code).dset 0x2202 2 i)
      ∧ (info.sealArm = true → sealFirstBad info s.sealStore 0 (chunksOf 64 b) = none →
          s.sealCommands info = { s with sealStore := (chunksOf 64 b).foldl Seal.apply s.sealStore }
          ∧ (∀ c ∈ chunksOf 64 b, 1 ≤ byteAt c 0 ∧ byteAt c 0 ≤ 4 ∧ allZero (sub c 2 14) = true)
          ∧ (chunksOf 64 b ≠ [] → (∀ c ∈ chunksOf 64 b, byteAt c 0 = 1 ∨ byteAt c 0 = 2) →
              (s.sealCommands info).sealStore.hasLive = true)))

/-- The seal store moves in one direction only, and by one command only (R79): every command but LPDDR5_TRAINING_DONE leaves it as it is,
and that one changes it by the seal-store commands of an accepted bundle alone, in their order; no revoked slot returns, neither the minimum
version nor the lifecycle falls, no programmed hash changes. -/
def Obligations.SealStoreGuarded : Prop :=
  ∀ (c : Instr) (s t : State), exec c s = .next t →
    ((∀ f, c ≠ .lpddr5TrainingDone f) → t.sealStore = s.sealStore) ∧ Seal.Forward s.sealStore t.sealStore
    ∧ (t.sealStore = s.sealStore ∨ ∃ info b, c = .lpddr5TrainingDone none ∧ s.boot.phase = 5 ∧ s.boot.bundle = some info
        ∧ info.sealCmd = some b ∧ info.sealArm = true ∧ t.sealStore = (chunksOf 64 b).foldl Seal.apply s.sealStore)

/-- The requests for a power state (R95, R96): a write of 0x2000:02 that R96 refuses answers NOT_IN_THIS_STATE and changes nothing; one that
passes starts the move as requestStart gives and answers OK; a request for the present state changes nothing; from Blaze the device is in
Glow before a drain begins. The ignition line falls (R112, R139): event 9 in Blaze and Glow, never a wake; the energy count starts again;
the timer runs when IGN_OFF_ACTION is set and its end makes the firmware's own request, which a refusal repeats; the energy allowance,
reached, raises event 24 once. -/
def Obligations.PowerRequests : Prop :=
  (∀ (who : Requester) (s : State),
      (∀ (c : Instr) (v : Nat), (c = .requestBlaze who ∧ v = 0) ∨ (c = .requestGlow who ∧ v = 1) ∨ (c = .requestBanked who ∧ v = 2)
          ∨ (c = .requestEmber who ∧ v = 3) →
        let r := writeOf who 0x2000 2 v
        let u := s.taken r
        s.Asks r → u.Accepts r →
          (u.requestCheck v = .ok → Answers c s r .ok [] (u.requestStart v))
          ∧ (u.requestCheck v ≠ .ok → u.requestCheck v = .notInThisState ∧ Answers c s r .notInThisState [] u))
      ∧ (s.requestCheck 0 = .ok ∧ s.requestCheck 1 = .ok)
      ∧ (∀ v, v = 2 ∨ v = 3 → s.kilnOpenAny = true ∨ s.evidenceBusy = true → s.requestCheck v = .notInThisState)
      ∧ (s.pow.emberRun = false ∨ s.pow.emberBusy = true → s.requestCheck 3 = .notInThisState)
      ∧ (s.pow.st = .blaze → s.requestStart 0 = s)
      ∧ (s.pow.st = .glow → s.requestStart 1 = s)
      ∧ (s.pow.st = .blaze → s.requestStart 1 =
          (((s.withPow fun p => { p with st := .glow }).event 17).withPow fun p => { p with trans := 0, stage := 0, egressDraining := false }).dset
            0x2000 4 Status.ok.code)
      ∧ (∀ v, v = 2 ∨ v = 3 → s.pow.st = .blaze →
          s.requestStart v = ((s.withPow fun p => { p with st := .glow }).event 17).zeludLeave.withPow fun p =>
            { p with trans := v - 1, stage := 1, egressDraining := true })
      ∧ (∀ v, v = 2 ∨ v = 3 → s.pow.st = .glow →
          s.requestStart v = s.zeludLeave.withPow fun p => { p with trans := v - 1, stage := 1, egressDraining := true }))
  ∧ (∀ s : State,
      let u := ((s.withPow fun p => { p with ign := false }).dset 0x2106 1 0).withDamper fun d => { d with ignCounting := true, ignReached := false }
      (s.pow.st = .blaze ∨ s.pow.st = .glow → s.dget 0x2001 1 = 0 → Does .ignFall s (u.event 9))
      ∧ (s.pow.st = .blaze ∨ s.pow.st = .glow → s.dget 0x2001 1 ≠ 0 → Does .ignFall s ((u.event 9).withPow fun p => { p with ignTimer := true }))
      ∧ (s.pow.st = .starting → Does .ignFall s (u.withPow fun p => { p with edgesKept := p.edgesKept ++ [9] }))
      ∧ (s.pow.st = .off ∨ s.pow.st = .banked ∨ s.pow.st = .ember → Does .ignFall s u)
      ∧ (s.pow.ignTimer = true → Does .ignOffTimerExpiry s (s.withPow fun p => { p with ignTimer := false }).firmwareRequest)
      ∧ (s.pow.ignTimer = false → Does .ignOffTimerExpiry s s)
      ∧ (s.pow.ignRetry = true → Does .ignOffRetryExpiry s s.firmwareRequest)
      ∧ (s.pow.ignRetry = false → Does .ignOffRetryExpiry s s)
      ∧ (s.awake = true → s.dget 0x2106 2 ≠ 0 → s.dget 0x2106 2 * 1000000 ≤ s.dget 0x2106 1 → s.damper.ignCounting = true →
          s.damper.ignReached = false →
          let v := (s.event 24).withDamper fun d => { d with ignReached := true }
          Does .ignOffAllowanceReached s (if s.dget 0x2106 3 = 1 then v.firmwareRequest else v))
      ∧ (s.awake = false ∨ s.dget 0x2106 2 = 0 ∨ s.dget 0x2106 1 < s.dget 0x2106 2 * 1000000 ∨ s.damper.ignCounting = false
          ∨ s.damper.ignReached = true → Does .ignOffAllowanceReached s s)
      ∧ (∀ v, s.dget 0x2001 1 = v → v ≠ 0 → s.live = true → s.pow.trans ≠ 0 ∨ s.dbg.hearthHalted = true →
          s.firmwareRequest = s.withPow fun p => { p with ignWaiting := true })
      ∧ (∀ v, s.dget 0x2001 1 = v → v ≠ 0 → s.live = true → s.pow.trans = 0 → s.dbg.hearthHalted = false → s.requestCheck v = .ok →
          s.firmwareRequest = (s.withPow fun p => { p with ignRetry := false, ignWaiting := false }).requestStart v)
      ∧ (∀ v, s.dget 0x2001 1 = v → v ≠ 0 → s.live = true → s.pow.trans = 0 → s.dbg.hearthHalted = false → s.requestCheck v ≠ .ok →
          s.firmwareRequest = s.withPow fun p => { p with ignRetry := true, ignWaiting := false }))

/-- The way to Banked and Ember (R104, R107, R274, Tables 4-6 and 4-8): a drain that is complete stops the clocks for Banked, or for Ember
shuts the SSDs down, and MAIN_EN falls when the last has reported or the time is up; a drain that is not complete in time ends with
NOT_DRAINED; frames left after 1 ms are dropped; a wake kept after MAIN_PG has been low for 10 ms starts the exit. What Banked and Ember
leave, and the ways back (R29, R103, R105, R108, R119, Tables 4-5, 4-7 and 4-8): Banked keeps LPDDR5, the keys and the queues' commands and
notes the counts at which the clocks stopped; Ember keeps the copies of 0x2001–0x2003, the seal store and the vault and nothing of the main
domains; a wake from Banked advances domain time by the slow ticks and returns to Glow; a wake from Ember drives HOST_WAKE_N low and MAIN_EN
high with its source and cause 2 kept for the start. -/
def Obligations.SleepStates : Prop :=
  (∀ s : State,
      (s.pow.stage = 1 → s.commandsInFlight = false → s.l12Possible = true → s.pow.trans = 1 →
          Does .drainComplete s s.enterBanked)
      ∧ (s.pow.stage = 1 → s.commandsInFlight = false → s.l12Possible = true → s.pow.trans ≠ 1 →
          let v := s.dropEgressFrames.hostLinkL12
          let u := (v.attachedSsds.foldl (fun (x : State) p => x.emit (.nvme p 0 0x100 0 0 0 [])) v).withPow
            fun p => { p with stage := 2, ssdWait := v.attachedSsds, egressDraining := false }
          Does .drainComplete s (if v.attachedSsds = [] then u.emberOff else u))
      ∧ (s.pow.stage ≠ 1 ∨ s.commandsInFlight = true ∨ s.l12Possible = false → Does .drainComplete s s)
      ∧ (s.pow.stage = 1 → Does .drainTimeout s ((s.zeludReturn.withPow fun p => { p with trans := 0, stage := 0, egressDraining := false }).dset
            0x2000 4 Status.notDrained.code))
      ∧ (s.pow.stage ≠ 1 → Does .drainTimeout s s)
      ∧ (s.pow.stage = 1 → s.pow.egressDraining = true →
          Does .egressDrainExpiry s (s.dropEgressFrames.withPow fun p => { p with egressDraining := false }))
      ∧ (s.pow.stage ≠ 1 ∨ s.pow.egressDraining = false → Does .egressDrainExpiry s s)
      ∧ (∀ p, s.pow.stage = 2 → p ∈ s.pow.ssdWait →
          let u := s.withPow fun x => { x with ssdWait := x.ssdWait.filter (· != p) }
          Does (.ssdShutdownComplete p) s (if u.pow.ssdWait = [] then u.emberOff else u))
      ∧ (∀ p, s.pow.stage ≠ 2 ∨ p ∉ s.pow.ssdWait → Does (.ssdShutdownComplete p) s s)
      ∧ (s.pow.stage = 2 → Does .ssdShutdownTimeout s s.emberOff)
      ∧ (s.pow.stage ≠ 2 → Does .ssdShutdownTimeout s s)
      ∧ (s.pow.mainEn = false → Does .mainPgFall s
          (s.withPow fun p => { p with mainPg := false, stage := if p.stage = 3 then 4 else p.stage }))
      ∧ (s.pow.mainEn = true → Does .mainPgFall s s)
      ∧ (s.pow.st = .ember → s.pow.stage = 4 → s.pow.wakeKept = false →
          Does .emberWakeHoldExpiry s (s.withPow fun p => { p with stage := 0, trans := 0 }))
      ∧ (s.pow.st = .ember → s.pow.stage = 4 → s.pow.wakeKept = true →
          Does .emberWakeHoldExpiry s ((s.withPow fun p => { p with stage := 0, trans := 0 }).emberWake s.boot.wakeSrc))
      ∧ (s.pow.st ≠ .ember ∨ s.pow.stage ≠ 4 → Does .emberWakeHoldExpiry s s))
  ∧ (∀ s : State,
      (let t := s.enterBanked;
        t.pow.st = .banked ∧ t.pow.trans = 0 ∧ t.pow.stage = 0 ∧ t.pow.egressDraining = false ∧ t.pow.bankedSlow = t.time.slow
        ∧ t.time.stopNs = t.time.ns ∧ t.time.stopSlow = t.time.slow ∧ t.sealStore = s.sealStore ∧ t.pending = s.pending)
      ∧ (let t := s.emberOff;
        t.pow.st = .ember ∧ t.pow.stage = 3 ∧ t.pow.mainEn = false ∧ t.pow.mainReset = true ∧ t.boot.ready = false ∧ t.dram = []
        ∧ t.fns = [] ∧ t.insts = [] ∧ t.q = Queues.reset ∧ t.host = HostLink.reset ∧ t.cipher.vault = s.cipher.vault ∧ t.cipher.keys = []
        ∧ t.sealStore = s.sealStore ∧ t.time.slow = s.time.slow ∧ t.out = s.out ++ [.pin "MAIN_EN" false] ∧ t.pending = s.pending
        ∧ ∀ idx sub, 0x2001 ≤ idx → idx ≤ 0x2003 → sub < 256 → t.aoGet idx sub = s.dget idx sub)
      ∧ (∀ el, el = (s.time.slow - s.time.stopSlow) * 1953125 / 64 → s.bankedWake =
          (((((s.withTime fun x => { x with ns := x.stopNs + el }).withPow fun p => { p with st := .glow, trans := 0, stage := 0 }).dset
            0x2000 8 el).dset 0x2000 4 Status.ok.code).event 17).peatResume.damperFresh.zeludReturn.hostLinkL0)
      ∧ (∀ src, let t := s.emberWake src;
        t.pow.mainEn = true ∧ t.pow.hostWake = true ∧ t.pow.nextCause = 2 ∧ t.pow.wakeKept = false ∧ t.pow.mainTries = 0
        ∧ t.boot.wakeSrc = src ∧ t.out = s.out ++ [.pin "HOST_WAKE_N" false, .pin "MAIN_EN" true] ∧ t.dict = s.dict ∧ t.time = s.time))

/-- The wake sources (R84, R91, R105, R107, R110, Table 4-9): always latched; with the ember controller starting they are held for it; in
Blaze and Glow they raise their event; a drain's first step is abandoned with WAKE_PENDING; in Banked and Ember the enabled ones wake;
before READY the event is kept. -/
def Obligations.WakeSources : Prop :=
  ∀ (s : State) (src k ev : Nat), s.pow.emberBusy = false →
    let u := s.withPow fun p => { p with lastWakeLatched := setBit p.lastWakeLatched k true }
    (s.pow.st = .off → s.wakeSource src k ev = u)
    ∧ (s.pow.st = .starting → s.wakeSource src k ev = u.withPow fun p => { p with edgesKept := p.edgesKept ++ [ev] })
    ∧ (s.pow.st = .blaze ∨ s.pow.st = .glow → s.pow.stage = 0 → s.wakeSource src k ev = u.event ev)
    ∧ (s.pow.st = .glow → s.pow.stage = 1 → bit (u.aoGet 0x2003 1) k = true →
        s.wakeSource src k ev = (u.wakeReport src).entryAbandoned .wakePending)
    ∧ (s.pow.st = .glow → s.pow.stage = 1 ∨ s.pow.stage = 2 → bit (u.aoGet 0x2003 1) k = false → s.wakeSource src k ev = u)
    ∧ (s.pow.st = .banked → s.wakeSource src k ev = if bit (u.aoGet 0x2003 1) k then (u.wakeReport src).bankedWake else u)
    ∧ (s.pow.st = .ember → bit (u.aoGet 0x2003 1) k = false → s.wakeSource src k ev = u)
    ∧ (s.pow.st = .ember → bit (u.aoGet 0x2003 1) k = true → s.pow.mainEn = false → s.pow.stage = 0 →
        s.wakeSource src k ev = (u.wakeReport src).emberWake src)
    ∧ (∀ pin, Does (.wakeEdge pin) s ((s.withPow fun p =>
        { p with wakePins := setBit p.wakePins (pin % 4) (bit (s.aoGet 0x2003 2) (pin % 4)) }).wakeSource 2 (1 + pin % 4) (10 + pin % 4)))
    ∧ (s.aoGet 0x2003 4 ≠ 0 → Does .wakeAlarm s (s.wakeSource 4 7 15))
    ∧ (s.aoGet 0x2003 4 = 0 → Does .wakeAlarm s s)
    ∧ Does .ignRise s (((s.withPow fun p => { p with ign := true, ignTimer := false, ignRetry := false, ignWaiting := false }).withDamper
        fun d => { d with ignCounting := false }).wakeSource 3 5 8)
    ∧ (∀ rd, s.pow.st ≠ .off → Does (.tinderAddressMatch (0x58 + s.pow.straps) rd) s
        (((s.withPow fun p => { p with tinderHeld := some rd, tinderAt := s.time.elapsed, tinderRefused := false }).dinc 0x2004 2).wakeSource
          1 0 14))
    ∧ (∀ a rd, a ≠ 0x58 + s.pow.straps ∨ s.pow.st = .off → Does (.tinderAddressMatch a rd) s s)

/-- The Tinder port's transfers (R113–R115): taken once the ember firmware runs, a read gives the registers from the pointer on, which
advances past each byte modulo 256; at the stretch limit SCL is released, a read byte gives 0xFF, and what is written to the transfer counts
for nothing; a write sets the pointer, and of its data only WAKE_LATCHED takes any: bits written 1 are cleared. -/
def Obligations.TinderTransfers : Prop :=
  ∀ s : State,
    (∀ n, s.pow.tinderHeld = some true → s.pow.emberRun = true → s.pow.emberBusy = false →
        let u := s.tinderStretch.withPow fun p => { p with tinderHeld := none }
        Does (.tinderTransferTaken n) s ((u.emit (.tinder ((List.range n).map fun i =>
          BitVec.ofNat 8 (s.tinderReg ((s.pow.tinderPtr + i) % 256))))).withPow fun p => { p with tinderPtr := (p.tinderPtr + n) % 256 }))
    ∧ (∀ n, s.pow.tinderHeld = some false → s.pow.emberRun = true → s.pow.emberBusy = false →
        Does (.tinderTransferTaken n) s (s.tinderStretch.withPow fun p => { p with tinderHeld := none }))
    ∧ (∀ n, s.pow.tinderHeld = none ∨ s.pow.emberRun = false ∨ s.pow.emberBusy = true → Does (.tinderTransferTaken n) s s)
    ∧ (∀ rd, s.pow.tinderHeld = some rd →
        let u := (s.dmax 0x2004 3 300).withPow fun p => { p with tinderHeld := none, tinderRefused := true }
        Does .tinderStretchLimit s (if rd then u.emit (.tinder [0xFF]) else u))
    ∧ (s.pow.tinderHeld = none → Does .tinderStretchLimit s s)
    ∧ (∀ ptr : Byte, s.pow.emberRun = true → s.pow.emberBusy = false → s.pow.tinderRefused = false →
        Does (.tinderRegisterWrite [ptr]) s (s.withPow fun p => { p with tinderPtr := ptr.toNat }))
    ∧ (∀ (ptr b : Byte), s.pow.emberRun = true → s.pow.emberBusy = false → s.pow.tinderRefused = false →
        Does (.tinderRegisterWrite [ptr, b]) s (s.withPow fun p => { p with
          tinderPtr := (ptr.toNat + 1) % 256
          lastWakeLatched := if ptr = 3 then p.lastWakeLatched - (p.lastWakeLatched &&& b.toNat) else p.lastWakeLatched }))
    ∧ (∀ data, s.pow.emberRun = false ∨ s.pow.emberBusy = true ∨ s.pow.tinderRefused = true ∨ data = [] →
        Does (.tinderRegisterWrite data) s s)

/-- The power domains (R99–R101, Tables 4-3, 4-4 and 4-13): a power-up starts for the domain whose turn it is, and ends usable with its
count raised, or off with event 16 and its waiting work ended; a power-down begins when the hysteresis is over, of KILN only with its
staging store empty, and ends off, or powering up again where a vote has come; a manager's vote is a write of the domain's entry. Domains
follow their votes in Glow alone (R98, R100, R101): with the last vote gone an on domain is in hysteresis with the time as it stands, a vote
cancels the drop, a failed power-up is forgotten with its vote; in Blaze none moves. -/
def Obligations.DomainsMove : Prop :=
  (∀ (s : State) (d : Nat),
      (s.pow.st = .glow → s.nextPowerUp = some d → Does (.domainPowerUpStart d) s (s.setDom d ⟨1, 0, false⟩))
      ∧ (s.pow.st ≠ .glow ∨ s.nextPowerUp ≠ some d → Does (.domainPowerUpStart d) s s)
      ∧ (s.nextPowerUp = some d → fixedDomain d = false ∧ d < 14 ∧ (s.dom d).st = 0 ∧ s.votes d ≠ 0 ∧ (s.dom d).failed = false)
      ∧ (∀ ok, (s.dom d).st = 1 → Does (.domainPowerGood d ok) s
          (((s.setDom d ⟨2, 0, false⟩).dinc (0x2010 + d) 5).domainPoweredUp d ok))
      ∧ (∀ ok, (s.dom d).st ≠ 1 → Does (.domainPowerGood d ok) s s)
      ∧ ((s.dom d).st = 1 → Does (.domainPowerGoodTimeout d) s
          (((s.setDom d ⟨0, 0, true⟩).eventLog 16 .critical Status.internalFault.code []).domainFailed d))
      ∧ ((s.dom d).st ≠ 1 → Does (.domainPowerGoodTimeout d) s s)
      ∧ (s.pow.st = .glow → (s.dom d).st = 3 → d ≠ domKILN ∨ s.stagingEmpty = true →
          Does (.hysteresisExpiry d) s ((s.setDom d ⟨4, 0, false⟩).domainLost d))
      ∧ (s.pow.st ≠ .glow ∨ (s.dom d).st ≠ 3 ∨ (d = domKILN ∧ s.stagingEmpty = false) → Does (.hysteresisExpiry d) s s)
      ∧ ((s.dom d).st = 4 → Does (.domainPowerDownDone d) s (s.setDom d ⟨if s.votes d ≠ 0 then 1 else 0, 0, false⟩))
      ∧ ((s.dom d).st ≠ 4 → Does (.domainPowerDownDone d) s s)
      ∧ (∀ who v, d < 14 → v < 2 ^ 32 → let r := writeOf who (0x2010 + d) 2 v
          s.Asks r → (s.taken r).Accepts r → Answers (.managerVote who d v) s r .ok [] ((s.taken r).dset (0x2010 + d) 2 v)))
  ∧ (∀ (s : State) (d : Nat),
      ((s.dom d).st = 2 → s.votes d = 0 → s.domainSettle d = s.setDom d ⟨3, s.dget (0x2010 + d) 3, false⟩)
      ∧ ((s.dom d).st = 2 → s.votes d ≠ 0 → s.domainSettle d = s)
      ∧ ((s.dom d).st = 3 → s.votes d = 0 → s.domainSettle d = s)
      ∧ ((s.dom d).st = 3 → s.votes d ≠ 0 → s.domainSettle d = s.setDom d ⟨2, 0, false⟩)
      ∧ ((s.dom d).st = 1 ∨ (s.dom d).st = 4 → (s.dom d).failed = false → s.domainSettle d = s)
      ∧ (s.pow.st ≠ .glow → s.domainsSettle = s))

/-- A tick of the damper (R117, R118, R120, R131, R133): outside Blaze and Glow, or before READY, none; else the tick's operation, whose
budget is the least of the three limits, the one listed first at equal ones. The ladder at a tick (R131, R133): forced, it stands; at step 8
with the evidence draw within its floor it goes to 7; else it climbs one step when the level is below a quarter of the depth, the net was
negative and the response time has passed, to step 8 only while the evidence draw exceeds the floor; else it stays. A move of the ladder, a
hold's end, a cap's release, a port's partner, a meter that is silent, a forced step and a snapshot (R128, R130–R133, R137, Table 5-7). -/
def Obligations.Damper : Prop :=
  (∀ (s : State) (i : TickInput),
      (s.awake = true → s.boot.ready = true → Does (.damperTick i) s (s.damperTickOp i))
      ∧ (s.awake = false ∨ s.boot.ready = false → Does (.damperTick i) s s)
      ∧ (∀ tj, let p := s.dget 0x2100 1
          let th := s.thermalLimit tj
          let su := if s.damper.supplyLow then s.dget 0x2102 2 else p
          (s.budgetOf tj).1 = min p (min th su)
          ∧ ((s.budgetOf tj).2 = 0 ↔ p ≤ th ∧ p ≤ su)
          ∧ ((s.budgetOf tj).2 = 1 ↔ (th < p ∨ su < p) ∧ th ≤ su)
          ∧ (s.budgetOf tj).2 ≤ 2)
      ∧ (∀ tj : Int, tj ≤ s.dget 0x2103 1 * 1000 → s.thermalLimit tj = s.dget 0x2100 1)
      ∧ (∀ tj : Int, (s.dget 0x2103 1 * 1000 : Int) < tj → (s.dget 0x2103 2 * 1000 : Int) ≤ tj →
          s.thermalLimit tj = s.dget 0x2101 1 + s.dget 0x2101 2))
  ∧ (∀ s : State,
      let k := s.ladder
      let past := decide (s.dget 0x2101 1 < s.evidenceDraw)
      let ready := decide (s.damper.level * 4 < (s.dget 0x2100 2 * 100 : Int)) && s.damper.negative
        && decide (stepResponse k ≤ s.damper.since + (if k = 0 then 1 else 0))
      (s.dget 0x2100 0x0B ≠ 0 → s.ladderStep = s)
      ∧ (s.dget 0x2100 0x0B = 0 → k = 8 → past = false → s.ladderStep = s.ladderMove 7 false)
      ∧ (s.dget 0x2100 0x0B = 0 → k = 8 → past = true → s.ladderStep = s)
      ∧ (s.dget 0x2100 0x0B = 0 → k < 7 → ready = true → s.ladderStep = s.ladderMove (k + 1) true)
      ∧ (s.dget 0x2100 0x0B = 0 → k = 7 → past = true → ready = true → s.ladderStep = s.ladderMove 8 true)
      ∧ (s.dget 0x2100 0x0B = 0 → k = 7 → past = false → s.ladderStep = s)
      ∧ (s.dget 0x2100 0x0B = 0 → k < 8 → ready = false → s.ladderStep = s))
  ∧ (∀ s : State,
      (∀ k climb, s.ladderMove k climb = (((((s.dset 0x2100 5 k).dmax 0x2100 6 k).withDamper fun d =>
          { d with since := if climb then 0 else d.since, holding := if climb then d.holding else false }).eventLog
            (if climb then 18 else 19) .notice 0x8002 (leBytes 1 k ++ zeros 3 ++ leBytes 4 (s.damper.budget / 100))).portsCheck))
      ∧ (s.awake = true → s.damper.holding = true → 0 < s.ladder → s.ladder < 8 → s.dget 0x2100 0x0B = 0 → s.dbg.hearthHalted = false →
          Does .descentHoldExpiry s (s.ladderMove (s.ladder - 1) false))
      ∧ (s.awake = false ∨ s.damper.holding = false ∨ s.ladder = 0 ∨ 8 ≤ s.ladder ∨ s.dget 0x2100 0x0B ≠ 0 ∨ s.dbg.hearthHalted = true →
          Does .descentHoldExpiry s s)
      ∧ (∀ n c, s.damper.caps.get? n = some c → c.acting = true → c.below = true →
          Does (.capReleaseHoldExpiry n) s (s.withDamper fun d => { d with caps := d.caps.put n { c with acting := false } }))
      ∧ (∀ n, (s.damper.caps.getD n ⟨[], false, false⟩).acting = false ∨ (s.damper.caps.getD n ⟨[], false, false⟩).below = false →
          Does (.capReleaseHoldExpiry n) s s)
      ∧ (∀ p, 2 ≤ s.ladder → Does (.shedPortSearch p true) s
          ((s.withDamper fun d => { d with partner := d.partner.put p () }).portsCheck))
      ∧ (∀ p b, s.ladder < 2 ∨ b = false → Does (.shedPortSearch p b) s s)
      ∧ (∀ d, s.awake = true → s.damper.lost.get? d = none → Does (.meterSampleTimeout d) s
          ((s.withDamper fun x => { x with lost := x.lost.put d () }).logCls 1 .error 0x800D (leBytes 1 d)))
      ∧ (∀ d, s.awake = false ∨ (s.damper.lost.get? d).isSome = true → Does (.meterSampleTimeout d) s s)
      ∧ (∀ who v, v < 256 → let r := writeOf who 0x2100 0x0B v
          let u := s.taken r
          s.Asks r → u.Accepts r → Answers (.forceStep who v) s r .ok []
            (if v = 0 then (u.dset 0x2100 0x0B 0).logCls 1 .warning 0x8003 (leBytes 1 0)
             else (((((u.dset 0x2100 0x0B v).logCls 1 .warning 0x8003 (leBytes 1 v)).dset 0x2100 5 v).dmax 0x2100 6 v).withDamper fun d =>
               { d with since := 0, holding := false }).portsCheck))
      ∧ (∀ who v, let r := writeOf who 0x2105 5 v
          let u := s.taken r
          s.Asks r → u.Accepts r → Answers (.snapshot who v) s r .ok []
            ((((u.dset 0x2105 6 u.time.ns).dset 0x2105 7 (u.dget 0x2105 1)).dset 0x2105 8 (u.dget 0x2105 2)).dset 0x2105 9 (u.dget 0x2104 0x0F))))

/-- The thermal trip and the power-fail warning (R84, R135, R303–R305, Table 10-11): a trip notes source 0x80 and acts as PFAIL; 2 ms after
it MAIN_EN falls without a drain; PFAIL starts the sequence after READY in Blaze and Glow, unless one has stopped the device already; the
bound passed fires event 169 once; released for 10 ms after the sequence, the stops end with event 171. -/
def Obligations.PowerFail : Prop :=
  ∀ s : State,
    (s.pow.st ≠ .off → Does .thermalTrip s ((s.withPow fun p => { p with
        wakeHist := ((s.time.slow, 0x80) :: p.wakeHist).take 16, thermalTrip := true }).pfailTaken))
    ∧ (s.pow.st = .off → Does .thermalTrip s s)
    ∧ (s.pow.thermalTrip = true → Does .thermalTripShutdown s (s.emberOff.withPow fun p => { p with thermalTrip := false }))
    ∧ (s.pow.thermalTrip = false → Does .thermalTripShutdown s s)
    ∧ (s.kiln.stopped = false → s.boot.ready = true → s.awake = true →
        Does .pfail s ((s.withKiln fun k => { k with pfail := true }).pfStart.linksDown))
    ∧ (s.kiln.stopped = true ∨ s.boot.ready = false ∨ s.awake = false → Does .pfail s (s.withKiln fun k => { k with pfail := true }))
    ∧ Does .pfailRelease s (s.withKiln fun k => { k with pfail := false })
    ∧ (s.kiln.pf.isSome = true → s.kiln.pfBound = false →
        Does .pfSequenceBoundExpiry s ((s.event 169).withKiln fun k => { k with pfBound := true }))
    ∧ (s.kiln.pf = none ∨ s.kiln.pfBound = true → Does .pfSequenceBoundExpiry s s)
    ∧ (s.kiln.stopped = true → s.kiln.pf = none → s.kiln.pfail = false → s.awake = true →
        Does .pfailReleaseExpiry s ((s.withKiln fun k => { k with stopped := false }).event 171))
    ∧ (s.kiln.stopped = false ∨ s.kiln.pf.isSome = true ∨ s.kiln.pfail = true ∨ s.awake = false → Does .pfailReleaseExpiry s s)

/-- Bus mastering (R171, R172, R177): cleared, event 33, the function's count of losses, and its fetches and commands that need the host
end; set, event 33, a hold of the function ends, and where the function may master again what it held goes out, completions first.
Function-level resets (R151, R152, R173–R175, R177, R178, R235): an FLR of an enabled VF begins with its cause, PF0's with every enabled VF
and the SR-IOV capability, VF Enable's fall with every enabled VF; what an absent instance's reset clears is only its registers; the end of
the quiesce fences a VF's instance, with the cause, event 35 and a Notice entry, and leaves instance 0 in its state. -/
def Obligations.BusMasteringAndResets : Prop :=
  (∀ (s : State) (n : Nat),
      ((s.fn n).bme = true → Does (.busMasterEnableClear n) s
          ((((s.withFn n fun x => { x with bme := false }).event 33).dinc (0x2340 + n) 2).loseAccess n))
      ∧ ((s.fn n).bme = false → Does (.busMasterEnableClear n) s s)
      ∧ ((s.fn n).bme = false → s.host.up = true → s.fnPresent n = true →
          Does (.busMasterEnableSet n) s (((s.withFn n fun x => { x with bme := true, hold := false }).event 33).resumeFn n))
      ∧ ((s.fn n).bme = true ∨ s.host.up = false ∨ s.fnPresent n = false → Does (.busMasterEnableSet n) s s)
      ∧ (s.canMaster n = true ↔ (s.fn n).bme = true ∧ s.host.d3hot = false ∧ s.host.up = true ∧ s.fnPresent n = true)
      ∧ (s.canMaster n = false → s.resumeFn n = s)
      ∧ (∀ q p c, s.canMaster n = false → s.cq? n q = some c → c.held = [] → c.share.length < c.reserve →
          ((s.cqPost n q p).cq? n q).map (·.share) = some (c.share ++ [{ p with holder := none }])))
  ∧ (∀ s : State,
      (∀ n, n ≠ 0 → s.fnPresent n = true → Does (.functionLevelReset n) s (s.flrBegin n 1))
      ∧ (∀ n, n = 0 ∨ s.fnPresent n = false → Does (.functionLevelReset n) s s)
      ∧ Does .pf0FunctionLevelReset s
          ((((upFrom 1 s.numVfs).foldl (fun (x : State) n => x.flrBegin n 4) s).flrBegin 0 4).withHost fun h =>
            { h with vfEnable := false, d3hot := false })
      ∧ (s.host.vfEnable = true → Does .vfEnableClear s
          (((upFrom 1 s.numVfs).foldl (fun (x : State) n => x.flrBegin n 5) s).withHost fun h => { h with vfEnable := false }))
      ∧ (s.host.vfEnable = false → Does .vfEnableClear s s)
      ∧ (s.host.up = true → s.host.vfEnable = false →
          let u := s.withHost fun h => { h with vfEnable := true }
          let v := ((upFrom 1 63).filter fun n => (u.fn n).hold && decide (u.numVfs < n)).foldl (fun (x : State) n => x.flrBegin n 3) u
          Does .vfEnableSet s (((upFrom 1 v.numVfs).filter fun n => (v.fn n).hold && (v.fn n).bme).foldl
            (fun (x : State) n => (x.withFn n fun y => { y with hold := false }).resumeFn n) v))
      ∧ (∀ u : State, (∀ n, (u.fn n).hold = false) → ((upFrom 1 63).filter fun n => (u.fn n).hold && decide (u.numVfs < n)) = [])
      ∧ (s.host.up = false ∨ s.host.vfEnable = true → Does .vfEnableSet s s)
      ∧ (∀ n cause, n ≠ 0 → (s.inst n).st = .fenced ∨ (s.fn n).flr.isSome = true → s.flrBegin n cause = s)
      ∧ (∀ n cause, (s.inst n).st ≠ .absent → (n ≠ 0 → (s.inst n).st ≠ .fenced ∧ (s.fn n).flr = none) →
          ((s.flrBegin n cause).fn n).flr = some cause)
      ∧ (∀ n, (s.fn n).flr = none → Does (.flrQuiesceComplete n) s s)
      ∧ (∀ cause, (s.fn 0).flr = some cause → s.hearthRuns = true → Does (.flrQuiesceComplete 0) s
          ((((s.withFn 0 fun x => { x with flr := none }).quiesceGroups 0).locksRelease 0).eventLog 35 .notice 0x8007 [0]))
      ∧ (∀ n cause, n ≠ 0 → n < 64 → (s.fn n).flr = some cause →
          let u := ((s.withFn n fun x => { x with flr := none }).quiesceGroups n).locksRelease n
          (u.inst n).st ≠ .absent → Does (.flrQuiesceComplete n) s
            ((((u.instTo n .fenced).dset (blk n 0x10) 3 cause).quiesceEnd n .ok).eventLog 35 .notice 0x8007 (leBytes 1 n))))

/-- The link's states and messages (R156–R159, R176, R178): D3hot stops every function that masters, D0 lets them resume; the idle times
take the link into L0s and L1 where they are enabled, L1 only with no request outstanding, and send one LTR message with both requirement
bits clear; an expired hold fences the holding instances and counts. Vectors (R153–R155): enabling MSI-X, MSI of PF0, or clearing a vector's
mask sends a message for each pending vector that may now go, the lowest first, and clears its pending bit; a raised vector goes at once
where the function masters and it is not masked, and is pending else. -/
def Obligations.LinkStatesAndVectors : Prop :=
  (∀ s : State,
      (s.host.d3hot = false → Does .powerStateD3hot s ((List.range (s.numVfs + 1)).foldl
          (fun (x : State) n => if (x.fn n).bme then x.loseAccess n else x) (s.withHost fun h => { h with d3hot := true })))
      ∧ (s.host.d3hot = true → Does .powerStateD3hot s s)
      ∧ (s.host.d3hot = true → Does .powerStateD0 s ((List.range (s.numVfs + 1)).foldl (fun (x : State) n => x.resumeFn n)
          (s.withHost fun h => { h with d3hot := false })))
      ∧ (s.host.d3hot = false → Does .powerStateD0 s s)
      ∧ (s.host.up = true → s.host.aspm = .l0 → s.cfg 0 .aspmL0sEnable = 1 →
          Does .l0sEntry s (s.withHost fun h => { h with aspm := .l0s }))
      ∧ (s.host.up = false ∨ s.host.aspm ≠ .l0 ∨ s.cfg 0 .aspmL0sEnable ≠ 1 → Does .l0sEntry s s)
      ∧ (s.host.up = true → s.host.aspm = .l0 ∨ s.host.aspm = .l0s → s.cfg 0 .aspmL1Enable = 1 → s.trackerUse = 0 →
          let u := (s.withHost fun h => { h with aspm := s.l1Substate, l1Since := s.time.elapsed }).dinc 0x2301 5
          Does .l1IdleExpiry s (if s.l1Substate = .l12 then u.dinc 0x2301 6 else u))
      ∧ (s.host.up = false ∨ (s.host.aspm ≠ .l0 ∧ s.host.aspm ≠ .l0s) ∨ s.cfg 0 .aspmL1Enable ≠ 1 ∨ s.trackerUse ≠ 0 →
          Does .l1IdleExpiry s s)
      ∧ (s.host.up = true → s.cfg 0 .ltrEnable = 1 → s.host.ltrClear = false →
          Does .ltrIdleExpiry s ((s.emit (.pcieMessage 0x10 0)).withHost fun h => { h with ltrClear := true }))
      ∧ (s.host.up = false ∨ s.cfg 0 .ltrEnable ≠ 1 ∨ s.host.ltrClear = true → Does .ltrIdleExpiry s s)
      ∧ (∀ l, (List.range 64).filter (fun n => (s.fn n).hold) = l → l ≠ [] → Does .linkLossHoldExpiry s
          (((l.foldl (fun (x : State) n => x.flrBegin n 2) s).epstatSet 0 4).dinc 0x2303 3 |>.eventLog 39 .warning 0x8008
            (leBytes 8 (sumNat (l.map fun n => 2 ^ n)))))
      ∧ ((List.range 64).filter (fun n => (s.fn n).hold) = [] → Does .linkLossHoldExpiry s s))
  ∧ (∀ (s : State) (n : Nat),
      (s.host.up = true → s.fnPresent n = true →
        Does (.interruptModeEnable n true) s ((s.withFn n fun x => { x with msixEn := true }).sendPending n))
      ∧ (s.host.up = true → Does (.interruptModeEnable 0 false) s ((s.withFn 0 fun x => { x with msiEn := true }).sendPending 0))
      ∧ (∀ m, s.host.up = false ∨ s.fnPresent n = false → Does (.interruptModeEnable n m) s s)
      ∧ (n ≠ 0 → Does (.interruptModeEnable n false) s s)
      ∧ (∀ v, s.host.up = true → s.fnPresent n = true → v < (if n = 0 then 2048 else 64) → s.intMode n ≠ 1 →
          Does (.vectorUnmask n v) s ((s.withFn n fun x =>
            { x with msix := x.msix.put (4 * v + 3) (setBit (x.msixWord (4 * v + 3)) 0 false) }).sendPending n))
      ∧ (∀ v, s.host.up = true → n = 0 → v < 2048 → s.intMode 0 = 1 →
          Does (.vectorUnmask 0 v) s ((s.cfgPut 0 .msiMask (setBit (s.cfg 0 .msiMask) v false)).sendPending 0))
      ∧ (∀ v, s.host.up = false ∨ s.fnPresent n = false ∨ (if n = 0 then 2048 else 64) ≤ v → Does (.vectorUnmask n v) s s)
      ∧ (s.canMaster n = false → s.sendPending n = s)
      ∧ (∀ v, s.canMaster n = true → s.masked n v = false → s.raise n v = s.hostActivity.emit (.message n (s.messageOf n v)))
      ∧ (∀ v, s.canMaster n = false ∨ s.masked n v = true → s.raise n v = s.withFn n fun x => { x with pend := x.pend.put v () }))

/-- Completions and timeouts (R165–R169, R171): a completion of no tracked request, or after its timeout, is counted as unexpected; a
tracked one frees its tag; in quarantine its data count as late and are dropped; data reach what they serve; a poisoned one, UR or CA ends
the command with HOST_READ_ERROR; a timeout puts the tag in quarantine and ends the command with HOST_READ_TIMEOUT; the window's close frees
the tag. Errors the endpoint reports (R170, Table 6-11): an uncorrectable error sets its AER bit and event 38, a correctable one its bit
alone; a double-bit error of a buffer adds a Critical entry and ends the command with INTERNAL_FAULT. -/
def Obligations.HostCompletions : Prop :=
  (∀ (s : State) (n tag : Nat),
      let a := s.hostActivity
      (∀ cpl, (a.fn n).tags.get? tag = none → Does (.completionReceived n tag cpl) s
          ((((a.aerAdvisory n 16).epstatSet n 3).event 37).dinc 0x2302 3))
      ∧ (∀ cpl r, (a.fn n).tags.get? tag = some r → r.timedOut = true → Does (.completionReceived n tag cpl) s
          ((((a.aerAdvisory n 16).epstatSet n 3).event 37).dinc 0x2302 3))
      ∧ (∀ r, (a.fn n).tags.get? tag = some r → r.timedOut = false →
          let u := a.withFn n fun x => { x with tags := x.tags.del tag }
          (r.quarantined = true → ∀ cpl, Does (.completionReceived n tag cpl) s (u.dinc 0x2302 5))
          ∧ (r.quarantined = false →
              (∀ b, Does (.completionReceived n tag (.data b)) s (u.accessData n r.owner b))
              ∧ Does (.completionReceived n tag .poisoned) s
                  (((u.aerAdvisory n 12).epstatSet n 2).accessFailed n r.owner .hostReadError)
              ∧ Does (.completionReceived n tag .unsupported) s
                  (((u.cfgPut n .statusErrorBits (setBit (u.cfg n .statusErrorBits) 13 true)).epstatSet n 2).accessFailed n r.owner .hostReadError)
              ∧ Does (.completionReceived n tag .aborted) s
                  (((u.cfgPut n .statusErrorBits (setBit (u.cfg n .statusErrorBits) 12 true)).epstatSet n 2).accessFailed n r.owner
                    .hostReadError)))
      ∧ (∀ r, (s.fn n).tags.get? tag = some r → r.timedOut = false →
          Does (.completionTimeout n tag) s ((((((s.withFn n fun x => { x with tags := x.tags.put tag ⟨.nobody, true, true⟩ }).aerUncor n
            14).epstatSet n 1).event 36).dinc 0x2302 2).accessFailed n r.owner .hostReadTimeout))
      ∧ (∀ r, (s.fn n).tags.get? tag = some r → r.timedOut = true → Does (.completionTimeout n tag) s s)
      ∧ ((s.fn n).tags.get? tag = none → Does (.completionTimeout n tag) s s ∧ Does (.quarantineWindowClose n tag) s s)
      ∧ (∀ r, (s.fn n).tags.get? tag = some r → r.quarantined = true →
          Does (.quarantineWindowClose n tag) s (s.withFn n fun x => { x with tags := x.tags.del tag }))
      ∧ (∀ r, (s.fn n).tags.get? tag = some r → r.quarantined = false → Does (.quarantineWindowClose n tag) s s))
  ∧ (∀ s : State,
      (∀ err b, aerUncorrectableBit err = some b → Does (.hostLinkError err) s
          ((s.cfgPut 0 .aerUncorrectableStatus (setBit (s.cfg 0 .aerUncorrectableStatus) b true)).event 38))
      ∧ (∀ err b, aerCorrectableBit err = some b → Does (.hostLinkError err) s
          (s.cfgPut 0 .aerCorrectableStatus (setBit (s.cfg 0 .aerCorrectableStatus) b true)))
      ∧ (∀ err, (aerUncorrectableBit err).isSome = true ∧ aerCorrectableBit err = none
          ∨ aerUncorrectableBit err = none ∧ (aerCorrectableBit err).isSome = true)
      ∧ (∀ n, Does (.correctedInternalError n) s
          (s.cfgPut n .aerCorrectableStatus (setBit (s.cfg n .aerCorrectableStatus) 14 true)))
      ∧ (∀ n q t, Does (.hostBufferDoubleBitError n q t) s
          (((s.aerUncor n 22).logCls 3 .critical Status.internalFault.code []).endCommand n q t .internalFault)))

/-- Doorbells (R148, R185, R186, R188, Table 8-3): without decoding an unsupported request; where the function's registers do not take
writes, and for the value as it stands, nothing; for no queue, a stray; on a frozen queue the value alone is kept; on a running one a value
on the arc moves the tail or the head, and one off the arc freezes the queue. -/
def Obligations.Doorbells : Prop :=
  ∀ (s : State) (n q v : Nat),
    let a := s.hostActivity
    (a.decodes n = false → Does (.sqTailDoorbell n q v) s (a.unsupportedRequest n false)
      ∧ Does (.cqHeadDoorbell n q v) s (a.unsupportedRequest n false))
    ∧ (a.decodes n = true → a.adminWritable n = false → Does (.sqTailDoorbell n q v) s a ∧ Does (.cqHeadDoorbell n q v) s a)
    ∧ (a.decodes n = true → a.adminWritable n = true →
        (a.sq? n q = none → Does (.sqTailDoorbell n q v) s ((a.dinc 0x2400 7).eventLimited 44 n))
        ∧ (a.cq? n q = none → Does (.cqHeadDoorbell n q v) s ((a.dinc 0x2400 7).eventLimited 44 n))
        ∧ (q < doorbellQueues n → ∀ x, a.sq? n q = some x →
            (v % 65536 = x.bell → Does (.sqTailDoorbell n q v) s a)
            ∧ (v % 65536 ≠ x.bell → x.frozen = true → Does (.sqTailDoorbell n q v) s (a.setSq n q { x with bell := v % 65536 }))
            ∧ (v % 65536 ≠ x.bell → x.frozen = false → onArc x.depth x.tail ((x.head + x.depth - 1) % x.depth) (v % 65536) = true →
                Does (.sqTailDoorbell n q v) s ((a.setSq n q { x with bell := v % 65536 }).setSq n q
                  { x with bell := v % 65536, tail := v % 65536 }))
            ∧ (v % 65536 ≠ x.bell → x.frozen = false → onArc x.depth x.tail ((x.head + x.depth - 1) % x.depth) (v % 65536) = false →
                Does (.sqTailDoorbell n q v) s ((a.setSq n q { x with bell := v % 65536 }).freeze n q 0 4 .queueFrozen [])))
        ∧ (q < doorbellQueues n → ∀ x, a.cq? n q = some x →
            (v % 65536 = x.bell → Does (.cqHeadDoorbell n q v) s a)
            ∧ (v % 65536 ≠ x.bell → x.frozen = true → Does (.cqHeadDoorbell n q v) s (a.setCq n q { x with bell := v % 65536 }))
            ∧ (v % 65536 ≠ x.bell → x.frozen = false → onArc x.depth x.head x.tail (v % 65536) = true →
                Does (.cqHeadDoorbell n q v) s (((a.setCq n q { x with bell := v % 65536 }).setCq n q
                  { x with bell := v % 65536, head := v % 65536 }).cqDrain n q))
            ∧ (v % 65536 ≠ x.bell → x.frozen = false → onArc x.depth x.head x.tail (v % 65536) = false →
                Does (.cqHeadDoorbell n q v) s
                  (((a.setCq n q { x with bell := v % 65536 }).freeze n q 1 5 .queueFrozen []).stallCheck n q))))

/-- The fetch (R187, R191, R193, R194, R210, R211): it reads the ring of the SQ whose turn it is under a free tag, now or later; the entry
read, with its phase right and whole inside ring and tail, moves the head past it, the phase turning at the ring's end; PAD is consumed
without a completion, an opcode the SQ does not take ends with UNKNOWN_INDEX_OR_OPCODE, and else the command is in flight, after those
fetched before it. What a completion does (R163, R189, R209, R210, R214, R215): the command's context is freed; in a queue that takes it the
entry is written at the tail, 16 bytes, and the tail moves on, the phase turning at the ring's end; a queue that does not take it keeps it
in its share while there is room, and with its engine beyond that. A command row of a command that is not fetched, or not of that opcode,
does nothing. -/
def Obligations.FetchAndComplete : Prop :=
  (∀ (s : State) (n q : Nat),
      (∀ x t, s.sq? n q = some x → s.freeTag n = some t → s.fetchable n q = true → s.nextTurn = some n → s.wrrAllows n q = true →
        let u := s.wrrCount n q
        (Does (.sqFetch n q .outstanding) s ((u.issueRead n t (x.base + 32 * x.head) 32 (.fetch q)).withSq n q fun y =>
          { y with fetchTag := some t }))
        ∧ ∀ b, Does (.sqFetch n q (.entry b)) s
            ((u.hostActivity.emit (.hostRead n t (x.base + 32 * x.head) 32)).takeEntry n q b))
      ∧ (∀ ans, s.fetchable n q = false ∨ s.freeTag n = none → Does (.sqFetch n q ans) s s)
      ∧ (∀ x b, s.sq? n q = some x → b.length = 32 → bit (leAt b 0 4) 11 = x.phase → entryUnits b = 1 → x.head < x.depth →
          (x.tail + x.depth - x.head) % x.depth ≠ 0 →
          let h := (x.head + 1) % x.depth
          let u := s.setSq n q { x with head := h, phase := if h = 0 then !x.phase else x.phase }
          let op := bits (leAt b 0 4) 0 8
          (op = 0 → s.takeEntry n q b = u)
          ∧ (op ≠ 0 → opcodeAllowed n q x.cls op = false → q ≠ 0 →
              s.takeEntry n q b = u.finish n q (bits (leAt b 0 4) 16 16) (bit (leAt b 0 4) 12) .unknownIndexOrOpcode 0 0 none)
          ∧ (op ≠ 0 → opcodeAllowed n q x.cls op = true → entryShapeOk b = true → u.ctx? n q (bits (leAt b 0 4) 16 16) = none →
              s.takeEntry n q b = u.withQ fun k => { k with ctxs := k.ctxs ++ [⟨n, q, bits (leAt b 0 4) 16 16, b, false⟩] }))
      ∧ (∀ x b, s.sq? n q = some x → bit (leAt (padTo (32 * entryUnits (padTo 32 b)) b) 0 4) 11 ≠ x.phase →
          s.takeEntry n q b = s.freeze n q 0 3 .queueFrozen (padTo 32 b))
      ∧ (∀ c, s.cq? n q = some c → c.irqEn = true → c.aggTime ≠ 0 → c.unsignalled ≠ 0 → q ≠ 0 →
          Does (.aggTimeExpiry n q) s ((s.setCq n q { c with unsignalled := 0 }).raise n c.vector))
      ∧ (∀ c, s.cq? n q = some c → c.irqEn = false ∨ c.aggTime = 0 ∨ c.unsignalled = 0 ∨ q = 0 → Does (.aggTimeExpiry n q) s s)
      ∧ (s.cq? n q = none → Does (.aggTimeExpiry n q) s s))
  ∧ (∀ (s : State) (n q tag : Nat),
      (∀ st r0 r1 h c x, s.ctx? n q tag = some c → s.sq? n q = some x →
        ∃ u : State, s.complete n q tag st r0 r1 h = u.cqPost n x.cqid
            ⟨q, tag, st.code, r0 % 2 ^ 32, r1 % 2 ^ 24, bit (leAt c.entry 0 4) 12, h, none⟩
          ∧ u.q.ctxs = s.q.ctxs.filter (fun y => !(y.fn == n && y.queue == q && y.tag == tag)) ∧ u.q.cqs = s.q.cqs ∧ u.dram = s.dram)
      ∧ (∀ st r0 r1 h, s.ctx? n q tag = none → s.complete n q tag st r0 r1 h = s)
      ∧ (∀ cq p c, s.cq? n cq = some c → c.share = [] → c.held = [] → s.cqWritable n cq = true → p.sq ≠ 0xFFFF → cq ≠ 0 →
          ∀ x, s.sq? n p.sq = some x →
            let t := (c.tail + 1) % c.depth
            s.cqPost n cq p = ((s.hostWrite n (c.base + 16 * c.tail) (cqeBytes p x.head c.phase)).setCq n cq
              { c with tail := t, phase := if t = 0 then !c.phase else c.phase }).cqSignal n cq p.imm)
      ∧ (∀ op k, s.starting? op n q tag = none → onCommand op n q tag s k = .next s.settle)
      ∧ (∀ op k c, s.starting? op n q tag = some c → onCommand op n q tag s k = .next (k c s).settle)
      ∧ (∀ op, s.ctx? n q tag = none → s.starting? op n q tag = none))

/-- The queue admin commands that make and take queues (R184, R204, R205, R527, Table 7-15): a good CREATE_CQ or CREATE_SQ adds the queue as
its entry gives it, empty, at head and tail 0 with phase 1; a bad one ends with its refusal and adds nothing; DELETE_SQ marks the SQ, takes
no more of its entries and keeps how many it leaves; DELETE_CQ takes a CQ to which nothing is bound and reports what it discards. The admin
pair's registers (R199–R202): ENABLE with both bases and depths of at least 16 makes the pair, empty, and LAST_ERR is OK, and else
FIELD_INVALID and nothing else; ENABLE = 0 is refused while an I/O queue stands, and else the pair ends once its commands have; RESTART
needs a frozen queue. -/
def Obligations.QueuesMade : Prop :=
  (∀ (s : State) (n tag : Nat) (c : Ctx),
      let e := c.entry
      let id := bits (dw e 1) 0 16
      (s.starting? 0x01 n 0 tag = some c → s.createCqCheck n e = .ok →
        Does (.createCq n tag) s ((s.setCq n id ⟨leAt e 8 8, bits (dw e 1) 16 16 + 1, bit (dw e 4) 31, bits (dw e 4) 16 11, bits (dw e 4) 0 8,
          bits (dw e 5) 0 16, bits (dw e 5) 16 16, 0, true, 0, 0, false, false, [], [], 0⟩).reserveLow.complete n 0 tag .ok))
      ∧ (s.starting? 0x01 n 0 tag = some c → s.createCqCheck n e ≠ .ok →
          Does (.createCq n tag) s (s.complete n 0 tag (s.createCqCheck n e)))
      ∧ (s.starting? 0x02 n 0 tag = some c → s.createSqCheck n e = .ok →
          Does (.createSq n tag) s ((s.setSq n id ⟨leAt e 8 8, bits (dw e 1) 16 16 + 1, bits (dw e 4) 24 8, bits (dw e 4) 16 2,
            bits (dw e 4) 0 16, bits (dw e 5) 0 11, 0, true, 0, 0, false, none, none, 0⟩).complete n 0 tag .ok))
      ∧ (s.starting? 0x02 n 0 tag = some c → s.createSqCheck n e ≠ .ok →
          Does (.createSq n tag) s (s.complete n 0 tag (s.createSqCheck n e)))
      ∧ (s.starting? 0x03 n 0 tag = some c →
          (id = 0 ∨ maxQid n < id → Does (.deleteSq n tag) s (s.complete n 0 tag .outOfRange))
          ∧ (id ≠ 0 → id ≤ maxQid n → s.sq? n id = none → Does (.deleteSq n tag) s (s.complete n 0 tag .fieldInvalid))
          ∧ (∀ x, id ≠ 0 → id ≤ maxQid n → s.sq? n id = some x → x.deleting.isSome = true →
              Does (.deleteSq n tag) s (s.complete n 0 tag .notInThisState))
          ∧ (∀ x, id ≠ 0 → id ≤ maxQid n → s.sq? n id = some x → x.deleting = none →
              Does (.deleteSq n tag) s ((s.setSq n id { x with
                deleting := some (tag, (x.tail + x.depth - x.head) % x.depth), tail := x.head }).markStarted n 0 tag)))
      ∧ (s.starting? 0x04 n 0 tag = some c →
          (id = 0 ∨ maxQid n < id → Does (.deleteCq n tag) s (s.complete n 0 tag .outOfRange))
          ∧ (id ≠ 0 → id ≤ maxQid n → s.cq? n id = none → Does (.deleteCq n tag) s (s.complete n 0 tag .fieldInvalid))
          ∧ (∀ x, id ≠ 0 → id ≤ maxQid n → s.cq? n id = some x →
              (s.sqsOf n).any (fun y => y.2.cqid == id) = true ∨ s.cqNamed n id = true →
              Does (.deleteCq n tag) s (s.complete n 0 tag .notInThisState))
          ∧ (∀ x, id ≠ 0 → id ≤ maxQid n → s.cq? n id = some x →
              (s.sqsOf n).any (fun y => y.2.cqid == id) = false → s.cqNamed n id = false →
              Does (.deleteCq n tag) s ((s.withQ fun k => { k with cqs := k.cqs.del (qkey n id) }).reserveLow.complete n 0 tag .ok x.share.length)))
      ∧ (maxQid 0 = 0xFFFF ∧ ∀ m, m ≠ 0 → maxQid m = 0x3FF))
  ∧ (∀ (s : State) (n : Nat),
      let a := s.hostActivity
      (a.decodes n = false → Does (.adminEnable n) s (a.unsupportedRequest n false) ∧ Does (.adminDisable n) s (a.unsupportedRequest n false)
        ∧ Does (.adminRestart n) s (a.unsupportedRequest n false))
      ∧ (a.decodes n = true → a.adminWritable n = false → Does (.adminEnable n) s a ∧ Does (.adminDisable n) s a ∧ Does (.adminRestart n) s a)
      ∧ (a.decodes n = true → a.adminWritable n = true →
          let t := (a.fn n).tq
          let good := (a.sq? n 0).isNone && t.asqb != 0 && t.acqb != 0 && decide (15 ≤ bits t.aqs 0 12) && decide (15 ≤ bits t.aqs 16 12)
          (good = true → Does (.adminEnable n) s
            ((((a.setSq n 0 ⟨t.asqb, bits t.aqs 0 12 + 1, 1, 0, 0, 16, 0, true, 0, 0, false, none, none, 0⟩).setCq n 0
              ⟨t.acqb, bits t.aqs 16 12 + 1, true, 0, 0, 0, 16, 0, true, 0, 0, false, false, [], [], 0⟩).lastErr n .ok)))
          ∧ (good = false → Does (.adminEnable n) s (a.lastErr n .fieldInvalid))
          ∧ ((ioOnly (a.sqsOf n)).isEmpty = false ∨ (ioOnly (a.cqsOf n)).isEmpty = false →
              Does (.adminDisable n) s (a.lastErr n .notInThisState))
          ∧ ((ioOnly (a.sqsOf n)).isEmpty = true → (ioOnly (a.cqsOf n)).isEmpty = true → (a.sq? n 0).isSome = true →
              Does (.adminDisable n) s ((a.withTq n fun t => { t with disabling := true }).lastErr n .ok))
          ∧ ((ioOnly (a.sqsOf n)).isEmpty = true → (ioOnly (a.cqsOf n)).isEmpty = true → a.sq? n 0 = none →
              Does (.adminDisable n) s (a.lastErr n .ok))
          ∧ (∀ x, bits t.arest 16 1 = 0 → a.sq? n 0 = some x → x.frozen = false → Does (.adminRestart n) s (a.lastErr n .notInThisState))
          ∧ (∀ x, bits t.arest 16 1 = 0 → a.sq? n 0 = some x → x.frozen = true → x.depth ≤ bits t.arest 0 16 →
              Does (.adminRestart n) s (a.lastErr n .outOfRange))
          ∧ (∀ x, bits t.arest 16 1 = 0 → a.sq? n 0 = some x → x.frozen = true → bits t.arest 0 16 < x.depth →
              Does (.adminRestart n) s (((a.setSq n 0 { x with
                frozen := false, head := bits t.arest 0 16, phase := bit t.arest 17 }).sqBell n 0 x.bell).lastErr n .ok))))

/-- The queue admin commands that restart, report, abort and moderate (R198, R206–R209, R213, R526, R527, Tables 7-6, 7-14 and 7-15). -/
def Obligations.QueuesManaged : Prop :=
  ∀ (s : State) (n tag : Nat) (c : Ctx),
    let e := c.entry
    let id := bits (dw e 1) 0 16
    (s.starting? 0x05 n 0 tag = some c →
      (id = 0 ∨ maxQid n < id → Does (.restartQueue n tag) s (s.complete n 0 tag .outOfRange))
      ∧ (id ≠ 0 → id ≤ maxQid n →
          let r := s.restart n id (bits (dw e 1) 16 1) (bits (dw e 2) 0 16) (bit (dw e 1) 17)
          Does (.restartQueue n tag) s (r.1.complete n 0 tag r.2)))
    ∧ (∀ q h ph, s.sq? n q = none → s.restart n q 0 h ph = (s, .fieldInvalid))
    ∧ (∀ q h ph x, s.sq? n q = some x → x.frozen = false → s.restart n q 0 h ph = (s, .notInThisState))
    ∧ (∀ q h ph x, s.sq? n q = some x → x.frozen = true → x.depth ≤ h → s.restart n q 0 h ph = (s, .outOfRange))
    ∧ (∀ q h ph x, s.sq? n q = some x → x.frozen = true → h < x.depth →
        s.restart n q 0 h ph = ((s.setSq n q { x with frozen := false, head := h, phase := ph }).sqBell n q x.bell, .ok))
    ∧ (∀ buf, s.starting? 0x06 n 0 tag = some c →
        let want := bits (dw e 1) 0 5
        let d := descAt e 8
        let recs := (s.fn n).errlog.take want
        let w := s.scatter n d 0 buf recs.flatten
        (s.descOwn n d = false → Does (.getErrorLog n tag buf) s (s.complete n 0 tag .notYourInstance))
        ∧ (s.descOwn n d = true → want = 0 ∨ 16 < want ∨ d.len < 64 * want →
            Does (.getErrorLog n tag buf) s (s.complete n 0 tag .outOfRange))
        ∧ (s.descOwn n d = true → want ≠ 0 → want ≤ 16 → 64 * want ≤ d.len → w.2 = none →
            Does (.getErrorLog n tag buf) s (w.1.complete n 0 tag .ok recs.length))
        ∧ (∀ st, s.descOwn n d = true → want ≠ 0 → want ≤ 16 → 64 * want ≤ d.len → w.2 = some st →
            Does (.getErrorLog n tag buf) s (w.1.complete n 0 tag st)))
    ∧ (s.starting? 0x07 n 0 tag = some c →
        let t := bits (dw e 1) 16 16
        ((s.sq? n id).map (·.cls) = some 1 → Does (.abort n tag) s (s.complete n 0 tag .fieldInvalid))
        ∧ ((s.sq? n id).map (·.cls) ≠ some 1 →
            (s.ctx? n id t = none → Does (.abort n tag) s (s.complete n 0 tag .abortNotCaught))
            ∧ (id = 0 → t = tag → Does (.abort n tag) s (s.complete n 0 tag .abortNotCaught))
            ∧ (∀ x, s.ctx? n id t = some x → id ≠ 0 ∨ t ≠ tag → x.started = false →
                Does (.abort n tag) s ((s.complete n id t .aborted).complete n 0 tag .ok))
            ∧ (∀ x, s.ctx? n id t = some x → id ≠ 0 ∨ t ≠ tag → x.started = true → s.abortStarted x = none →
                Does (.abort n tag) s (s.complete n 0 tag .abortNotCaught))
            ∧ (∀ x u, s.ctx? n id t = some x → id ≠ 0 ∨ t ≠ tag → x.started = true → s.abortStarted x = some u →
                Does (.abort n tag) s (u.complete n 0 tag .ok))))
    ∧ (s.starting? 0x08 n 0 tag = some c →
        let irq := bit (dw e 2) 31
        let vec := bits (dw e 2) 16 11
        let agg := bits (dw e 2) 0 8
        let time := bits (dw e 3) 0 16
        (id = 0 ∨ maxQid n < id → Does (.setModeration n tag) s (s.complete n 0 tag .outOfRange))
        ∧ (id ≠ 0 → id ≤ maxQid n → s.cq? n id = none → Does (.setModeration n tag) s (s.complete n 0 tag .fieldInvalid))
        ∧ (∀ x, id ≠ 0 → id ≤ maxQid n → s.cq? n id = some x → (1 < agg ∧ time = 0) ∨ s.vectorOk n vec = false →
            Does (.setModeration n tag) s (s.complete n 0 tag .fieldInvalid))
        ∧ (∀ x, id ≠ 0 → id ≤ maxQid n → s.cq? n id = some x → ¬ (1 < agg ∧ time = 0) → s.vectorOk n vec = true →
            let u := s.setCq n id { x with irqEn := irq, vector := vec, aggCount := agg, aggTime := time }
            Does (.setModeration n tag) s
              ((if irq = true ∧ x.unsignalled ≠ 0 ∧ (agg ≤ 1 ∨ agg ≤ x.unsignalled) then u.cqMessage n id else u).complete n 0 tag .ok)))
    ∧ (s.starting? 0x09 n 0 tag = some c →
        (maxQid n < id → Does (.getQueueStatus n tag) s (s.complete n 0 tag .outOfRange))
        ∧ (id ≤ maxQid n → bits (dw e 1) 16 1 = 0 → s.sq? n id = none → Does (.getQueueStatus n tag) s (s.complete n 0 tag .fieldInvalid))
        ∧ (∀ x, id ≤ maxQid n → bits (dw e 1) 16 1 = 0 → s.sq? n id = some x →
            Does (.getQueueStatus n tag) s (s.complete n 0 tag .ok (x.bell * 65536 + x.head)
              (b2n x.frozen * 0x800000 + b2n (s.fetchStopped n id) * 0x400000
                + b2n (((s.cq? n x.cqid).map (·.stalled)).getD false) * 0x200000 + min 0x7FF (s.inFlight n id))))
        ∧ (id ≤ maxQid n → bits (dw e 1) 16 1 ≠ 0 → s.cq? n id = none → Does (.getQueueStatus n tag) s (s.complete n 0 tag .fieldInvalid)))

/-- Instances are made and changed (R220, R223, R228, R229, R235, R252, Tables 8-2 and 8-5): a record outside its ranges, reserved or
overlapping, of an instance in the wrong state, or past a pool, is refused in that order with nothing changed and RESULT0 the instance's
state; a good CREATE makes it ACTIVE under its record; a good MODIFY puts the record in force and leaves the state. The end of a tenant
command and a change of state (R226, R235, Table 8-4): RESULT0 is the instance's state then; a change counts in 0x2500:0E, fires event 26
and writes one Notice entry with both states. -/
def Obligations.InstancesMade : Prop :=
  (∀ (s : State) (tag : Nat) (rec : HostRead) (c : Ctx) (n : Nat), c.target = n →
      (s.starting? 0x10 0 0 tag = some c → (∀ st, s.recordOf c rec = .error st → Does (.createInstance tag rec) s (s.tenantEnd tag n st))
        ∧ ∀ r, s.recordOf c rec = .ok r →
          (s.recordOutOfRange n r = true → Does (.createInstance tag rec) s (s.tenantEnd tag n .outOfRange))
          ∧ (s.recordOutOfRange n r = false → byteAt r 15 < s.nsAttached n →
              Does (.createInstance tag rec) s (s.tenantEnd tag n .outOfRange (s.nsAttached n)))
          ∧ (s.recordOutOfRange n r = false → s.nsAttached n ≤ byteAt r 15 →
              (recordReservedOk r = false ∨ s.recordOverlaps n r = true → Does (.createInstance tag rec) s (s.tenantEnd tag n .fieldInvalid))
              ∧ (recordReservedOk r = true → s.recordOverlaps n r = false →
                  ((s.inst n).st ≠ .absent → Does (.createInstance tag rec) s (s.tenantEnd tag n .notInThisState))
                  ∧ ((s.inst n).st = .absent → s.poolsExceeded n r = true → Does (.createInstance tag rec) s (s.tenantEnd tag n .poolExhausted))
                  ∧ ((s.inst n).st = .absent → s.poolsExceeded n r = false → Does (.createInstance tag rec) s
                      ((((s.withInst n fun x => { x with record := zeros 128 }).putRecord n r).dinc (blk n 0x10) 2).instTo n .active
                        |>.tenantEnd tag n .ok)))))
      ∧ (s.starting? 0x11 0 0 tag = some c → (∀ st, s.recordOf c rec = .error st → Does (.modifyInstance tag rec) s (s.tenantEnd tag n st))
        ∧ ∀ r, s.recordOf c rec = .ok r →
          (s.recordOutOfRange n r = true → Does (.modifyInstance tag rec) s (s.tenantEnd tag n .outOfRange))
          ∧ (s.recordOutOfRange n r = false → recordReservedOk r = false ∨ s.recordOverlaps n r = true →
              Does (.modifyInstance tag rec) s (s.tenantEnd tag n .fieldInvalid))
          ∧ (s.recordOutOfRange n r = false → recordReservedOk r = true → s.recordOverlaps n r = false →
              ((s.inst n).st ≠ .active → (s.inst n).st ≠ .quiesced → Does (.modifyInstance tag rec) s (s.tenantEnd tag n .notInThisState))
              ∧ ((s.inst n).st = .quiesced → s.lowersBelowUse n r = true ∨ s.removesGrouped n r = true →
                  Does (.modifyInstance tag rec) s (s.tenantEnd tag n .notInThisState))
              ∧ ((s.inst n).st = .active → s.lowersBelowUse n r = true ∨ s.removesGrouped n r = true →
                  Does (.modifyInstance tag rec) s (s.tenantEnd tag n .instanceNotQuiesced))
              ∧ ((s.inst n).st = .active → s.lowersBelowUse n r = false → s.removesGrouped n r = false → s.contextsOf n ≤ leAt r 8 2 →
                  (s.enginesHeld n).length ≤ byteAt r 14 →
                  (rangeMinus (recKeys (s.inst n).record) (recKeys r)).any (fun x => s.keysHeld x.1 x.2) = false →
                  (rangeMinus (recDram (s.inst n).record) (recDram r)).all (fun x => x.2 == 0) = true → s.poolsExceeded n r = false →
                  Does (.modifyInstance tag rec) s ((s.putRecord n r).tenantEnd tag n .ok))
              ∧ ((s.inst n).st = .quiesced → s.lowersBelowUse n r = false → s.removesGrouped n r = false → s.poolsExceeded n r = false →
                  Does (.modifyInstance tag rec) s ((s.putRecord n r).tenantEnd tag n .ok))
              ∧ ((s.inst n).st = .quiesced → s.lowersBelowUse n r = false → s.removesGrouped n r = false → s.poolsExceeded n r = true →
                  Does (.modifyInstance tag rec) s (s.tenantEnd tag n .poolExhausted)))))
  ∧ (∀ (s : State) (n tag : Nat),
      (∀ st r1, s.tenantEnd tag n st r1 = s.complete 0 0 tag st (s.inst n).st.num r1)
      ∧ (∀ st, (s.inst n).st = st → s.instTo n st = s)
      ∧ (∀ st, (s.inst n).st ≠ st → s.instTo n st = (((s.withInst n fun x => { x with st := st }).dinc 0x2500 0x0E).event 26).logSrc 26
          .notice 0x8006 (leBytes 1 n ++ leBytes 1 (s.inst n).st.num ++ leBytes 1 st.num))
      ∧ (∀ st, ((s.withInst n fun x => { x with st := st }).inst n) = { s.inst n with st := st }))

/-- Quiescing and resuming (R226, R230–R232): QUIESCE of an ACTIVE or QUIESCING instance starts, with FORCE abandoning at once; quiet, the
threads stop, claims and locks go and it is QUIESCED; out of time it is ACTIVE again with NOT_DRAINED; RESUME takes a QUIESCED one back.
Instance 0 and a time outside its range are refused. Reset, destruction, re-arming and the record (R233, R234, Tables 8-4 and 8-5): refused
for instance 0, outside their states, and while the instance is not quiet or a kiln stream names it; else cleaned, and ACTIVE again or
ABSENT with no record; GET gives the record in force. -/
def Obligations.InstancesEnd : Prop :=
  (∀ (s : State) (tag n : Nat) (c : Ctx), c.target = n →
      (s.starting? 0x12 0 0 tag = some c →
        let w := dw c.entry 2
        (n = 0 ∨ bits w 0 14 = 0 ∨ 10000 < bits w 0 14 → Does (.quiesceInstance tag) s (s.tenantEnd tag n .outOfRange))
        ∧ (n ≠ 0 → bits w 0 14 ≠ 0 → bits w 0 14 ≤ 10000 →
            ((s.inst n).st = .quiesced → Does (.quiesceInstance tag) s (s.tenantEnd tag n .ok))
            ∧ ((s.inst n).st = .absent ∨ (s.inst n).st = .fenced → Does (.quiesceInstance tag) s (s.tenantEnd tag n .notInThisState))
            ∧ ((s.inst n).st = .active ∨ (s.inst n).st = .quiescing →
                let u := ((s.withInst n fun x => { x with quiesceTag := some tag, forced := bit w 31 }).instTo n .quiescing).markStarted 0 0 tag
                Does (.quiesceInstance tag) s (if bit w 31 then u.forceQuiet n else u))))
      ∧ ((s.inst n).st = .quiescing → s.quiet n = true → (s.fn n).flr = none → s.hearthRuns = true →
          Does (.quiesceComplete n) s ((((s.quiesceGroups n).locksRelease n).instTo n .quiesced).quiesceEnd n .ok))
      ∧ ((s.inst n).st ≠ .quiescing ∨ s.quiet n = false ∨ (s.fn n).flr.isSome = true ∨ s.hearthRuns = false →
          Does (.quiesceComplete n) s s)
      ∧ ((s.inst n).st = .quiescing → (s.inst n).forced = false → (s.fn n).flr = none → s.hearthRuns = true →
          Does (.quiesceTimeout n) s ((s.instTo n .active).quiesceEnd n .notDrained))
      ∧ ((s.inst n).st ≠ .quiescing ∨ (s.inst n).forced = true ∨ (s.fn n).flr.isSome = true ∨ s.hearthRuns = false →
          Does (.quiesceTimeout n) s s)
      ∧ (s.starting? 0x13 0 0 tag = some c →
          ((s.inst n).st = .quiesced → Does (.resumeInstance tag) s (((s.resumeGroups n).instTo n .active).tenantEnd tag n .ok))
          ∧ ((s.inst n).st ≠ .quiesced → Does (.resumeInstance tag) s (s.tenantEnd tag n .notInThisState))))
  ∧ (∀ (s : State) (tag n : Nat) (c : Ctx), c.target = n →
      (s.starting? 0x14 0 0 tag = some c →
        (n = 0 → Does (.resetInstance tag) s (s.tenantEnd tag n .outOfRange))
        ∧ (n ≠ 0 → (s.inst n).st ≠ .quiesced → (s.inst n).st ≠ .fenced → Does (.resetInstance tag) s (s.tenantEnd tag n .notInThisState))
        ∧ (n ≠ 0 → (s.inst n).st = .quiesced ∨ (s.inst n).st = .fenced →
            (s.quiet n = false ∨ s.threadsRun n = true → Does (.resetInstance tag) s (s.tenantEnd tag n .instanceNotQuiesced))
            ∧ (s.quiet n = true → s.threadsRun n = false →
                (∀ k, s.kilnNames n = some k → Does (.resetInstance tag) s (s.tenantEnd tag n .notInThisState k))
                ∧ (s.kilnNames n = none → Does (.resetInstance tag) s
                    ((((s.instanceCleaned n false).resumeForgotten n).instTo n .active).tenantEnd tag n .ok)))))
      ∧ (s.starting? 0x15 0 0 tag = some c →
        (n = 0 → Does (.destroyInstance tag) s (s.tenantEnd tag n .outOfRange))
        ∧ (n ≠ 0 → (s.inst n).st = .absent ∨ (s.inst n).st = .quiescing → Does (.destroyInstance tag) s (s.tenantEnd tag n .notInThisState))
        ∧ (n ≠ 0 → (s.inst n).st = .quiesced ∨ (s.inst n).st = .fenced ∨ (s.inst n).st = .active →
            (s.quiet n = false ∨ s.threadsRun n = true → Does (.destroyInstance tag) s (s.tenantEnd tag n .instanceNotQuiesced))
            ∧ (s.quiet n = true → s.threadsRun n = false →
                (∀ k, s.kilnNames n = some k → Does (.destroyInstance tag) s (s.tenantEnd tag n .notInThisState k))
                ∧ (s.kilnNames n = none → Does (.destroyInstance tag) s
                    ((((((s.instanceCleaned n false).groupsGone n).withInst n fun x => { x with record := zeros 128 }).threadsMoved
                      (s.threadsOf n)).instTo n .absent).tenantEnd tag n .ok)))))
      ∧ (s.starting? 0x16 0 0 tag = some c →
        (n = 0 → Does (.rearmInstance tag) s (s.tenantEnd tag n .outOfRange))
        ∧ (n ≠ 0 → (s.inst n).st ≠ .fenced → Does (.rearmInstance tag) s (s.tenantEnd tag n .notInThisState))
        ∧ (n ≠ 0 → (s.inst n).st = .fenced → Does (.rearmInstance tag) s
            ((((s.instanceCleaned n (bit (dw c.entry 2) 0)).resumeForgotten n).instTo n .active).tenantEnd tag n .ok)))
      ∧ (∀ buf, s.starting? 0x17 0 0 tag = some c →
        let d := descAt c.entry 8
        let w := s.scatter 0 d 0 buf (s.inst n).record
        (s.descOwn 0 d = false → Does (.getInstance tag buf) s (s.tenantEnd tag n .notYourInstance))
        ∧ (s.descOwn 0 d = true → d.len < 128 → Does (.getInstance tag buf) s (s.tenantEnd tag n .outOfRange))
        ∧ (s.descOwn 0 d = true → 128 ≤ d.len → Does (.getInstance tag buf) s (w.1.tenantEnd tag n (w.2.getD .ok)))))

/-- Namespaces (R244, R249, R252, R253, R258, Tables 9-8 and 9-10): a good NS_CREATE reserves the number with an empty namespace of the
fields of its entry and starts; NS_DELETE, NS_ERASE and EVIDENCE_RELEASE start on a namespace that the caller names and the state allows,
locking it; NS_IDENTIFY writes the descriptor; each is refused with what its check gives. Preparing, detaching and attaching an SSD (R244,
R245, R258, Table 9-10). -/
def Obligations.NamespaceAdmin : Prop :=
  (∀ (s : State) (n tag : Nat) (c : Ctx),
      let e := c.entry
      let k := c.nsNumber
      (s.starting? 0x20 n 0 tag = some c →
        (s.nsCreateCheck e k ≠ .ok → Does (.nsCreate n tag) s (s.complete n 0 tag (s.nsCreateCheck e k)))
        ∧ (s.nsCreateCheck e k = .ok → ∃ x : Ns, x.evidence = (bits (dw e 2) 6 1 == 1) ∧ x.owner = bits (dw e 2) 0 6
            ∧ x.port = bits (dw e 2) 7 1 ∧ x.size = dw e 3 + bits (dw e 4) 0 16 * 2 ^ 32 ∧ x.rp = 0 ∧ x.cp = 0 ∧ x.ap = 0
            ∧ Does (.nsCreate n tag) s ((s.withStor fun y => { y with ns := y.ns.put k x }).startStorage c
                (Job.new (.command n 0 tag) 0x20 k (bits (dw e 2) 7 1) 3 0 1 1))))
      ∧ (s.starting? 0x21 n 0 tag = some c →
          (∀ st, s.nsRefused n k false = some st → Does (.nsDelete n tag) s (s.complete n 0 tag st))
          ∧ (s.nsRefused n k false = none → s.nsNamed k = none → Does (.nsDelete n tag) s (s.complete n 0 tag .fieldInvalid))
          ∧ (∀ x, s.nsRefused n k false = none → s.nsNamed k = some x →
              (x.evidence = true → x.rp ≠ x.ap ∨ s.nsBound k = true → Does (.nsDelete n tag) s (s.complete n 0 tag .notInThisState))
              ∧ (x.evidence = false ∨ (x.rp = x.ap ∧ s.nsBound k = false) →
                  (s.portUsable x.port = false → Does (.nsDelete n tag) s (s.complete n 0 tag .backendUnavailable))
                  ∧ (s.portUsable x.port = true → Does (.nsDelete n tag) s
                      (s.startStorage c { Job.new (.command n 0 tag) 0x21 k x.port 3 0 1 1 with locks := true, span := wholeNs })))))
      ∧ (∀ buf, s.starting? 0x22 n 0 tag = some c →
          (∀ st, s.nsRefused n k true = some st → Does (.nsIdentify n tag buf) s (s.complete n 0 tag st))
          ∧ (∀ x, s.nsRefused n k true = none → s.nsNamed k = some x → s.descOwn n (descAt e 8) = true →
              (descAt e 8).list = true ∨ 64 ≤ (descAt e 8).len → s.portUsable x.port = true →
              let w := s.scatter n (descAt e 8) 0 buf (s.nsDescriptor n k x)
              Does (.nsIdentify n tag buf) s (w.1.storEnd n 0 tag (w.2.getD .ok))))
      ∧ (s.starting? 0x23 n 0 tag = some c →
          (∀ st, s.nsRefused n k true = some st → Does (.nsErase n tag) s (s.complete n 0 tag st))
          ∧ (∀ x, s.nsRefused n k true = none → s.nsNamed k = some x →
              (n ≠ 0 → x.owner ≠ n → Does (.nsErase n tag) s (s.complete n 0 tag .unknownIndexOrOpcode))
              ∧ (n = 0 ∨ x.owner = n →
                  (x.evidence = true → Does (.nsErase n tag) s (s.complete n 0 tag .fieldInvalid))
                  ∧ (x.evidence = false → s.portUsable x.port = false → Does (.nsErase n tag) s (s.complete n 0 tag .backendUnavailable))
                  ∧ (x.evidence = false → s.portUsable x.port = true → Does (.nsErase n tag) s
                      (s.startStorage c { Job.new (.command n 0 tag) 0x23 k x.port 3 0 1 1 with locks := true, span := wholeNs })))))
      ∧ (s.starting? 0x24 n 0 tag = some c →
          (∀ st, s.nsRefused n k false = some st → Does (.evidenceRelease n tag) s (s.complete n 0 tag st))
          ∧ (∀ x, s.nsRefused n k false = none → s.nsNamed k = some x →
              let rp := leAt e 8 8
              (x.evidence = false → Does (.evidenceRelease n tag) s (s.complete n 0 tag .fieldInvalid))
              ∧ (x.evidence = true → rp < x.rp ∨ x.cp < rp → Does (.evidenceRelease n tag) s (s.complete n 0 tag .outOfRange))
              ∧ (x.evidence = true → x.rp ≤ rp → rp ≤ x.cp → s.portUsable x.port = false →
                  Does (.evidenceRelease n tag) s (s.complete n 0 tag .backendUnavailable))
              ∧ (x.evidence = true → x.rp ≤ rp → rp ≤ x.cp → s.portUsable x.port = true → Does (.evidenceRelease n tag) s
                  (s.startStorage c { Job.new (.command n 0 tag) 0x24 k x.port 3 x.rp (rp - x.rp) (rp - x.rp) with
                    locks := true, fua := true })))))
  ∧ (∀ (s : State) (n tag : Nat) (c : Ctx),
      let p := c.portNumber
      let st := (s.port p).st
      (s.starting? 0x25 n 0 tag = some c →
        (bits (dw c.entry 2) 16 16 ≠ 0x960D → Does (.ssdPrepare n tag) s (s.complete n 0 tag .fieldInvalid))
        ∧ (bits (dw c.entry 2) 16 16 = 0x960D → st = 3 ∨ st = 6 ∨ (st = 2 ∧ s.nsOn p = []) →
            Does (.ssdPrepare n tag) s (s.startStorage c (Job.new (.command n 0 tag) 0x25 0 p 3 0 1 1)))
        ∧ (bits (dw c.entry 2) 16 16 = 0x960D → st ≠ 3 → st ≠ 6 → st ≠ 2 ∨ s.nsOn p ≠ [] →
            Does (.ssdPrepare n tag) s (s.complete n 0 tag .notInThisState)))
      ∧ (s.starting? 0x26 n 0 tag = some c →
          let bound := (s.nsOn p).any fun kv => s.nsBound kv.1
          (bound = true → Does (.ssdDetach n tag) s (s.complete n 0 tag .notInThisState))
          ∧ (bound = false → (s.port p).detach.isSome = true → Does (.ssdDetach n tag) s (s.complete n 0 tag .backendUnavailable))
          ∧ (bound = false → (s.port p).detach = none → Does (.ssdDetach n tag) s
              ((s.markStarted n 0 tag).withPort p fun x => { x with detach := some tag, shutdown := false })))
      ∧ (s.starting? 0x27 n 0 tag = some c →
          (st = 1 ∨ st = 2 ∨ st = 5 → Does (.ssdAttach n tag) s (s.complete n 0 tag .notInThisState))
          ∧ (st ≠ 1 → st ≠ 2 → st ≠ 5 → Does (.ssdAttach n tag) s
              (((s.markStarted n 0 tag).attachStart p).withPort p fun x => { x with attach := some tag }))))

/-- The storage commands (R248, R250, R256, R257, R259, R261, R262, Tables 9-9 and 9-10): each names a namespace the instance may use, with
whole blocks inside it, of a kind the command takes, on a usable port, and then starts with its job; an EVIDENCE_APPEND takes its positions
from AP on as it starts; an append that finds no room ends with EVIDENCE_FULL and event 103. -/
def Obligations.StorageCommands : Prop :=
  ∀ (s : State) (n q tag : Nat) (c : Ctx) (x : Ns),
    let e := c.entry
    let k := c.nsNumber
    let first := leAt e 8 8
    let d := descAt e 16
    (∀ buf len, s.starting? 0x40 n q tag = some c → s.ioNs n k true = .ok x → s.descOwn n d = true → s.bufLen n d 0 buf = .ok len →
      let st := s.ioCheck x first (len / 4096) (!storageLengthOk len) true true true
      (st = .ok → Does (.read n q tag buf) s (s.startStorage c { Job.new (.command n q tag) 0x40 k x.port (b2n x.evidence) first (len / 4096)
        256 with locks := true, shared := true, lists := buf }))
      ∧ (st ≠ .ok → Does (.read n q tag buf) s (s.complete n q tag st)))
    ∧ (∀ data len, s.starting? 0x41 n q tag = some c → s.ioNs n k false = .ok x → s.descOwn n d = true → s.bufLen n d 0 data = .ok len →
      let st := s.ioCheck x first (len / 4096) (!storageLengthOk len) true true false
      (∀ b, st = .ok → s.writeData n d data len = .ok b → Does (.write n q tag data) s
        (s.startStorage c { Job.new (.command n q tag) 0x41 k x.port 0 first (len / 4096) 256 with
          locks := true, data := b, fua := bit (dw e 1) 8 }))
      ∧ (∀ er, st = .ok → s.writeData n d data len = .error er → Does (.write n q tag data) s (s.storEnd n q tag er))
      ∧ (st ≠ .ok → Does (.write n q tag data) s (s.complete n q tag st)))
    ∧ (s.starting? 0x42 n q tag = some c → s.ioNs n k false = .ok x →
      let ev := ((s.sq? n q).map (·.cls)).getD 0 == 1
      let st := s.ioCheck x 0 0 false false (!ev) ev
      (st = .ok → Does (.flush n q tag) s (s.startStorage c { Job.new (.command n q tag) 0x42 k x.port (b2n ev) 0 (if ev then 0 else 1) 1 with
        gathered := !ev && s.flushGathered }))
      ∧ (st ≠ .ok → Does (.flush n q tag) s (s.complete n q tag st)))
    ∧ (s.starting? 0x43 n q tag = some c → s.ioNs n k false = .ok x →
      let st := s.ioCheck x first (dw e 4) (dw e 4 == 0) true true false
      (st = .ok → Does (.deallocate n q tag) s
        (s.startStorage c { Job.new (.command n q tag) 0x43 k x.port 0 first (dw e 4) (dw e 4) with locks := true }))
      ∧ (st ≠ .ok → Does (.deallocate n q tag) s (s.complete n q tag st)))
    ∧ (s.starting? 0x44 n q tag = some c → s.ioNs n k false = .ok x →
      let st := s.ioCheck x first (dw e 4) (dw e 4 == 0) true true false
      (st = .ok → Does (.writeZeroes n q tag) s (s.startStorage c { Job.new (.command n q tag) 0x44 k x.port 0 first (dw e 4) 65536 with
        locks := true, fua := bit (dw e 1) 8 }))
      ∧ (st ≠ .ok → Does (.writeZeroes n q tag) s (s.complete n q tag st)))
    ∧ (s.starting? 0x45 n q tag = some c → s.ioNs n k true = .ok x →
      let st := s.ioCheck x first (dw e 4) (dw e 4 == 0) true true true
      (st = .ok → Does (.verify n q tag) s (s.startStorage c { Job.new (.command n q tag) 0x45 k x.port (b2n x.evidence) first (dw e 4) 256 with
        locks := true, shared := true }))
      ∧ (st ≠ .ok → Does (.verify n q tag) s (s.complete n q tag st)))
    ∧ (∀ data len, s.starting? 0x48 n q tag = some c → s.ioNs n k false = .ok x → s.descOwn n d = true → s.bufLen n d 0 data = .ok len →
      storageLengthOk len = true →
      (x.evidence = false → Does (.evidenceAppend n q tag data) s (s.complete n q tag .fieldInvalid))
      ∧ (x.evidence = true → s.nsBound k = true → Does (.evidenceAppend n q tag data) s (s.complete n q tag .notInThisState))
      ∧ (x.evidence = true → s.nsBound k = false → x.room (len / 4096) = false →
          Does (.evidenceAppend n q tag data) s ((s.eventLimited 103 k).complete n q tag .evidenceFull))
      ∧ (x.evidence = true → s.nsBound k = false → x.room (len / 4096) = true → s.portUsable x.port = false →
          Does (.evidenceAppend n q tag data) s (s.complete n q tag .backendUnavailable))
      ∧ (∀ b, x.evidence = true → s.nsBound k = false → x.room (len / 4096) = true → s.portUsable x.port = true →
          s.writeData n d data len = .ok b → Does (.evidenceAppend n q tag data) s
            ((s.takePositions k (len / 4096)).startStorage c { Job.new (.command n q tag) 0x48 k x.port 1 x.ap (len / 4096) 256 with
              locks := true, fua := true, data := b })))
    ∧ (∀ er, s.ioNs n k true = .error er →
        (∀ buf, s.starting? 0x40 n q tag = some c → Does (.read n q tag buf) s (s.complete n q tag er))
        ∧ (s.starting? 0x45 n q tag = some c → Does (.verify n q tag) s (s.complete n q tag er)))
    ∧ (∀ er, s.ioNs n k false = .error er →
        (∀ data, s.starting? 0x41 n q tag = some c → Does (.write n q tag data) s (s.complete n q tag er))
        ∧ (∀ data, s.starting? 0x48 n q tag = some c → Does (.evidenceAppend n q tag data) s (s.complete n q tag er))
        ∧ (s.starting? 0x42 n q tag = some c → Does (.flush n q tag) s (s.complete n q tag er))
        ∧ (s.starting? 0x43 n q tag = some c → Does (.deallocate n q tag) s (s.complete n q tag er))
        ∧ (s.starting? 0x44 n q tag = some c → Does (.writeZeroes n q tag) s (s.complete n q tag er)))

/-- A storage command starts (R263, R264): it is marked started and its job stands last in the start order, with the next job number; but
for the counters of locks and event 104 of a full lock table (Table 9-11), nothing else changes until the order lets it go on. The checks of
a storage command in their order (R254, R259, Table 9-10), and the outcome of a block as it is found (R256, R257, Table 9-6): a general
namespace is bounded by its size, an evidence one by RP and CP; a block with a matching check is good, one never written reads as zeros. -/
def Obligations.StorageChecks : Prop :=
  (∀ (s : State) (c : Ctx) (j : Job),
      let t := s.startStorage c j
      t.stor.jobs = s.stor.jobs ++ [{ j with id := s.stor.nextJob }] ∧ t.stor.nextJob = s.stor.nextJob + 1
      ∧ t.q.ctxs = s.q.ctxs.map (fun x => if x.fn = c.fn ∧ x.queue = c.queue ∧ x.tag = c.tag then { x with started := true } else x)
      ∧ t.stor.ns = s.stor.ns ∧ t.stor.ports = s.stor.ports ∧ t.q.sqs = s.q.sqs ∧ t.q.cqs = s.q.cqs ∧ t.dram = s.dram ∧ t.out = s.out
      ∧ t.fns = s.fns ∧ t.pending = s.pending
      ∧ (∀ idx k, k < 256 → idx ≠ 0x2600 ∨ (k ≠ 3 ∧ k ≠ 5) → t.dval idx k = s.dval idx k)
      ∧ (j.locks = false ∨ s.stor.lockers.length < 4096 ∨ s.stor.lockFull = true → t.eg = s.eg))
  ∧ ((∀ (s : State) (x : Ns) (first blocks : Nat) (lb g e : Bool),
      (s.ioCheck x first blocks lb true g e = .ok ↔ lb = false ∧ (x.evidence = false → first + blocks ≤ x.size ∧ g = true)
        ∧ (x.evidence = true → x.rp ≤ first ∧ first + blocks ≤ x.cp ∧ e = true) ∧ s.portUsable x.port = true)
      ∧ (lb = true → s.ioCheck x first blocks lb true g e = .outOfRange))
    ∧ (∀ (owner ns addr st : Nat) (data : Bytes), data.length = 4096 → st = 1 →
        blockOutcome owner ns addr ⟨true, data, blockMeta owner ns addr data st⟩ = .good)
    ∧ (∀ (owner ns addr : Nat) (b : BlockRead), b.readable = false → blockOutcome owner ns addr b = .unreadable))

/-- The root ports and their SSDs (R251, R261, R273, Tables 9-2, 9-7 and 9-12): a link that trains in an attach enables the controller; a
link lost fails the port but an absent or detached one; a ready controller goes on with the attach, or after a reset issues once more what
was outstanding, in order; a time-out resets the controller with event 98, and fails the command it has already issued again; an ended
back-end command ends with its blocks; a warning fires event 99; a checkpoint writes the catalogue; gathered flushes become one for each
namespace. -/
def Obligations.RootPorts : Prop :=
  ∀ (s : State) (p : Nat),
    ((s.port p).linkUp = true → Does (.rootPortLinkUp p) s s)
    ∧ ((s.port p).linkUp = false → (s.port p).st ≠ 1 → Does (.rootPortLinkUp p) s (s.withPort p fun x => { x with linkUp := true }))
    ∧ ((s.port p).linkUp = false → (s.port p).st = 1 →
        Does (.rootPortLinkUp p) s ((s.withPort p fun x => { x with linkUp := true }).emit (.nvme p 0 0x102 0 0 0 [])))
    ∧ ((s.port p).st = 7 ∨ (s.port p).st = 0 → Does (.rootPortLinkDown p) s (s.withPort p fun x => { x with linkUp := false }))
    ∧ ((s.port p).st ≠ 7 → (s.port p).st ≠ 0 →
        Does (.rootPortLinkDown p) s ((s.withPort p fun x => { x with linkUp := false }).portFail p 0))
    ∧ (∀ i, (s.port p).st = 1 → (s.port p).linkUp = true → (s.port p).recovering = false →
        Does (.controllerReady p i) s (s.attachIdentified p i))
    ∧ (∀ i, (s.port p).st = 5 → Does (.controllerReady p i) s
        ((s.port p).cmds.foldl (fun (x : State) b => x.emit (.nvme p b.id b.opcode b.ns b.lba b.blocks b.data))
          (s.withPort p fun y => { y with st := y.back, cmds := y.cmds.map fun b => { b with reissued := true } })))
    ∧ (∀ i, (s.port p).st ≠ 5 → (s.port p).st ≠ 1 ∨ (s.port p).linkUp = false ∨ (s.port p).recovering = true →
        Does (.controllerReady p i) s s)
    ∧ ((s.port p).st = 5 → Does (.controllerReadyTimeout p) s (s.portFail p 6))
    ∧ ((s.port p).st = 1 → (s.port p).recovering = false →
        Does (.controllerReadyTimeout p) s (s.attachEnd p (if (s.port p).linkUp then 6 else 0)))
    ∧ ((s.port p).st ≠ 5 → (s.port p).st ≠ 1 ∨ (s.port p).recovering = true → Does (.controllerReadyTimeout p) s s)
    ∧ (∀ k b, (s.port p).cmds.find? (fun b => b.id == k) = some b →
        (∀ bl, Does (.backendCompletion p k (.ok bl)) s (s.backendEnds p b true bl)
          ∧ Does (.backendCompletion p k (.failed bl)) s (s.backendEnds p b false bl))
        ∧ ((s.port p).st = 5 → Does (.backendTimeout p k) s s)
        ∧ ((s.port p).st ≠ 5 → b.reissued = true → Does (.backendTimeout p k) s (s.backendEnds p b false []))
        ∧ ((s.port p).st ≠ 5 → b.reissued = false → Does (.backendTimeout p k) s
            ((((s.withPort p fun y => { y with st := 5, back := y.st }).dinc (0x2601 + p) 6).eventLog 98 .warning
              Status.backendUnavailable.code (leBytes 1 p)).emit (.nvme p 0 0x101 0 0 0 []))))
    ∧ (∀ k r, (s.port p).cmds.find? (fun b => b.id == k) = none → Does (.backendCompletion p k r) s s ∧ Does (.backendTimeout p k) s s)
    ∧ (∀ w, w % 256 = 0 → Does (.ssdAsyncEvent p w) s (s.dset (0x2601 + p) 0x0B 0))
    ∧ (∀ w, w % 256 ≠ 0 → Does (.ssdAsyncEvent p w) s ((s.dset (0x2601 + p) 0x0B (w % 256)).eventLog 99 .warning
        Status.backendUnavailable.code (leBytes 1 p ++ leBytes 1 w)))
    ∧ (∀ k x, s.ns? k = some x → x.evidence = true → (s.port x.port).st = 2 →
        Does (.catalogueCheckpoint k) s ((s.withNs k fun y => { y with unsaved := 0 }).catalogueWrite x.port))
    ∧ (∀ k, s.ns? k = none → Does (.catalogueCheckpoint k) s s)
    ∧ (∀ k x, s.ns? k = some x → x.evidence = false ∨ (s.port x.port).st ≠ 2 → Does (.catalogueCheckpoint k) s s)
    ∧ Does .flushGatherExpiry s ((s.dadd 0x2600 6 (s.stor.jobs.filter fun j => j.gathered && j.stage == 0).length).withStor fun x =>
        { x with jobs := mergeFlushes x.jobs })

/-- A kiln stream is made, opened and deleted (R278, R280–R282, R284, R291, R302, Tables 10-2 to 10-5): a record is refused by range, by
zero fields, by keys, by namespace or CQ, and by state, in that order; a good CREATE leaves the stream CLOSED with its index binding. An
OPEN is refused by keys, namespace, state, port, totals or spent keys, in that order; a good one takes the engine whose declared rates sum
lowest, writes its lease and waits. DELETE takes a CLOSED stream alone. -/
def Obligations.KilnStreamsMade : Prop :=
  ∀ (s : State) (tag : Nat) (c : Ctx),
    let i := bits (dw c.entry 1) 0 6
    let x := s.stream i
    (∀ record, s.starting? 0x28 0 0 tag = some c →
      (∀ st, s.kilnBuffer c 64 record = .error st → Does (.kilnStreamCreate tag record) s (s.complete 0 0 tag st))
      ∧ (∀ r, s.kilnBuffer c 64 record = .ok r →
        (kilnRecordOut r = true → Does (.kilnStreamCreate tag record) s (s.complete 0 0 tag .outOfRange))
        ∧ (kilnRecordOut r = false → kilnRecordZero r = false → Does (.kilnStreamCreate tag record) s (s.complete 0 0 tag .fieldInvalid))
        ∧ (kilnRecordOut r = false → kilnRecordZero r = true →
          (∀ st, s.kilnKeysBad (keyList (sub r 20 16)) (leAt r 0 4) = some st →
              Does (.kilnStreamCreate tag record) s (s.complete 0 0 tag st))
          ∧ (s.kilnKeysBad (keyList (sub r 20 16)) (leAt r 0 4) = none →
            (s.evidenceNs (byteAt r 4) = false ∨ s.indexCqOk (byteAt r 12) (leAt r 10 2) = false →
              Does (.kilnStreamCreate tag record) s (s.complete 0 0 tag .fieldInvalid))
            ∧ (s.evidenceNs (byteAt r 4) = true → s.indexCqOk (byteAt r 12) (leAt r 10 2) = true →
              (x.st ≠ .unused ∨ s.nsTaken i (byteAt r 4) = true →
                Does (.kilnStreamCreate tag record) s (s.complete 0 0 tag .notInThisState))
              ∧ (x.st = .unused → s.nsTaken i (byteAt r 4) = false → ∃ y : Stream, y.st = .closed ∧ y.record = r ∧ y.cur = none
                  ∧ y.cause = 0 ∧ y.lastTag = zeros 16 ∧ y.bind = 1 ∧ y.bindFn = byteAt r 12 ∧ y.bindCq = leAt r 10 2 ∧ y.queue = x.queue
                  ∧ Does (.kilnStreamCreate tag record) s (((s.withStream i fun _ => y).event 160).complete 0 0 tag .ok)))))))
    ∧ (s.starting? 0x29 0 0 tag = some c →
        (x.st = .unused → Does (.kilnStreamOpen tag) s (s.complete 0 0 tag .notInThisState))
        ∧ (∀ st, x.st ≠ .unused → s.kilnKeysBad (x.keys.drop (x.cur.getD 0)) x.sid = some st →
            Does (.kilnStreamOpen tag) s (s.complete 0 0 tag st))
        ∧ (x.st ≠ .unused → s.kilnKeysBad (x.keys.drop (x.cur.getD 0)) x.sid = none →
          (s.nsNamed x.ns = none → Does (.kilnStreamOpen tag) s (s.complete 0 0 tag .fieldInvalid))
          ∧ (∀ m, s.nsNamed x.ns = some m →
            (m.evidence = false ∨ (m.streamId ≠ 0 ∧ m.streamId ≠ x.sid) → Does (.kilnStreamOpen tag) s (s.complete 0 0 tag .fieldInvalid))
            ∧ (m.evidence = true → m.streamId = 0 ∨ m.streamId = x.sid →
              (x.st ≠ .closed ∨ x.openTag.isSome = true ∨ s.nsTaken i x.ns = true →
                Does (.kilnStreamOpen tag) s (s.complete 0 0 tag .notInThisState))
              ∧ (x.st = .closed → x.openTag = none → s.nsTaken i x.ns = false →
                ((s.port m.port).st ≠ 2 → Does (.kilnStreamOpen tag) s (s.complete 0 0 tag .backendUnavailable))
                ∧ ((s.port m.port).st = 2 →
                  (s.kilnTotalsBad i = true → Does (.kilnStreamOpen tag) s (s.complete 0 0 tag .poolExhausted))
                  ∧ (s.kilnTotalsBad i = false → s.usableKey x = none → Does (.kilnStreamOpen tag) s (s.complete 0 0 tag .keySpent))
                  ∧ (s.kilnTotalsBad i = false → (s.usableKey x).isSome = true → Does (.kilnStreamOpen tag) s
                      (((s.markStarted 0 0 tag).withStream i fun y => { y with
                        openTag := some tag, engine := some s.sealEngine, leaseWrite := some (m.lease + 1048576) }).emit
                        (.nvme m.port 0 0x106 x.ns 0 0 (leBytes 4 x.sid ++ leBytes 8 (m.lease + 1048576)))))))))))
    ∧ (s.starting? 0x2C 0 0 tag = some c →
        (x.st ≠ .closed ∨ x.openTag.isSome = true → Does (.kilnStreamDelete tag) s (s.complete 0 0 tag .notInThisState))
        ∧ (x.st = .closed → x.openTag = none → ∃ y : Stream, y.st = .unused ∧ y.bind = 0 ∧ y.cur = none ∧ y.segs = x.segs
            ∧ y.nextSeq = x.nextSeq ∧ Does (.kilnStreamDelete tag) s (((s.withStream i fun _ => y).event 160).complete 0 0 tag .ok)))
    ∧ s.sealEngine < 4 ∧ ∀ e, e < 4 → s.engineRate s.sealEngine ≤ s.engineRate e ∧ (s.engineRate e = s.engineRate s.sealEngine → s.sealEngine ≤ e)

/-- A kiln stream in hand is closed, re-keyed, read and bound to another CQ (R283, R284, R302, Table 10-4): CLOSE is for an OPEN or PAUSED
stream, drops and counts what it queues, and closes its open segment with reason 3, CLOSED at once without one; KEYS keeps the key in use in
front of the new ones, eight in all, and lets a stream that ran out of keys go on; GET gives the record in force; INDEX binds the named CQ
and answers with the number of segments it had not notified. -/
def Obligations.KilnStreamsManaged : Prop :=
  ∀ (s : State) (tag : Nat) (c : Ctx),
    let i := bits (dw c.entry 1) 0 6
    let x := s.stream i
    (s.starting? 0x2A 0 0 tag = some c →
        (x.st ≠ .opened → x.st ≠ .paused → Does (.kilnStreamClose tag) s (s.complete 0 0 tag .notInThisState))
        ∧ (x.st = .opened ∨ x.st = .paused →
            let u := ((s.markStarted 0 0 tag).dadd (streamIdx i) 0x0B x.queue.length).withStream i fun y => { y with
              queue := [], closeTag := some tag }
            (x.openSeg.isSome = true → Does (.kilnStreamClose tag) s (((u.closeSeg i 3).streamTo i .closing).closingSettle i))
            ∧ (x.openSeg = none → Does (.kilnStreamClose tag) s ((((u.streamTo i .closed).withStream i fun y => { y with
                engine := none, ports := [], closeTag := none })).complete 0 0 tag .ok x.lastCommitted))))
    ∧ (∀ list, s.starting? 0x2B 0 0 tag = some c →
        (∀ st, s.kilnBuffer c 16 list = .error st → Does (.kilnStreamKeys tag list) s (s.complete 0 0 tag st))
        ∧ (∀ b, s.kilnBuffer c 16 list = .ok b →
          ((∃ k ∈ keyList b, 4095 < k) → Does (.kilnStreamKeys tag list) s (s.complete 0 0 tag .outOfRange))
          ∧ (∀ st, (∀ k ∈ keyList b, k ≤ 4095) → s.kilnKeysBad (keyList b) x.sid = some st →
              Does (.kilnStreamKeys tag list) s (s.complete 0 0 tag st))
          ∧ ((∀ k ∈ keyList b, k ≤ 4095) → s.kilnKeysBad (keyList b) x.sid = none → x.st = .unused ∨ x.st = .closing →
              Does (.kilnStreamKeys tag list) s (s.complete 0 0 tag .notInThisState))
          ∧ ((∀ k ∈ keyList b, k ≤ 4095) → s.kilnKeysBad (keyList b) x.sid = none → x.st ≠ .unused → x.st ≠ .closing →
              let keys := ((match x.slot with
                | some k => [k]
                | none => []) ++ keyList b).take 8
              let enc := (keys.map (leBytes 2)).flatten
              let u := s.withStream i fun y => { y with
                cur := y.cur.map fun _ => 0, record := overlay y.record 20 (enc ++ List.replicate (16 - enc.length) 0xFF) }
              Does (.kilnStreamKeys tag list) s
                ((if x.st = .paused ∧ x.cause = Status.keySpent.code ∧ (u.usableKey (u.stream i)).isSome then u.streamTo i .opened
                  else u).complete 0 0 tag .ok (keys.length - 1)))))
    ∧ (∀ buf, s.starting? 0x2D 0 0 tag = some c →
        let d := descAt c.entry 8
        let w := s.scatter 0 d 0 buf x.record
        (s.descOwn 0 d = false → Does (.kilnStreamGet tag buf) s (s.complete 0 0 tag .notYourInstance))
        ∧ (s.descOwn 0 d = true → d.list = false → d.len < 64 → Does (.kilnStreamGet tag buf) s (s.complete 0 0 tag .outOfRange))
        ∧ (s.descOwn 0 d = true → d.list = true ∨ 64 ≤ d.len → x.st = .unused →
            Does (.kilnStreamGet tag buf) s (s.complete 0 0 tag .notInThisState))
        ∧ (s.descOwn 0 d = true → d.list = true ∨ 64 ≤ d.len → x.st ≠ .unused →
            Does (.kilnStreamGet tag buf) s (w.1.complete 0 0 tag (w.2.getD .ok))))
    ∧ (s.starting? 0x2E 0 0 tag = some c →
        let q := bits (dw c.entry 2) 0 16
        let n := bits (dw c.entry 2) 16 6
        (q = 0 → Does (.kilnStreamIndex tag) s (s.complete 0 0 tag .outOfRange))
        ∧ (q ≠ 0 → s.cq? n q = none → Does (.kilnStreamIndex tag) s (s.complete 0 0 tag .fieldInvalid))
        ∧ (q ≠ 0 → (s.cq? n q).isSome = true → x.st = .unused ∨ x.st = .closing →
            Does (.kilnStreamIndex tag) s (s.complete 0 0 tag .notInThisState))
        ∧ (q ≠ 0 → (s.cq? n q).isSome = true → x.st ≠ .unused → x.st ≠ .closing →
            let u := s.withStream i fun y => { y with
              bind := 1, bindFn := n, bindCq := q
              record := overlay (overlay y.record 10 (leBytes 2 q ++ leBytes 1 n)) 7 (leBytes 1 (bits (dw c.entry 2) 22 1)) }
            Does (.kilnStreamIndex tag) s ((u.rangePost i).complete 0 0 tag .ok (s.dget (streamIdx i) 0x0D))))

/-- A lease write ends (R291, Table 10-13): of a stream that opens, it raises the namespace's lease and the stream is OPEN with the old
lease as its next sequence, answering with its low 32 bits and the engine; a failed one, or one during the power-fail stop or with the SSD
lost, leaves it CLOSED with the status for that; of an OPEN stream the lease grows and nothing else moves. Frames of a stream and its
segments (R286–R289, R296–R300, Table 10-2): a frame of a stream neither OPEN nor PAUSED is dropped and counted, and one past QUEUE_KIB
leaves a gap as well; else it queues, its port noted. An admission moves a frame at most, and only of an OPEN stream with the stops ended,
KILN on and no evidence held. A segment closes with the GCM tag over its header and records, its close time and reason, and takes the
position of its trailer; a commit adds to the counters. The ages close the open segment with reason 2, and issue its full blocks. The blocks
of a segment on the media (R288–R290, Tables 10-7 and 10-8): the nonce is the STREAM_ID, two zero bytes and the sequence; header, data and
trailer blocks have 4,096 bytes each; the header begins with its magic and holds the STREAM_ID at 8; the trailer ends with its own check. -/
def Obligations.KilnFrames : Prop :=
  (∀ (s : State) (i : Nat),
      let x := s.stream i
      let p := s.streamPort x
      (x.leaseWrite = none → ∀ ok, Does (.leaseWritten i ok) s s)
      ∧ (∀ l t m, x.leaseWrite = some l → x.openTag = some t → s.ns? x.ns = some m → s.kiln.pf = none → m.port < 2 → s.port m.port = s.port p →
          (s.port p).st = 2 → s.kiln.stopped = false →
          (∃ u y : Stream, y.st = .opened ∧ y.nextSeq = m.lease ∧ y.lease = l ∧ y.first = true ∧ y.cause = 0 ∧ y.gap = 0 ∧ y.queue = []
            ∧ y.openTag = none ∧ y.leaseWrite = none ∧ y.record = x.record ∧ y.engine = x.engine ∧ y.segs = x.segs ∧ u.record = x.record
            ∧ (x.st ≠ .opened → Does (.leaseWritten i true) s ((((s.withStream i fun _ => u).withNs x.ns fun n => { n with
                lease := l, streamId := if n.streamId = 0 then x.sid else n.streamId }).withStream i fun _ => y).event 160
                  |>.complete 0 0 t .ok (m.lease % 2 ^ 32) (x.engine.getD 0))))
          ∧ Does (.leaseWritten i false) s (((s.withStream i fun y => { y with leaseWrite := none }).withStream i fun y => { y with
              openTag := none, engine := none }).complete 0 0 t .mediaError))
      ∧ (∀ l, x.leaseWrite = some l → x.openTag = none → x.bound = true → Does (.leaseWritten i true) s
          (((s.withStream i fun y => { y with leaseWrite := none }).withNs x.ns fun n => { n with
            lease := l, streamId := if n.streamId = 0 then x.sid else n.streamId }).withStream i fun y => { y with lease := l })))
  ∧ (∀ (s : State) (i : Nat),
      let x := s.stream i
      (∀ f, x.st ≠ .opened → x.st ≠ .paused → s.kilnFrame i f = s.dinc (streamIdx i) 0x0B)
      ∧ (∀ f, x.st = .opened ∨ x.st = .paused → s.kiln.stopped = false → x.queueKib * 1024 < x.queued + f.data.length →
          i < 64 →
          ((s.kilnFrame i f).stream i).gap = x.gap + 1 ∧ ((s.kilnFrame i f).stream i).gapNext = true
          ∧ ((s.kilnFrame i f).stream i).queue = x.queue
          ∧ (s.kilnFrame i f).dget (streamIdx i) 0x0B = (s.dget (streamIdx i) 0x0B + 1) % 2 ^ 64)
      ∧ (∀ f, x.st = .opened ∨ x.st = .paused → s.kiln.stopped = false → x.queued + f.data.length ≤ x.queueKib * 1024 →
          ((s.kilnFrame i f).stream i).queue = x.queue ++ [f] ∧ f.port ∈ ((s.kilnFrame i f).stream i).ports
          ∧ ((s.kilnFrame i f).stream i).segs = x.segs ∧ (s.kilnFrame i f).out = s.out ∧ (s.kilnFrame i f).dram = s.dram)
      ∧ Does (.kilnAdmission i) s (s.admission i)
      ∧ (x.st ≠ .opened → (x.st = .paused → x.cause ≠ Status.evidenceFull.code) → s.admission i = s)
      ∧ (x.st = .opened → s.kiln.stopped = true ∨ s.domOn domKILN = false ∨ s.evidenceHeld = true ∨ x.queue = [] → s.admission i = s)
      ∧ Does (.segmentAgeExpiry i) s (s.closeSeg i 2)
      ∧ (∀ reason, x.openSeg = none → s.closeSeg i reason = s)
      ∧ (∀ reason g, x.openSeg = some g →
          let tag := (aesGcm g.key (segNonce x.sid g.seq) (headerBlock x i g) g.payload true).2
          s.closeSeg i reason = (((((s.withSeg i g.seq fun h => { h with
            reason := some reason, closeTime := s.time.ns, pf := reason == 4, dropped := s.dget (streamIdx i) 0x0B - h.dropBase, tag := tag
            }).withStream i fun y => { y with lastTag := tag }).takePositions x.ns 1).issueRun i g.seq).issueTrailer i g.seq).stagingCheck)
      ∧ (∀ g, x.openSeg = some g → Does (.runAgeExpiry i) s (s.issueRun i g.seq))
      ∧ (x.openSeg = none → Does (.runAgeExpiry i) s s)
      ∧ (∀ g, s.commitSeg i g = ((((s.dadd 0x2105 1 g.payload.length).dadd (streamIdx i) 0x0A g.payload.length).dinc (streamIdx i) 0x0C).dset
          (streamIdx i) 0x10 s.time.ns |>.withStream i fun y => { y with
            segs := y.segs.filter fun h => h.seq != g.seq, lastCommitted := g.seq }).notify i g))
  ∧ (∀ (x : Stream) (i j : Nat) (g : Segment),
      (segNonce x.sid g.seq).length = 12 ∧ segNonce x.sid g.seq = leBytes 4 x.sid ++ zeros 2 ++ leBytes 6 g.seq
      ∧ (headerBlock x i g).length = 4096 ∧ (dataBlock x g j).length = 4096 ∧ (trailerBlock x i g).length = 4096
      ∧ leAt (headerBlock x i g) 0 4 = 0x4E4C494B ∧ leAt (trailerBlock x i g) 0 4 = 0x52544C4B
      ∧ sub (trailerBlock x i g) 4092 4 = leBytes 4 (kilnCheck x.sid g.seq (g.d + 1) (sub (trailerBlock x i g) 0 4092)))

/-- Cipher jobs (R310–R319, R322, R326, Tables 11-4 to 11-6): each of the 17 commands is refused for a reserved field, then by its checks,
and else waits for an engine with the engine it names, or for any; the checks of an engine and of a slot are as R313 and Table 11-10 give. A
job whose turn it is starts on its engine, takes the slot's key with one use of it, and begins with its lists; an engine that has all its
input ends its job. Engines and their locks (R311–R313): a write of n + 1 to HST_ELOCKe takes a free engine for an ACTIVE instance below its
limit, with event 224, and with all 16 locked ends the jobs that wait for any; a write of 0 by its holder releases it; nothing else changes
a lock, and before READY the write has no effect. -/
def Obligations.CipherJobs : Prop :=
  ((∀ (s : State) (n q tag : Nat) (c : Ctx),
      ∀ p ∈ [(0x60, Instr.gcmEncrypt n q tag), (0x61, .gcmDecrypt n q tag), (0x62, .ccmEncrypt n q tag), (0x63, .ccmDecrypt n q tag),
        (0x64, .ctr n q tag), (0x65, .cbcEncrypt n q tag), (0x66, .cbcDecrypt n q tag), (0x67, .xtsEncrypt n q tag),
        (0x68, .xtsDecrypt n q tag), (0x69, .chacha20Poly1305Encrypt n q tag), (0x6A, .chacha20Poly1305Decrypt n q tag),
        (0x6B, .cmacGenerate n q tag), (0x6C, .cmacVerify n q tag), (0x6D, .sha256 n q tag), (0x6E, .sha384 n q tag),
        (0x6F, .hmacGenerate n q tag), (0x70, .hmacVerify n q tag)],
      s.starting? p.1 n q tag = some c →
        (cipherZeroOk p.1 c.entry = false → Does p.2 s (s.complete c.fn c.queue c.tag .fieldInvalid))
        ∧ (∀ st, cipherZeroOk p.1 c.entry = true → s.cipherCheck c.fn p.1 c.entry = some st → Does p.2 s (s.complete c.fn c.queue c.tag st))
        ∧ (cipherZeroOk p.1 c.entry = true → s.cipherCheck c.fn p.1 c.entry = none → ∃ j : CJob, j.fn = c.fn ∧ j.queue = c.queue
            ∧ j.tag = c.tag ∧ j.on = none ∧ j.named = (if cjEngine c.entry = 31 then none else some (cjEngine c.entry))
            ∧ j.slot = (if p.1 = 0x6D ∨ p.1 = 0x6E then 0xFFFF else cjSlot c.entry) ∧ j.key = [] ∧ j.reads = []
            ∧ Does p.2 s ((s.markStarted c.fn c.queue c.tag).withCipher fun x => { x with jobs := x.jobs ++ [j] })))
    ∧ (∀ (s : State) (n e : Nat),
        (s.engineRefusal n 31 = none ↔ ∃ k, k < 16 ∧ s.engineOwner k = none)
        ∧ (e ≠ 31 → s.engineOwner e = none → s.engineRefusal n e = some .notYourInstance)
        ∧ (e ≠ 31 → s.engineOwner e = some n → s.engineRefusal n e = none)
        ∧ (∀ m, e ≠ 31 → s.engineOwner e = some m → m ≠ n → s.engineRefusal n e = some .engineLocked))
    ∧ (∀ (s : State) (op k : Nat), (cipherKind op).mode ≠ 0 →
        (s.slot? k = none → s.slotRefusal op k = some .keyEmpty)
        ∧ (∀ x, s.slot? k = some x → (s.slotRefusal op k = none ↔ x.mode = (cipherKind op).mode ∧ (x.usage &&& (cipherKind op).need) ≠ 0
            ∧ bit x.usage 6 = false ∧ (x.restoring = true ∨ x.count < x.limit))))
    ∧ (∀ (s : State) (n q tag e : Nat) (j : CJob) (c : Ctx), s.cjob? n q tag = some j → s.ctx? n q tag = some c → j.on = none →
        s.domOn domCIPHER = true → s.kiln.stopped = false →
        (s.engineFor j = none → Does (.cipherJobStart n q tag) s s)
        ∧ (s.engineFor j = some e → s.slotWaits c.op j.slot = true → Does (.cipherJobStart n q tag) s s)
        ∧ (∀ st, s.engineFor j = some e → s.slotWaits c.op j.slot = false → s.slotRefusal c.op j.slot = some st →
            Does (.cipherJobStart n q tag) s (s.cipherEnd j st 0))
        ∧ (∀ x, s.engineFor j = some e → s.slot? j.slot = some x → x.restoring = false → x.leaseHolds = false →
            s.slotRefusal c.op j.slot = none → (cipherKind c.op).mode ≠ 0 →
            let u := s.withCJob n q tag fun y => { y with on := some e, key := x.key, type := x.type, reads := s.listReads c.op c.entry }
            Does (.cipherJobStart n q tag) s ((if j.named = none then u.withCipher fun y => { y with turn := n } else u).keyUse j.slot)))
    ∧ (∀ (s : State) (n q tag : Nat), s.cjob? n q tag = none → Does (.cipherJobStart n q tag) s s)
    ∧ (∀ (s : State) (e : Nat),
        (s.engineJob e = none → Does (.cipherJobDone e) s s)
        ∧ (∀ j c, s.engineJob e = some j → s.ctx? j.fn j.queue j.tag = some c → s.domOn domCIPHER = true → s.kiln.stopped = false →
            (j.phase ≠ 1 ∨ j.readsDone = false → Does (.cipherJobDone e) s s)
            ∧ (j.phase = 1 → j.readsDone = true → Does (.cipherJobDone e) s (s.cipherFinish j c e)))))
  ∧ (∀ (s : State) (n e : Nat), s.decodes n = true →
      let h := s.hostActivity
      (s.boot.ready = false → Does (.engineTake n e) s h ∧ Does (.engineRelease n e) s h)
      ∧ (s.boot.ready = true →
        (h.engineOwner e = none → e < 16 → (h.inst n).st = .active → (h.enginesHeld n).length < h.limit n 14 1 →
            Does (.engineTake n e) s ((h.withCipher fun c => { c with locks := c.locks.put e n }).event 224).lockedOut)
        ∧ ((h.engineOwner e).isSome = true ∨ 16 ≤ e ∨ (h.inst n).st ≠ .active ∨ h.limit n 14 1 ≤ (h.enginesHeld n).length →
            Does (.engineTake n e) s h)
        ∧ (h.engineOwner e = some n → Does (.engineRelease n e) s ((h.withCipher fun c => { c with locks := c.locks.del e }).event 224))
        ∧ (h.engineOwner e ≠ some n → Does (.engineRelease n e) s h)))

/-- What a cipher job gives (R316, R317): CTR is its own inverse; the output of a GCM, CCM or ChaCha20-Poly1305 encryption, its tag taken
into TAG_IN of a decryption of the rest, is the plaintext again; with another tag the decryption fails with AUTH_TAG_MISMATCH; a generated
tag verifies, and CMAC and HMAC write TAG_LEN bytes at most. -/
def Obligations.CipherInverse : Prop :=
  ∀ (type : Nat) (e d key src aad : Bytes), cjIv d = cjIv e → cjTagLen d = cjTagLen e → key.length = 16 ∨ key.length = 24 ∨ key.length = 32 →
    (∀ p ∈ [(0x60, 0x61), (0x62, 0x63), (0x69, 0x6A)], (p.1 = 0x69 → key.length = 32 ∧ (cjIv e).length = 12) → ∀ out,
      cipherCompute p.1 type e key src aad = .ok out →
        out.length = src.length + (out.drop src.length).length
        ∧ (sub d 96 (cjTagLen d) = out.drop src.length → cipherCompute p.2 type d key (out.take src.length) aad = .ok src)
        ∧ (sub d 96 (cjTagLen d) ≠ out.drop src.length →
            cipherCompute p.2 type d key (out.take src.length) aad = .error (.authTagMismatch, src.length)))
    ∧ (∀ out, cipherCompute 0x64 type e key src aad = .ok out → cipherCompute 0x64 type d key out aad = .ok src)
    ∧ (∀ p ∈ [(0x6B, 0x6C), (0x6F, 0x70)], ∀ out, cipherCompute p.1 type e key src aad = .ok out →
        out.length ≤ cjTagLen e
        ∧ (sub d 96 (cjTagLen d) = out → cipherCompute p.2 type d key src aad = .ok [])
        ∧ (sub d 96 (cjTagLen d) ≠ out → cipherCompute p.2 type d key src aad = .error (.authTagMismatch, 0)))

/-- The key commands (R320, R321, R324–R329, R331, Table 11-10), on a slot of the instance with CIPHER on: GENERATE fills an EMPTY slot with
random bytes, COUNT 0 and its LIMIT, the cap where none is given; IMPORT takes a blob of the named form, EXPORT seals one with EXPORT set;
CLEAR empties a slot no bound stream lists, with its vault entry; INFO shows no key byte; SET_LIMIT only lowers. A slot of another instance
is NOT_YOUR_INSTANCE. -/
def Obligations.KeyCommands : Prop :=
  ∀ (s : State) (n q tag : Nat) (c : Ctx),
    let e := c.entry
    let k := c.keySlot
    let type := byteAt e 8
    let mode := byteAt e 9
    let usage := leAt e 10 2
    let len := if type = 7 ∨ type = 8 then byteAt e 12 else typeLen type
    let limit := leAt e 16 8
    (∀ r, ∀ p ∈ [(0x78, Instr.keyGenerate n q tag), (0x79, .keyImport n q tag r), (0x7A, .keyExport n q tag r), (0x7B, .keyClear n q tag),
        (0x7C, .keyInfo n q tag r), (0x7D, .keySetLimit n q tag)], s.starting? p.1 n q tag = some c →
      (s.domOn domCIPHER = false → Does p.2 s s)
      ∧ (s.domOn domCIPHER = true → s.ownsSlot n k = false → Does p.2 s (s.complete n q tag .notYourInstance)))
    ∧ (s.domOn domCIPHER = true → s.ownsSlot n k = true →
      (s.starting? 0x78 n q tag = some c →
        (attrsOutOfRange type mode usage = true ∨ 2 ^ 48 < limit → Does (.keyGenerate n q tag) s (s.complete n q tag .outOfRange))
        ∧ (attrsOutOfRange type mode usage = false → limit ≤ 2 ^ 48 → (s.slot? k).isSome = true →
            Does (.keyGenerate n q tag) s (s.complete n q tag .notInThisState))
        ∧ (attrsOutOfRange type mode usage = false → limit ≤ limitCap mode usage → s.slot? k = none → attrsAgree type mode usage len = true →
            type = 7 ∨ type = 8 ∨ byteAt e 12 = 0 → bit usage 8 = false → ∃ x : KeySlot, x.type = type ∧ x.mode = mode ∧ x.usage = usage
              ∧ x.key.length = len ∧ x.count = 0 ∧ x.limit = (if limit = 0 then limitCap mode usage else limit) ∧ x.restoring = false
              ∧ x.lease = 0 ∧ Does (.keyGenerate n q tag) s (({ s with free := s.free + 1 }.setSlot k x).keyEnd c k false .ok 0)))
      ∧ (∀ blob, s.starting? 0x79 n q tag = some c → s.descOwn n (descAt e 16) = true → byteAt e 8 = 0 → leAt e 10 2 ≤ 0x1FF →
          leAt e 12 2 = 0 → (descAt e 16).list = true ∨ 128 ≤ (descAt e 16).len →
          ((s.slot? k).isSome = true → Does (.keyImport n q tag blob) s (s.complete n q tag .notInThisState))
          ∧ (∀ b, s.slot? k = none → s.gather n (descAt e 16) 128 0 blob = .ok b →
            (blobShaped b 0 = false → Does (.keyImport n q tag blob) s (s.complete n q tag .fieldInvalid))
            ∧ (blobShaped b 0 = true → n ≠ 0 → s.dget (0x2840 + n) 1 = 0 →
                Does (.keyImport n q tag blob) s (s.complete n q tag .notYourInstance))
            ∧ (∀ x, blobShaped b 0 = true → n = 0 ∨ s.dget (0x2840 + n) 1 ≠ 0 → bit (leAt b 8 2 &&& leAt e 10 2) 8 = false →
                s.blobCheck n (blobSlot b (sub b 48 64)) (leAt e 10 2) = .ok x → Does (.keyImport n q tag blob) s (s.fillSlot c k x))))
      ∧ (∀ buf, s.starting? 0x7A n q tag = some c → s.descOwn n (descAt e 16) = true → byteAt e 8 = 2 → leAt e 12 2 = 0 →
          (descAt e 16).list = true ∨ 128 ≤ (descAt e 16).len →
          (s.slot? k = none → Does (.keyExport n q tag buf) s (s.complete n q tag .notInThisState))
          ∧ (∀ x, s.slot? k = some x → x.restoring = false →
            (bit x.usage 7 = false → Does (.keyExport n q tag buf) s (s.complete n q tag .keyUsage))
            ∧ (bit x.usage 7 = true → s.sealStore.lifecycle = 2 → Does (.keyExport n q tag buf) s (s.complete n q tag .notInThisState))
            ∧ (bit x.usage 7 = true → s.sealStore.lifecycle ≠ 2 → ∃ nonce : Bytes, nonce.length = 12
                ∧ ∀ u, { s with free := s.free + 1 }.scatter n (descAt e 16) 0 buf (sealBlob (formTwoKey n) 2 n nonce x) = (u, none) →
                  Does (.keyExport n q tag buf) s (u.keyEnd c k false .ok 128))))
      ∧ (s.starting? 0x7B n q tag = some c →
          (s.slotListed k = true → Does (.keyClear n q tag) s (s.complete n q tag .notInThisState))
          ∧ (s.slotListed k = false → s.cipher.vault.get? k = none → (∀ w ∈ s.cipher.writes, w.slot ≠ k) →
              Does (.keyClear n q tag) s ((s.emptySlot k).keyEnd c k false .ok 0))
          ∧ (s.slotListed k = false → (s.cipher.vault.get? k).isSome = true → Does (.keyClear n q tag) s
              (((s.emptySlot k).vaultPush ⟨k, none, false, some (n, q, tag), none⟩).keyEnd c k true .ok 0)))
      ∧ (∀ buf, s.starting? 0x7C n q tag = some c → s.descOwn n (descAt e 16) = true → (descAt e 16).list = true ∨ 48 ≤ (descAt e 16).len →
          ∀ u, s.scatter n (descAt e 16) 0 buf (blobHead (s.slotState k) 0xFF [] ((s.slot? k).getD ⟨false, 0, 0, 0, [], 0, 0, 0, false, 0⟩))
            = (u, none) → Does (.keyInfo n q tag buf) s (u.keyEnd c k false .ok 48))
      ∧ (s.starting? 0x7D n q tag = some c →
          let l := leAt e 8 8
          (s.slot? k = none → Does (.keySetLimit n q tag) s (s.complete n q tag .notInThisState))
          ∧ (∀ x, s.slot? k = some x →
            (2 ^ 48 < l → Does (.keySetLimit n q tag) s (s.complete n q tag .outOfRange))
            ∧ (l ≤ 2 ^ 48 → x.restoring = true ∨ x.limit ≤ x.count ∨ s.slotListed k = true →
                Does (.keySetLimit n q tag) s (s.complete n q tag .notInThisState))
            ∧ (l ≤ 2 ^ 48 → x.restoring = false → x.count < x.limit → s.slotListed k = false →
                (x.limit < l → Does (.keySetLimit n q tag) s (s.complete n q tag .outOfRange))
                ∧ (l ≤ x.limit → x.count < l → Does (.keySetLimit n q tag) s
                    ((s.setSlot k { x with limit := l }).keyEnd c k false .ok 0))
                ∧ (l ≤ x.limit → l ≤ x.count → Does (.keySetLimit n q tag) s
                    (((s.setSlot k { x with limit := l }).slotSpent k).keyEnd c k false .ok 0))))))

/-- Check jobs, the key vault and the key store (R331–R335, Tables 11-13, 11-14 and 11-16): a check job is refused by owner, length and
fields, and else starts with its first value; a vault write that fails is tried in the other copy with event 230, one that succeeds leaves
its entry in the vault; the restore makes the RESTORING slots LIVE with COUNT at their lease, and in RETIRED nothing; a slot with a
double-bit error is EMPTY, and its waiting jobs end with KEY_EMPTY. -/
def Obligations.ChecksAndVault : Prop :=
  ∀ (s : State) (n q tag : Nat) (c : Ctx),
    (∀ p ∈ [(0x80, Instr.checkCompute n q tag), (0x81, .checkBlocks n q tag), (0x82, .checkVerifyBlocks n q tag)],
      s.starting? p.1 n q tag = some c →
        let src := kjSrc c.entry
        let arr := kjArray c.entry
        let o := dw c.entry 1
        (s.descOwn c.fn src = false ∨ (p.1 ≠ 0x80 ∧ s.descOwn c.fn arr = false) → Does p.2 s (s.complete c.fn c.queue c.tag .notYourInstance))
        ∧ (s.descOwn c.fn src = true → s.descOwn c.fn arr = true → src.list = false →
            checkLenOut p.1 src.len = true ∨ (p.1 ≠ 0x80 ∧ arr.list = false ∧ arr.len < src.len / 4096 * 4) →
            Does p.2 s (s.complete c.fn c.queue c.tag .outOfRange))
        ∧ (s.descOwn c.fn src = true → s.descOwn c.fn arr = true → src.list = true ∨ (checkLenOut p.1 src.len = false
            ∧ (p.1 = 0x80 ∨ arr.list = true ∨ src.len / 4096 * 4 ≤ arr.len)) →
          (p.1 = 0x80 → bit o 1 = false → bit o 0 = true → Does p.2 s (s.complete c.fn c.queue c.tag .fieldInvalid))
          ∧ (p.1 ≠ 0x80 ∨ bit o 1 = true ∨ bit o 0 = false →
            let start := if bit o 1 then (if bit o 0 then crcRun 0xFFFFFFFF (foldHeader c.fn c.entry 0) else 0xFFFFFFFF) else dw c.entry 2
            let u := ((s.markStarted c.fn c.queue c.tag).withCipher fun x => { x with
              checks := x.checks ++ [⟨c.fn, c.queue, c.tag, none, start, 0, 0, none⟩] }).checkAssign 8
            Does p.2 s (u.dmax 0x2900 5 u.checksWaiting.length))))
    ∧ (∀ unit a b,
        ((s.cipher.checks.find? fun j => j.unit == some unit) = none → Does (.checkSliceDone unit a b) s s)
        ∧ (∀ j x, (s.cipher.checks.find? fun j => j.unit == some unit) = some j → s.ctx? j.fn j.queue j.tag = some x →
            (s.domOn domCIPHER = true → Does (.checkSliceDone unit a b) s (s.checkSlice j x a b))
            ∧ (s.domOn domCIPHER = false → Does (.checkSliceDone unit a b) s s)))
    ∧ (s.cipher.writes = [] → ∀ ok, Does (.vaultWriteDone ok) s s)
    ∧ (∀ w rest, s.cipher.writes = w :: rest →
        (w.retried = false → Does (.vaultWriteDone false) s
          (((s.event 230).withCipher fun k => { k with writes := { w with retried := true } :: rest }).vaultSend))
        ∧ (w.retried = true → ∃ u : State, u.cipher.writes = rest ∧ u.cipher.vault = s.cipher.vault ∧ u.cipher.keys = s.cipher.keys
            ∧ u.cipher.jobs = s.cipher.jobs ∧ u.dict = s.dict ∧ u.dram = s.dram ∧ u.q = s.q
            ∧ Does (.vaultWriteDone false) s ((u.vaultAnswer w false).vaultSend))
        ∧ (∀ x, w.entry = some x → ∃ u : State, u.cipher.writes = rest ∧ u.cipher.vault = s.cipher.vault.put w.slot x
            ∧ u.cipher.jobs = s.cipher.jobs ∧ u.eg = s.eg ∧ u.dict = s.dict ∧ Does (.vaultWriteDone true) s ((u.vaultAnswer w true).vaultSend))
        ∧ (w.entry = none → ∃ u : State, u.cipher.writes = rest ∧ u.cipher.vault = s.cipher.vault.del w.slot
            ∧ u.cipher.jobs = s.cipher.jobs ∧ u.eg = s.eg ∧ u.dict = s.dict ∧ Does (.vaultWriteDone true) s ((u.vaultAnswer w true).vaultSend)))
    ∧ (s.cipher.restore = false → Does .vaultRestore s s)
    ∧ (s.cipher.restore = true → s.sealStore.lifecycle = 2 → Does .vaultRestore s
        (((s.withCipher fun k => { k with restore := false }).event 230).dset 0x2800 6 Status.notInThisState.code))
    ∧ (s.cipher.restore = true → s.sealStore.lifecycle ≠ 2 → ∃ u : State, u.cipher.restore = false
        ∧ (∀ k x, s.slot? k = some x → u.slot? k = some (if x.restoring then { x with
            restoring := false, count := x.lease, lease := x.lease + 0x100000 } else x))
        ∧ (∀ k, s.slot? k = none → u.slot? k = none) ∧ u.cipher.vault = s.cipher.vault
        ∧ u.dict = s.dict ∧ Does .vaultRestore s ((u.event 229).dset 0x2800 6 Status.ok.code))
    ∧ (∀ k, ∃ u : State, u = (s.emptySlot k).logCls 7 .critical Status.keyEmpty.code (leBytes 2 k) ∧ u.slot? k = none
        ∧ (∀ m, m ≠ k → u.slot? m = s.slot? m)
        ∧ ((∀ j ∈ s.waitingJobs, j.slot ≠ k) → Does (.keyStoreDoubleBitError k) s u))

/-- A frame on a physical port (R341, R343, R345, R369, Table 12-2): unheard with the link down or the pipeline off; counted in 0x2000:07
while the device drains; dropped and counted for a bad FCS, a length outside 64 to MTU bytes, a MAC control frame, a Zelud tag on an access
port; else counted with its bytes and decided at its time of arrival. A frame without tags in VLAN 0 takes the port's PVID; a copy never
leaves by the port it came by. -/
def Obligations.FramesTaken : Prop :=
  ∀ (s : State) (p : Nat) (b : Bytes) (ok : Bool) (stamp : Nat),
    let l := b.length + 4
    let et := beAt b 12 2
    (20 ≤ p ∨ s.receives p = false → Does (.frameReceived p b ok stamp) s s)
    ∧ (p < 20 → s.receives p = true →
      (s.draining = true → Does (.frameReceived p b ok stamp) s (s.dinc 0x2000 7))
      ∧ (s.draining = false →
        (ok = false → Does (.frameReceived p b ok stamp) s (s.dinc (pIdx p 2) 3))
        ∧ (ok = true → l < 64 ∨ s.dget (pIdx p 0) 4 < l → Does (.frameReceived p b ok stamp) s (s.dinc (pIdx p 2) 4))
        ∧ (ok = true → 64 ≤ l → l ≤ s.dget (pIdx p 0) 4 →
          let u := (s.dinc (pIdx p 2) 1).dadd (pIdx p 2) 2 l
          let t := ((stamp : Int) + s.dint (pIdx p 4) 2).toNat
          (et = 0x8808 → Does (.frameReceived p b ok stamp) s (s.dinc (pIdx p 2) 5))
          ∧ (et = 0x88B5 → 4 ≤ p → Does (.frameReceived p b ok stamp) s (u.dinc (pIdx p 2) 6))
          ∧ (et ≠ 0x8808 → et ≠ 0x88B5 → Does (.frameReceived p b ok stamp) s (u.classify ⟨p, none, none, false⟩ b t))
          ∧ (∀ r east, et = 0x88B5 → p < 4 → u.ringOf p = some (r, east) →
              Does (.frameReceived p b ok stamp) s (u.zeludFrame p r east b t)))))
    ∧ (∀ d : Decided, d.origin.port = p → s.copyPort d p = s)
    ∧ (∀ members untag f vid, inVlan members vid = false → retag members untag b f vid = none)
    ∧ (∀ members untag vid c, (parseFrame b).tagged = false → retag members untag b (parseFrame b) vid = some c →
        c = b ∨ c = b.take 12 ++ [0x81, 0x00] ++ beBytes 2 vid ++ b.drop 12)

/-- The forwarding table and its commands (R351–R354, R361–R364, Table 12-6): a key has two buckets; what an instance inserts is found under
its key, with bits 1 to 3 of FLAGS clear; DELETE, LOOKUP, STAGE, UNLOCK, READ and LOCK answer as R361 to R363 give; a handle held too long
is freed with event 312; a bucket with a double-bit error loses its entries. With PIPE off they wait. -/
def Obligations.ForwardingTable : Prop :=
  (∀ k, (keyHash k).1 < 65536 ∧ (keyHash k).2 < 65536 ∧ (keyHash k).1 ≠ (keyHash k).2)
  ∧ (∀ (s t : State) (n i : Nat) (raw : Bytes), s.tblInsert n raw false = (.done .ok i, t) →
      t.pipe.table.lookup (raw.take 48) = some (i, withFlags (padTo 64 raw) (entryFlags raw % 2))
      ∧ t.dram = s.dram ∧ t.out = s.out ∧ t.q = s.q ∧ t.insts = s.insts)
  ∧ (∀ (s : State) (n q tag : Nat) (buf : HostRead) (c : Ctx),
    let d := descAt c.entry 16
    let h := bits (dw c.entry 1) 0 8
    (s.domOn domPIPE = false → ∀ i ∈ [Instr.tblInsert n q tag buf, .tblDelete n q tag buf, .tblLookup n q tag buf, .tblLock n q tag buf,
        .tblStage n q tag buf, .tblUnlock n q tag, .tblRead n q tag buf, .vpSend n q tag buf, .vpRxBind n q tag buf, .vpRxReturn n q tag],
        Does i s s)
    ∧ (s.domOn domPIPE = true →
      (∀ p ∈ [(0xA0, 64, Instr.tblInsert n q tag buf), (0xA1, 48, .tblDelete n q tag buf), (0xA2, 64, .tblLookup n q tag buf),
          (0xA3, 48, .tblLock n q tag buf), (0xA4, 64, .tblStage n q tag buf)], s.starting? p.1 n q tag = some c →
        (s.descOwn n d = false → Does p.2.2 s (s.complete n q tag .notYourInstance))
        ∧ (s.descOwn n d = true → d.list = false → d.len < p.2.1 → Does p.2.2 s (s.complete n q tag .outOfRange))
        ∧ (∀ st, s.descOwn n d = true → d.list = true ∨ p.2.1 ≤ d.len → s.gather n d p.2.1 0 buf = .error st →
            Does p.2.2 s (s.complete n q tag st)))
      ∧ (∀ b, s.descOwn n d = true → d.list = true ∨ 64 ≤ d.len → s.gather n d 64 0 buf = .ok b →
        (s.starting? 0xA0 n q tag = some c → Does (.tblInsert n q tag buf) s ((s.markStarted n q tag).tblBegin ⟨n, q, tag, b, []⟩))
        ∧ (s.starting? 0xA2 n q tag = some c →
            (s.pipe.table.lookup (b.take 48) = none → Does (.tblLookup n q tag buf) s (s.complete n q tag .notInThisState))
            ∧ (∀ i e, s.pipe.table.lookup (b.take 48) = some (i, e) → n ≠ 0 → entryOwner e ≠ n →
                Does (.tblLookup n q tag buf) s (s.complete n q tag .notInThisState))
            ∧ (∀ i e u, s.pipe.table.lookup (b.take 48) = some (i, e) → n = 0 ∨ entryOwner e = n →
                s.scatter n d 0 (.bytes (HostRead.lists buf) []) e = (u, none) → Does (.tblLookup n q tag buf) s (u.complete n q tag .ok i)))
        ∧ (s.starting? 0xA4 n q tag = some c →
            let op := bits (dw c.entry 1) 8 2
            (op = 3 → Does (.tblStage n q tag buf) s (s.complete n q tag .outOfRange))
            ∧ (op ≠ 3 → s.handle? n h = none → Does (.tblStage n q tag buf) s (s.complete n q tag .notInThisState))
            ∧ (∀ x, op ≠ 3 → s.handle? n h = some x →
              let k := keyHash (b.take 48)
              (k.1 ≠ x.h0 → k.1 ≠ x.h1 → k.2 ≠ x.h0 → k.2 ≠ x.h1 → Does (.tblStage n q tag buf) s (s.complete n q tag .fieldInvalid))
              ∧ (k.1 = x.h0 ∨ k.1 = x.h1 ∨ k.2 = x.h0 ∨ k.2 = x.h1 → x.ops.length < 8 → Does (.tblStage n q tag buf) s
                  ((s.withTable fun t => { t with handles := t.handles.put h { x with ops := x.ops ++ [(op, b)] } }).complete
                    n q tag .ok (x.ops.length + 1)))
              ∧ (k.1 = x.h0 ∨ k.1 = x.h1 ∨ k.2 = x.h0 ∨ k.2 = x.h1 → 8 ≤ x.ops.length →
                  Does (.tblStage n q tag buf) s (s.complete n q tag .poolExhausted)))))
      ∧ (∀ b, s.descOwn n d = true → d.list = true ∨ 48 ≤ d.len → s.gather n d 48 0 buf = .ok b →
        (s.starting? 0xA3 n q tag = some c →
            Does (.tblLock n q tag buf) s ((s.markStarted n q tag).tblBegin ⟨n, q, tag, b, HostRead.lists buf⟩))
        ∧ (s.starting? 0xA1 n q tag = some c →
            (s.pipe.table.lookup b = none → Does (.tblDelete n q tag buf) s (s.complete n q tag .notInThisState))
            ∧ (∀ i e, s.pipe.table.lookup b = some (i, e) → n ≠ 0 → entryOwner e ≠ n →
                Does (.tblDelete n q tag buf) s (s.complete n q tag .notYourInstance))
            ∧ (∀ i e, s.pipe.table.lookup b = some (i, e) → n = 0 ∨ entryOwner e = n →
                Does (.tblDelete n q tag buf) s ((s.tableDel i).complete n q tag .ok i))))
      ∧ (s.starting? 0xA5 n q tag = some c →
          (s.descOwn n d = false → Does (.tblUnlock n q tag) s (s.complete n q tag .notYourInstance))
          ∧ (s.descOwn n d = true → d.len ≠ 0 → Does (.tblUnlock n q tag) s (s.complete n q tag .outOfRange))
          ∧ (s.descOwn n d = true → d.len = 0 → s.handle? n h = none → Does (.tblUnlock n q tag) s (s.complete n q tag .notInThisState))
          ∧ (∀ x, s.descOwn n d = true → d.len = 0 → s.handle? n h = some x →
            (bit (dw c.entry 1) 8 = false → Does (.tblUnlock n q tag) s ((s.handleFree h).complete n q tag .ok).tblRetry)
            ∧ (bit (dw c.entry 1) 8 = true →
                Does (.tblUnlock n q tag) s ((s.markStarted n q tag).tblBegin ⟨n, q, tag, [], []⟩).tblRetry)))
      ∧ (s.starting? 0xA6 n q tag = some c →
          let first := leAt c.entry 8 4
          let count := leAt c.entry 12 4
          (s.descOwn n d = true → 65536 < first ∨ (n ≠ 0 ∧ first = 65536) ∨ count = 0 ∨ 65536 < count →
              Does (.tblRead n q tag buf) s (s.complete n q tag .outOfRange))
          ∧ (∀ len u, s.descOwn n d = true → first ≤ 65535 → count ≠ 0 → count ≤ 65536 → s.bufLen n d 0 buf = .ok len →
              let r := s.pipe.table.readRange n first count (len / 64)
              s.scatter n d 0 buf r.1.flatten = (u, none) → Does (.tblRead n q tag buf) s (u.complete n q tag .ok r.1.length r.2)))))
  ∧ (∀ (s : State) (h b : Nat),
    (s.pipe.table.handles.get? h = none → Does (.lockHoldExpiry h) s s)
    ∧ ((s.pipe.table.handles.get? h).isSome = true →
        Does (.lockHoldExpiry h) s (((s.handleFree h).dinc 0x3400 0x0A).event 312).tblRetry)
    ∧ Does (.tableDoubleBitError b) s (((s.withTable fun t => { t with
        entries := t.entries.keep fun i _ => bucketOf i != b }).rehome.stashNote).eventLog 314 .error Status.internalFault.code (leBytes 4 b)))

/-- Learning and ageing (R346, R354, R356–R359, R362): the head of the FIFO is learned with the pipeline working, an entry as R356 lays it;
a group source or an empty one is never asked for; the sweeper keeps a static entry, takes a hit away, marks an old entry and removes a
marked one; a locked bucket is swept at its unlock. -/
def Obligations.LearningAndAgeing : Prop :=
  ∀ s : State,
    (s.pipeOn = true → Does .learnInsert s s.learnHead)
    ∧ (s.pipeOn = false → Does .learnInsert s s ∧ ∀ b, Does (.ageingSweep b) s s)
    ∧ (s.pipe.table.fifo = [] → s.learnHead = s)
    ∧ (∀ r rest, s.pipe.table.fifo = r :: rest → s.pipe.table.lookup r.key = none → s.limit 0 56 4 ≤ s.pipe.table.owned 0 →
        s.learnHead.pipe.table = { s.pipe.table with fifo := rest, learnStop := true }
        ∧ (s.pipe.table.learnStop = true → s.learnHead.eg = s.eg)
        ∧ (s.pipe.table.learnStop = false → (s.learnHead.eg.pending.get? 313).isSome = true))
    ∧ (∀ vid sa kind dest learn, bit (byteAt sa 0) 0 = true ∨ allZero sa = true → s.learnFrom vid sa kind dest learn = s)
    ∧ (∀ r, 4096 ≤ s.pipe.table.fifo.length → s.learnAsk r = (s.dinc 0x3400 5).event 310)
    ∧ (∀ r, s.pipe.table.fifo.length < 4096 → (s.learnAsk r).pipe.table = { s.pipe.table with fifo := s.pipe.table.fifo ++ [r] })
    ∧ (∀ r : LearnReq, r.key.length = 48 → r.kind < 256 → r.dest < 65536 →
        (learnedEntry r).length = 64 ∧ entryKey (learnedEntry r) = r.key ∧ entryKind (learnedEntry r) = r.kind
        ∧ entryDest (learnedEntry r) = r.dest ∧ entryFlags (learnedEntry r) = 2 ∧ entryOwner (learnedEntry r) = 0
        ∧ entryMeter (learnedEntry r) = 0xFFFF)
    ∧ (s.pipeOn = true → ∀ b, Does (.ageingSweep b) s (s.sweepBucket b))
    ∧ (∀ b, b < 65536 → s.pipe.table.locked b none = true →
        s.sweepBucket b = s.withTable fun t => { t with sweepDue := t.sweepDue.put b () })
    ∧ (∀ e, bit (entryFlags e) 0 = true → agedEntry e = some e)
    ∧ (∀ e, e.length = 64 → bit (entryFlags e) 0 = false → bit (entryFlags e) 2 = true → ∃ x, agedEntry e = some x
        ∧ entryKey x = entryKey e ∧ bit (entryFlags x) 2 = false ∧ bit (entryFlags x) 3 = false)
    ∧ (∀ e, bit (entryFlags e) 0 = false → bit (entryFlags e) 2 = false → bit (entryFlags e) 3 = true → agedEntry e = none)
    ∧ (∀ e, e.length = 64 → bit (entryFlags e) 0 = false → bit (entryFlags e) 2 = false → bit (entryFlags e) 3 = false →
        ∃ x, agedEntry e = some x ∧ entryKey x = entryKey e ∧ bit (entryFlags x) 3 = true)

/-- Packet I/O by commands (R365–R367, R406): a VP_SEND of 60 to 9,596 bytes joins the sends that wait for its shaper and for buffer space;
an area bound has room for its buffers, and replaces the one before; CQ 0 unbinds; buffers come back in the order they were filled, no more
than are out. -/
def Obligations.PacketCommands : Prop :=
  ∀ (s : State) (n q tag : Nat) (buf : HostRead) (c : Ctx), s.domOn domPIPE = true →
    let d := descAt c.entry 16
    (s.starting? 0x90 n q tag = some c →
      (s.descOwn n d = false → Does (.vpSend n q tag buf) s (s.complete n q tag .notYourInstance))
      ∧ (∀ len, s.descOwn n d = true → s.bufLen n d 0 buf = .ok len → len < 60 ∨ 9596 < len →
          Does (.vpSend n q tag buf) s (s.complete n q tag .outOfRange))
      ∧ (∀ len b, s.descOwn n d = true → s.bufLen n d 0 buf = .ok len → 60 ≤ len → len ≤ 9596 → s.gather n d len 0 buf = .ok b →
          Does (.vpSend n q tag buf) s ((s.markStarted n q tag).withPipe fun p => { p with sends := p.sends ++ [⟨n, q, tag, b, false⟩] })))
    ∧ (∀ v, s.vpSendHead v = none ↔ s.domOn domPIPE = false ∨ s.kiln.stopped = true ∨ s.vpAllows v.fn (wireLen v.frame + 20) = false
        ∨ s.bufferFree < wireLen v.frame)
    ∧ (s.starting? 0x91 n q tag = some c →
      let cq := bits (dw c.entry 1) 0 16
      let count := leAt c.entry 8 2
      let size := leAt c.entry 10 2
      (cq = 0 → Does (.vpRxBind n q tag buf) s ((s.withPipe fun p => { p with binds := p.binds.del n }).complete n q tag .ok))
      ∧ (cq ≠ 0 → s.descOwn n d = false → Does (.vpRxBind n q tag buf) s (s.complete n q tag .notYourInstance))
      ∧ (cq ≠ 0 → s.descOwn n d = true → count < 16 ∨ 4096 < count ∨ size < 8 ∨ 40 < size →
          Does (.vpRxBind n q tag buf) s (s.complete n q tag .outOfRange))
      ∧ (cq ≠ 0 → s.descOwn n d = true → 16 ≤ count → count ≤ 4096 → 8 ≤ size → size ≤ 40 →
          d.list = true ∨ count * size * 256 ≤ d.len →
        (s.cq? n cq = none → Does (.vpRxBind n q tag buf) s (s.complete n q tag .fieldInvalid))
        ∧ ((s.cq? n cq).isSome = true → ∀ l, s.areaOf n d buf = .ok l →
          (sumNat (l.map fun x => x.2.2) < count * size * 256 → Does (.vpRxBind n q tag buf) s (s.complete n q tag .outOfRange))
          ∧ (count * size * 256 ≤ sumNat (l.map fun x => x.2.2) → Does (.vpRxBind n q tag buf) s ((s.withPipe fun p => { p with
              binds := p.binds.put n ⟨cq, l, count, size * 256, 0, count⟩ }).complete n q tag .ok)))))
    ∧ (s.starting? 0x92 n q tag = some c →
      let first := bits (dw c.entry 1) 0 16
      let k := leAt c.entry 8 2
      (s.descOwn n d = false → Does (.vpRxReturn n q tag) s (s.complete n q tag .notYourInstance))
      ∧ (s.descOwn n d = true → k = 0 ∨ 4096 < k ∨ d.len ≠ 0 → Does (.vpRxReturn n q tag) s (s.complete n q tag .outOfRange))
      ∧ (s.descOwn n d = true → k ≠ 0 → k ≤ 4096 → d.len = 0 →
        (s.vpBind? n = none → Does (.vpRxReturn n q tag) s (s.complete n q tag .notInThisState))
        ∧ (∀ x, s.vpBind? n = some x →
          (x.count ≤ first → Does (.vpRxReturn n q tag) s (s.complete n q tag .outOfRange))
          ∧ (first < x.count → first ≠ (x.next + x.free) % x.count ∨ x.count - x.free < k →
              Does (.vpRxReturn n q tag) s (s.complete n q tag .fieldInvalid))
          ∧ (first = (x.next + x.free) % x.count → first < x.count → k ≤ x.count - x.free →
              Does (.vpRxReturn n q tag) s ((s.withPipe fun p => { p with
                binds := p.binds.put n { x with free := x.free + k } }).complete n q tag .ok)))))

/-- The Ethernet links and the Zelud rings (R340, R343, R369–R379, R391): a link comes up at a rate of its mode, on an enabled port not
shed, with its event; down, its queues are dropped and it is counted. Control frames are taken on a port that receives: one of a foreign
domain is counted, and a HELLO keeps its port out; this device's own ID from another serial number blocks the ring; a TOPOLOGY that returns
closes the ring. A ring port that fails turns its frames back once. Timers send what Table 12-10 gives. -/
def Obligations.LinksAndRings : Prop :=
  ∀ (s : State) (p : Nat),
    (∀ rate, 20 ≤ p → Does (.portLinkUp p rate) s s)
    ∧ (∀ rate, p < 20 → (s.egPort p).up = true ∨ s.dget (pIdx p 0) 1 = 0 ∨ s.domOn (portDomain p) = false ∨ s.kiln.stopped = true
        ∨ s.live = false ∨ rate ∉ modeRates (s.dget (pIdx p 0) 2) ∨ s.portShed p = true → Does (.portLinkUp p rate) s s)
    ∧ (∀ rate, p < 20 → (s.egPort p).up = false → s.dget (pIdx p 0) 1 ≠ 0 → s.domOn (portDomain p) = true → s.kiln.stopped = false →
        s.live = true → rate ∈ modeRates (s.dget (pIdx p 0) 2) → s.portShed p = false → Does (.portLinkUp p rate) s
          (((s.dset (pIdx p 1) 2 rate).withEg p fun x => { x with up := true, busy := false }).event (288 + p)))
    ∧ ((s.egPort p).up = false → Does (.portLinkDown p) s s)
    ∧ ((s.egPort p).up = true → s.ringOf p = none → Does (.portLinkDown p) s
        (((((s.withEg p fun x => { x with up := false, busy := false }).withDamper fun d => { d with
          partner := d.partner.del p }).egressFlush p).dinc (pIdx p 1) 3).event (288 + p)))
    ∧ (s.receives p = false → (∀ src a b c d e f g h, Does (.hello p src a b c d e f g h) s s)
        ∧ (∀ src a b c d, Does (.topology p src a b c d) s s) ∧ (∀ src side, Does (.fault p src side) s s ∧ Does (.restore p src side) s s)
        ∧ ∀ src, Does (.leave p src) s s)
    ∧ (∀ src, s.receives p = true → s.ringOf p = none → (∀ a b c d e f g h, Does (.hello p src a b c d e f g h) s s)
        ∧ (∀ a b c d, Does (.topology p src a b c d) s s) ∧ (∀ side, Does (.fault p src side) s s ∧ Does (.restore p src side) s s)
        ∧ Does (.leave p src) s s)
    ∧ (∀ src r east, s.receives p = true → s.ringOf p = some (r, east) →
      (src.domain ≠ s.domainId →
        (∀ a b c d e f g h, Does (.hello p src a b c d e f g h) s
          (((s.dinc 0x3503 4).withRing r fun x => x.withPort east fun y => { y with foreign := true }).event 325))
        ∧ (∀ a b c d, Does (.topology p src a b c d) s (s.dinc 0x3503 4))
        ∧ (∀ side, Does (.fault p src side) s (s.dinc 0x3503 4) ∧ Does (.restore p src side) s (s.dinc 0x3503 4))
        ∧ Does (.leave p src) s (s.dinc 0x3503 4))
      ∧ (src.domain = s.domainId → src.device = s.deviceId →
        (∀ serial b c d e f g h, serial ≠ Config.serial → Does (.hello p src serial b c d e f g h) s
          ((s.withRing r fun x => { x with blocked := true }).event 324))
        ∧ (∀ b c d e f g h, Does (.hello p src Config.serial b c d e f g h) s s)
        ∧ (∀ serial b c d, serial ≠ Config.serial → Does (.topology p src serial b c d) s
          ((s.withRing r fun x => { x with blocked := true }).event 324))
        ∧ (∀ b c d, Does (.topology p src Config.serial b c d) s
          ((s.ringRecompute r fun x => { x with closed := some (64 - src.hops) }).ringBound r))
        ∧ (∀ side, Does (.fault p src side) s s ∧ Does (.restore p src side) s s))
      ∧ (src.domain = s.domainId → src.device ≠ s.deviceId →
        (∀ serial b c t1 e1 e2 e3 at_, Does (.hello p src serial b c t1 e1 e2 e3 at_) s (s.withRing r fun x => x.withPort east fun y =>
          { y with foreign := false, heard := true, echoed := y.echoed || e1 != 0, lastT1 := t1, lastAt := at_
                   delay := if e1 = 0 then y.delay else ((((at_ : Int) - e1) - ((e3 : Int) - e2)) / 2).toNat }))
        ∧ (∀ serial delay rate reach, Does (.topology p src serial delay rate reach) s (s.topologyTake p src serial delay rate reach))
        ∧ (∀ side, Does (.fault p src side) s (s.faultTake p src side) ∧ Does (.restore p src side) s (s.restoreTake p src side)))
      ∧ (src.domain = s.domainId → Does (.leave p src) s (s.ringPortFails r east))
      ∧ (((s.ring r).port east).failed = true → s.ringPortFails r east = s)
      ∧ (s.pipeOn = true → Does (.ringPortFail p) s (s.ringPortFails r east) ∧ Does (.ringPortSilence p) s (s.ringPortFails r east)
          ∧ Does (.restoreHoldExpiry p) s (s.ringRestored r east))
      ∧ ((s.ring r).blocked = true → ∀ e cls b, s.ringSend r e cls b = s)
      ∧ (∀ cls b, (s.ring r).blocked = false → ((s.ring r).port east).out = true → zWrapped b = true → s.ringSend r east cls b = s)
      ∧ (∀ cls b, (s.ring r).blocked = false → ((s.ring r).port east).out = false →
          s.ringSend r east cls b = s.egressTo ((s.ring r).portNo east) cls b)
      ∧ (s.pipeOn = true → Does (.keepaliveTimer p) s (if (s.ring r).stopped then s else s.ringControl r east 6 0 [])))
    ∧ (s.ringOf p = none → Does (.ringPortFail p) s s ∧ Does (.ringPortSilence p) s s ∧ Does (.restoreHoldExpiry p) s s
        ∧ Does (.keepaliveTimer p) s s)
    ∧ (s.pipeOn = false → Does (.ringPortFail p) s s ∧ Does (.ringPortSilence p) s s ∧ Does (.restoreHoldExpiry p) s s
        ∧ Does (.keepaliveTimer p) s s ∧ (∀ r, Does (.steerHoldExpiry r) s s) ∧ Does .helloTimer s s ∧ Does .topologyTimer s s)
    ∧ (s.pipeOn = true → (∀ r, Does (.steerHoldExpiry r) s (s.steerRelease r)) ∧ Does .helloTimer s s.helloSend
        ∧ Does .topologyTimer s s.topologySend)
    ∧ (∀ r, (s.ring r).held = [] → s.steerRelease r = s.withRing r fun x => { x with held := [], holdFor := [] })
    ∧ Does .leaveWaitExpiry s s.leaveWaited
    ∧ ((s.ring 0).leaving = false → (s.ring 1).leaving = false → s.leaveWaited = s)

/-- Time and egress (R27, R382–R384, R392–R399, R406): an offset of 10 µs or more is removed by one step, logged at Notice, a smaller one by
a rate of at most 200 ppm; a message is taken by a port with a profile, and only while the hearth runs; a better clock's port becomes the
slave; a Sync time-out leaves holdover with event 331. PPS_OUT follows the second with a width set. A transmitter that ends its frame takes
the next; a gate list in force goes on at the end of its entries. -/
def Obligations.TimeAndGates : Prop :=
  ∀ (s : State) (p : Nat),
    (∀ m, s.hearthRuns = false → Does (.ptpMessage p m) s s)
    ∧ (∀ m, s.hearthRuns = true → s.ptpProfile p = 0 ∨ 20 ≤ p → Does (.ptpMessage p m) s s)
    ∧ (s.hearthRuns = true → s.ptpProfile p ≠ 0 → p < 20 →
        (∀ off, Does (.ptpMessage p (.sync true off)) s s)
        ∧ (∀ off, s.ptpRole p = 2 → s.dget 0x3180 2 = 1 → Does (.ptpMessage p (.sync false off)) s (s.discipline off)
            ∧ Does (.ptpMessage p (.followUp off)) s (s.discipline off))
        ∧ (∀ off, s.ptpRole p = 2 → s.dget 0x3180 2 ≠ 1 → Does (.ptpMessage p (.sync false off)) s
            (((s.dset 0x3180 2 1).event 330).discipline off))
        ∧ (∀ off, s.ptpRole p ≠ 2 → Does (.ptpMessage p (.sync false off)) s s ∧ Does (.ptpMessage p (.followUp off)) s s)
        ∧ (Does (.ptpMessage p .pdelayReq) s ((s.control p (.ptp 3)).control p (.ptp 10)))
        ∧ (∀ d, Does (.ptpMessage p (.pdelayResp d)) s (s.dset (pIdx p 4) 6 (d % 2 ^ 32)))
        ∧ (s.ptpRole p = 1 → Does (.ptpMessage p .delayReq) s (s.control p (.ptp 9)))
        ∧ (∀ gm, s.dget 0x3180 0x0A = 1 → Does (.ptpMessage p (.announce gm false)) s s)
        ∧ (∀ gm, s.dget 0x3180 0x0A ≠ 1 → Does (.ptpMessage p (.announce gm false)) s ((s.dset (pIdx p 4) 4 1).leads)))
    ∧ (∀ off : Int, 10000 ≤ off.natAbs → s.discipline off = (s.dset 0x3180 3 (ofInt 32 off)).timeStep (-off))
    ∧ (s.discipline 0 = s.dset 0x3180 3 0)
    ∧ (∀ off : Int, off ≠ 0 → off.natAbs < 10000 → (s.discipline off).time.ns = s.time.ns ∧ (s.discipline off).time.slew = -off
        ∧ (s.discipline off).time.ppb.natAbs ≤ 200000 ∧ (s.discipline off).time.ppb ≠ 0 ∧ (s.discipline off).out = s.out
        ∧ (s.discipline off).eg = s.eg)
    ∧ (∀ d : Int, (s.timeStep d).time.ns = ((s.time.ns : Int) + d).toNat ∧ (s.timeStep d).time.slew = 0 ∧ (s.timeStep d).dram = s.dram)
    ∧ (s.hearthRuns = true → s.dget 0x3180 2 = 1 → Does .syncTimeout s ((s.dset 0x3180 2 2).event 331))
    ∧ (s.hearthRuns = false ∨ s.dget 0x3180 2 ≠ 1 → Does .syncTimeout s s)
    ∧ (s.hearthRuns = true → p < 20 → s.ptpRole p = 1 →
        let u := ((s.control p (.ptp 0)).control p (.ptp 8)).control p (.ptp 11)
        Does (.syncIntervalExpiry p) s (if u.ptpProfile p = 1 then u.control p (.ptp 2) else u))
    ∧ (s.hearthRuns = false ∨ 20 ≤ p ∨ s.ptpRole p ≠ 1 → Does (.syncIntervalExpiry p) s s)
    ∧ (s.dget 0x3180 0x0B = 0 ∨ s.live = false → Does .ppsInEdge s s ∧ Does .ppsInTimeout s s)
    ∧ (s.dget 0x3180 0x0B = 1 → s.live = true → s.pipe.timeSet = none → Does .ppsInEdge s (s.dset 0x3180 0x0C s.time.ns))
    ∧ (s.dget 0x3180 0x0B ≠ 0 → s.live = true → Does .ppsInTimeout s (s.event 333))
    ∧ (s.live = true → s.dget 0x3180 0x0D ≠ 0 → s.pipe.ppsOut = false →
        Does (.ppsOutEdge true) s ((s.withPipe fun x => { x with ppsOut := true }).pin "PPS_OUT" true))
    ∧ (s.pipe.ppsOut = true → Does (.ppsOutEdge false) s ((s.withPipe fun x => { x with ppsOut := false }).pin "PPS_OUT" false))
    ∧ (s.pipe.ppsOut = false → Does (.ppsOutEdge false) s s)
    ∧ ((s.egPort p).busy = false → Does (.frameTransmitDone p) s s)
    ∧ ((s.egPort p).busy = true → Does (.frameTransmitDone p) s ((s.withEg p fun x => { x with busy := false }).portServe p))
    ∧ (s.pipeOn = false → Does .shaperRefresh s s)
    ∧ (s.pipeOn = true → ∃ u : State, u.dict = s.dict ∧ u.q = s.q ∧ u.out = s.out ∧ u.dram = s.dram
        ∧ (∀ k, (u.egPort k).queues = (s.egPort k).queues ∧ (u.egPort k).busy = (s.egPort k).busy)
        ∧ Does .shaperRefresh s ((List.range 20).foldl (fun (x : State) k => x.portServe k) u))
    ∧ (∀ b rest, (s.egPort p).up = true → (s.egPort p).busy = false → (s.egPort p).control = .frame b :: rest →
        s.portServe p = ((((s.withEg p fun x => { x with control := rest }).withEg p fun x => { x with busy := true }).dinc (pIdx p 2) 7).dadd
          (pIdx p 2) 8 (wireLen b)).emit (.frame p b))
    ∧ (s.gated p = false → Does (.gateIntervalEnd p) s s)
    ∧ (s.gated p = true → s.dget (sIdx p 6) 7 + 1 < (s.operList p).length →
        Does (.gateIntervalEnd p) s ((s.gateEnter p (s.dget (sIdx p 6) 7 + 1) (s.egPort p).gateEnd).portServe p))
    ∧ (s.gated p = true → (s.operList p).length ≤ s.dget (sIdx p 6) 7 + 1 → (s.egPort p).realign = false →
        Does (.gateIntervalEnd p) s ((s.gateEnter p 0 (s.egPort p).gateEnd).portServe p))
    ∧ ((s.egPort p).pendingList = none → Does (.gateListChange p) s s)
    ∧ (∀ base cycle count b, (s.egPort p).pendingList = some (base, cycle, count, b) → ∃ u : State, u.dget (sIdx p 6) 1 = 1
        ∧ u.dget (sIdx p 6) 2 = base ∧ u.dget (sIdx p 6) 3 = cycle ∧ u.dget (sIdx p 6) 4 = count ∧ u.dbytes (sIdx p 6) 5 = b
        ∧ u.dget (sIdx p 6) 6 = 0 ∧ (u.egPort p).pendingList = none ∧ (u.egPort p).queues = (s.egPort p).queues
        ∧ Does (.gateListChange p) s ((u.gateEnter p 0 (s.dget (sIdx p 6) 6)).portServe p))

/-- What threads run (R411–R417, R426–R435, R439, Tables 14-1 to 14-7). A thread that does not issue now, and an instruction that stalls,
change nothing; an instruction that may not be fetched, is illegal, ECALL or EBREAK without a debugger is a thread fault of its cause; any
other moves the pc by its own length, its result in rd alone, x0 zero, nothing of another thread changed. The instructions of the extension
return what Tables 14-4 to 14-6 give, or a status with bit 31 set. A channel shows its reader whole messages in the order committed. -/
def Obligations.ThreadsRun : Prop :=
  ∀ (s : State) (t rd r1 r2 : Nat), rd < 32 → r1 < 32 → r2 < 32 →
    let x := s.thread t
    let a := x.reg r1
    let b := x.reg r2
    let no (op : TrOp) (st : Status) := s.trClose t op rd (0x80000000 + st.code)
    (∀ (k v : Nat), ((s.putReg t rd v).thread t).reg k = (if k = rd ∧ k ≠ 0 then v % 2 ^ 32 else x.reg k)
        ∧ (k ≠ t → (s.putReg t rd v).thread k = s.thread k ∧ (s.retire t v 1).thread k = s.thread k)
        ∧ ((s.retire t v k).thread t) = { x with pc := v % 2 ^ 32, instret := (x.instret + 1) % 2 ^ 64 }
        ∧ ((s.retire t v k).q = s.q ∧ (s.retire t v k).dram = s.dram ∧ (s.retire t v k).insts = s.insts ∧ (s.retire t v k).out = s.out))
    ∧ (s.threadIssues t = false →
        (s.peat.replay = false → Does (.threadInstruction t) s s) ∧ Does (.trWait t rd r1) s s ∧ Does (.trRxf t rd r1 r2) s s
        ∧ Does (.trTxf t rd r1) s s ∧ Does (.trDma t rd r1) s s ∧ Does (.trClaim t rd r1) s s ∧ Does (.trPut t rd r1 r2) s s
        ∧ Does (.trCommit t rd r1) s s ∧ Does (.trRecv t rd r1) s s ∧ Does (.trDrop t rd r1) s s ∧ Does (.tpetWrite t) s s
        ∧ ∀ v, Does (.ttimerWrite t v) s s)
    ∧ (s.threadIssues t = true →
      (s.peat.replay = false → s.threadFetch t = none → Does (.threadInstruction t) s (s.threadFault t 2))
      ∧ (∀ op len, s.peat.replay = false → s.threadFetch t = some (op, len) →
        let at_ (from_ : Nat) (off : Int) : Nat := ofInt 32 ((from_ : Int) + off)
        let npc := x.pc + len
        let runs (u : State) := Does (.threadInstruction t) s u
        (op = .illegal → runs (s.threadFault t 1))
        ∧ (op = .ecall → runs (s.threadFault t 6))
        ∧ (op = .ebreak → s.dget 0x3C10 2 ≠ 1 → runs (s.threadFault t 7))
        ∧ (op = .ebreak → s.dget 0x3C10 2 = 1 → runs (s.withThread t fun y => { y with halted := true }))
        ∧ (op = .nop → runs (s.retire t npc 1))
        ∧ (∀ imm, op = .lui rd imm → runs ((s.putReg t rd imm).retire t npc 1))
        ∧ (∀ imm, op = .auipc rd imm → runs ((s.putReg t rd (at_ x.pc imm)).retire t npc 1))
        ∧ (∀ off, op = .jal rd off → runs ((s.putReg t rd npc).retire t (at_ x.pc off) 1))
        ∧ (∀ off, op = .jalr rd r1 off → runs ((s.putReg t rd npc).retire t (at_ a off / 2 * 2) 1))
        ∧ (∀ c off, op = .branch c r1 r2 off → c.holds a b = true → runs (s.retire t (at_ x.pc off) 1))
        ∧ (∀ c off, op = .branch c r1 r2 off → c.holds a b = false → runs (s.retire t npc 1))
        ∧ (∀ o, op = .alu o rd r1 r2 → runs ((s.putReg t rd (o.eval a b)).retire t npc o.slots))
        ∧ (∀ o imm, op = .aluImm o rd r1 imm → runs ((s.putReg t rd (o.eval a (ofInt 32 imm))).retire t npc o.slots))
        ∧ (∀ w sg off, op = .load w sg rd r1 off →
          let ad := at_ a off
          (ad % w ≠ 0 → runs (s.threadFault t 5))
          ∧ (ad % w = 0 → ad + w ≤ 0x10000 →
              runs ((s.putReg t rd (extend w sg (leNat (Mem.readN (s.fcore (t / 8)).imem ad w)))).retire t npc 1))
          ∧ (ad % w = 0 → 0x10000 < ad + w → inSlice ad w = true → touches x.filling ad w = true → runs s)
          ∧ (ad % w = 0 → 0x10000 < ad + w → inSlice ad w = true → touches x.filling ad w = false →
              runs ((s.putReg t rd (extend w sg (leNat (x.sliceRead ad w)))).retire t npc 1))
          ∧ (ad % w = 0 → 0x10000 < ad + w → inSlice ad w = false → ¬ (0x11000000 ≤ ad ∧ ad + w ≤ 0x11040000) → runs (s.threadFault t 3)))
        ∧ (∀ w off, op = .store w r1 r2 off →
          let ad := at_ a off
          (ad % w ≠ 0 → runs (s.threadFault t 5))
          ∧ (ad % w = 0 → inSlice ad w = false → runs (s.threadFault t 4))
          ∧ (ad % w = 0 → inSlice ad w = true → touches x.draining ad w = true → runs s)
          ∧ (ad % w = 0 → inSlice ad w = true → touches x.draining ad w = false →
              runs ((s.withThread t fun y => y.sliceWrite ad (leBytes w b)).retire t npc 1)))
        ∧ (∀ f3 num, op = .csr f3 num rd r1 → s.csrAccess t num = none → runs (s.threadFault t 1))
        ∧ (∀ o, op = .tr o rd r1 r2 → runs (s.trExec t o rd r1 r2)))
      ∧ (63 < a ∨ (bit a 5 = true ∧ s.deliveryThread (t / 8) ≠ t) → Does (.trWait t rd r1) s (no .wait .fieldInvalid))
      ∧ (a = 0 → Does (.trWait t rd r1) s (s.withThread t fun y => { y with run := .parked }))
      ∧ (a ≠ 0 → a ≤ 63 → bit a 5 = false ∨ s.deliveryThread (t / 8) = t →
          (∀ p, p = Nat.land a (s.waitPending t) → p ≠ 0 → Does (.trWait t rd r1) s (s.waitReturn t rd p))
          ∧ (Nat.land a (s.waitPending t) = 0 →
              Does (.trWait t rd r1) s (s.withThread t fun y => { y with run := .waiting, wait := some (a, rd) })))
      ∧ (x.copy.isSome = true → Does (.trRxf t rd r1 r2) s (no .rxf .notInThisState))
      ∧ (x.copy.isSome = false → inSlice a 1 = false → Does (.trRxf t rd r1 r2) s (no .rxf .fieldInvalid))
      ∧ (x.copy.isSome = false → inSlice a 1 = true → x.rxq = [] → Does (.trRxf t rd r1 r2) s (s.trClose t .rxf rd 0))
      ∧ (∀ f rest, x.copy.isSome = false → inSlice a 1 = true → x.rxq = f :: rest →
          (b < 16 + f.data.length → Does (.trRxf t rd r1 r2) s (no .rxf .outOfRange))
          ∧ (16 + f.data.length ≤ b → inSlice a (16 + f.data.length) = true → Does (.trRxf t rd r1 r2) s
              ((s.withThread t fun y => { y with rxq := rest, copy := some (a - sliceBase, rxHeader (s.threadInst t) f ++ f.data) }).trClose
                t .rxf rd (16 + f.data.length))))
      ∧ (inSlice a 8 = false → Does (.trTxf t rd r1) s (no .txf .fieldInvalid))
      ∧ (inSlice a 8 = true → touches x.filling a 8 = true → Does (.trTxf t rd r1) s s)
      ∧ (inSlice a 8 = true → touches x.filling a 8 = false →
          let d := x.sliceRead a 8
          let len := leAt d 0 2
          (len < 60 ∨ 9596 < len → Does (.trTxf t rd r1) s (no .txf .outOfRange))
          ∧ (60 ≤ len → len ≤ 9596 → 1 < byteAt d 2 ∨ allZero (Sys2Proof.Machine.sub d 3 5) = false → Does (.trTxf t rd r1) s (no .txf .fieldInvalid))
          ∧ (60 ≤ len → len ≤ 9596 → byteAt d 2 ≤ 1 → allZero (Sys2Proof.Machine.sub d 3 5) = true → inSlice (a + 8) len = true →
              touches x.filling (a + 8) len = false →
              (byteAt d 2 = 0 → s.bufferFree < len + 4 ∨ s.domOn domPIPE = false →
                  Does (.trTxf t rd r1) s (s.withThread t fun y => { y with txf := some (rd, false, x.sliceRead (a + 8) len) }))
              ∧ (byteAt d 2 = 1 → Does (.trTxf t rd r1) s ((s.threadSend t true (x.sliceRead (a + 8) len)).trClose t .txf rd 0))
              ∧ (byteAt d 2 = 0 → len + 4 ≤ s.bufferFree → s.domOn domPIPE = true →
                  Does (.trTxf t rd r1) s ((s.threadSend t false (x.sliceRead (a + 8) len)).trClose t .txf rd 0))))
      ∧ (inSlice a 16 = false → Does (.trDma t rd r1) s (no .dma .fieldInvalid))
      ∧ (inSlice a 16 = true → touches x.filling a 16 = false →
          let d := x.sliceRead a 16
          let off := leAt d 0 8
          let sl := leAt d 8 4
          let len := leAt d 12 3
          let g := s.dramRegion (s.threadInst t)
          (len = 0 ∨ 0x8000 < len → Does (.trDma t rd r1) s (no .dma .outOfRange))
          ∧ (len ≠ 0 → len ≤ 0x8000 → 1 < byteAt d 15 ∨ inSlice sl len = false → Does (.trDma t rd r1) s (no .dma .fieldInvalid))
          ∧ (len ≠ 0 → len ≤ 0x8000 → byteAt d 15 ≤ 1 → inSlice sl len = true →
              (g.2 < off + len → Does (.trDma t rd r1) s (no .dma .notYourInstance))
              ∧ (off + len ≤ g.2 → x.freeTag = none →
                  Does (.trDma t rd r1) s ((s.peatBreak t 2).trClose t .dma rd (0x80000000 + Status.poolExhausted.code)))
              ∧ (∀ k, off + len ≤ g.2 → x.freeTag = some k → Does (.trDma t rd r1) s ((s.withThread t fun y => { y with
                  dmas := y.dmas ++ [⟨k, g.1 + off, sl - sliceBase, len, byteAt d 15 == 1⟩] }).trClose t .dma rd k))))
      ∧ (256 < a → Does (.trClaim t rd r1) s (no .claim .outOfRange))
      ∧ (a ≤ 256 → (a = 256 ∧ s.threadInst t ≠ 0) ∨ (a < 256 ∧ s.threadInst a ≠ s.threadInst t) →
          Does (.trClaim t rd r1) s (no .claim .notYourInstance))
      ∧ (a ≤ 256 → (a = 256 → s.threadInst t = 0) → (a < 256 → s.threadInst a = s.threadInst t) →
          ((s.claimOf t).isSome = true → Does (.trClaim t rd r1) s (no .claim .notInThisState))
          ∧ (s.claimOf t = none → (s.channel a).claimant.isSome = true → Does (.trClaim t rd r1) s (no .claim .channelBusy))
          ∧ (s.claimOf t = none → (s.channel a).claimant = none → Does (.trClaim t rd r1) s
              ((s.withChannel a fun c => { c with claimant := some t, staged := [] }).trClose t .claim rd 0)))
      ∧ (s.holds t a = false → Does (.trPut t rd r1 r2) s (no .put .notInThisState) ∧ Does (.trCommit t rd r1) s (no .commit .notInThisState)
          ∧ Does (.trDrop t rd r1) s (no .drop .notInThisState))
      ∧ (s.holds t a = true →
          (16 ≤ (s.channel a).staged.length → Does (.trPut t rd r1 r2) s (no .put .outOfRange))
          ∧ ((s.channel a).staged.length < 16 → Does (.trPut t rd r1 r2) s
              ((s.withChannel a fun c => { c with staged := c.staged ++ [b] }).trClose t .put rd 0))
          ∧ ((s.channel a).staged = [] → Does (.trCommit t rd r1) s (no .commit .fieldInvalid))
          ∧ ((s.channel a).staged ≠ [] → 8 ≤ (s.channel a).msgs.length →
              Does (.trCommit t rd r1) s ((s.peatBreak t 2).trClose t .commit rd (0x80000000 + Status.channelFull.code)))
          ∧ ((s.channel a).staged ≠ [] → (s.channel a).msgs.length < 8 → Does (.trCommit t rd r1) s
              ((s.withChannel a fun c => ⟨c.msgs ++ [(t, c.staged)], none, []⟩).trClose t .commit rd 0))
          ∧ Does (.trDrop t rd r1) s ((s.withChannel a fun c => { c with claimant := none, staged := [] }).trClose t .drop rd 0))
      ∧ (inSlice a 64 = false → Does (.trRecv t rd r1) s (no .recv .fieldInvalid))
      ∧ (inSlice a 64 = true → (s.channel t).msgs = [] → Does (.trRecv t rd r1) s (s.trClose t .recv rd 0))
      ∧ (∀ w m rest, inSlice a 64 = true → (s.channel t).msgs = (w, m) :: rest →
          (touches x.draining a 64 = true → Does (.trRecv t rd r1) s s)
          ∧ (touches x.draining a 64 = false →
            let data := padTo 64 ((m.map (leBytes 4)).flatten)
            Does (.trRecv t rd r1) s ((((s.withThread t fun y => y.sliceWrite a data).withChannel t fun c =>
              { c with msgs := rest }).peatFill t a data).trClose t .recv rd (m.length + w * 0x10000))))
      ∧ Does (.ttimerWrite t 0) s ((s.withThread t fun y => { y with timer := none }).retire t (x.pc + 4) 1)
      ∧ (∀ v, v ≠ 0 → v < 2 ^ 31 → Does (.ttimerWrite t v) s
          ((s.withThread t fun y => { y with timer := some (s.flow.fclkNs + v) }).retire t (x.pc + 4) 1))
      ∧ Does (.tpetWrite t) s ((s.withThread t fun y => { y with petAt := s.flow.fclkNs }).retire t (x.pc + 4) 1))
    ∧ (x.timer = none ∨ s.fclkOn = false → Does (.ttimerExpiry t) s s)
    ∧ (x.timer.isSome = true → s.fclkOn = true → Does (.ttimerExpiry t) s (s.withThread t fun y => { y with timer := none, timerPend := true }))
    ∧ (x.copy = none → Does (.receiveCopyDone t) s s)
    ∧ (∀ o d, x.copy = some (o, d) → Does (.receiveCopyDone t) s
        ((s.withThread t fun y => { (y.sliceWrite (sliceBase + o) d) with copy := none, rxdone := true }).peatFill t (sliceBase + o) d))
    ∧ (∀ tag, (x.dmas.find? fun d => d.tag == tag) = none → Does (.dmaDone t tag) s s)
    ∧ (∀ tag d, (x.dmas.find? fun y => y.tag == tag) = some d →
        (d.outward = true → ∃ u : State, u.dram = s.dram.writeN d.addr (Mem.readN x.slice d.slice d.len) ∧ (u.thread t).slice = x.slice
            ∧ (u.thread t).dmaPend = true ∧ bit (u.thread t).dmadone tag = true ∧ d ∉ (u.thread t).dmas ∧ (∀ k, k ≠ t → u.thread k = s.thread k)
            ∧ Does (.dmaDone t tag) s u)
        ∧ (d.outward = false → ∃ u : State, (s.peatOn = false → u.dram = s.dram) ∧ (u.thread t).slice = Mem.writeN x.slice d.slice (s.dram.readN d.addr d.len)
            ∧ (u.thread t).dmaPend = true ∧ bit (u.thread t).dmadone tag = true ∧ d ∉ (u.thread t).dmas ∧ (∀ k, k ≠ t → u.thread k = s.thread k)
            ∧ Does (.dmaDone t tag) s u))
    ∧ (x.txf = none → Does (.txfDone t) s s)
    ∧ (∀ r direct f, x.txf = some (r, direct, f) → s.bufferFree < wireLen f ∨ s.domOn domPIPE = false ∨ s.fclkOn = false →
        Does (.txfDone t) s s)
    ∧ (∀ r direct f, x.txf = some (r, direct, f) → wireLen f ≤ s.bufferFree → s.domOn domPIPE = true → s.fclkOn = true →
        let u := (s.threadSend t direct f).withThread t fun y => { y with txf := none }
        ((u.thread t).run = .running → Does (.txfDone t) s (u.trClose t .txf r 0)) ∧ ((u.thread t).run ≠ .running → Does (.txfDone t) s u))

/-- Groups, faults and the debugger (R419, R420, R436–R446, R449, R462): the group commands answer as Table 14-3 gives; a stop ends when
nothing of its threads is in flight, with event 518 and the start that was to follow; a fault stops its thread, frees its claim and raises
event 480 + c; the firmware takes a spare, restarts within FAULT_LIMIT, or spreads the steering; a stall raises event 512; a core fault
passes its groups to their standbys; a new delivery thread finds its target empty. -/
def Obligations.GroupsRun : Prop :=
  (∀ (who : Requester) (s : State) (g cmd : Nat) (c : Instr), g < 256 →
    (c = .groupStart who g ∧ cmd = 1) ∨ (c = .groupStop who g ∧ cmd = 2) ∨ (c = .groupRestart who g ∧ cmd = 3) ∨ (c = .groupDelete who g ∧ cmd = 4) →
    let r := writeOf who 0x3802 1 (cmd * 0x100 + g)
    let u := s.taken r
    let x := u.groupOf g
    s.Asks r → u.Accepts r →
      (cmd = 1 → x.st = 1 → (u.inst x.inst).st = .active → Answers c s r .ok [] (u.groupStart g 1))
      ∧ (cmd = 1 → x.st ≠ 1 ∨ (u.inst x.inst).st ≠ .active → Answers c s r .notInThisState [] u)
      ∧ (cmd = 2 → x.st = 2 → Answers c s r .ok [] (u.groupStop g .stay))
      ∧ (cmd = 3 → x.st = 2 → Answers c s r .ok [] (u.groupStop g (.start 4)))
      ∧ (cmd = 2 ∨ cmd = 3 → x.st ≠ 2 → Answers c s r .notInThisState [] u)
      ∧ (cmd = 4 → x.st = 1 → Answers c s r .ok [] (u.withGroup g fun _ => Group.reset))
      ∧ (cmd = 4 → x.st ≠ 1 → Answers c s r .notInThisState [] u))
  ∧ (∀ (who : Requester) (s : State) (n g : Nat), 1 ≤ n → n ≤ 63 → g < 256 →
    let r := writeOf who (blk n 0x2D) 1 g
    let u := s.taken r
    let x := u.groupOf g
    s.Asks r → u.Accepts r →
      (x.st = 0 ∨ x.inst ≠ n → Answers (.restartGroup who n g) s r .notYourInstance [] u)
      ∧ (x.st = 2 → x.inst = n → Answers (.restartGroup who n g) s r .ok [] (u.groupStop g (.start 6)))
      ∧ (x.st ≠ 0 → x.st ≠ 2 → x.inst = n → Answers (.restartGroup who n g) s r .notInThisState [] u))
  ∧ (∀ (who : Requester) (s : State) (c t : Nat), c < 32 → t < 8 →
    let r := writeOf who (0x3840 + c) 0x0A t
    let u := s.taken r
    s.Asks r → u.Accepts r →
      (u.dget (0x3840 + c) 0x0A = t → Answers (.deliveryThreadWrite who c t) s r .ok [] (u.dset (0x3840 + c) 0x0A t))
      ∧ (u.dget (0x3840 + c) 0x0A ≠ t →
          Answers (.deliveryThreadWrite who c t) s r .ok [] ((u.dset (0x3840 + c) 0x0A t).deliveryClear c)))
  ∧ (∀ (s : State) (g : Nat),
    let x := s.groupOf g
    (x.st ≠ 3 ∨ s.groupQuiet g = false → Does (.groupStopComplete g) s s)
    ∧ (x.st = 3 → s.groupQuiet g = true →
        let u := (s.withGroup g fun y => { y with st := 1, after := .stay }).event 518
        (x.after = .stay → Does (.groupStopComplete g) s u)
        ∧ (∀ c, x.after = .start c → (u.inst x.inst).st = .active → Does (.groupStopComplete g) s (u.groupStart g c))
        ∧ (∀ c, x.after = .start c → (u.inst x.inst).st ≠ .active → Does (.groupStopComplete g) s u))
    ∧ ((s.groupStart g 1).groupOf g).st = 2 ∧ (∀ after, ((s.groupStop g after).groupOf g).st = 3 ∧ ((s.groupStop g after).groupOf g).after = after)
    ∧ (s.hearthRuns = false ∨ s.groupStalls g = false → Does (.stallDetected g) s s)
    ∧ (s.hearthRuns = true → s.groupStalls g = true → Does (.stallDetected g) s (s.stall g))
    ∧ (s.groupStalls g = true → x.st = 2 ∧ x.stallAction ≠ 3 ∧ x.stalled = false ∧ s.coreUp x.core = true ∧ s.groupQuiet g = true)
    ∧ (x.members = 0 → s.groupStalls g = false))
  ∧ (∀ l : List Nat, l ≠ [] → (steeringOf l).length = 64 ∧ ∀ i, i < 64 → (steeringOf l)[i]? = l[i % l.length]?)
  ∧ (∀ (s : State) (t : Nat),
    let x := s.thread t
    (∀ cause, ((s.threadFault t cause).thread t).run = .faulted ∧ ((s.threadFault t cause).thread t).pc = x.pc
        ∧ ((s.threadFault t cause).thread t).copy = x.copy ∧ ((s.threadFault t cause).thread t).dmas = x.dmas
        ∧ ((s.threadFault t cause).thread t).regs = x.regs ∧ (s.threadFault t cause).claimOf t = none
        ∧ (∀ k, k ≠ t → (s.threadFault t cause).thread k = s.thread k) ∧ (s.threadFault t cause).flow.groups = s.flow.groups)
    ∧ (s.watched t = true → Does (.threadWatchdogExpiry t) s (s.threadFault t 8))
    ∧ (s.watched t = false → Does (.threadWatchdogExpiry t) s s)
    ∧ (t < 256 → s.coreUp (t / 8) = true → x.run ≠ .faulted → x.run ≠ .off → Does (.sliceDoubleBitError t) s (s.threadFault t 9))
    ∧ (256 ≤ t ∨ s.coreUp (t / 8) = false ∨ x.run = .faulted ∨ x.run = .off → Does (.sliceDoubleBitError t) s s)
    ∧ (s.hearthRuns = false ∨ x.handling = false ∨ x.run ≠ .faulted → Does (.threadFaultHandling t) s s)
    ∧ (s.hearthRuns = true → x.handling = true → x.run = .faulted → Does (.threadFaultHandling t) s (s.faultHandle t))
    ∧ (s.debugger = false → Does (.debugHalt t) s s ∧ Does (.debugResume t) s s ∧ Does (.claimRelease t) s s)
    ∧ (s.debugger = true →
        (t < 256 → s.coreUp (t / 8) = true → x.run ≠ .off → Does (.debugHalt t) s (s.withThread t fun y => { y with halted := true }))
        ∧ (256 ≤ t ∨ s.coreUp (t / 8) = false ∨ x.run = .off → Does (.debugHalt t) s s)
        ∧ (x.halted = true → Does (.debugResume t) s (s.withThread t fun y => { y with halted := false, petAt := s.flow.fclkNs }))
        ∧ (x.halted = false → Does (.debugResume t) s s ∧ Does (.claimRelease t) s s)
        ∧ (x.halted = true → s.claimOf t = none → Does (.claimRelease t) s s)
        ∧ (x.halted = true → (s.claimOf t).isSome = true →
            Does (.claimRelease t) s ((((s.claimsRelease t).dinc 0x3800 8).event 517).peatBreak t 1))))
  ∧ (∀ (s : State) (c : Nat),
    (32 ≤ c ∨ s.coreUp c = false → Does (.coreFault c) s s)
    ∧ (c < 32 → s.coreUp c = true → Does (.coreFault c) s (s.coreFault c))
    ∧ (s.coreUp c = true → ((s.coreFault c).fcore c).st = 2)
    ∧ (∀ ok, (s.fcore c).st ≠ 2 → Does (.coreReloadDone c ok) s s)
    ∧ (let u := (s.dinc 0x3800 7).dinc (0x3840 + c) 0x0C
       (s.fcore c).st = 2 → Does (.coreReloadDone c false) s (u.coreFailed c)
        ∧ Does (.coreReloadDone c true) s (((u.coreLoad c 0).deliveryClear c).flow.groups.foldl (fun (y : State) kv =>
            if kv.2.core = c ∧ kv.2.resume = true ∧ kv.2.st = 2 then y.groupStart kv.1 1 else y) ((u.coreLoad c 0).deliveryClear c))))

/-- End of service and stack faults (R456, R458): at a target t that is not frozen, an EOI of the top entry pops it and restores the running
priority; any other EOI, and one of an empty stack, leaves the stack as it stood and freezes it, sets source 0 pending and bit t of
EG_FROZEN, and raises 0x3900:04 by one. The EOI comes from the hearth by EG_EOIt, or from the delivery thread by teoi. A frozen target
counts further EOIs in 0x3900:06 and ignores them, its sources still latch; a frozen flow-core target keeps its line low and its CLAIM
returns SOURCE 0x3FF. -/
def Obligations.StackFaults : Prop :=
  ∀ (s u : State) (t n : Nat), t ≤ 32 → n < 1024 →
    let x := s.eg.target t
    let y := u.eg.target t
    (u = s.egEoiOp t n →
      (s.hearthRuns = true → Does (.egEoi t n) s u)
      ∧ (∀ k, t = 1 + k / 8 → s.csrWrite k 0x8C9 n = u)
      ∧ (∀ saved rest, x.frozen = false → x.stack = (n, saved) :: rest →
          y = ⟨saved, rest, false⟩ ∧ u.eg.pending = s.eg.pending ∧ u.eg.src = s.eg.src ∧ u.dict = s.dict)
      ∧ (x.frozen = false → (∀ saved rest, x.stack ≠ (n, saved) :: rest) →
          y = { x with frozen := true } ∧ u.eg.isPending 0 = true ∧ (u.dictValue 0x3900 7).nat.testBit t = true
          ∧ u.dget 0x3900 4 = (s.dget 0x3900 4 + 1) % 2 ^ 32)
      ∧ (x.frozen = true → u.eg = s.eg ∧ u.dget 0x3900 6 = (s.dget 0x3900 6 + 1) % 2 ^ 32)
      ∧ (∀ k, k ≠ t → u.eg.target k = s.eg.target k))
    ∧ (∀ m, x.frozen = true → (s.event m).eg.isPending m = true ∧ (s.event m).eg.target t = x)
    ∧ (x.frozen = true → t ≠ 0 → s.eg.request t = false ∧ (s.eg.claim t).1 % 1024 = 0x3FF)
    ∧ (s.hearthRuns = false → Does (.egEoi t n) s s)

/-- Nesting (R457): at a target whose priorities stand in descending order on its stack, a claim takes a priority strictly above the running
one, so the stack holds 16 less the running priority entries at most, and a claim never finds it full; a claim, an end of service, a clear
and an emptying keep that order, and a target at reset has it. -/
def Obligations.ClaimsNest : Prop :=
  (∀ x : EgTarget, x.Nested → x.stack.length ≤ 16 - x.running)
  ∧ (∀ t, (Gatherer.reset.target t).Nested)
  ∧ (∀ (g : Gatherer) (t n : Nat), (g.target t).Nested → (g.target t).frozen = false → g.claimable t = some n →
      (g.route n).priority < (g.target t).running ∧ (g.target t).stack.length < 16
      ∧ ((g.claim t).2.target t).running = (g.route n).priority
      ∧ ((g.claim t).2.target t).stack = (n, (g.target t).running) :: (g.target t).stack)
  ∧ (∀ (g : Gatherer) (t k : Nat), (g.target k).Nested → ((g.claim t).2.target k).Nested ∧ ((g.clear t).target k).Nested
      ∧ ((g.empty t).target k).Nested)
  ∧ (∀ (s : State) (t n k : Nat), (s.eg.target k).Nested → ((s.egEoiOp t n).eg.target k).Nested)

/-- The gatherer's registers (R451–R455, R459, R460, R462, R463, R466, R467). The line of an unfrozen target is raised for a source that
R454 names; a claim takes source 0 first, then the lowest priority, then the lowest number, clears its pending bit and returns it with the
new depth; with none, it returns SOURCE 0x3FF and changes nothing. CLEAR empties a target and keeps pending bits; a set acts as an event; an
event in the cycle of a clear stays set; a route that R453 forbids is not written. While the hearth does not run none of its accesses
happens. -/
def Obligations.GathererRegisters : Prop :=
  (∀ (g : Gatherer) (t : Nat), (g.target t).frozen = false →
      (g.request t = true ↔ ∃ n, g.isPending n = true ∧ (g.route n).target = t ∧
        ((n = 0 ∧ 0 < (g.target t).running) ∨ (n ≠ 0 ∧ (g.route n).priority ≠ 0 ∧ (g.route n).priority < (g.target t).running)))
      ∧ (∀ n, g.claimable t = some n → g.qualifies t n = true ∧ ∀ m, g.qualifies t m = true → m ≠ n →
          n = 0 ∨ (g.route n).priority < (g.route m).priority ∨ ((g.route n).priority = (g.route m).priority ∧ n < m))
      ∧ (g.request t = false → g.claim t = (claimWord 0x3FF 0 (g.target t).stack.length, g))
      ∧ (∀ n, g.claimable t = some n →
          (g.claim t).1 = claimWord n (g.route n).priority ((g.target t).stack.length + 1) ∧ (g.claim t).2.isPending n = false
          ∧ (∀ m, m ≠ n → (g.claim t).2.isPending m = g.isPending m) ∧ ∀ k, k ≠ t → (g.claim t).2.target k = g.target k))
  ∧ (∀ g : Gatherer, (g.target 0).frozen = true → g.isPending 0 = true → (g.claim 0).1 = claimWord 0 0 (g.target 0).stack.length
      ∧ (g.claim 0).2 = { g with pending := g.pending.del 0 })
  ∧ (∀ g : Gatherer, (g.route 0).target = 0)
  ∧ (∀ (s : State) (t k n : Nat) (mask v : Word) (firing : List Nat), t ≤ 32 → k < 20 → n < 640 →
      (s.hearthRuns = false → Does (.egClaim t) s s ∧ Does (.egTctrlClear t) s s ∧ Does (.egPset k mask) s s ∧ Does (.egPclr k mask firing) s s
        ∧ Does (.egSrcWrite n v) s s)
      ∧ (s.hearthRuns = true →
        (t ≠ 0 → s.eg.request t = false → Does (.egClaim t) s (s.emit (.claimed t (s.eg.claim t).1)))
        ∧ (∀ m, t ≠ 0 → s.eg.claimable t = some m → m < 640 →
            Does (.egClaim t) s (((s.withGatherer fun _ => (s.eg.claim t).2).dinc 0x3903 (t + 1)).emit (.claimed t (s.eg.claim t).1)))
        ∧ (∃ u : State, u.eg = (s.eg.claim 0).2 ∧ u.out = s.out ++ [.claimed 0 (s.eg.claim 0).1] ∧ u.q = s.q ∧ u.insts = s.insts
            ∧ (s.eg.claimable 0 ≠ some 0 → (s.eg.claim 0).1 % 1024 ≠ 0 → Does (.egClaim 0) s
                (u.peatRecord 3 hearthHart (leBytes 4 0x24002000 ++ leBytes 4 (s.eg.claim 0).1)))
            ∧ (s.eg.claimable 0 = some 0 → Does (.egClaim 0) s
                (u.peatRecord 3 hearthHart (leBytes 4 0x24002000 ++ leBytes 4 (s.eg.claim 0).1)).stackFaultHandling))
        ∧ Does (.egTctrlClear t) s (s.withGatherer fun g => g.clear t)
        ∧ (∃ u : State, Does (.egPset k mask) s u ∧ u.dict = s.dict ∧ u.out = s.out ∧ u.eg.targets = s.eg.targets ∧ u.eg.src = s.eg.src
            ∧ ∀ m, u.eg.isPending m = (s.eg.isPending m || (m / 32 == k && bit mask.toNat (m % 32))))
        ∧ (∃ u : State, Does (.egPclr k mask firing) s u ∧ u.dict = s.dict ∧ u.out = s.out ∧ u.eg.targets = s.eg.targets ∧ u.eg.src = s.eg.src
            ∧ ∀ m, m < 640 → u.eg.isPending m = ((s.eg.isPending m && !(m / 32 == k && bit mask.toNat (m % 32))) || firing.contains m))
        ∧ (Gatherer.acceptsRoute n (v.toNat % 16) (v.toNat / 256 % 64) = true → Does (.egSrcWrite n v) s
            (s.withGatherer fun g => { g with src := g.src.put n ⟨v.toNat % 16, v.toNat / 256 % 64⟩ }))
        ∧ (Gatherer.acceptsRoute n (v.toNat % 16) (v.toNat / 256 % 64) = false → Does (.egSrcWrite n v) s s)))
  ∧ (∀ n p t, Gatherer.acceptsRoute n p t = true ↔ n ≠ 0 ∧ t ≤ 32 ∧ (routableSource n = true ∨ (t = 0 ∧ p ≠ 0)))
  ∧ (∀ (g : Gatherer) (t : Nat), (g.clear t).target t = ⟨16, [], false⟩ ∧ (g.clear t).pending = g.pending ∧ (g.clear t).src = g.src
      ∧ ∀ k, k ≠ t → (g.clear t).target k = g.target k)
  ∧ (∀ (who : Requester) (s : State) (t : Nat), t ≤ 32 →
      let r := writeOf who 0x3900 8 t
      let u := s.taken r
      s.Asks r → u.Accepts r → Answers (.clearTarget who t) s r .ok [] (u.withGatherer fun g => g.clear t))
  ∧ (∀ (who : Requester) (s : State) (b : Bytes),
      let r : DictReq := ⟨who, .write, 0x3901, 1, b, .plain⟩
      let u := s.taken r
      s.Asks r → u.Accepts r →
        (sourceMapCheck b = .ok → Answers (.sourceMap who b) s r .ok [] (u.withGatherer fun g => g.applyMap b))
        ∧ (sourceMapCheck b ≠ .ok → Answers (.sourceMap who b) s r (sourceMapCheck b) [] u))
  ∧ (∀ b, (sourceMapCheck b = .ok ↔ b.length = 1280 ∧ byteAt b 0 = 0 ∧ byteAt b 1 = 0 ∧ ∀ n, n < 640 →
        byteAt b (2 * n) ≤ 15 ∧ byteAt b (2 * n + 1) ≤ 32
        ∧ (routableSource n = false → byteAt b (2 * n + 1) = 0 ∧ (n ≠ 0 → byteAt b (2 * n) ≠ 0))))

/-- The ash log, its exports and the alarms (R471–R484). A log entry is filtered by its class's severity; one token at a time up to the
burst; the grid's boundary summarises each class with refusals, and there is no summary without one. CLEAR = 1 leaves the LOG_CLEARED entry
as the log's first with SEQ 1 and empties the backlogs' old entries; 2 empties the first-of-kind table. PULL gives and removes up to 128 of
the mailbox path's oldest entries; a push carries 32 at most, a CAN frame 2, and neither is sent without its address. An acknowledgement
acts on a RAISED alarm only and keeps its count; a new definition acts as one; the end of the inhibit time sends again only what has not
been sent. -/
def Obligations.AshLog : Prop :=
  (∀ (s : State) (e : AshEntry), s.dget 0x3A03 (e.cls + 1) < e.severity → s.logSubmit e = s)
  ∧ (∀ (s : State) (c : Nat), c < 16 → s.awake = true →
      Does (.admissionTokenGain c) s (s.withAsh fun a => { a with tokens := a.tokens.put c (min (s.dget 0x3A02 (c + 1)) (s.ashTokens c + 1)) }))
  ∧ (∀ (s : State) (c : Nat), 16 ≤ c ∨ s.awake = false → Does (.admissionTokenGain c) s s)
  ∧ (∀ s : State, (s.awake = false → Does .admissionSummary s s) ∧ (s.awake = true → Does .admissionSummary s s.summaries)
      ∧ (∀ c, s.ash.interval.get? c = none → s.summary c = s)
      ∧ (s.ash.interval = [] → s.summaries = s))
  ∧ (∀ (who : Requester) (s : State),
      let r := writeOf who 0x3A00 3 1
      let u := s.taken r
      s.Asks r → u.Accepts r → Answers (.logClear who) s r .ok [] u.logClear)
  ∧ (∀ (who : Requester) (s : State),
      let r := writeOf who 0x3A00 3 2
      let u := s.taken r
      s.Asks r → u.Accepts r → Answers (.firstOfKindClear who) s r .ok [] u.fokClear)
  ∧ (∀ (s : State) (n : Nat), s.ash.log = [] → s.ash.nextSeq = 1 →
      let t := s.logCleared n
      t.ash.nextSeq = 2 ∧ ∃ e, t.ash.log = [e] ∧ e.seq = 1 ∧ e.code = 0x80F1 ∧ e.severity = 4 ∧ e.source = 0xFFFF ∧ e.cls = 15 ∧ e.count = 0
        ∧ e.payload = leBytes 4 n)
  ∧ (∀ s : State, s.logClear.ash.nextSeq = 2 ∧ s.logClear.ash.log.length = 1)
  ∧ (∀ (who : Requester) (s : State),
      let r : DictReq := ⟨who, .read, 0x3A20, 9, [], .plain⟩
      let u := s.taken r
      s.Asks r → visible who 0x3A20 = true → Answers (.exportPull who) s r .ok u.exportPull.1 u.exportPull.2)
  ∧ (∀ s : State, s.exportPull.2.ash.back0 = s.ash.back0.drop 128 ∧ s.exportPull.2.ash.log = s.ash.log
      ∧ s.exportPull.1 = entriesBytes ((s.ash.back0.take 128).filterMap fun q => s.ash.log.find? fun e => e.seq == q))
  ∧ (∀ s : State,
      (s.hearthRuns = false ∨ s.domOn domPIPE = false ∨ s.kiln.pf.isSome = true ∨ s.dget 0x1040 1 = 0 ∨ s.dget 0x3A21 9 = 0 ∨ s.ash.back1 = [] →
          Does .udpPush s s)
      ∧ (s.hearthRuns = true → s.domOn domPIPE = true → s.kiln.pf = none → s.dget 0x1040 1 ≠ 0 → s.dget 0x3A21 9 ≠ 0 → s.ash.back1 ≠ [] →
          ∃ (u : State) (b : Bytes), Does .udpPush s u ∧ u.ash.back1 = s.ash.back1.drop 32
            ∧ u.ash.pushSeq = (s.ash.pushSeq + 1) % 0x10000 ∧ u.out = s.out ++ [.datagram (s.dget 0x3A21 9) (s.dget 0x3A21 0x0B) (s.dget 0x1040 4) b])
      ∧ (s.hearthRuns = false ∨ s.dget 0x3A22 9 = 0 ∨ s.ash.back2 = [] → Does .canExport s s)
      ∧ (s.hearthRuns = true → s.dget 0x3A22 9 ≠ 0 → s.ash.back2 ≠ [] →
          ∃ (u : State) (b : Bytes), Does .canExport s u ∧ b.length = 64 ∧ u.ash.back2 = s.ash.back2.drop 2
            ∧ u.out = s.out ++ [.canFrame (s.dget 0x3A22 0x0B) (s.dget 0x3A22 9) b]))
  ∧ (∀ (who : Requester) (s : State) (k : Nat), k < 128 →
      let r := writeOf who (0x3A40 + k) 8 1
      let u := s.taken r
      s.Asks r → u.Accepts r → Answers (.alarmAck who k) s r .ok [] (u.alarmAck k))
  ∧ (∀ (who : Requester) (s : State),
      let r := writeOf who 0x3A30 3 1
      let u := s.taken r
      s.Asks r → u.Accepts r → Answers (.ackAll who) s r .ok [] u.ackAll)
  ∧ (∀ (who : Requester) (s : State) (k q v : Nat), k < 128 → 1 ≤ q → q ≤ 4 → v < 256 ^ (entryType (0x3A40 + k) q).len →
      let r := writeOf who (0x3A40 + k) q v
      let u := s.taken r
      s.Asks r → u.Accepts r → Answers (.alarmDefine who k q v) s r .ok [] ((u.alarmAck k).dset (0x3A40 + k) q v))
  ∧ (∀ (s : State) (k : Nat), k < 128 →
      (s.dget (0x3A40 + k) 10 ≠ 1 → s.alarmAck k = s)
      ∧ (s.dget (0x3A40 + k) 10 = 1 → (s.alarmAck k).dget (0x3A40 + k) 9 = s.dget (0x3A40 + k) 5 ∧ (s.alarmAck k).dget (0x3A40 + k) 5 = 0
          ∧ (s.alarmAck k).dget (0x3A40 + k) 10 = 0)
      ∧ ((s.ackAll).dget (0x3A40 + k) 10 ≠ 1))
  ∧ (∀ (s : State) (k : Nat),
      (128 ≤ k ∨ s.awake = false ∨ (s.ash.alarms.getD k ⟨0, 0, false⟩).inhibit = false → Does (.alarmInhibitExpiry k) s s)
      ∧ (k < 128 → s.awake = true → (s.ash.alarms.getD k ⟨0, 0, false⟩).inhibit = true →
        let al := s.ash.alarms.getD k ⟨0, 0, false⟩
        let u := s.withAsh fun a => { a with alarms := a.alarms.put k { al with inhibit := false } }
        (s.dget (0x3A40 + k) 10 ≠ 1 ∨ s.dget (0x3A40 + k) 5 = al.sentCount → Does (.alarmInhibitExpiry k) s u)
        ∧ (s.dget (0x3A40 + k) 10 = 1 → s.dget (0x3A40 + k) 5 ≠ al.sentCount → Does (.alarmInhibitExpiry k) s (u.sendAlarm k))))

/-- The peat recorder (R486, R487, R490–R494): modes 1 and 2 begin a new record, 0 stops; a trigger acts while recording; it writes its
record, and the region freezes at once or after its share; a frozen region's header says so. A checkpoint belongs to a recording device that
is awake. The window is written whole, inside the region, with recording off, and each write checks the image; an image that passes, with no
stream bound and no segment in flight, is armed, and the answer precedes the replay. -/
def Obligations.PeatRecorder : Prop :=
  (∀ (who : Requester) (s : State) (c : Instr) (m : Nat), (c = .peatOff who ∧ m = 0) ∨ (c = .peatRing who ∧ m = 1) ∨ (c = .peatOneShot who ∧ m = 2) →
      let r := writeOf who 0x3B00 1 m
      let u := s.taken r
      s.Asks r → u.Accepts r → Answers c s r .ok [] (u.peatMode m))
  ∧ (∀ s : State, (s.peatMode 0).dget 0x3B00 1 = 0 ∧ (s.peatMode 0).dget 0x3B00 3 = 0 ∧ (s.peatMode 0).dram = s.dram
      ∧ (s.peatMode 0).peatOn = false)
  ∧ (∀ (who : Requester) (s : State),
      let r := writeOf who 0x3B01 1 1
      let u := s.taken r
      s.Asks r → u.Accepts r →
        (u.dget 0x3B00 3 = 1 → Answers (.trigger who) s r .ok [] (u.peatTrigger 1 0))
        ∧ (u.dget 0x3B00 3 ≠ 1 → Answers (.trigger who) s r .ok [] u))
  ∧ (∀ s : State, (s.debugPermitted = true → Does .peatTrigger s (s.peatTrigger 5 0)) ∧ (s.debugPermitted = false → Does .peatTrigger s s)
      ∧ (∀ cause q, s.dget 0x3B00 3 ≠ 1 → cause ≠ 4 → s.peatTrigger cause q = s))
  ∧ (∀ s : State,
      (s.dget 0x3B00 3 = 2 → Does .peatFreeze s (s.withPeat fun p => { p with postLeft := none }).peatFreeze)
      ∧ (s.dget 0x3B00 3 = 1 → s.dget 0x3B00 1 = 2 → Does .peatFreeze s ((s.dset 0x3B01 6 0).peatFreeze))
      ∧ (s.dget 0x3B00 3 ≠ 2 → (s.dget 0x3B00 3 = 1 → s.dget 0x3B00 1 ≠ 2) → Does .peatFreeze s s)
      ∧ s.peatFreeze.dget 0x3B00 3 = 3 ∧ s.peatFreeze.dram = s.dram.writeN s.peatBase (s.peatHeader 3) ∧ (s.peatHeader 3).length = 4096)
  ∧ (∀ (s : State) (m : Bytes), (s.awake = false ∨ s.peatOn = false → Does (.peatCheckpoint m) s s)
      ∧ (s.awake = true → Does (.peatCheckpoint m) s (s.peatCheckpoint m)))
  ∧ (∀ (who : Requester) (s : State) (b : Bytes),
      let r : DictReq := ⟨who, .write, 0x3B10, 2, b, .plain⟩
      let u := s.taken r
      s.Asks r → u.Accepts r →
        (b.length < 4096 → Answers (.peatWindowWrite who b) s r .lengthMismatch [] u)
        ∧ (b.length = 4096 → u.peatSize < u.dget 0x3B10 1 + 4096 → Answers (.peatWindowWrite who b) s r .outOfRange [] u)
        ∧ (b.length = 4096 → u.dget 0x3B10 1 + 4096 ≤ u.peatSize → u.dget 0x3B00 1 ≠ 0 → Answers (.peatWindowWrite who b) s r .notInThisState [] u)
        ∧ (b.length = 4096 → u.dget 0x3B10 1 + 4096 ≤ u.peatSize → u.dget 0x3B00 1 = 0 →
          let w := u.withDram fun m => m.writeN (u.peatBase + u.dget 0x3B10 1) b
          Answers (.peatWindowWrite who b) s r .ok [] (w.dset 0x3B02 2 w.imageCheck.code)))
  ∧ (∀ (who : Requester) (s : State),
      let r := writeOf who 0x3B02 1 1
      let u := s.taken r
      s.Asks r → u.Accepts r →
        (u.imageCheck ≠ .ok ∨ u.boundStreams ≠ [] ∨ u.evidenceBusy = true → Answers (.replayArm who) s r .notInThisState [] u)
        ∧ (u.imageCheck = .ok → u.boundStreams = [] → u.evidenceBusy = false → ∃ v : State, u.replayArm = (.ok, v)
            ∧ exec (.replayArm who) s = .next (((v.answer r (u.dget 0x1040 4) .ok []).withPeat fun p => { p with replay := true }).replayBegin).served))

/-- The five operations of the dictionary (R33, R35, R38–R40, R47–R53, R58, Tables 2-3, 2-10 and 2-13): an operation fails with the first
check that does not hold, in the table's order; a READ gives the value and changes nothing but PULL and measured entries; INFO 8 bytes; NEXT
a later entry that the requester sees, or 0; a WRITE to an entry of a group goes to its shadow, another has the effect its table gives. A
write that the write mask denies is counted. A BUSY mailbox takes nothing; one before READY answers NOT_IN_THIS_STATE at once. -/
def Obligations.DictionaryRows : Prop :=
  (∀ (who : Requester) (s : State) (idx q : Nat) (b : Bytes),
    let r (op : DictOp) (d : Bytes) : DictReq := ⟨who, op, idx, q, d, .plain⟩
    let rows : List (Instr × DictOp × Bytes) := [(.dictRead who idx q, .read, []), (.dictInfo who idx q, .info, []),
      (.dictReadShadow who idx q, .readShadow, []), (.dictWrite who idx q b, .write, b)]
    (∀ p ∈ rows, s.Asks (r p.2.1 p.2.2) →
      let u := s.taken (r p.2.1 p.2.2)
      (visible who idx = false → Answers p.1 s (r p.2.1 p.2.2) .notYourInstance [] u)
      ∧ (visible who idx = true → indexExists idx = false → Answers p.1 s (r p.2.1 p.2.2) .unknownIndexOrOpcode [] u)
      ∧ (visible who idx = true → indexExists idx = true → subExists idx q = false →
          Answers p.1 s (r p.2.1 p.2.2) .unknownSubindex [] u))
    ∧ (visible who idx = true → indexExists idx = true → subExists idx q = true →
      (s.Asks (r .read []) →
        let u := s.taken (r .read [])
        (entryAccess idx q = .wo → Answers (.dictRead who idx q) s (r .read []) .writeOnly [] u)
        ∧ (entryAccess idx q ≠ .wo → Answers (.dictRead who idx q) s (r .read []) .ok (u.dictRead idx q).1 (u.dictRead idx q).2))
      ∧ (s.Asks (r .info []) → Answers (.dictInfo who idx q) s (r .info []) .ok ((s.taken (r .info [])).infoBytes who idx q) (s.taken (r .info [])))
      ∧ (s.Asks (r .readShadow []) →
        let u := s.taken (r .readShadow [])
        (entryAccess idx q = .wo → Answers (.dictReadShadow who idx q) s (r .readShadow []) .writeOnly [] u)
        ∧ (entryAccess idx q = .rwc → Answers (.dictReadShadow who idx q) s (r .readShadow []) .ok
            ((u.shadowVal (entryGroup idx q) idx q).enc (entryType idx q)) u)
        ∧ (entryAccess idx q ≠ .wo → entryAccess idx q ≠ .rwc →
            Answers (.dictReadShadow who idx q) s (r .readShadow []) .ok (u.dictRead idx q).1 (u.dictRead idx q).2))
      ∧ (s.Asks (r .write b) →
        let u := s.taken (r .write b)
        let v := DVal.dec (entryType idx q) b
        (∀ st, u.writeCheck who idx q b = st → st ≠ .ok → st ≠ .readOnly → Answers (.dictWrite who idx q b) s (r .write b) st [] u)
        ∧ (u.writeCheck who idx q b = .readOnly → Answers (.dictWrite who idx q b) s (r .write b) .readOnly [] (u.denied who idx))
        ∧ (u.writeCheck who idx q b = .ok → entryAccess idx q = .rwc →
            Answers (.dictWrite who idx q b) s (r .write b) .ok [] (u.shadowWrite (entryGroup idx q) who idx q v))
        ∧ (u.writeCheck who idx q b = .ok → entryAccess idx q ≠ .rwc → (q = 1 → groupAt idx = none) → ¬ (idx = 0x3B02 ∧ q = 1) →
            ((u.entryWrite idx q v).1 = .ok → Answers (.dictWrite who idx q b) s (r .write b) .ok [] (u.entryWrite idx q v).2)
            ∧ ((u.entryWrite idx q v).1 ≠ .ok → Answers (.dictWrite who idx q b) s (r .write b) (u.entryWrite idx q v).1 [] u))))
    ∧ (s.Asks (r .next []) →
        Answers (.dictNext who idx q) s (r .next []) .ok (leBytes 2 (nextEntry who idx q).1 ++ leBytes 1 (nextEntry who idx q).2 ++ zeros 1)
          (s.taken (r .next [])))
    ∧ ¬ (idx = 0x3A20 ∧ q = 9) ∧ measured idx q = false → (s.dictRead idx q).2 = s)
  ∧ (∀ (who : Requester) (idx q i k : Nat), nextEntry who idx q = (i, k) → (i, k) ≠ (0, 0) → visible who i = true ∧ (idx < i ∨ (idx = i ∧ q < k)))
  ∧ (∀ (s : State) (who : Requester) (idx q : Nat), (s.infoBytes who idx q).length = 8)
  ∧ (∀ (s : State) (n idx q : Nat) (b : Bytes), s.host.up = true → s.fnPresent n = true →
      let rows : List Instr := [.dictRead (.mailbox n) idx q, .dictInfo (.mailbox n) idx q, .dictNext (.mailbox n) idx q,
        .dictReadShadow (.mailbox n) idx q, .dictWrite (.mailbox n) idx q b]
      ((s.fn n).box.busy = true → ∀ c ∈ rows, Does c s s)
      ∧ ((s.fn n).box.busy = false → s.boot.ready = false → (s.fn n).box.irq = 0 → ∀ c ∈ rows, ∃ u : State, Does c s u
          ∧ (u.fn n).box.done = true ∧ (u.fn n).box.busy = false ∧ (u.fn n).box.code = Status.notInThisState.code ∧ (u.fn n).box.rlen = 0
          ∧ u.svc = s.svc ∧ u.dict = s.dict ∧ u.out = s.out ++ [.mailbox n Status.notInThisState.code []]))
  ∧ (∀ (s : State) (n idx : Nat), n ≠ 0 → blk n 0 ≤ idx → idx ≤ blk n 0x3F →
      (bit (s.dget (0x1FC0 + n) 1) (idx - blk n 0) = false → s.denied (.mailbox n) idx = s.dinc (0x1FC0 + n) 2
        ∧ ∀ q, s.mayWrite (.mailbox n) idx q = false)
      ∧ (bit (s.dget (0x1FC0 + n) 1) (idx - blk n 0) = true → s.denied (.mailbox n) idx = s ∧ ∀ q, s.mayWrite (.mailbox n) idx q = true))
  ∧ (∀ (who : Requester) (s : State) (n v : Nat), 1 ≤ n → n ≤ 63 → v < 2 ^ 64 →
      let r := writeOf who (0x1FC0 + n) 1 v
      let u := s.taken r
      s.Asks r → u.Accepts r → Answers (.writeMaskWrite who n v) s r .ok [] (u.maskWrite n v)
        ∧ bit ((u.maskWrite n v).dget (0x1FC0 + n) 1) 63 = true ∧ ∀ k, k < 16 → bit ((u.maskWrite n v).dget (0x1FC0 + n) 1) k = false)
  ∧ (∀ (who : Requester) (s : State),
      let r := writeOf who 0x2203 6 1
      let u := s.taken r
      s.Asks r → u.Accepts r →
        (u.dget 0x2203 4 = 1 → Answers (.emberRestart who) s r .notInThisState [] u)
        ∧ (u.dget 0x2203 4 ≠ 1 → Answers (.emberRestart who) s r .ok [] u.emberStart))
  ∧ (∀ (who : Requester) (s : State) (v : Nat), v < 2 ^ 64 →
      let r := writeOf who 0x3180 0x0E v
      let u := s.taken r
      s.Asks r → u.Accepts r → Answers (.timeSet who v) s r .ok [] (u.withPipe fun p => { p with timeSet := some v }))

/-- The CAN and Onsia paths (R41–R47): a datagram that is not for the management address and VLAN is no Onsia datagram; one with a wrong
magic, version, length or CRC is counted; a new SEQ is a request of its session, the one before is answered again; a 17th session is
refused. One segmented transfer a port: a second is refused; a toggle, length or frame out of order ends it, as does its time. A heartbeat
leaves on both ports. -/
def Obligations.DictionaryPaths : Prop :=
  (∀ (s : State) (a p dst vlan : Nat) (b : Bytes),
    let m := s.dget 0x1040 1
    let len := leAt b 14 2
    let good := leAt b 0 2 = 0xD960 ∧ byteAt b 2 = 1 ∧ len ≤ 1024 ∧ b.length = 24 + len ∧ leAt b (20 + len) 4 = crc32c (b.take (20 + len))
    let k := leAt b 4 2
    let seq := leAt b 6 2
    (s.live = false ∨ m = 0 ∨ dst ≠ m ∨ vlan ≠ s.dget 0x1040 4 → Does (.onsiaDatagram a p dst vlan b) s s)
    ∧ (s.live = true → m ≠ 0 → dst = m → vlan = s.dget 0x1040 4 →
      (¬ good → Does (.onsiaDatagram a p dst vlan b) s (s.dinc 0x1041 6))
      ∧ (good → s.dget 0x1041 2 = 0 → Does (.onsiaDatagram a p dst vlan b) s s)
      ∧ (good → s.dget 0x1041 2 ≠ 0 →
        (∀ x, s.session? a p k = some x → x.seq = some seq → x.answer = [] → Does (.onsiaDatagram a p dst vlan b) s s)
        ∧ (∀ x, s.session? a p k = some x → x.seq = some seq → x.answer ≠ [] →
            Does (.onsiaDatagram a p dst vlan b) s (s.emit (.datagram a p vlan x.answer)))
        ∧ (∀ x, s.session? a p k = some x → x.seq ≠ some seq → ∃ r : DictReq, r.who = .onsia a p k ∧ r.index = leAt b 8 2 ∧ r.sub = byteAt b 10
            ∧ r.data = Sys2Proof.Machine.sub b 20 len ∧ r.route = .onsia (byteAt b 3) seq (byteAt b 11) (leAt b 16 4)
            ∧ Does (.onsiaDatagram a p dst vlan b) s ((s.withSession a p k fun y => { y with seq := some seq, answer := [] }).enqueue r))
        ∧ (s.session? a p k = none → s.svc.sessions.length < 16 → ∃ r : DictReq, r.who = .onsia a p k ∧ r.index = leAt b 8 2
            ∧ r.sub = byteAt b 10 ∧ r.data = Sys2Proof.Machine.sub b 20 len
            ∧ Does (.onsiaDatagram a p dst vlan b) s ((s.withSvc fun v =>
                { v with sessions := v.sessions ++ [⟨a, p, k, some seq, [], none, none⟩] }).enqueue r))
        ∧ (s.session? a p k = none → 16 ≤ s.svc.sessions.length → ∃ u : State, Does (.onsiaDatagram a p dst vlan b) s u
            ∧ u.svc.sessions.length = s.svc.sessions.length ∧ u.svc.held = s.svc.held ∧ u.out.length = s.out.length + 1))))
  ∧ (∀ (s : State) (a p k : Nat), Does (.onsiaSessionTimeout a p k) s (s.withSvc fun v =>
      { v with sessions := v.sessions.filter fun x => !(x.addr == a && x.port == p && x.session == k) }))
  ∧ (∀ (s : State) (p idx q size : Nat) (b : Bytes) (f : UsdoFrame),
    (s.usdoServed p = false → Does (.usdoInitiateUpload p idx q) s s ∧ Does (.usdoInitiateDownload p idx q size b) s s ∧ Does (.usdoSegment p f) s s)
    ∧ (s.usdoServed p = true →
      ((s.svc.transfers.get? p).isSome = true → Does (.usdoInitiateUpload p idx q) s (s.usdoAbort p .poolExhausted)
          ∧ Does (.usdoInitiateDownload p idx q size b) s (s.usdoAbort p .poolExhausted))
      ∧ (s.svc.transfers.get? p = none →
        Does (.usdoInitiateUpload p idx q) s (s.enqueue ⟨.can p, .read, idx, q, [], .usdo true⟩)
        ∧ (b.length = size → Does (.usdoInitiateDownload p idx q size b) s (s.enqueue ⟨.can p, .write, idx, q, b, .usdo false⟩))
        ∧ (size < b.length ∨ (size ≤ usdoFrameBytes ∧ b.length ≠ size) →
            Does (.usdoInitiateDownload p idx q size b) s (s.usdoAbort p .protocolError))
        ∧ (b.length < size → usdoFrameBytes < size → Does (.usdoInitiateDownload p idx q size b) s ((s.withSvc fun v =>
            { v with transfers := v.transfers.put p ⟨false, idx, q, size, b, false⟩ }).emit (.usdo p false [])))
        ∧ Does (.usdoSegment p f) s ((s.usdoDrop p).usdoAbort p .protocolError))
      ∧ (∀ x toggle last d, s.svc.transfers.get? p = some x →
        (f = .undefined ∨ (f = .segment toggle last d ∧ toggle ≠ x.toggle) →
            Does (.usdoSegment p f) s ((s.usdoDrop p).usdoAbort p .protocolError))
        ∧ (f = .segment x.toggle last d → x.upload = true → x.data.length ≤ usdoFrameBytes →
            Does (.usdoSegment p f) s ((s.emit (.usdo p false (x.data.take usdoFrameBytes))).usdoDrop p))
        ∧ (f = .segment x.toggle last d → x.upload = true → usdoFrameBytes < x.data.length →
            Does (.usdoSegment p f) s ((s.emit (.usdo p false (x.data.take usdoFrameBytes))).withSvc fun v =>
              { v with transfers := v.transfers.put p { x with data := x.data.drop usdoFrameBytes, toggle := !x.toggle } }))
        ∧ (f = .segment x.toggle last d → x.upload = false → x.size < (x.data ++ d).length ∨ (last = true ∧ (x.data ++ d).length ≠ x.size) →
            Does (.usdoSegment p f) s ((s.usdoDrop p).usdoAbort p .protocolError))
        ∧ (f = .segment x.toggle true d → x.upload = false → (x.data ++ d).length = x.size →
            Does (.usdoSegment p f) s ((s.usdoDrop p).enqueue ⟨.can p, .write, x.index, x.sub, x.data ++ d, .usdo false⟩))
        ∧ (f = .segment x.toggle false d → x.upload = false → (x.data ++ d).length ≤ x.size →
            Does (.usdoSegment p f) s ((s.withSvc fun v =>
              { v with transfers := v.transfers.put p { x with data := x.data ++ d, toggle := !x.toggle } }).emit (.usdo p false [])))))
    ∧ (s.svc.transfers.get? p = none → Does (.usdoTransferTimeout p) s s)
    ∧ ((s.svc.transfers.get? p).isSome = true → Does (.usdoTransferTimeout p) s ((s.usdoDrop p).usdoAbort p .transferTimeout)))
  ∧ (∀ s : State, (s.hearthRuns = false ∨ s.dget 0x1017 0 = 0 → Does .heartbeat s s)
      ∧ (s.hearthRuns = true → s.dget 0x1017 0 ≠ 0 → Does .heartbeat s
          ((s.emit (.canFrame 0 (0x700 + s.dget 0x1010 1) [5])).emit (.canFrame 1 (0x700 + s.dget 0x1011 1) [5]))))

/-- Commit groups (R52–R57): a write opens a shadow for its session alone; a commit with no shadow is NOT_IN_THIS_STATE; one that its check
refuses answers GROUP_CONFLICT with the first conflicting entry; one that passes waits for its apply, which closes the group, counts and
answers; a discard, and 60 s without a commit, close it with nothing applied. -/
def Obligations.CommitGroups : Prop :=
  (∀ (who : Requester) (s : State) (g : Nat), groupAt (groupIdx g) = some g →
    (let r := writeOf who (groupIdx g) 1 1
     let u := s.taken r
     s.Asks r → u.Accepts r →
      (u.svc.shadows.get? g = none → Answers (.groupCommit who g) s r .notInThisState [] u)
      ∧ (∀ x, u.svc.shadows.get? g = some x → (u.groupCheck g).min? = none →
          exec (.groupCommit who g) s = .next (u.withSvc fun k => { k with commit := some (g, r) }).served)
      ∧ (∀ x c, u.svc.shadows.get? g = some x → (u.groupCheck g).min? = some c →
          Answers (.groupCommit who g) s r .groupConflict []
            (((u.withSvc fun k => { k with shadows := k.shadows.put g { x with refused := true } }).dset (groupIdx g) 4
              Status.groupConflict.code).dset (groupIdx g) 5 c)))
    ∧ (let r := writeOf who (groupIdx g) 1 2
       let u := s.taken r
       s.Asks r → u.Accepts r →
        (u.svc.shadows.get? g = none → Answers (.groupDiscard who g) s r .notInThisState [] u)
        ∧ ((u.svc.shadows.get? g).isSome = true →
            Answers (.groupDiscard who g) s r .ok [] (u.withSvc fun k => { k with shadows := k.shadows.del g }))))
  ∧ (∀ (s : State) (g : Nat),
      (s.svc.commit = none → Does (.groupApply g) s s)
      ∧ (∀ h r, s.svc.commit = some (h, r) → h ≠ g → Does (.groupApply g) s s)
      ∧ (∀ r, s.svc.commit = some (g, r) →
          let u := (s.withSvc fun k => { k with commit := none }).groupApply g
          Does (.groupApply g) s (((u.dset (groupIdx g) 4 Status.ok.code).dinc (groupIdx g) 6).answer r (s.dget 0x1040 4) .ok []))
      ∧ (∀ r, s.svc.commit = some (g, r) → ∀ h, h ≠ g → Does (.groupApply h) s s)
      ∧ (s.hearthRuns = false ∨ s.svc.shadows.get? g = none → Does (.shadowTimeout g) s s)
      ∧ (∀ r, s.svc.commit = some (g, r) → Does (.shadowTimeout g) s s)
      ∧ (s.hearthRuns = true → (s.svc.shadows.get? g).isSome = true → (∀ r, s.svc.commit ≠ some (g, r)) →
          Does (.shadowTimeout g) s ((s.shadowDrop g).logCls 0 .notice 0x8005 (leBytes 2 g))))
  ∧ (∀ (s : State) (g idx q : Nat) (who : Requester) (v : DVal),
      (∃ x, (s.shadowWrite g who idx q v).svc.shadows.get? g = some x
        ∧ (s.svc.shadows.get? g = none → x.holder = who) ∧ (∀ y, s.svc.shadows.get? g = some y → x.holder = y.holder)
        ∧ ((q = 1 → windowOf g ≠ some idx) → x.vals.get? (dkey idx q) = some v))
      ∧ (s.shadowWrite g who idx q v).dict = s.dict ∧ ∀ h, h ≠ g → (s.shadowWrite g who idx q v).svc.shadows.get? h = s.svc.shadows.get? h)
  ∧ (∀ (s : State) (g : Nat) (who : Requester) (x : Shadow), s.svc.shadows.get? g = some x → (s.heldByOther who g = true ↔ x.holder ≠ who))

/-- Registers of a function, its configuration, and the debug port (R10, R38, R141–R155, R514–R516, Tables 2-4, 6-5, 7-8 to 7-13): a write
that a function does not decode is an unsupported request; write-1-to-clear and plain fields take what their table gives; a BUSY mailbox
takes no write but to its interrupt register; a VF has only the fields of its own. Without permission a debug operation fails and does
nothing; a session attached or ended raises event 555 once. -/
def Obligations.RegistersAndDebug : Prop :=
  (∀ (s : State) (n off v : Nat), v < 2 ^ 32 →
    let a := s.hostActivity
    let w (u : State) := Does (.registerWrite n (.bar0 off) v) s u
    (a.decodes n = false → w (a.unsupportedRequest n false))
    ∧ (a.decodes n = true → off % 4 ≠ 0 → w a)
    ∧ (a.decodes n = true → n = 0 ∨ a.boot.ready = true →
      (off = 0x8 → w (a.withFn n fun x => { x with epstat := x.epstat - Nat.land x.epstat v }))
      ∧ (off = 0x18 → n = 0 → w (a.withBoot fun b => { b with bootLen := v % 0x2000000 }))
      ∧ (off = 0x18 → n ≠ 0 → w a)
      ∧ (off = 0x104 → a.adminWritable n = true → bit v 1 = true → w (a.adminRestart n))
      ∧ (off = 0x104 → a.adminWritable n = true → bit v 1 = false → bit v 0 = true → w (a.adminEnable n))
      ∧ (off = 0x104 → a.adminWritable n = true → bit v 1 = false → bit v 0 = false → w (a.adminDisable n))
      ∧ (off = 0x118 → a.adminWritable n = true → a.adminEnabled n = true → w a)
      ∧ (off = 0x118 → a.adminWritable n = true → a.adminEnabled n = false →
          w (a.withTq n fun t => { t with aqs := bits v 16 12 * 0x10000 + bits v 0 12 }))
      ∧ (0x104 ≤ off → off ≤ 0x120 → off % 4 = 0 → a.adminWritable n = false → w a)
      ∧ (∀ e, e < 16 → off = 0x200 + 4 * e → a.boot.ready = true → v % 128 = 0 → w (a.engineRelease n e))
      ∧ (∀ e, e < 16 → off = 0x200 + 4 * e → a.boot.ready = true → v % 128 = n + 1 → w (a.engineTake n e))
      ∧ (∀ e, e < 16 → off = 0x200 + 4 * e → v % 128 ≠ 0 → v % 128 ≠ n + 1 → w a))
    ∧ (∀ box, a.decodes n = true → (n = 0 ∧ box = 0x300000) ∨ (n ≠ 0 ∧ box = 0xC000) →
      let b := (a.fn n).box
      (off = box + 0x8 → bit v 17 = true → w (a.withBox n fun m => { m with done := false }))
      ∧ (off = box + 0x8 → bit v 17 = false → w a)
      ∧ (b.busy = true → off = box ∨ off = box + 4 ∨ (box + 0x1000 ≤ off ∧ off < box + 0x2000 ∧ off % 4 = 0) → w a)
      ∧ (b.busy = false → off = box + 4 → w (a.withBox n fun m => { m with len := v % 0x2000 }))
      ∧ (b.busy = false → box + 0x1000 ≤ off → off < box + 0x2000 → off % 4 = 0 →
          w (a.withBox n fun m => { m with data := m.data.writeN (off - box - 0x1000) (leBytes 4 v) }))
      ∧ (b.busy = false → off = box → bit v 31 = false → w (a.withBox n fun m => { m with cmd := v % 0x8000000 }))
      ∧ (b.busy = false → off = box → bit v 31 = true →
          w ((a.withBox n fun m => { m with cmd := v % 0x8000000 }).mailboxGo n (b.request n v)))))
  ∧ (∀ (s : State) (n v : Nat) (f : CfgField),
    let w (u : State) := Does (.registerWrite n (.cfg f) v) s u
    (s.host.up = false ∨ s.fnPresent n = false ∨ (n ≠ 0 ∧ vfField f = false) → w s)
    ∧ (s.host.up = true → s.fnPresent n = true → n = 0 ∨ vfField f = true →
      (∀ o, f = .readOnly o → w s)
      ∧ (f = .msixEnable → v % 2 = 1 → w (s.modeEnable n true))
      ∧ (f = .msixEnable → v % 2 = 0 → w ((s.withFn n fun x => { x with msixEn := false }).sendPending n))
      ∧ (f = .powerState → v % 4 = 3 → w s.enterD3) ∧ (f = .powerState → v % 4 = 0 → w s.enterD0)
      ∧ (f = .powerState → v % 4 = 1 ∨ v % 4 = 2 → w s)
      ∧ (f = .numVfs → s.host.vfEnable = true ∨ 63 < v % 65536 → w s)
      ∧ (f = .aerUncorrectableStatus ∨ f = .aerCorrectableStatus ∨ f = .statusErrorBits →
          w (s.cfgPut n f (s.cfg n f - Nat.land (s.cfg n f) v)))
      ∧ (f = .memorySpaceEnable ∨ f = .maxPayloadSize ∨ f = .maxReadRequestSize ∨ f = .aspmL1Enable ∨ f = .ltrEnable → w (s.cfgPut n f v))))
  ∧ (∀ (s : State) (a v : Nat),
    (s.debugPermitted = false → ∀ op, Does (.dmiAccess op) s (s.emit (.dmi false 0)))
    ∧ (s.debugPermitted = true → Does (.dmiAccess (.dtmcs v)) s (s.emit (.dmi true 0x71))
        ∧ Does (.dmiAccess (.read a)) s (s.emit (.dmi true (s.dmiRead s.votes (a % 128))))
        ∧ Does (.dmiAccess (.write a v)) s ((s.dmiWrite (a % 128) v).emit (.dmi true 0)))
    ∧ (v < 256 → s.dmiWrite 0x70 v = s.forceRelease v)
    ∧ (s.debugPermitted = false ∨ s.dget 0x3C10 2 = 1 → Does .debugSessionAttach s s)
    ∧ (s.debugPermitted = true → s.dget 0x3C10 2 ≠ 1 → Does .debugSessionAttach s
        ((((s.withDbg fun d => { d with active := true }).dset 0x3C10 2 1).dinc 0x3C10 3).event 555))
    ∧ (s.dget 0x3C10 2 = 1 → Does .debugSessionDetach s (((s.withDbg fun d => { d with active := false }).dset 0x3C10 2 0).event 555))
    ∧ (s.dget 0x3C10 2 ≠ 1 → Does .debugSessionDetach s (s.withDbg fun d => { d with active := false })))
end

