-- ==== Sys2Proof/Laws/Map.lean ====
section
/-! SUPPORT. The sparse map and the memory that is one: what a read gives after a write, and that every operation keeps the
canonical form. -/

namespace Sys2Proof.Laws

open Sys2Proof.Machine

variable {α : Type}

theorem get?_put_same (m : SMap α) (k : Nat) (v : α) : (m.put k v).get? k = some v := by
  induction m with
  | nil => simp [SMap.put, SMap.get?]
  | cons p t ih =>
    obtain ⟨j, w⟩ := p
    unfold SMap.put
    split
    · simp [SMap.get?]
    · split
      · simp [SMap.get?]
      · have : j ≠ k := fun e => by simp_all
        simp [SMap.get?, this, ih]

theorem get?_put_other (m : SMap α) {k j : Nat} (v : α) (h : j ≠ k) : (m.put k v).get? j = m.get? j := by
  induction m with
  | nil => simp [SMap.put, SMap.get?, Ne.symm h]
  | cons p t ih =>
    obtain ⟨i, w⟩ := p
    unfold SMap.put
    split
    · simp [SMap.get?, Ne.symm h]
    · split
      · rename_i e; subst e; simp [SMap.get?, Ne.symm h]
      · simp [SMap.get?, ih]

theorem get?_del_same (m : SMap α) (k : Nat) : (m.del k).get? k = none := by
  induction m with
  | nil => rfl
  | cons p t ih =>
    obtain ⟨j, w⟩ := p
    unfold SMap.del
    split
    · exact ih
    · rename_i e; simp [SMap.get?, e, ih]

theorem get?_del_other (m : SMap α) {k j : Nat} (h : j ≠ k) : (m.del k).get? j = m.get? j := by
  induction m with
  | nil => rfl
  | cons p t ih =>
    obtain ⟨i, w⟩ := p
    unfold SMap.del
    split
    · rename_i e; subst e; simp [SMap.get?, Ne.symm h, ih]
    · simp [SMap.get?, ih]

theorem above_mono {m : SMap α} {b c : Nat} (h : m.above c = true) (l : b ≤ c) : m.above b = true := by
  cases m with
  | nil => rfl
  | cons p t =>
    obtain ⟨k, v⟩ := p
    simp [SMap.above] at h ⊢
    exact ⟨by omega, h.2⟩

theorem above_put {m : SMap α} {b k : Nat} (v : α) (h : m.above b = true) (l : b ≤ k) : (m.put k v).above b = true := by
  induction m generalizing b with
  | nil => simp [SMap.put, SMap.above, l]
  | cons p t ih =>
    obtain ⟨j, w⟩ := p
    simp [SMap.above] at h
    unfold SMap.put
    split
    · rename_i e
      simp [SMap.above, l, h.2]
      omega
    · split
      · rename_i e; subst e; simp [SMap.above, h.2, l]
      · simp [SMap.above, h.1]; exact ih h.2 (by omega)

theorem above_del {m : SMap α} {b : Nat} (k : Nat) (h : m.above b = true) : (m.del k).above b = true := by
  induction m generalizing b with
  | nil => rfl
  | cons p t ih =>
    obtain ⟨j, w⟩ := p
    simp [SMap.above] at h
    unfold SMap.del
    split
    · exact above_mono (ih h.2) (by omega)
    · simp [SMap.above, h.1]; exact ih h.2

theorem above_filter {m : SMap α} {b : Nat} (p : Nat × α → Bool) (h : m.above b = true) :
    SMap.above (m.filter p) b = true := by
  induction m generalizing b with
  | nil => rfl
  | cons q t ih =>
    obtain ⟨j, w⟩ := q
    simp [SMap.above] at h
    rw [List.filter_cons]
    split
    · simp [SMap.above, h.1]; exact ih h.2
    · exact above_mono (ih h.2) (by omega)

theorem sorted_put {m : SMap α} (k : Nat) (v : α) (h : m.sorted = true) : (m.put k v).sorted = true :=
  above_put v h (Nat.zero_le k)

theorem sorted_del {m : SMap α} (k : Nat) (h : m.sorted = true) : (m.del k).sorted = true := above_del k h

theorem sorted_keep {m : SMap α} (p : Nat → α → Bool) (h : m.sorted = true) : (m.keep p).sorted = true := above_filter _ h

/-- In a map whose keys are above the bound, a key under it is not listed. -/
theorem get?_above {m : SMap α} {b k : Nat} (h : m.above b = true) (l : k < b) : m.get? k = none := by
  induction m generalizing b with
  | nil => rfl
  | cons p t ih =>
    obtain ⟨j, w⟩ := p
    simp [SMap.above] at h
    have : j ≠ k := by omega
    simp [SMap.get?, this]
    exact ih h.2 (by omega)

/-- Two maps in canonical order that answer alike are one map: equal contents are equal data. -/
theorem eq_of_get? {m n : SMap α} {b : Nat} (hm : m.above b = true) (hn : n.above b = true)
    (h : ∀ k, m.get? k = n.get? k) : m = n := by
  induction m generalizing n b with
  | nil =>
    cases n with
    | nil => rfl
    | cons q u => obtain ⟨j, w⟩ := q; have := h j; simp [SMap.get?] at this
  | cons p t ih =>
    obtain ⟨i, v⟩ := p
    cases n with
    | nil => have := h i; simp [SMap.get?] at this
    | cons q u =>
      obtain ⟨j, w⟩ := q
      simp [SMap.above] at hm hn
      have e : i = j := by
        rcases Nat.lt_trichotomy i j with l | l | l
        · have := h i; simp [SMap.get?, Nat.ne_of_gt l] at this
          rw [get?_above hn.2 (by omega)] at this; cases this
        · exact l
        · have := h j; simp [SMap.get?, Nat.ne_of_gt l] at this
          rw [get?_above hm.2 (by omega)] at this; cases this
      subst e
      have ev : v = w := by have := h i; simpa [SMap.get?] using this
      subst ev
      have : t = u := by
        apply ih hm.2 hn.2
        intro k
        by_cases e : i = k
        · subst e; rw [get?_above hm.2 (by omega), get?_above hn.2 (by omega)]
        · have := h k; simpa [SMap.get?, e] using this
      rw [this]

theorem wf_write {m : Mem} (a : Nat) (b : Byte) (h : m.wf = true) : (m.write a b).wf = true := by
  simp only [Mem.wf, Bool.and_eq_true] at h ⊢
  unfold Mem.write
  split
  · refine ⟨sorted_del a h.1, ?_⟩
    have : ∀ {n : SMap Byte}, (n.all fun kv => kv.2 != 0) = true → ((n.del a).all fun kv => kv.2 != 0) = true := by
      intro n hn
      induction n with
      | nil => rfl
      | cons p t ih =>
        obtain ⟨j, w⟩ := p
        simp only [List.all_cons, Bool.and_eq_true] at hn
        unfold SMap.del
        split
        · exact ih hn.2
        · simp only [List.all_cons, Bool.and_eq_true]; exact ⟨hn.1, ih hn.2⟩
    exact this h.2
  · rename_i hb
    have hb' : (b != 0) = true := by simpa using hb
    refine ⟨sorted_put a b h.1, ?_⟩
    have : ∀ {n : SMap Byte}, (n.all fun kv => kv.2 != 0) = true → ((n.put a b).all fun kv => kv.2 != 0) = true := by
      intro n hn
      induction n with
      | nil => simpa [SMap.put] using hb
      | cons p t ih =>
        obtain ⟨j, w⟩ := p
        have hn' := hn
        simp only [List.all_cons, Bool.and_eq_true] at hn
        unfold SMap.put
        split
        · simp only [List.all_cons, Bool.and_eq_true]; exact ⟨hb', hn⟩
        · split
          · simp only [List.all_cons, Bool.and_eq_true]; exact ⟨hb', hn.2⟩
          · simp only [List.all_cons, Bool.and_eq_true]; exact ⟨hn.1, ih hn.2⟩
    exact this h.2

theorem wf_writeN {m : Mem} (a : Nat) (b : Bytes) (h : m.wf = true) : (m.writeN a b).wf = true := by
  induction b generalizing m a with
  | nil => exact h
  | cons x t ih => exact ih (a + 1) (wf_write a x h)

theorem wf_clear {m : Mem} (a n : Nat) (h : m.wf = true) : (m.clear a n).wf = true := by
  simp only [Mem.wf, Bool.and_eq_true] at h ⊢
  refine ⟨sorted_keep _ h.1, ?_⟩
  simp only [Mem.clear, SMap.keep, List.all_eq_true, List.mem_filter] at h ⊢
  exact fun x hx => h.2 x hx.1

theorem wf_nil : Mem.wf ([] : List (Nat × Byte)) = true := rfl

theorem read_write_same (m : Mem) (a : Nat) (b : Byte) : (m.write a b).read a = b := by
  unfold Mem.write Mem.read SMap.getD
  split
  · rename_i h; simp [get?_del_same, h]
  · simp [get?_put_same]

theorem read_write_other (m : Mem) {a c : Nat} (b : Byte) (h : c ≠ a) : (m.write a b).read c = m.read c := by
  unfold Mem.write Mem.read SMap.getD
  split
  · rw [get?_del_other m h]
  · rw [get?_put_other m b h]

/-- A write of a byte string leaves every byte outside it. -/
theorem read_writeN_outside (m : Mem) (a : Nat) (b : Bytes) {c : Nat} (h : c < a ∨ a + b.length ≤ c) :
    (m.writeN a b).read c = m.read c := by
  induction b generalizing m a with
  | nil => rfl
  | cons x t ih =>
    simp only [List.length_cons] at h
    show ((m.write a x).writeN (a + 1) t).read c = m.read c
    rw [ih _ _ (by omega), read_write_other m x (by omega)]

/-- A byte of a written string reads back. -/
theorem read_writeN_inside (m : Mem) (a : Nat) (b : Bytes) {i : Nat} (h : i < b.length) :
    (m.writeN a b).read (a + i) = b[i] := by
  induction b generalizing m a i with
  | nil => simp at h
  | cons x t ih =>
    show ((m.write a x).writeN (a + 1) t).read (a + i) = _
    cases i with
    | zero =>
      rw [read_writeN_outside _ _ _ (by omega)]
      simpa using read_write_same m a x
    | succ i =>
      have := ih (m.write a x) (a + 1) (i := i) (by simpa using h)
      rw [show a + (i + 1) = a + 1 + i by omega, this]
      simp

theorem readN_writeN (m : Mem) (a : Nat) (b : Bytes) : (m.writeN a b).readN a b.length = b := by
  apply List.ext_getElem
  · simp [Mem.readN]
  · intro i h1 h2
    simp only [Mem.readN, List.getElem_map, List.getElem_range]
    exact read_writeN_inside m a b h2

theorem read_clear (m : Mem) (a n c : Nat) : (m.clear a n).read c = if a ≤ c ∧ c < a + n then 0 else m.read c := by
  unfold Mem.clear Mem.read SMap.getD SMap.keep
  induction m with
  | nil => simp [SMap.get?]
  | cons p t ih =>
    obtain ⟨j, w⟩ := p
    rw [List.filter_cons]
    by_cases e : j = c
    · subst e
      by_cases hj : a ≤ j ∧ j < a + n
      · simp only [hj, SMap.get?, and_self, if_true, decide_true, Bool.and_self, Bool.not_true] at ih ⊢
        simpa using ih
      · rw [if_neg hj]
        have : (!(decide (a ≤ j) && decide (j < a + n))) = true := by
          simp only [Bool.not_eq_true', Bool.and_eq_false_iff, decide_eq_false_iff_not]; tauto
        simp [this, SMap.get?]
    · split
      · simp only [SMap.get?, e, if_false]; exact ih
      · simp only [SMap.get?, e, if_false]; exact ih

end Sys2Proof.Laws
end

