-- ==== Sys2Proof/Laws/LaterShared.lean ====
section
/-! SUPPORT. What the operations of the shared operations, the ash log, the gatherer, the host link and the queues keep whatever else they do (the relation Later): one lemma each, to be
cited in place of unfolding the operation. -/

namespace Sys2Proof.Laws

open Sys2Proof.Machine

/-! Machine/Ops.lean -/

theorem later_rfl (s : State) : Later s s := ⟨rfl, List.prefix_refl _, Nat.le_refl _, rfl, id, id⟩

theorem later_trans {s t u : State} (h : Later s t) (k : Later t u) : Later s u :=
  ⟨k.queue.trans h.queue, h.sent.trans k.sent, Nat.le_trans h.drawn k.drawn, k.store.trans h.store, fun x => k.dram (h.dram x),
    fun x => k.dict (h.dict x)⟩

/-- An update of fields that the relation does not speak of. -/
theorem later_mk {s t : State} {time' : TimeBase} {eg' : Gatherer} {ash' : Ash} {peat' : Peat} {boot' : Boot} {pow' : Power} {damper' : Damper} {host' : HostLink} {fns' : SMap Fn} {q' : Queues} {insts' : SMap Inst} {stor' : Storage} {kiln' : Kiln} {cipher' : Cipher} {pipe' : Pipe} {flow' : Flow} {dbg' : Dbg} {svc' : Svc} {lastFire' : SMap Nat} :
    Later s ⟨t.dict, time', eg', ash', peat', t.sealStore, boot', pow', damper', host', fns', q', insts', stor', kiln', cipher', pipe', flow', dbg', svc', t.dram, t.free, lastFire', t.out, t.pending⟩ = Later s t :=
  propext ⟨fun h => ⟨h.queue, h.sent, h.drawn, h.store, h.dram, h.dict⟩, fun h => ⟨h.queue, h.sent, h.drawn, h.store, h.dram, h.dict⟩⟩

/-- What an instruction's result leaves. -/
def TrLater (s : State) : TrRes → Prop
  | .ok _ t => Later s t
  | .fail _ => True
  | .stay t => Later s t

/-- What the service's answer leaves. -/
def ServedLater (s : State) : Served → Prop
  | .answer _ _ t => Later s t
  | .commit _ t => Later s t

/-- What a command leaves, if it answers a next state. -/
structure OutLater (s : State) (o : Host.Outcome State Fault Refusal) : Prop where
  next : ∀ u, o = .next u → Later s u

theorem out_refused {s : State} {r : Refusal} : OutLater s (.refused r) := by
  constructor
  intro u e
  cases e

/-- What an operation that may have none leaves. -/
structure OptLater {α : Type} (s : State) (o : Option (α × State)) : Prop where
  some : ∀ p, o = some p → Later s p.2

theorem opt_some {α : Type} {s : State} {p : α × State} (h : Later s p.2) : OptLater s (some p) := by
  constructor
  intro q e
  injection e with e
  subst e
  exact h

theorem opt_none {α : Type} {s : State} : OptLater (α := α) s none := by
  constructor
  intro q e
  cases e

theorem later_foldl {α : Type} {s t : State} {f : State → α → State} {l : List α} (h : Later s t)
    (k : ∀ u x, Later s u → Later s (f u x)) : Later s (l.foldl f t) := by
  induction l generalizing t with
  | nil => exact h
  | cons a l ih => exact ih (k _ _ h)

theorem later_withTime {s t : State} (f : TimeBase → TimeBase) (h : Later s t) : Later s (State.withTime t f) := by
  unfold State.withTime
  (repeat' (first
    | with_reducible (first | assumption)
    | (simp -zeta only [later_mk])))

theorem later_withGatherer {s t : State} (f : Gatherer → Gatherer) (h : Later s t) : Later s (State.withGatherer t f) := by
  unfold State.withGatherer
  (repeat' (first
    | with_reducible (first | assumption)
    | (simp -zeta only [later_mk])))

theorem later_withAsh {s t : State} (f : Ash → Ash) (h : Later s t) : Later s (State.withAsh t f) := by
  unfold State.withAsh
  (repeat' (first
    | with_reducible (first | assumption)
    | (simp -zeta only [later_mk])))

theorem later_withPeat {s t : State} (f : Peat → Peat) (h : Later s t) : Later s (State.withPeat t f) := by
  unfold State.withPeat
  (repeat' (first
    | with_reducible (first | assumption)
    | (simp -zeta only [later_mk])))

theorem later_withBoot {s t : State} (f : Boot → Boot) (h : Later s t) : Later s (State.withBoot t f) := by
  unfold State.withBoot
  (repeat' (first
    | with_reducible (first | assumption)
    | (simp -zeta only [later_mk])))

theorem later_withPow {s t : State} (f : Power → Power) (h : Later s t) : Later s (State.withPow t f) := by
  unfold State.withPow
  (repeat' (first
    | with_reducible (first | assumption)
    | (simp -zeta only [later_mk])))

theorem later_withDamper {s t : State} (f : Damper → Damper) (h : Later s t) : Later s (State.withDamper t f) := by
  unfold State.withDamper
  (repeat' (first
    | with_reducible (first | assumption)
    | (simp -zeta only [later_mk])))

theorem later_withHost {s t : State} (f : HostLink → HostLink) (h : Later s t) : Later s (State.withHost t f) := by
  unfold State.withHost
  (repeat' (first
    | with_reducible (first | assumption)
    | (simp -zeta only [later_mk])))

theorem later_withQ {s t : State} (f : Queues → Queues) (h : Later s t) : Later s (State.withQ t f) := by
  unfold State.withQ
  (repeat' (first
    | with_reducible (first | assumption)
    | (simp -zeta only [later_mk])))

theorem later_withStor {s t : State} (f : Storage → Storage) (h : Later s t) : Later s (State.withStor t f) := by
  unfold State.withStor
  (repeat' (first
    | with_reducible (first | assumption)
    | (simp -zeta only [later_mk])))

theorem later_withKiln {s t : State} (f : Kiln → Kiln) (h : Later s t) : Later s (State.withKiln t f) := by
  unfold State.withKiln
  (repeat' (first
    | with_reducible (first | assumption)
    | (simp -zeta only [later_mk])))

theorem later_withCipher {s t : State} (f : Cipher → Cipher) (h : Later s t) : Later s (State.withCipher t f) := by
  unfold State.withCipher
  (repeat' (first
    | with_reducible (first | assumption)
    | (simp -zeta only [later_mk])))

theorem later_withPipe {s t : State} (f : Pipe → Pipe) (h : Later s t) : Later s (State.withPipe t f) := by
  unfold State.withPipe
  (repeat' (first
    | with_reducible (first | assumption)
    | (simp -zeta only [later_mk])))

theorem later_withFlow {s t : State} (f : Flow → Flow) (h : Later s t) : Later s (State.withFlow t f) := by
  unfold State.withFlow
  (repeat' (first
    | with_reducible (first | assumption)
    | (simp -zeta only [later_mk])))

theorem later_withDbg {s t : State} (f : Dbg → Dbg) (h : Later s t) : Later s (State.withDbg t f) := by
  unfold State.withDbg
  (repeat' (first
    | with_reducible (first | assumption)
    | (simp -zeta only [later_mk])))

theorem later_withSvc {s t : State} (f : Svc → Svc) (h : Later s t) : Later s (State.withSvc t f) := by
  unfold State.withSvc
  (repeat' (first
    | with_reducible (first | assumption)
    | (simp -zeta only [later_mk])))

theorem later_withDram {s t : State} {f : Mem → Mem} (h : Later s t) (k : ∀ m : Mem, m.wf = true → (f m).wf = true) :
    Later s (State.withDram t f) :=
  later_trans h ⟨rfl, List.prefix_refl _, Nat.le_refl _, rfl, k _, id⟩

theorem later_withFns {s t : State} (f : SMap Fn → SMap Fn) (h : Later s t) : Later s (State.withFns t f) := by
  unfold State.withFns
  (repeat' (first
    | with_reducible (first | assumption)
    | (simp -zeta only [later_mk])))

theorem later_withInsts {s t : State} (f : SMap Inst → SMap Inst) (h : Later s t) : Later s (State.withInsts t f) := by
  unfold State.withInsts
  (repeat' (first
    | with_reducible (first | assumption)
    | (simp -zeta only [later_mk])))

theorem later_withLastFire {s t : State} (f : SMap Nat → SMap Nat) (h : Later s t) : Later s (State.withLastFire t f) := by
  unfold State.withLastFire
  (repeat' (first
    | with_reducible (first | assumption)
    | (simp -zeta only [later_mk])))

theorem later_dsetv {s t : State} (idx sub : Nat) (v : DVal) (h : Later s t) : Later s (State.dsetv t idx sub v) :=
  later_trans h ⟨rfl, List.prefix_refl _, Nat.le_refl _, rfl, id, fun k => sorted_put _ _ k⟩

theorem later_dset {s t : State} (idx : Nat) (sub : Nat) (n : Nat) (h : Later s t) : Later s (State.dset t idx sub n) := by
  unfold State.dset
  (repeat' (first
    | with_reducible (first | assumption | apply later_dsetv)))

theorem later_dadd {s t : State} (idx : Nat) (sub : Nat) (n : Nat) (h : Later s t) : Later s (State.dadd t idx sub n) := by
  unfold State.dadd
  (repeat' (first
    | with_reducible (first | assumption | apply later_dset)
    | (extract_lets +onlyGivenNames u; (have hu : Later s u := ?_); (on_goal 1 => clear_value u); (on_goal 2 => (dsimp -zeta only [u]; clear u)))
    | (extract_lets +onlyGivenNames x; clear_value x)
    | split))

theorem later_dinc {s t : State} (idx : Nat) (sub : Nat) (h : Later s t) : Later s (State.dinc t idx sub) := by
  unfold State.dinc
  (repeat' (first
    | with_reducible (first | assumption | apply later_dadd)))

theorem later_dmax {s t : State} (idx : Nat) (sub : Nat) (n : Nat) (h : Later s t) : Later s (State.dmax t idx sub n) := by
  unfold State.dmax
  (repeat' (first
    | with_reducible (first | assumption | apply later_dset)
    | split))

theorem later_emit {s t : State} (o : Out) (h : Later s t) : Later s (State.emit t o) :=
  later_trans h ⟨rfl, List.prefix_append _ _, Nat.le_refl _, rfl, id, id⟩

theorem later_drawBits {s t : State} (w : Nat) (h : Later s t) : Later s (State.drawBits t w).2 :=
  later_trans h ⟨rfl, List.prefix_refl _, Nat.le_succ _, rfl, id, id⟩

theorem later_drawBits_eq {s t r : State} {x} {w : Nat} (h : Later s t) (e : State.drawBits t w = (x, r)) : Later s r := by
  have k := later_drawBits w h
  rw [e] at k; exact k

theorem later_drawBytes {s t : State} (n : Nat) (h : Later s t) : Later s (State.drawBytes t n).2 :=
  later_trans h ⟨rfl, List.prefix_refl _, Nat.le_succ _, rfl, id, id⟩

theorem later_drawBytes_eq {s t r : State} {x} {n : Nat} (h : Later s t) (e : State.drawBytes t n = (x, r)) : Later s r := by
  have k := later_drawBytes n h
  rw [e] at k; exact k

theorem later_event {s t : State} (src : Nat) (h : Later s t) : Later s (State.event t src) := by
  unfold State.event
  (repeat' (first
    | with_reducible (first | assumption | apply later_withGatherer)
    | intro _))

theorem later_eventLimited {s t : State} (src : Nat) (key : Nat) (h : Later s t) : Later s (State.eventLimited t src key) := by
  unfold State.eventLimited
  (repeat' (first
    | with_reducible (first | assumption | apply later_event | apply later_withLastFire)
    | intro _
    | split))

theorem later_pin {s t : State} (name : String) (level : Bool) (h : Later s t) : Later s (State.pin t name level) := by
  unfold State.pin
  (repeat' (first
    | with_reducible (first | assumption | apply later_emit)))

/-! Machine/PeatOps.lean -/

theorem later_peatFreeze {s t : State} (h : Later s t) : Later s (State.peatFreeze t) :=
  later_event _ (later_dset _ _ _ (later_withDram h fun _ => wf_writeN _ _))

theorem later_peatPlace {s t : State} (rec : Bytes) (h : Later s t) : Later s (State.peatPlace t rec) := by
  unfold State.peatPlace
  (repeat' (first
    | with_reducible (first | assumption | apply later_withDram | apply later_withPeat | apply later_dadd | apply later_peatFreeze | apply later_dset)
    | exact fun _ => wf_writeN _ _
    | exact fun _ => wf_clear _ _
    | exact fun _ k => wf_writeN _ _ (wf_writeN _ _ k)
    | intro _
    | (extract_lets +onlyGivenNames u; (have hu : Later s u := ?_); (on_goal 1 => clear_value u); (on_goal 2 => (dsimp -zeta only [u]; clear u)))
    | (extract_lets +onlyGivenNames x; clear_value x)
    | split))

theorem later_peatRecord {s t : State} (type : Nat) (hart : Nat) (data : Bytes) (h : Later s t) : Later s (State.peatRecord t type hart data) := by
  unfold State.peatRecord
  (repeat' (first
    | with_reducible (first | assumption | apply later_drawBits | refine later_drawBits_eq ?_ (by assumption) | apply later_peatPlace)
    | (extract_lets +onlyGivenNames u; (have hu : Later s u := ?_); (on_goal 1 => clear_value u); (on_goal 2 => (dsimp -zeta only [u]; clear u)))
    | (extract_lets +onlyGivenNames x; clear_value x)
    | split))

theorem later_peatTrigger {s t : State} (cause : Nat) (seq : Nat) (h : Later s t) : Later s (State.peatTrigger t cause seq) := by
  unfold State.peatTrigger
  (repeat' (first
    | with_reducible (first | assumption | apply later_peatRecord | apply later_dset | apply later_event | apply later_withPeat | apply later_peatFreeze)
    | intro _
    | (extract_lets +onlyGivenNames u; (have hu : Later s u := ?_); (on_goal 1 => clear_value u); (on_goal 2 => (dsimp -zeta only [u]; clear u)))
    | (extract_lets +onlyGivenNames x; clear_value x)
    | split))

theorem later_peatBreak {s t : State} (hart : Nat) (cause : Nat) (h : Later s t) : Later s (State.peatBreak t hart cause) := by
  unfold State.peatBreak
  (repeat' (first
    | with_reducible (first | assumption | apply later_peatRecord | apply later_event)
    | split))

/-! Machine/AshOps.lean -/

theorem later_sendAlarm {s t : State} (k : Nat) (h : Later s t) : Later s (State.sendAlarm t k) := by
  unfold State.sendAlarm
  (repeat' (first
    | with_reducible (first | assumption | apply later_emit | apply later_withAsh)
    | intro _
    | (extract_lets +onlyGivenNames u; (have hu : Later s u := ?_); (on_goal 1 => clear_value u); (on_goal 2 => (dsimp -zeta only [u]; clear u)))
    | (extract_lets +onlyGivenNames x; clear_value x)
    | split))

theorem later_alarmHit {s t : State} (k : Nat) (cls : Nat) (time : Nat) (h : Later s t) : Later s (State.alarmHit t k cls time) := by
  unfold State.alarmHit
  (repeat' (first
    | with_reducible (first | assumption | apply later_dset | apply later_withAsh | apply later_event | apply later_sendAlarm)
    | intro _
    | (extract_lets +onlyGivenNames u; (have hu : Later s u := ?_); (on_goal 1 => clear_value u); (on_goal 2 => (dsimp -zeta only [u]; clear u)))
    | (extract_lets +onlyGivenNames x; clear_value x)
    | split))

theorem later_alarmsTest {s t : State} (sev : Nat) (cls : Nat) (code : Nat) (time : Nat) (h : Later s t) : Later s (State.alarmsTest t sev cls code time) := by
  unfold State.alarmsTest
  (repeat' (first
    | with_reducible (first | assumption | apply later_alarmHit | apply later_foldl)
    | intro _
    | split))

theorem later_ashOverrun {s t : State} (seq : Nat) (h : Later s t) : Later s (State.ashOverrun t seq) := by
  unfold State.ashOverrun
  (repeat' (first
    | with_reducible (first | assumption | apply later_withAsh | apply later_dinc | apply later_eventLimited | apply later_foldl)
    | intro _
    | split))

theorem later_ashExport {s t : State} (seq : Nat) (sev : Nat) (h : Later s t) : Later s (State.ashExport t seq sev) := by
  unfold State.ashExport
  (repeat' (first
    | with_reducible (first | assumption | apply later_dinc | apply later_eventLimited | apply later_withAsh | apply later_foldl)
    | intro _
    | (extract_lets +onlyGivenNames u; (have hu : Later s u := ?_); (on_goal 1 => clear_value u); (on_goal 2 => (dsimp -zeta only [u]; clear u)))
    | (extract_lets +onlyGivenNames x; clear_value x)
    | split))

theorem later_ashPlace {s t : State} (e_ : AshEntry) (h : Later s t) : Later s (State.ashPlace t e_).1 := by
  unfold State.ashPlace
  (repeat' (first
    | with_reducible (first | assumption | apply later_withAsh | apply later_event | apply later_ashExport)
    | intro _
    | (extract_lets +onlyGivenNames u; (have hu : Later s u := ?_); (on_goal 1 => clear_value u); (on_goal 2 => (dsimp -zeta only [u]; clear u)))
    | (extract_lets +onlyGivenNames x; clear_value x)
    | split))

theorem later_ashPlace_eq {s t r : State} {x} {e_ : AshEntry} (h : Later s t) (e : State.ashPlace t e_ = (r, x)) : Later s r := by
  have k := later_ashPlace (s := s) (t := t) e_  h
  rw [e] at k; exact k

theorem later_ashStore {s t : State} (e_ : AshEntry) (h : Later s t) : Later s (State.ashStore t e_).1 := by
  unfold State.ashStore
  (repeat' (first
    | with_reducible (first | assumption | apply later_ashPlace | refine later_ashPlace_eq ?_ (by assumption) | apply later_dinc | apply later_withAsh | apply later_event | apply later_ashOverrun)
    | intro _
    | (extract_lets +onlyGivenNames u; (have hu : Later s u := ?_); (on_goal 1 => clear_value u); (on_goal 2 => (dsimp -zeta only [u]; clear u)))
    | (extract_lets +onlyGivenNames x; clear_value x)
    | split))

theorem later_ashStore_eq {s t r : State} {x} {e_ : AshEntry} (h : Later s t) (e : State.ashStore t e_ = (r, x)) : Later s r := by
  have k := later_ashStore (s := s) (t := t) e_  h
  rw [e] at k; exact k

theorem later_ashAdmit {s t : State} (e_ : AshEntry) (bypass : Bool) (admitted : Bool) (h : Later s t) : Later s (State.ashAdmit t e_ bypass admitted).1 := by
  unfold State.ashAdmit
  (repeat' (first
    | with_reducible (first | assumption | apply later_withAsh | apply later_ashStore | refine later_ashStore_eq ?_ (by assumption) | apply later_dinc | apply later_eventLimited)
    | intro _
    | (extract_lets +onlyGivenNames u; (have hu : Later s u := ?_); (on_goal 1 => clear_value u); (on_goal 2 => (dsimp -zeta only [u]; clear u)))
    | (extract_lets +onlyGivenNames x; clear_value x)
    | split))

theorem later_ashAdmit_eq {s t r : State} {x} {e_ : AshEntry} {bypass : Bool} {admitted : Bool} (h : Later s t) (e : State.ashAdmit t e_ bypass admitted = (r, x)) : Later s r := by
  have k := later_ashAdmit (s := s) (t := t) e_ bypass admitted  h
  rw [e] at k; exact k

theorem later_ashTake {s t : State} (e_ : AshEntry) (bypass : Bool) (h : Later s t) : Later s (State.ashTake t e_ bypass) := by
  unfold State.ashTake
  (repeat' (first
    | with_reducible (first | assumption | apply later_alarmsTest | apply later_dinc | apply later_event | apply later_withAsh | apply later_ashAdmit | refine later_ashAdmit_eq ?_ (by assumption) | apply later_peatTrigger)
    | intro _
    | (extract_lets +onlyGivenNames u; (have hu : Later s u := ?_); (on_goal 1 => clear_value u); (on_goal 2 => (dsimp -zeta only [u]; clear u)))
    | (extract_lets +onlyGivenNames x; clear_value x)
    | split))

theorem later_logSubmit {s t : State} (e_ : AshEntry) (h : Later s t) : Later s (State.logSubmit t e_) := by
  unfold State.logSubmit
  (repeat' (first
    | with_reducible (first | assumption | apply later_ashTake)
    | split))

theorem later_logAs {s t : State} (block : Nat) (source : Nat) (sev : Severity) (code : Nat) (payload : Bytes) (h : Later s t) : Later s (State.logAs t block source sev code payload) := by
  unfold State.logAs
  (repeat' (first
    | with_reducible (first | assumption | apply later_withDbg | apply later_logSubmit)
    | intro _
    | (extract_lets +onlyGivenNames u; (have hu : Later s u := ?_); (on_goal 1 => clear_value u); (on_goal 2 => (dsimp -zeta only [u]; clear u)))
    | (extract_lets +onlyGivenNames x; clear_value x)
    | split))

theorem later_logSrc {s t : State} (source : Nat) (sev : Severity) (code : Nat) (payload : Bytes) (h : Later s t) : Later s (State.logSrc t source sev code payload) := by
  unfold State.logSrc
  (repeat' (first
    | with_reducible (first | assumption | apply later_logAs)))

theorem later_logCls {s t : State} (block : Nat) (sev : Severity) (code : Nat) (payload : Bytes) (h : Later s t) : Later s (State.logCls t block sev code payload) := by
  unfold State.logCls
  (repeat' (first
    | with_reducible (first | assumption | apply later_logAs)))

theorem later_eventLog {s t : State} (source : Nat) (sev : Severity) (code : Nat) (payload : Bytes) (h : Later s t) : Later s (State.eventLog t source sev code payload) := by
  unfold State.eventLog
  (repeat' (first
    | with_reducible (first | assumption | apply later_event | apply later_logSrc)))

/-! Machine/EventOps.lean -/

theorem later_stackFaultHandling {s t : State} (h : Later s t) : Later s (State.stackFaultHandling t) := by
  unfold State.stackFaultHandling
  (repeat' (first
    | with_reducible (first | assumption | apply later_logSrc | apply later_withGatherer | apply later_foldl)
    | intro _
    | (extract_lets +onlyGivenNames u; (have hu : Later s u := ?_); (on_goal 1 => clear_value u); (on_goal 2 => (dsimp -zeta only [u]; clear u)))
    | (extract_lets +onlyGivenNames x; clear_value x)
    | split))

theorem later_egClaimOp {s t : State} (t_ : Nat) (h : Later s t) : Later s (State.egClaimOp t t_).2 := by
  unfold State.egClaimOp
  (repeat' (first
    | with_reducible (first | assumption | apply later_withGatherer | apply later_dinc)
    | intro _
    | (extract_lets +onlyGivenNames u; (have hu : Later s u := ?_); (on_goal 1 => clear_value u); (on_goal 2 => (dsimp -zeta only [u]; clear u)))
    | (extract_lets +onlyGivenNames x; clear_value x)
    | split))

theorem later_egClaimOp_eq {s t r : State} {x} {t_ : Nat} (h : Later s t) (e : State.egClaimOp t t_ = (x, r)) : Later s r := by
  have k := later_egClaimOp (s := s) (t := t) t_  h
  rw [e] at k; exact k

theorem later_egEoiOp {s t : State} (t_ : Nat) (source : Nat) (h : Later s t) : Later s (State.egEoiOp t t_ source) := by
  unfold State.egEoiOp
  (repeat' (first
    | with_reducible (first | assumption | apply later_dinc | apply later_withGatherer | apply later_event)
    | intro _
    | (extract_lets +onlyGivenNames u; (have hu : Later s u := ?_); (on_goal 1 => clear_value u); (on_goal 2 => (dsimp -zeta only [u]; clear u)))
    | (extract_lets +onlyGivenNames x; clear_value x)
    | split))

/-! Machine/PowerOps.lean -/

theorem later_setDom {s t : State} (d : Nat) (x_ : Dom) (h : Later s t) : Later s (State.setDom t d x_) := by
  unfold State.setDom
  (repeat' (first
    | with_reducible (first | assumption | apply later_withPow)
    | intro _))

theorem later_wakeNote {s t : State} (src : Nat) (h : Later s t) : Later s (State.wakeNote t src) := by
  unfold State.wakeNote
  (repeat' (first
    | with_reducible (first | assumption | apply later_withPow)
    | intro _))

/-! Machine/DamperOps.lean -/

theorem later_damperFresh {s t : State} (h : Later s t) : Later s (State.damperFresh t) := by
  unfold State.damperFresh
  (repeat' (first
    | with_reducible (first | assumption | apply later_dset | apply later_withDamper)
    | intro _
    | (extract_lets +onlyGivenNames u; (have hu : Later s u := ?_); (on_goal 1 => clear_value u); (on_goal 2 => (dsimp -zeta only [u]; clear u)))
    | (extract_lets +onlyGivenNames x; clear_value x)))

/-! Machine/HostOps.lean -/

theorem later_withFn {s t : State} (n : Nat) (f : Fn → Fn) (h : Later s t) : Later s (State.withFn t n f) := by
  unfold State.withFn
  (repeat' (first
    | with_reducible (first | assumption | apply later_withFns)
    | intro _))

theorem later_cfgPut {s t : State} (n : Nat) (f : CfgField) (v : Nat) (h : Later s t) : Later s (State.cfgPut t n f v) := by
  unfold State.cfgPut
  (repeat' (first
    | with_reducible (first | assumption | apply later_withFn)
    | intro _))

theorem later_withInst {s t : State} (n : Nat) (f : Inst → Inst) (h : Later s t) : Later s (State.withInst t n f) := by
  unfold State.withInst
  (repeat' (first
    | with_reducible (first | assumption | apply later_withInsts)
    | intro _))

theorem later_hostActivity {s t : State} (h : Later s t) : Later s (State.hostActivity t) := by
  unfold State.hostActivity
  (repeat' (first
    | with_reducible (first | assumption | apply later_dadd | apply later_dinc | apply later_withHost | apply later_emit)
    | intro _
    | (extract_lets +onlyGivenNames u; (have hu : Later s u := ?_); (on_goal 1 => clear_value u); (on_goal 2 => (dsimp -zeta only [u]; clear u)))
    | (extract_lets +onlyGivenNames x; clear_value x)
    | split))

theorem later_aerCor {s t : State} (n : Nat) (bitNo : Nat) (h : Later s t) : Later s (State.aerCor t n bitNo) := by
  unfold State.aerCor
  (repeat' (first
    | with_reducible (first | assumption | apply later_cfgPut)))

theorem later_aerUncor {s t : State} (n : Nat) (bitNo : Nat) (h : Later s t) : Later s (State.aerUncor t n bitNo) := by
  unfold State.aerUncor
  (repeat' (first
    | with_reducible (first | assumption | apply later_cfgPut | apply later_event)))

theorem later_aerAdvisory {s t : State} (n : Nat) (bitNo : Nat) (h : Later s t) : Later s (State.aerAdvisory t n bitNo) := by
  unfold State.aerAdvisory
  (repeat' (first
    | with_reducible (first | assumption | apply later_cfgPut | apply later_aerCor)))

theorem later_unsupportedRequest {s t : State} (n : Nat) (isRead : Bool) (h : Later s t) : Later s (State.unsupportedRequest t n isRead) := by
  unfold State.unsupportedRequest
  (repeat' (first
    | with_reducible (first | assumption | apply later_aerUncor | apply later_emit)
    | (extract_lets +onlyGivenNames u; (have hu : Later s u := ?_); (on_goal 1 => clear_value u); (on_goal 2 => (dsimp -zeta only [u]; clear u)))
    | (extract_lets +onlyGivenNames x; clear_value x)
    | split))

theorem later_epstatSet {s t : State} (n : Nat) (bitNo : Nat) (h : Later s t) : Later s (State.epstatSet t n bitNo) := by
  unfold State.epstatSet
  (repeat' (first
    | with_reducible (first | assumption | apply later_withFn)
    | intro _))

theorem later_raise {s t : State} (n : Nat) (v : Nat) (h : Later s t) : Later s (State.raise t n v) := by
  unfold State.raise
  (repeat' (first
    | with_reducible (first | assumption | apply later_hostActivity | apply later_emit | apply later_withFn)
    | intro _
    | split))

theorem later_sendPending {s t : State} (n : Nat) (h : Later s t) : Later s (State.sendPending t n) := by
  unfold State.sendPending
  (repeat' (first
    | with_reducible (first | assumption | apply later_withFn | apply later_emit | apply later_foldl)
    | intro _
    | split))

theorem later_issueRead {s t : State} (n : Nat) (tag : Nat) (addr : Nat) (len : Nat) (o : TagOwner) (h : Later s t) : Later s (State.issueRead t n tag addr len o) := by
  unfold State.issueRead
  (repeat' (first
    | with_reducible (first | assumption | apply later_hostActivity | apply later_withFn | apply later_emit)
    | intro _))

theorem later_hostWrite {s t : State} (n : Nat) (addr : Nat) (b : Bytes) (h : Later s t) : Later s (State.hostWrite t n addr b) := by
  unfold State.hostWrite
  (repeat' (first
    | with_reducible (first | assumption | apply later_hostActivity | apply later_emit | apply later_foldl)
    | intro _
    | (extract_lets +onlyGivenNames u; (have hu : Later s u := ?_); (on_goal 1 => clear_value u); (on_goal 2 => (dsimp -zeta only [u]; clear u)))
    | (extract_lets +onlyGivenNames x; clear_value x)))

theorem later_scatterInto {s t : State} (n : Nat) (l : List Desc) (b : Bytes) (h : Later s t) :
    Later s (State.scatterInto t n l b) := by
  induction l generalizing t b with
  | nil => exact h
  | cons e l ih =>
    unfold State.scatterInto
    split
    · exact h
    · apply ih
      split
      · exact later_withDram h fun _ => wf_writeN _ _
      · exact later_hostWrite _ _ _ h

theorem later_scatter {s t : State} (n : Nat) (d : Desc) (i : Nat) (r_ : HostRead) (b : Bytes) (h : Later s t) : Later s (State.scatter t n d i r_ b).1 := by
  unfold State.scatter
  (repeat' (first
    | with_reducible (first | assumption | apply later_scatterInto)
    | (extract_lets +onlyGivenNames u; (have hu : Later s u := ?_); (on_goal 1 => clear_value u); (on_goal 2 => (dsimp -zeta only [u]; clear u)))
    | (extract_lets +onlyGivenNames x; clear_value x)
    | split
    | cases ‹none = some _›
    | (split at ‹_ = some _›)))

theorem later_scatter_eq {s t r : State} {x} {n : Nat} {d : Desc} {i : Nat} {r_ : HostRead} {b : Bytes} (h : Later s t) (e : State.scatter t n d i r_ b = (r, x)) : Later s r := by
  have k := later_scatter (s := s) (t := t) n d i r_ b  h
  rw [e] at k; exact k

theorem later_enterL1 {s t : State} (h : Later s t) : Later s (State.enterL1 t) := by
  unfold State.enterL1
  (repeat' (first
    | with_reducible (first | assumption | apply later_withHost | apply later_dinc)
    | intro _
    | (extract_lets +onlyGivenNames u; (have hu : Later s u := ?_); (on_goal 1 => clear_value u); (on_goal 2 => (dsimp -zeta only [u]; clear u)))
    | (extract_lets +onlyGivenNames x; clear_value x)
    | split))

/-! Machine/QueueOps.lean -/

theorem later_setSq {s t : State} (n : Nat) (q : Nat) (x_ : Sq) (h : Later s t) : Later s (State.setSq t n q x_) := by
  unfold State.setSq
  (repeat' (first
    | with_reducible (first | assumption | apply later_withQ)
    | intro _))

theorem later_setCq {s t : State} (n : Nat) (q : Nat) (x_ : Cq) (h : Later s t) : Later s (State.setCq t n q x_) := by
  unfold State.setCq
  (repeat' (first
    | with_reducible (first | assumption | apply later_withQ)
    | intro _))

theorem later_withCq {s t : State} (n : Nat) (q : Nat) (f : Cq → Cq) (h : Later s t) : Later s (State.withCq t n q f) := by
  unfold State.withCq
  (repeat' (first
    | with_reducible (first | assumption | apply later_setCq)
    | split))

theorem later_withSq {s t : State} (n : Nat) (q : Nat) (f : Sq → Sq) (h : Later s t) : Later s (State.withSq t n q f) := by
  unfold State.withSq
  (repeat' (first
    | with_reducible (first | assumption | apply later_setSq)
    | split))

theorem later_reserveLow {s t : State} (h : Later s t) : Later s (State.reserveLow t) := by
  unfold State.reserveLow
  (repeat' (first
    | with_reducible (first | assumption | apply later_event | apply later_withQ)
    | intro _
    | (extract_lets +onlyGivenNames u; (have hu : Later s u := ?_); (on_goal 1 => clear_value u); (on_goal 2 => (dsimp -zeta only [u]; clear u)))
    | (extract_lets +onlyGivenNames x; clear_value x)
    | split))

theorem later_cqMessage {s t : State} (n : Nat) (q : Nat) (h : Later s t) : Later s (State.cqMessage t n q) := by
  unfold State.cqMessage
  (repeat' (first
    | with_reducible (first | assumption | apply later_setCq | apply later_raise)
    | split))

theorem later_cqSignal {s t : State} (n : Nat) (q : Nat) (imm : Bool) (h : Later s t) : Later s (State.cqSignal t n q imm) := by
  unfold State.cqSignal
  (repeat' (first
    | with_reducible (first | assumption | apply later_raise | apply later_setCq | apply later_cqMessage)
    | (extract_lets +onlyGivenNames u; (have hu : Later s u := ?_); (on_goal 1 => clear_value u); (on_goal 2 => (dsimp -zeta only [u]; clear u)))
    | (extract_lets +onlyGivenNames x; clear_value x)
    | split))

theorem later_cqWrite {s t : State} (n : Nat) (q : Nat) (p : Pend) (h : Later s t) : Later s (State.cqWrite t n q p) := by
  unfold State.cqWrite
  (repeat' (first
    | with_reducible (first | assumption | apply later_drawBits | refine later_drawBits_eq ?_ (by assumption) | apply later_hostWrite | apply later_setCq | apply later_cqSignal)
    | (extract_lets +onlyGivenNames u; (have hu : Later s u := ?_); (on_goal 1 => clear_value u); (on_goal 2 => (dsimp -zeta only [u]; clear u)))
    | (extract_lets +onlyGivenNames x; clear_value x)
    | split))

theorem later_cqDrainN {s t : State} (n q f : Nat) (h : Later s t) : Later s (State.cqDrainN t n q f) := by
  induction f generalizing t with
  | zero => exact h
  | succ f ih =>
    unfold State.cqDrainN
    repeat' (first
      | assumption
      | with_reducible apply ih
      | with_reducible apply later_cqWrite
      | with_reducible apply later_setCq
      | split)

theorem later_stallCheck {s t : State} (n : Nat) (q : Nat) (h : Later s t) : Later s (State.stallCheck t n q) := by
  unfold State.stallCheck
  (repeat' (first
    | with_reducible (first | assumption | apply later_setCq | apply later_event | apply later_dinc)
    | (extract_lets +onlyGivenNames u; (have hu : Later s u := ?_); (on_goal 1 => clear_value u); (on_goal 2 => (dsimp -zeta only [u]; clear u)))
    | (extract_lets +onlyGivenNames x; clear_value x)
    | split))

theorem later_cqDrain {s t : State} (n : Nat) (q : Nat) (h : Later s t) : Later s (State.cqDrain t n q) := by
  unfold State.cqDrain
  (repeat' (first
    | with_reducible (first | assumption | apply later_cqDrainN | apply later_stallCheck)
    | split))

theorem later_cqPost {s t : State} (n : Nat) (q : Nat) (p : Pend) (h : Later s t) : Later s (State.cqPost t n q p) := by
  unfold State.cqPost
  (repeat' (first
    | with_reducible (first | assumption | apply later_cqWrite | apply later_setCq | apply later_stallCheck | apply later_dinc)
    | split))

theorem later_cqTry {s t r : State} {n : Nat} {q : Nat} {p : Pend} (h : Later s t) (e : State.cqTry t n q p = some r) : Later s r := by
  unfold State.cqTry at e
  (try dsimp only at e)
  (repeat' (first | (injection e with e; subst e) | cases e | split at e))
  all_goals (repeat' (first
    | with_reducible (first | assumption | apply later_cqPost)
    | split
    | cases ‹none = some _›
    | (split at ‹_ = some _›)))

theorem later_statusCount {s t : State} (n : Nat) (st : Status) (h : Later s t) : Later s (State.statusCount t n st) := by
  unfold State.statusCount
  (repeat' (first
    | with_reducible (first | assumption | apply later_dinc | apply later_epstatSet)
    | split))

theorem later_finish {s t : State} (n : Nat) (q : Nat) (tag : Nat) (imm : Bool) (st : Status) (r0 : Nat) (r1 : Nat) (holder : Option Nat) (h : Later s t) : Later s (State.finish t n q tag imm st r0 r1 holder) := by
  unfold State.finish
  (repeat' (first
    | with_reducible (first | assumption | apply later_statusCount | apply later_cqPost)
    | split))

theorem later_dropCtx {s t : State} (n : Nat) (q : Nat) (tag : Nat) (h : Later s t) : Later s (State.dropCtx t n q tag) := by
  unfold State.dropCtx
  (repeat' (first
    | with_reducible (first | assumption | apply later_withQ)
    | intro _))

theorem later_orphanReads {s t : State} (n : Nat) (q : Nat) (tag : Nat) (h : Later s t) : Later s (State.orphanReads t n q tag) := by
  unfold State.orphanReads
  (repeat' (first
    | with_reducible (first | assumption | apply later_withFn)
    | intro _
    | split))

theorem later_complete {s t : State} (n : Nat) (q : Nat) (tag : Nat) (st : Status) (r0 : Nat) (r1 : Nat) (holder : Option Nat) (h : Later s t) : Later s (State.complete t n q tag st r0 r1 holder) := by
  unfold State.complete
  (repeat' (first
    | with_reducible (first | assumption | apply later_dropCtx | apply later_orphanReads | apply later_finish)
    | split))

theorem later_freeze {s t : State} (n : Nat) (q : Nat) (kind : Nat) (cause : Nat) (st : Status) (unit : Bytes) (h : Later s t) : Later s (State.freeze t n q kind cause st unit) := by
  unfold State.freeze
  (repeat' (first
    | with_reducible (first | assumption | apply later_withSq | apply later_withCq | apply later_withFn | apply later_dinc | apply later_event | apply later_raise | apply later_cqPost)
    | intro _
    | (extract_lets +onlyGivenNames u; (have hu : Later s u := ?_); (on_goal 1 => clear_value u); (on_goal 2 => (dsimp -zeta only [u]; clear u)))
    | (extract_lets +onlyGivenNames x; clear_value x)
    | split))

theorem later_wrrCount {s t : State} (n : Nat) (q : Nat) (h : Later s t) : Later s (State.wrrCount t n q) := by
  unfold State.wrrCount
  (repeat' (first
    | with_reducible (first | assumption | apply later_withQ | apply later_withSq)
    | intro _
    | (extract_lets +onlyGivenNames u; (have hu : Later s u := ?_); (on_goal 1 => clear_value u); (on_goal 2 => (dsimp -zeta only [u]; clear u)))
    | (extract_lets +onlyGivenNames x; clear_value x)
    | split))

theorem later_markStarted {s t : State} (n : Nat) (q : Nat) (tag : Nat) (h : Later s t) : Later s (State.markStarted t n q tag) := by
  unfold State.markStarted
  (repeat' (first
    | with_reducible (first | assumption | apply later_withQ)
    | intro _
    | split))

theorem later_deletionsSettle {s t : State} (h : Later s t) : Later s (State.deletionsSettle t) := by
  unfold State.deletionsSettle
  (repeat' (first
    | with_reducible (first | assumption | apply later_withQ | apply later_complete | apply later_withFn | apply later_foldl)
    | intro _
    | (extract_lets +onlyGivenNames u; (have hu : Later s u := ?_); (on_goal 1 => clear_value u); (on_goal 2 => (dsimp -zeta only [u]; clear u)))
    | (extract_lets +onlyGivenNames x; clear_value x)
    | split))

theorem later_queuesGone {s t : State} (n : Nat) (h : Later s t) : Later s (State.queuesGone t n) := by
  unfold State.queuesGone
  (repeat' (first
    | with_reducible (first | assumption | apply later_withQ | apply later_reserveLow)
    | intro _
    | (extract_lets +onlyGivenNames u; (have hu : Later s u := ?_); (on_goal 1 => clear_value u); (on_goal 2 => (dsimp -zeta only [u]; clear u)))
    | (extract_lets +onlyGivenNames x; clear_value x)))

end Sys2Proof.Laws
end

