-- ==== Sys2Proof/Laws/LaterBlocks.lean ====
section
/-! SUPPORT. What the operations of the tenants, storage, the cipher blocks and kiln keep whatever else they do (the relation Later): one lemma each, to be
cited in place of unfolding the operation. -/

namespace Sys2Proof.Laws

open Sys2Proof.Machine

/-! Machine/TenantOps.lean -/

theorem later_instTo {s t : State} (n : Nat) (st : InstState) (h : Later s t) : Later s (State.instTo t n st) := by
  unfold State.instTo
  (repeat' (first
    | with_reducible (first | assumption | apply later_withInst | apply later_dinc | apply later_eventLog)
    | intro _
    | (extract_lets +onlyGivenNames u; (have hu : Later s u := ?_); (on_goal 1 => clear_value u); (on_goal 2 => (dsimp -zeta only [u]; clear u)))
    | (extract_lets +onlyGivenNames x; clear_value x)
    | split))

/-! Machine/StorageOps.lean -/

theorem later_withPort {s t : State} (p : Nat) (f : RootPort → RootPort) (h : Later s t) : Later s (State.withPort t p f) := by
  unfold State.withPort
  (repeat' (first
    | with_reducible (first | assumption | apply later_withStor)
    | intro _))

theorem later_withNs {s t : State} (k : Nat) (f : Ns → Ns) (h : Later s t) : Later s (State.withNs t k f) := by
  unfold State.withNs
  (repeat' (first
    | with_reducible (first | assumption | apply later_withStor)
    | intro _
    | split))

theorem later_storEnd {s t : State} (n : Nat) (q : Nat) (tag : Nat) (st : Status) (r0 : Nat) (r1 : Nat) (h : Later s t) : Later s (State.storEnd t n q tag st r0 r1) := by
  unfold State.storEnd
  (repeat' (first
    | with_reducible (first | assumption | apply later_dinc | apply later_complete)))

theorem later_withJob {s t : State} (id : Nat) (f : Job → Job) (h : Later s t) : Later s (State.withJob t id f) := by
  unfold State.withJob
  (repeat' (first
    | with_reducible (first | assumption | apply later_withStor)
    | intro _
    | split))

theorem later_dropJob {s t : State} (id : Nat) (h : Later s t) : Later s (State.dropJob t id) := by
  unfold State.dropJob
  (repeat' (first
    | with_reducible (first | assumption | apply later_withStor)
    | intro _))

theorem later_startJob {s t : State} (j : Job) (h : Later s t) : Later s (State.startJob t j) := by
  unfold State.startJob
  (repeat' (first
    | with_reducible (first | assumption | apply later_event | apply later_dinc | apply later_withStor | apply later_dmax)
    | intro _
    | (extract_lets +onlyGivenNames u; (have hu : Later s u := ?_); (on_goal 1 => clear_value u); (on_goal 2 => (dsimp -zeta only [u]; clear u)))
    | (extract_lets +onlyGivenNames x; clear_value x)
    | split))

theorem later_lockWait {s t : State} (o : JobOwner) (h : Later s t) : Later s (State.lockWait t o) := by
  unfold State.lockWait
  (repeat' (first
    | with_reducible (first | assumption | apply later_dinc)
    | (extract_lets +onlyGivenNames u; (have hu : Later s u := ?_); (on_goal 1 => clear_value u); (on_goal 2 => (dsimp -zeta only [u]; clear u)))
    | (extract_lets +onlyGivenNames x; clear_value x)
    | split))

theorem later_grants {s t : State} (h : Later s t) : Later s (State.grants t) := by
  unfold State.grants
  (repeat' (first
    | with_reducible (first | assumption | apply later_withStor | apply later_lockWait | apply later_foldl)
    | intro _
    | (extract_lets +onlyGivenNames u; (have hu : Later s u := ?_); (on_goal 1 => clear_value u); (on_goal 2 => (dsimp -zeta only [u]; clear u)))
    | (extract_lets +onlyGivenNames x; clear_value x)
    | split))

theorem later_issueBackend {s t : State} (j : Job) (op : Nat) (off : Nat) (lba : Nat) (blocks : Nat) (data : Bytes) (h : Later s t) : Later s (State.issueBackend t j op off lba blocks data) := by
  unfold State.issueBackend
  (repeat' (first
    | with_reducible (first | assumption | apply later_withPort | apply later_withJob | apply later_emit)
    | intro _
    | (extract_lets +onlyGivenNames u; (have hu : Later s u := ?_); (on_goal 1 => clear_value u); (on_goal 2 => (dsimp -zeta only [u]; clear u)))
    | (extract_lets +onlyGivenNames x; clear_value x)))

theorem later_issuePiece {s t : State} (j : Job) (h : Later s t) : Later s (State.issuePiece t j) := by
  unfold State.issuePiece
  (repeat' (first
    | with_reducible (first | assumption | apply later_withJob | apply later_withNs | apply later_issueBackend)
    | intro _
    | (extract_lets +onlyGivenNames u; (have hu : Later s u := ?_); (on_goal 1 => clear_value u); (on_goal 2 => (dsimp -zeta only [u]; clear u)))
    | (extract_lets +onlyGivenNames x; clear_value x)
    | split))

theorem later_pumpN {s t : State} (f : Nat) (h : Later s t) : Later s (State.pumpN t f) := by
  induction f generalizing t with
  | zero => exact h
  | succ f ih =>
    unfold State.pumpN
    split
    · exact ih (later_issuePiece _ h)
    · exact h

theorem later_pump {s t : State} (h : Later s t) : Later s (State.pump t) := by
  unfold State.pump
  (repeat' (first
    | with_reducible (first | assumption | apply later_pumpN)))

theorem later_fillCheck {s t : State} (k : Nat) (h : Later s t) : Later s (State.fillCheck t k) := by
  unfold State.fillCheck
  (repeat' (first
    | with_reducible (first | assumption | apply later_withNs | apply later_event)
    | intro _
    | (extract_lets +onlyGivenNames u; (have hu : Later s u := ?_); (on_goal 1 => clear_value u); (on_goal 2 => (dsimp -zeta only [u]; clear u)))
    | (extract_lets +onlyGivenNames x; clear_value x)
    | split))

theorem later_takePositions {s t : State} (k : Nat) (n : Nat) (h : Later s t) : Later s (State.takePositions t k n) := by
  unfold State.takePositions
  (repeat' (first
    | with_reducible (first | assumption | apply later_withNs | apply later_fillCheck)
    | intro _))

theorem later_catalogueWrite {s t : State} (p : Nat) (h : Later s t) : Later s (State.catalogueWrite t p) := by
  unfold State.catalogueWrite
  (repeat' (first
    | with_reducible (first | assumption | apply later_startJob)))

theorem later_positionsDone {s t : State} (k : Nat) (first : Nat) (n : Nat) (h : Later s t) : Later s (State.positionsDone t k first n) := by
  unfold State.positionsDone
  (repeat' (first
    | with_reducible (first | assumption | apply later_done | apply later_withNs | apply later_catalogueWrite)
    | intro _
    | (extract_lets +onlyGivenNames u; (have hu : Later s u := ?_); (on_goal 1 => clear_value u); (on_goal 2 => (dsimp -zeta only [u]; clear u)))
    | (extract_lets +onlyGivenNames x; clear_value x)
    | split))

theorem later_voidFill {s t : State} (k : Nat) (first : Nat) (n : Nat) (h : Later s t) : Later s (State.voidFill t k first n) := by
  unfold State.voidFill
  (repeat' (first
    | with_reducible (first | assumption | apply later_startJob | apply later_withNs)
    | intro _
    | split))

theorem later_appendSettle {s t : State} (j : Job) (h : Later s t) : Later s (State.appendSettle t j) := by
  unfold State.appendSettle
  (repeat' (first
    | with_reducible (first | assumption | apply later_positionsDone | apply later_voidFill | apply later_foldl)
    | intro _
    | (extract_lets +onlyGivenNames u; (have hu : Later s u := ?_); (on_goal 1 => clear_value u); (on_goal 2 => (dsimp -zeta only [u]; clear u)))
    | (extract_lets +onlyGivenNames x; clear_value x)))

theorem later_portBytes {s t : State} (p : Nat) (sub : Nat) (n : Nat) (h : Later s t) : Later s (State.portBytes t p sub n) := by
  unfold State.portBytes
  (repeat' (first
    | with_reducible (first | assumption | apply later_dadd)))

theorem later_mediaError {s t : State} (p : Nat) (h : Later s t) : Later s (State.mediaError t p) := by
  unfold State.mediaError
  (repeat' (first
    | with_reducible (first | assumption | apply later_event | apply later_dinc)))

theorem later_mediaErrorOf {s t : State} (n : Nat) (h : Later s t) : Later s (State.mediaErrorOf t n) := by
  unfold State.mediaErrorOf
  (repeat' (first
    | with_reducible (first | assumption | apply later_dinc)))

theorem later_nsGone {s t : State} (k : Nat) (h : Later s t) : Later s (State.nsGone t k) := by
  unfold State.nsGone
  (repeat' (first
    | with_reducible (first | assumption | apply later_withStor)
    | intro _))

theorem later_nsDeleteNow {s t : State} (k : Nat) (h : Later s t) : Later s (State.nsDeleteNow t k) := by
  unfold State.nsDeleteNow
  (repeat' (first
    | with_reducible (first | assumption | apply later_withNs | apply later_startJob | apply later_withStor)
    | intro _
    | (extract_lets +onlyGivenNames u; (have hu : Later s u := ?_); (on_goal 1 => clear_value u); (on_goal 2 => (dsimp -zeta only [u]; clear u)))
    | (extract_lets +onlyGivenNames x; clear_value x)
    | split))

/-! Machine/KeyOps.lean -/

theorem later_setSlot {s t : State} (k : Nat) (x_ : KeySlot) (h : Later s t) : Later s (State.setSlot t k x_) := by
  unfold State.setSlot
  (repeat' (first
    | with_reducible (first | assumption | apply later_withCipher)
    | intro _))

theorem later_emptySlot {s t : State} (k : Nat) (h : Later s t) : Later s (State.emptySlot t k) := by
  unfold State.emptySlot
  (repeat' (first
    | with_reducible (first | assumption | apply later_withCipher)
    | intro _))

theorem later_vaultSend {s t : State} (h : Later s t) : Later s (State.vaultSend t) := by
  unfold State.vaultSend
  (repeat' (first
    | with_reducible (first | assumption | apply later_emit)
    | (extract_lets +onlyGivenNames u; (have hu : Later s u := ?_); (on_goal 1 => clear_value u); (on_goal 2 => (dsimp -zeta only [u]; clear u)))
    | (extract_lets +onlyGivenNames x; clear_value x)
    | split))

theorem later_vaultPush {s t : State} (w : VaultWrite) (h : Later s t) : Later s (State.vaultPush t w) := by
  unfold State.vaultPush
  (repeat' (first
    | with_reducible (first | assumption | apply later_withCipher | apply later_vaultSend)
    | intro _
    | (extract_lets +onlyGivenNames u; (have hu : Later s u := ?_); (on_goal 1 => clear_value u); (on_goal 2 => (dsimp -zeta only [u]; clear u)))
    | (extract_lets +onlyGivenNames x; clear_value x)
    | split))

theorem later_slotSpent {s t : State} (k : Nat) (h : Later s t) : Later s (State.slotSpent t k) := by
  unfold State.slotSpent
  (repeat' (first
    | with_reducible (first | assumption | apply later_event | apply later_dinc)
    | (extract_lets +onlyGivenNames u; (have hu : Later s u := ?_); (on_goal 1 => clear_value u); (on_goal 2 => (dsimp -zeta only [u]; clear u)))
    | (extract_lets +onlyGivenNames x; clear_value x)
    | split))

theorem later_keyUse {s t : State} (k : Nat) (h : Later s t) : Later s (State.keyUse t k) := by
  unfold State.keyUse
  (repeat' (first
    | with_reducible (first | assumption | apply later_setSlot | apply later_event | apply later_slotSpent | apply later_vaultPush)
    | intro _
    | (extract_lets +onlyGivenNames u; (have hu : Later s u := ?_); (on_goal 1 => clear_value u); (on_goal 2 => (dsimp -zeta only [u]; clear u)))
    | (extract_lets +onlyGivenNames x; clear_value x)
    | split))

theorem later_random {s t : State} (n : Nat) (h : Later s t) : Later s (State.random t n).2 :=
  later_trans h ⟨rfl, List.prefix_refl _, Nat.le_succ _, rfl, id, id⟩

theorem later_random_eq {s t r : State} {x} {n : Nat} (h : Later s t) (e : State.random t n = (x, r)) : Later s r := by
  have k := later_random n h
  rw [e] at k; exact k

theorem later_keyWaitsSettle {s t : State} (h : Later s t) : Later s (State.keyWaitsSettle t) := by
  unfold State.keyWaitsSettle
  (repeat' (first
    | with_reducible (first | assumption | apply later_withCipher | apply later_complete | apply later_foldl)
    | intro _
    | split))

theorem later_keyEnd {s t : State} (c : Ctx) (k : Nat) (vault : Bool) (st : Status) (r0 : Nat) (h : Later s t) : Later s (State.keyEnd t c k vault st r0) := by
  unfold State.keyEnd
  (repeat' (first
    | with_reducible (first | assumption | apply later_markStarted | apply later_withCipher | apply later_keyWaitsSettle)
    | intro _))

theorem later_keyJobGone {s t : State} (n : Nat) (q : Nat) (t_ : Nat) (h : Later s t) : Later s (State.keyJobGone t n q t_) := by
  unfold State.keyJobGone
  (repeat' (first
    | with_reducible (first | assumption | apply later_withCipher | apply later_keyWaitsSettle)
    | intro _))

theorem later_slotGone {s t : State} (k : Nat) (h : Later s t) : Later s (State.slotGone t k) := by
  unfold State.slotGone
  (repeat' (first
    | with_reducible (first | assumption | apply later_emptySlot | apply later_vaultPush)
    | (extract_lets +onlyGivenNames u; (have hu : Later s u := ?_); (on_goal 1 => clear_value u); (on_goal 2 => (dsimp -zeta only [u]; clear u)))
    | (extract_lets +onlyGivenNames x; clear_value x)
    | split))

/-! Machine/CipherOps.lean -/

theorem later_withCJob {s t : State} (n : Nat) (q : Nat) (t_ : Nat) (f : CJob → CJob) (h : Later s t) : Later s (State.withCJob t n q t_ f) := by
  unfold State.withCJob
  (repeat' (first
    | with_reducible (first | assumption | apply later_withCipher)
    | intro _
    | split))

theorem later_dropCJob {s t : State} (n : Nat) (q : Nat) (t_ : Nat) (h : Later s t) : Later s (State.dropCJob t n q t_) := by
  unfold State.dropCJob
  (repeat' (first
    | with_reducible (first | assumption | apply later_withCipher | apply later_keyJobGone)
    | intro _))

theorem later_cipherEnd {s t : State} (j : CJob) (st : Status) (r0 : Nat) (h : Later s t) : Later s (State.cipherEnd t j st r0) := by
  unfold State.cipherEnd
  (repeat' (first
    | with_reducible (first | assumption | apply later_dropCJob | apply later_dinc | apply later_complete)
    | (extract_lets +onlyGivenNames u; (have hu : Later s u := ?_); (on_goal 1 => clear_value u); (on_goal 2 => (dsimp -zeta only [u]; clear u)))
    | (extract_lets +onlyGivenNames x; clear_value x)))

theorem later_cipherLists {s t : State} (j : CJob) (c : Ctx) (h : Later s t) : Later s (State.cipherLists t j c) := by
  unfold State.cipherLists
  (repeat' (first
    | with_reducible (first | assumption | apply later_cipherEnd | apply later_withCJob)
    | intro _
    | (extract_lets +onlyGivenNames u; (have hu : Later s u := ?_); (on_goal 1 => clear_value u); (on_goal 2 => (dsimp -zeta only [u]; clear u)))
    | (extract_lets +onlyGivenNames x; clear_value x)
    | split))

theorem later_cipherStep {s t : State} (j : CJob) (h : Later s t) : Later s (State.cipherStep t j).1 := by
  unfold State.cipherStep
  (repeat' (first
    | with_reducible (first | assumption | apply later_cipherLists | apply later_cipherEnd | apply later_issueRead | apply later_withCJob)
    | intro _
    | (extract_lets +onlyGivenNames u; (have hu : Later s u := ?_); (on_goal 1 => clear_value u); (on_goal 2 => (dsimp -zeta only [u]; clear u)))
    | (extract_lets +onlyGivenNames x; clear_value x)
    | split))

theorem later_cipherStep_eq {s t r : State} {x} {j : CJob} (h : Later s t) (e : State.cipherStep t j = (r, x)) : Later s r := by
  have k := later_cipherStep (s := s) (t := t) j  h
  rw [e] at k; exact k

theorem later_cipherPump {s t : State} (f : Nat) (h : Later s t) : Later s (State.cipherPump t f) := by
  induction f generalizing t with
  | zero => exact h
  | succ f ih =>
    unfold State.cipherPump
    split
    · rename_i e
      obtain ⟨j, -, e⟩ := List.exists_of_findSome?_eq_some e
      dsimp only at e
      split at e
      · injection e with e; subst e; exact ih (later_cipherStep _ h)
      · cases e
    · exact h

theorem later_cipherData {s t : State} (n : Nat) (q : Nat) (t_ : Nat) (i : Nat) (b : Bytes) (h : Later s t) : Later s (State.cipherData t n q t_ i b) := by
  unfold State.cipherData
  (repeat' (first
    | with_reducible (first | assumption | apply later_withCJob)
    | intro _
    | split))

theorem later_enginesRelease {s t : State} (n : Nat) (h : Later s t) : Later s (State.enginesRelease t n) := by
  unfold State.enginesRelease
  (repeat' (first
    | with_reducible (first | assumption | apply later_withCipher | apply later_event | apply later_foldl)
    | intro _))

theorem later_lockedOut {s t : State} (h : Later s t) : Later s (State.lockedOut t) := by
  unfold State.lockedOut
  (repeat' (first
    | with_reducible (first | assumption | apply later_cipherEnd | apply later_foldl)
    | intro _
    | split))

theorem later_withKJob {s t : State} (n : Nat) (q : Nat) (t_ : Nat) (f : KJob → KJob) (h : Later s t) : Later s (State.withKJob t n q t_ f) := by
  unfold State.withKJob
  (repeat' (first
    | with_reducible (first | assumption | apply later_withCipher)
    | intro _
    | split))

theorem later_checkAssign {s t : State} (f : Nat) (h : Later s t) : Later s (State.checkAssign t f) := by
  induction f generalizing t with
  | zero => exact h
  | succ f ih =>
    unfold State.checkAssign
    split
    · exact ih (later_withCipher _ (later_withKJob _ _ _ _ h))
    · exact h

theorem later_checkEnd {s t : State} (j : KJob) (st : Status) (r0 : Nat) (r1 : Nat) (h : Later s t) : Later s (State.checkEnd t j st r0 r1) := by
  unfold State.checkEnd
  (repeat' (first
    | with_reducible (first | assumption | apply later_withCipher | apply later_dinc | apply later_dadd | apply later_done | apply later_event | apply later_complete | apply later_checkAssign)
    | intro _
    | (extract_lets +onlyGivenNames u; (have hu : Later s u := ?_); (on_goal 1 => clear_value u); (on_goal 2 => (dsimp -zeta only [u]; clear u)))
    | (extract_lets +onlyGivenNames x; clear_value x)
    | split))

/-! Machine/KilnOps.lean -/

theorem later_withStream {s t : State} (i : Nat) (f : Stream → Stream) (h : Later s t) : Later s (State.withStream t i f) := by
  unfold State.withStream
  (repeat' (first
    | with_reducible (first | assumption | apply later_withKiln)
    | intro _))

theorem later_streamTo {s t : State} (i : Nat) (st : StreamState) (h : Later s t) : Later s (State.streamTo t i st) := by
  unfold State.streamTo
  (repeat' (first
    | with_reducible (first | assumption | apply later_withStream | apply later_event)
    | intro _
    | split))

theorem later_stagingCheck {s t : State} (h : Later s t) : Later s (State.stagingCheck t) := by
  unfold State.stagingCheck
  (repeat' (first
    | with_reducible (first | assumption | apply later_dmax | apply later_event | apply later_withKiln | apply later_foldl)
    | intro _
    | (extract_lets +onlyGivenNames u; (have hu : Later s u := ?_); (on_goal 1 => clear_value u); (on_goal 2 => (dsimp -zeta only [u]; clear u)))
    | (extract_lets +onlyGivenNames x; clear_value x)
    | split))

theorem later_withSeg {s t : State} (i : Nat) (seq : Nat) (f : Segment → Segment) (h : Later s t) : Later s (State.withSeg t i seq f) := by
  unfold State.withSeg
  (repeat' (first
    | with_reducible (first | assumption | apply later_withStream)
    | intro _
    | split))

theorem later_kilnWrite {s t : State} (i : Nat) (g : Segment) (a : Nat) (n : Nat) (data : Bytes) (trailer : Bool) (h : Later s t) : Later s (State.kilnWrite t i g a n data trailer) := by
  unfold State.kilnWrite
  (repeat' (first
    | with_reducible (first | assumption | apply later_startJob)
    | (extract_lets +onlyGivenNames u; (have hu : Later s u := ?_); (on_goal 1 => clear_value u); (on_goal 2 => (dsimp -zeta only [u]; clear u)))
    | (extract_lets +onlyGivenNames x; clear_value x)))

theorem later_issueRun {s t : State} (i : Nat) (seq : Nat) (h : Later s t) : Later s (State.issueRun t i seq) := by
  unfold State.issueRun
  (repeat' (first
    | with_reducible (first | assumption | apply later_withSeg | apply later_kilnWrite)
    | intro _
    | (extract_lets +onlyGivenNames u; (have hu : Later s u := ?_); (on_goal 1 => clear_value u); (on_goal 2 => (dsimp -zeta only [u]; clear u)))
    | (extract_lets +onlyGivenNames x; clear_value x)
    | split))

theorem later_issueTrailer {s t : State} (i : Nat) (seq : Nat) (h : Later s t) : Later s (State.issueTrailer t i seq) := by
  unfold State.issueTrailer
  (repeat' (first
    | with_reducible (first | assumption | apply later_voidFill | apply later_withStream | apply later_withSeg | apply later_kilnWrite)
    | intro _
    | (extract_lets +onlyGivenNames u; (have hu : Later s u := ?_); (on_goal 1 => clear_value u); (on_goal 2 => (dsimp -zeta only [u]; clear u)))
    | (extract_lets +onlyGivenNames x; clear_value x)
    | split))

theorem later_closeSeg {s t : State} (i : Nat) (reason : Nat) (h : Later s t) : Later s (State.closeSeg t i reason) := by
  unfold State.closeSeg
  (repeat' (first
    | with_reducible (first | assumption | apply later_withSeg | apply later_withStream | apply later_takePositions | apply later_issueRun | apply later_issueTrailer | apply later_stagingCheck)
    | intro _
    | (extract_lets +onlyGivenNames u; (have hu : Later s u := ?_); (on_goal 1 => clear_value u); (on_goal 2 => (dsimp -zeta only [u]; clear u)))
    | (extract_lets +onlyGivenNames x; clear_value x)
    | split))

theorem later_kilnDrop {s t : State} (i : Nat) (gap : Bool) (h : Later s t) : Later s (State.kilnDrop t i gap) := by
  unfold State.kilnDrop
  (repeat' (first
    | with_reducible (first | assumption | apply later_dinc | apply later_withStream | apply later_eventLimited)
    | intro _
    | (extract_lets +onlyGivenNames u; (have hu : Later s u := ?_); (on_goal 1 => clear_value u); (on_goal 2 => (dsimp -zeta only [u]; clear u)))
    | (extract_lets +onlyGivenNames x; clear_value x)
    | split))

theorem later_kilnFlush {s t : State} (i : Nat) (h : Later s t) : Later s (State.kilnFlush t i) := by
  unfold State.kilnFlush
  (repeat' (first
    | with_reducible (first | assumption | apply later_dadd | apply later_withStream)
    | intro _
    | (extract_lets +onlyGivenNames u; (have hu : Later s u := ?_); (on_goal 1 => clear_value u); (on_goal 2 => (dsimp -zeta only [u]; clear u)))
    | (extract_lets +onlyGivenNames x; clear_value x)))

theorem later_kilnFrame {s t : State} (i : Nat) (f : QFrame) (h : Later s t) : Later s (State.kilnFrame t i f) := by
  unfold State.kilnFrame
  (repeat' (first
    | with_reducible (first | assumption | apply later_kilnDrop | apply later_withStream | apply later_dmax)
    | intro _
    | (extract_lets +onlyGivenNames u; (have hu : Later s u := ?_); (on_goal 1 => clear_value u); (on_goal 2 => (dsimp -zeta only [u]; clear u)))
    | (extract_lets +onlyGivenNames x; clear_value x)
    | split))

theorem later_indexPost {s t r : State} {i : Nat} {p : Pend} (h : Later s t) (e : State.indexPost t i p = some r) : Later s r := by
  unfold State.indexPost at e
  (try dsimp only at e)
  (repeat' (first | (injection e with e; subst e) | cases e | split at e))
  all_goals (repeat' (first
    | with_reducible (first | assumption | refine later_cqTry ?_ (by assumption))
    | (extract_lets +onlyGivenNames u; (have hu : Later s u := ?_); (on_goal 1 => clear_value u); (on_goal 2 => (dsimp -zeta only [u]; clear u)))
    | (extract_lets +onlyGivenNames x; clear_value x)
    | split
    | cases ‹none = some _›
    | (split at ‹_ = some _›)))

theorem later_rangePost {s t : State} (i : Nat) (h : Later s t) : Later s (State.rangePost t i) := by
  unfold State.rangePost
  (repeat' (first
    | with_reducible (first | assumption | refine later_indexPost ?_ (by assumption) | apply later_dset | apply later_event)
    | (extract_lets +onlyGivenNames u; (have hu : Later s u := ?_); (on_goal 1 => clear_value u); (on_goal 2 => (dsimp -zeta only [u]; clear u)))
    | (extract_lets +onlyGivenNames x; clear_value x)
    | split))

theorem later_notify {s t : State} (i : Nat) (g : Segment) (h : Later s t) : Later s (State.notify t i g) := by
  unfold State.notify
  (repeat' (first
    | with_reducible assumption
    | with_reducible apply later_rangePost
    | (with_reducible refine later_indexPost ?_ (by with_reducible assumption))
    | with_reducible apply later_withStream
    | with_reducible apply later_dinc
    | intro _
    | (extract_lets +onlyGivenNames u; (have hu : Later s u := ?_); (on_goal 1 => clear_value u); (on_goal 2 => (dsimp -zeta only [u]; clear u)))
    | (extract_lets +onlyGivenNames x; (have _o : Option State := x); dsimp -zeta only [x]; clear _o x)
    | (extract_lets +onlyGivenNames x; clear_value x)
    | split
    | cases ‹none = some _›
    | (split at ‹_ = some _›)))

theorem later_pausePost {s t : State} (i : Nat) (code : Nat) (h : Later s t) : Later s (State.pausePost t i code) := by
  unfold State.pausePost
  (repeat' (first
    | with_reducible (first | assumption | refine later_indexPost ?_ (by assumption) | apply later_withStream)
    | intro _
    | (extract_lets +onlyGivenNames u; (have hu : Later s u := ?_); (on_goal 1 => clear_value u); (on_goal 2 => (dsimp -zeta only [u]; clear u)))
    | (extract_lets +onlyGivenNames x; clear_value x)
    | split))

theorem later_indexRetry {s t : State} (i : Nat) (h : Later s t) : Later s (State.indexRetry t i) := by
  unfold State.indexRetry
  (repeat' (first
    | with_reducible (first | assumption | apply later_rangePost | apply later_pausePost)
    | (extract_lets +onlyGivenNames u; (have hu : Later s u := ?_); (on_goal 1 => clear_value u); (on_goal 2 => (dsimp -zeta only [u]; clear u)))
    | (extract_lets +onlyGivenNames x; clear_value x)
    | split))

theorem later_pauseStream {s t : State} (i : Nat) (st : Status) (h : Later s t) : Later s (State.pauseStream t i st) := by
  unfold State.pauseStream
  (repeat' (first
    | with_reducible (first | assumption | apply later_streamTo | apply later_withStream | apply later_pausePost | apply later_event | apply later_logSrc)
    | intro _
    | (extract_lets +onlyGivenNames u; (have hu : Later s u := ?_); (on_goal 1 => clear_value u); (on_goal 2 => (dsimp -zeta only [u]; clear u)))
    | (extract_lets +onlyGivenNames x; clear_value x)
    | split))

theorem later_leaseAhead {s t : State} (i : Nat) (h : Later s t) : Later s (State.leaseAhead t i) := by
  unfold State.leaseAhead
  (repeat' (first
    | with_reducible (first | assumption | apply later_withStream | apply later_emit)
    | intro _
    | (extract_lets +onlyGivenNames u; (have hu : Later s u := ?_); (on_goal 1 => clear_value u); (on_goal 2 => (dsimp -zeta only [u]; clear u)))
    | (extract_lets +onlyGivenNames x; clear_value x)
    | split))

theorem later_openSegment {s t : State} (i : Nat) (h : Later s t) : Later s (State.openSegment t i).1 := by
  unfold State.openSegment
  (repeat' (first
    | with_reducible (first | assumption | apply later_pauseStream | apply later_leaseAhead | apply later_event | apply later_logSrc | apply later_setSlot | apply later_keyUse | apply later_withStream | apply later_takePositions | apply later_stagingCheck)
    | intro _
    | (extract_lets +onlyGivenNames u; (have hu : Later s u := ?_); (on_goal 1 => clear_value u); (on_goal 2 => (dsimp -zeta only [u]; clear u)))
    | (extract_lets +onlyGivenNames x; clear_value x)
    | split))

theorem later_openSegment_eq {s t r : State} {x} {i : Nat} (h : Later s t) (e : State.openSegment t i = (r, x)) : Later s r := by
  have k := later_openSegment (s := s) (t := t) i  h
  rw [e] at k; exact k

theorem later_addRecord {s t : State} (i : Nat) (r_ : Bytes) (h : Later s t) : Later s (State.addRecord t i r_) := by
  unfold State.addRecord
  (repeat' (first
    | with_reducible (first | assumption | apply later_withSeg | apply later_withStream | apply later_takePositions | apply later_dinc | apply later_stagingCheck | apply later_closeSeg | apply later_issueRun)
    | intro _
    | (extract_lets +onlyGivenNames u; (have hu : Later s u := ?_); (on_goal 1 => clear_value u); (on_goal 2 => (dsimp -zeta only [u]; clear u)))
    | (extract_lets +onlyGivenNames x; clear_value x)
    | split))

theorem later_admitFrame {s t : State} (i : Nat) (h : Later s t) : Later s (State.admitFrame t i) := by
  unfold State.admitFrame
  (repeat' (first
    | with_reducible (first | assumption | apply later_closeSeg | apply later_openSegment | refine later_openSegment_eq ?_ (by assumption) | apply later_addRecord)
    | (extract_lets +onlyGivenNames u; (have hu : Later s u := ?_); (on_goal 1 => clear_value u); (on_goal 2 => (dsimp -zeta only [u]; clear u)))
    | (extract_lets +onlyGivenNames x; clear_value x)
    | split))

theorem later_admission {s t : State} (i : Nat) (h : Later s t) : Later s (State.admission t i) := by
  unfold State.admission
  (repeat' (first
    | with_reducible (first | assumption | apply later_streamTo | apply later_admitFrame)
    | intro _
    | (extract_lets +onlyGivenNames u; (have hu : Later s u := ?_); (on_goal 1 => clear_value u); (on_goal 2 => (dsimp -zeta only [u]; clear u)))
    | (extract_lets +onlyGivenNames x; clear_value x)
    | split))

theorem later_streamClosed {s t : State} (i : Nat) (st : Status) (h : Later s t) : Later s (State.streamClosed t i st) := by
  unfold State.streamClosed
  (repeat' (first
    | with_reducible (first | assumption | apply later_streamTo | apply later_withStream | apply later_complete)
    | intro _
    | (extract_lets +onlyGivenNames u; (have hu : Later s u := ?_); (on_goal 1 => clear_value u); (on_goal 2 => (dsimp -zeta only [u]; clear u)))
    | (extract_lets +onlyGivenNames x; clear_value x)
    | split))

theorem later_closingSettle {s t : State} (i : Nat) (h : Later s t) : Later s (State.closingSettle t i) := by
  unfold State.closingSettle
  (repeat' (first
    | with_reducible (first | assumption | apply later_streamClosed)
    | (extract_lets +onlyGivenNames u; (have hu : Later s u := ?_); (on_goal 1 => clear_value u); (on_goal 2 => (dsimp -zeta only [u]; clear u)))
    | (extract_lets +onlyGivenNames x; clear_value x)
    | split))

theorem later_commitSeg {s t : State} (i : Nat) (g : Segment) (h : Later s t) : Later s (State.commitSeg t i g) := by
  unfold State.commitSeg
  (repeat' (first
    | with_reducible (first | assumption | apply later_dadd | apply later_dinc | apply later_dset | apply later_withStream | apply later_notify)
    | intro _
    | (extract_lets +onlyGivenNames u; (have hu : Later s u := ?_); (on_goal 1 => clear_value u); (on_goal 2 => (dsimp -zeta only [u]; clear u)))
    | (extract_lets +onlyGivenNames x; clear_value x)))

theorem later_kilnJobDone {s t : State} (j : Job) (i : Nat) (seq : Nat) (trailer : Bool) (h : Later s t) : Later s (State.kilnJobDone t j i seq trailer) := by
  unfold State.kilnJobDone
  (repeat' (first
    | with_reducible (first | assumption | apply later_portBytes | apply later_withStream | apply later_commitSeg | apply later_withSeg | apply later_issueTrailer | apply later_closingSettle | apply later_stagingCheck)
    | intro _
    | (extract_lets +onlyGivenNames u; (have hu : Later s u := ?_); (on_goal 1 => clear_value u); (on_goal 2 => (dsimp -zeta only [u]; clear u)))
    | (extract_lets +onlyGivenNames x; clear_value x)
    | split))

theorem later_streamLost {s t : State} (i : Nat) (h : Later s t) : Later s (State.streamLost t i) := by
  unfold State.streamLost
  (repeat' (first
    | with_reducible (first | assumption | apply later_voidFill | apply later_kilnFlush | apply later_withStream | apply later_streamClosed | apply later_foldl)
    | intro _
    | (extract_lets +onlyGivenNames u; (have hu : Later s u := ?_); (on_goal 1 => clear_value u); (on_goal 2 => (dsimp -zeta only [u]; clear u)))
    | (extract_lets +onlyGivenNames x; clear_value x)
    | split))

theorem later_streamsLost {s t : State} (p : Nat) (h : Later s t) : Later s (State.streamsLost t p) := by
  unfold State.streamsLost
  (repeat' (first
    | with_reducible (first | assumption | apply later_streamLost | apply later_foldl)
    | intro _
    | split))

theorem later_bindingsVoidOf {s t : State} (n : Nat) (h : Later s t) : Later s (State.bindingsVoidOf t n) := by
  unfold State.bindingsVoidOf
  (repeat' (first
    | with_reducible (first | assumption | apply later_withStream | apply later_event | apply later_foldl)
    | intro _
    | (extract_lets +onlyGivenNames u; (have hu : Later s u := ?_); (on_goal 1 => clear_value u); (on_goal 2 => (dsimp -zeta only [u]; clear u)))
    | (extract_lets +onlyGivenNames x; clear_value x)
    | split))

theorem later_pfStart {s t : State} (h : Later s t) : Later s (State.pfStart t) := by
  unfold State.pfStart
  (repeat' (first
    | with_reducible (first | assumption | apply later_withKiln | apply later_event | apply later_kilnFlush | apply later_closeSeg | apply later_foldl)
    | intro _
    | (extract_lets +onlyGivenNames u; (have hu : Later s u := ?_); (on_goal 1 => clear_value u); (on_goal 2 => (dsimp -zeta only [u]; clear u)))
    | (extract_lets +onlyGivenNames x; clear_value x)
    | split))

theorem later_pfEnd {s t : State} (h : Later s t) : Later s (State.pfEnd t) := by
  unfold State.pfEnd
  (repeat' (first
    | with_reducible (first | assumption | apply later_withKiln | apply later_streamClosed | apply later_withStream | apply later_complete | apply later_dinc | apply later_dset | apply later_eventLog | apply later_foldl)
    | intro _
    | (extract_lets +onlyGivenNames u; (have hu : Later s u := ?_); (on_goal 1 => clear_value u); (on_goal 2 => (dsimp -zeta only [u]; clear u)))
    | (extract_lets +onlyGivenNames x; clear_value x)
    | split))

theorem later_pfSettle {s t : State} (h : Later s t) : Later s (State.pfSettle t) := by
  unfold State.pfSettle
  (repeat' (first
    | with_reducible (first | assumption | apply later_withKiln | apply later_startJob | apply later_pfEnd | apply later_foldl)
    | intro _
    | (extract_lets +onlyGivenNames u; (have hu : Later s u := ?_); (on_goal 1 => clear_value u); (on_goal 2 => (dsimp -zeta only [u]; clear u)))
    | (extract_lets +onlyGivenNames x; clear_value x)
    | split))

/-! Machine/StorageEnd.lean -/

theorem later_readFinish {s t : State} (j : Job) (n : Nat) (q : Nat) (t_ : Nat) (h : Later s t) : Later s (State.readFinish t j n q t_) := by
  unfold State.readFinish
  (repeat' (first
    | with_reducible (first | assumption | apply later_mediaError | apply later_mediaErrorOf | apply later_logSrc | apply later_withNs | apply later_dadd | apply later_event | apply later_storEnd | apply later_scatter | refine later_scatter_eq ?_ (by assumption) | apply later_portBytes)
    | intro _
    | (extract_lets +onlyGivenNames u; (have hu : Later s u := ?_); (on_goal 1 => clear_value u); (on_goal 2 => (dsimp -zeta only [u]; clear u)))
    | (extract_lets +onlyGivenNames x; clear_value x)
    | split))

theorem later_plainFinish {s t : State} (j : Job) (n : Nat) (q : Nat) (t_ : Nat) (bytes : Nat) (r0 : Nat) (r1 : Nat) (h : Later s t) : Later s (State.plainFinish t j n q t_ bytes r0 r1) := by
  unfold State.plainFinish
  (repeat' (first
    | with_reducible (first | assumption | apply later_mediaError | apply later_mediaErrorOf | apply later_storEnd | apply later_dadd | apply later_portBytes)
    | split))

theorem later_portTo {s t : State} (p : Nat) (st : Nat) (h : Later s t) : Later s (State.portTo t p st) := by
  unfold State.portTo
  (repeat' (first
    | with_reducible (first | assumption | apply later_withPort)
    | intro _))

theorem later_attachEnd {s t : State} (p : Nat) (st : Nat) (h : Later s t) : Later s (State.attachEnd t p st) := by
  unfold State.attachEnd
  (repeat' (first
    | with_reducible (first | assumption | apply later_withPort | apply later_storEnd)
    | intro _
    | (extract_lets +onlyGivenNames u; (have hu : Later s u := ?_); (on_goal 1 => clear_value u); (on_goal 2 => (dsimp -zeta only [u]; clear u)))
    | (extract_lets +onlyGivenNames x; clear_value x)
    | split))

theorem later_portReady {s t : State} (p : Nat) (h : Later s t) : Later s (State.portReady t p) := by
  unfold State.portReady
  (repeat' (first
    | with_reducible (first | assumption | apply later_attachEnd | apply later_event)))

theorem later_recoverySettle {s t : State} (p : Nat) (h : Later s t) : Later s (State.recoverySettle t p) := by
  unfold State.recoverySettle
  (repeat' (first
    | with_reducible (first | assumption | apply later_portReady)
    | intro _
    | split))

theorem later_prepareFinish {s t : State} (j : Job) (n : Nat) (q : Nat) (t_ : Nat) (h : Later s t) : Later s (State.prepareFinish t j n q t_) := by
  unfold State.prepareFinish
  (repeat' (first
    | with_reducible (first | assumption | apply later_plainFinish | apply later_withStor | apply later_withPort | apply later_event | apply later_storEnd)
    | intro _
    | (extract_lets +onlyGivenNames u; (have hu : Later s u := ?_); (on_goal 1 => clear_value u); (on_goal 2 => (dsimp -zeta only [u]; clear u)))
    | (extract_lets +onlyGivenNames x; clear_value x)
    | split))

theorem later_releaseFinish {s t : State} (j : Job) (n : Nat) (q : Nat) (t_ : Nat) (h : Later s t) : Later s (State.releaseFinish t j n q t_).1 := by
  unfold State.releaseFinish
  (repeat' (first
    | with_reducible (first | assumption | apply later_plainFinish | apply later_withNs | apply later_fillCheck | apply later_eventLog | apply later_storEnd)
    | intro _
    | (extract_lets +onlyGivenNames u; (have hu : Later s u := ?_); (on_goal 1 => clear_value u); (on_goal 2 => (dsimp -zeta only [u]; clear u)))
    | (extract_lets +onlyGivenNames x; clear_value x)
    | split))

theorem later_releaseFinish_eq {s t r : State} {x} {j : Job} {n : Nat} {q : Nat} {t_ : Nat} (h : Later s t) (e : State.releaseFinish t j n q t_ = (r, x)) : Later s r := by
  have k := later_releaseFinish (s := s) (t := t) j n q t_  h
  rw [e] at k; exact k

theorem later_commandJobFinish {s t : State} (j : Job) (n : Nat) (q : Nat) (t_ : Nat) (h : Later s t) : Later s (State.commandJobFinish t j n q t_) := by
  unfold State.commandJobFinish
  (repeat' (first
    | with_reducible (first | assumption | apply later_readFinish | apply later_appendSettle | apply later_plainFinish | apply later_nsGone | apply later_catalogueWrite | apply later_withStor | apply later_prepareFinish | apply later_withPort | apply later_storEnd)
    | intro _
    | (extract_lets +onlyGivenNames u; (have hu : Later s u := ?_); (on_goal 1 => clear_value u); (on_goal 2 => (dsimp -zeta only [u]; clear u)))
    | (extract_lets +onlyGivenNames x; clear_value x)
    | split))

theorem later_serviceJobFinish {s t : State} (j : Job) (h : Later s t) : Later s (State.serviceJobFinish t j) := by
  unfold State.serviceJobFinish
  (repeat' (first
    | with_reducible (first | assumption | apply later_withNs | apply later_positionsDone | apply later_appendSettle | apply later_withStor | apply later_nsGone | apply later_catalogueWrite | apply later_withKiln | apply later_withPort)
    | intro _
    | split))

theorem later_followersFinish {s t : State} (j : Job) (h : Later s t) : Later s (State.followersFinish t j) := by
  unfold State.followersFinish
  (repeat' (first
    | with_reducible (first | assumption | apply later_dropJob | apply later_plainFinish | apply later_foldl)
    | intro _
    | (extract_lets +onlyGivenNames u; (have hu : Later s u := ?_); (on_goal 1 => clear_value u); (on_goal 2 => (dsimp -zeta only [u]; clear u)))
    | (extract_lets +onlyGivenNames x; clear_value x)
    | split))

theorem later_jobFinish {s t : State} (j : Job) (h : Later s t) : Later s (State.jobFinish t j) := by
  unfold State.jobFinish
  (repeat' (first
    | with_reducible (first | assumption | apply later_dropJob | apply later_followersFinish | apply later_releaseFinish | refine later_releaseFinish_eq ?_ (by assumption) | apply later_withStor | apply later_commandJobFinish | apply later_appendSettle | apply later_kilnJobDone | apply later_serviceJobFinish)
    | intro _
    | (extract_lets +onlyGivenNames u; (have hu : Later s u := ?_); (on_goal 1 => clear_value u); (on_goal 2 => (dsimp -zeta only [u]; clear u)))
    | (extract_lets +onlyGivenNames x; clear_value x)
    | split))

theorem later_detachSettle {s t : State} (p : Nat) (h : Later s t) : Later s (State.detachSettle t p) := by
  unfold State.detachSettle
  (repeat' (first
    | with_reducible (first | assumption | apply later_withPort | apply later_storEnd | apply later_startJob)
    | intro _
    | (extract_lets +onlyGivenNames u; (have hu : Later s u := ?_); (on_goal 1 => clear_value u); (on_goal 2 => (dsimp -zeta only [u]; clear u)))
    | (extract_lets +onlyGivenNames x; clear_value x)
    | split))

theorem later_storeRun {s t : State} (f : Nat) (h : Later s t) : Later s (State.storeRun t f) := by
  induction f generalizing t with
  | zero => exact h
  | succ f ih =>
    unfold State.storeRun
    have k := later_pump (later_grants h)
    dsimp only
    split
    · exact ih (later_jobFinish _ k)
    · exact k

theorem later_storageSettle {s t : State} (h : Later s t) : Later s (State.storageSettle t) := by
  unfold State.storageSettle
  (repeat' (first
    | with_reducible (first | assumption | apply later_storeRun | apply later_recoverySettle | apply later_detachSettle | apply later_pfSettle)
    | (extract_lets +onlyGivenNames u; (have hu : Later s u := ?_); (on_goal 1 => clear_value u); (on_goal 2 => (dsimp -zeta only [u]; clear u)))
    | (extract_lets +onlyGivenNames x; clear_value x)))

theorem later_backendEnds {s t : State} (p : Nat) (b : Backend) (ok : Bool) (blocks : List BlockRead) (h : Later s t) : Later s (State.backendEnds t p b ok blocks) := by
  unfold State.backendEnds
  (repeat' (first
    | with_reducible (first | assumption | apply later_withPort | apply later_withJob)
    | intro _
    | (extract_lets +onlyGivenNames u; (have hu : Later s u := ?_); (on_goal 1 => clear_value u); (on_goal 2 => (dsimp -zeta only [u]; clear u)))
    | (extract_lets +onlyGivenNames x; clear_value x)
    | split))

theorem later_jobLost {s t : State} (cmds : List Backend) (j : Job) (h : Later s t) : Later s (State.jobLost t cmds j) := by
  unfold State.jobLost
  (repeat' (first
    | with_reducible (first | assumption | apply later_dropJob | apply later_appendSettle | apply later_withNs | apply later_withStor | apply later_nsGone | apply later_withKiln | apply later_mediaErrorOf | apply later_storEnd | apply later_mediaError)
    | intro _
    | (extract_lets +onlyGivenNames u; (have hu : Later s u := ?_); (on_goal 1 => clear_value u); (on_goal 2 => (dsimp -zeta only [u]; clear u)))
    | (extract_lets +onlyGivenNames x; clear_value x)
    | split))

theorem later_portFail {s t : State} (p : Nat) (st : Nat) (h : Later s t) : Later s (State.portFail t p st) := by
  unfold State.portFail
  (repeat' (first
    | with_reducible (first | assumption | apply later_event | apply later_withPort | apply later_jobLost | apply later_streamsLost | apply later_storEnd | apply later_attachEnd | apply later_foldl)
    | intro _
    | (extract_lets +onlyGivenNames u; (have hu : Later s u := ?_); (on_goal 1 => clear_value u); (on_goal 2 => (dsimp -zeta only [u]; clear u)))
    | (extract_lets +onlyGivenNames x; clear_value x)
    | split))

theorem later_recoverNs {s t : State} (p : Nat) (e_ : CatalogueEntry) (h : Later s t) : Later s (State.recoverNs t p e_) := by
  unfold State.recoverNs
  (repeat' (first
    | with_reducible (first | assumption | apply later_withStor | apply later_startJob | apply later_eventLog | apply later_fillCheck | apply later_foldl)
    | intro _
    | (extract_lets +onlyGivenNames u; (have hu : Later s u := ?_); (on_goal 1 => clear_value u); (on_goal 2 => (dsimp -zeta only [u]; clear u)))
    | (extract_lets +onlyGivenNames x; clear_value x)
    | split))

theorem later_attachIdentified {s t : State} (p : Nat) (d : SsdIdentity) (h : Later s t) : Later s (State.attachIdentified t p d) := by
  unfold State.attachIdentified
  (repeat' (first
    | with_reducible (first | assumption | apply later_withPort | apply later_attachEnd | apply later_event | apply later_logSrc | apply later_withStor | apply later_recoverNs | apply later_foldl)
    | intro _
    | (extract_lets +onlyGivenNames u; (have hu : Later s u := ?_); (on_goal 1 => clear_value u); (on_goal 2 => (dsimp -zeta only [u]; clear u)))
    | (extract_lets +onlyGivenNames x; clear_value x)
    | split))

theorem later_storageAbandon {s t : State} (n : Nat) (h : Later s t) : Later s (State.storageAbandon t n) := by
  unfold State.storageAbandon
  (repeat' (first
    | with_reducible (first | assumption | apply later_dropJob | apply later_voidFill | apply later_nsGone | apply later_withJob | apply later_foldl)
    | intro _
    | (extract_lets +onlyGivenNames u; (have hu : Later s u := ?_); (on_goal 1 => clear_value u); (on_goal 2 => (dsimp -zeta only [u]; clear u)))
    | (extract_lets +onlyGivenNames x; clear_value x)
    | split))

theorem later_storageAccessLost {s t : State} (n : Nat) (h : Later s t) : Later s (State.storageAccessLost t n) := by
  unfold State.storageAccessLost
  (repeat' (first
    | with_reducible (first | assumption | apply later_dropJob | apply later_withJob | apply later_storEnd | apply later_foldl)
    | intro _
    | (extract_lets +onlyGivenNames u; (have hu : Later s u := ?_); (on_goal 1 => clear_value u); (on_goal 2 => (dsimp -zeta only [u]; clear u)))
    | (extract_lets +onlyGivenNames x; clear_value x)
    | split))

theorem later_storageAbort {s t r : State} {n : Nat} {q : Nat} {t_ : Nat} (h : Later s t) (e : State.storageAbort t n q t_ = some r) : Later s r := by
  unfold State.storageAbort at e
  (try dsimp only at e)
  (repeat' (first | (injection e with e; subst e) | cases e | split at e))
  all_goals (repeat' (first
    | with_reducible (first | assumption | apply later_dropJob | apply later_complete)
    | intro _
    | split
    | cases ‹none = some _›
    | (split at ‹_ = some _›)))

theorem later_nsInstanceEnds {s t : State} (n : Nat) (h : Later s t) : Later s (State.nsInstanceEnds t n) := by
  unfold State.nsInstanceEnds
  (repeat' (first
    | with_reducible (first | assumption | apply later_withStor | apply later_nsDeleteNow | apply later_foldl)
    | intro _
    | (extract_lets +onlyGivenNames u; (have hu : Later s u := ?_); (on_goal 1 => clear_value u); (on_goal 2 => (dsimp -zeta only [u]; clear u)))
    | (extract_lets +onlyGivenNames x; clear_value x)
    | split))

theorem later_attachStart {s t : State} (p : Nat) (h : Later s t) : Later s (State.attachStart t p) := by
  unfold State.attachStart
  (repeat' (first
    | with_reducible (first | assumption | apply later_withPort | apply later_emit)
    | intro _
    | (extract_lets +onlyGivenNames u; (have hu : Later s u := ?_); (on_goal 1 => clear_value u); (on_goal 2 => (dsimp -zeta only [u]; clear u)))
    | (extract_lets +onlyGivenNames x; clear_value x)
    | split))

end Sys2Proof.Laws
end

