-- ==== Sys2Proof/Laws/LaterNetwork.lean ====
section
/-! SUPPORT. What the operations of the forwarding table, the schedulers, the rings, the pipeline and the time base keep whatever else they do (the relation Later): one lemma each, to be
cited in place of unfolding the operation. -/

namespace Sys2Proof.Laws

open Sys2Proof.Machine

/-! Machine/TableOps.lean -/

theorem later_withTable {s t : State} (f : FwdTable → FwdTable) (h : Later s t) : Later s (State.withTable t f) := by
  unfold State.withTable
  (repeat' (first
    | with_reducible (first | assumption | apply later_withPipe)
    | intro _))

theorem later_stashNote {s t : State} (h : Later s t) : Later s (State.stashNote t) := by
  unfold State.stashNote
  (repeat' (first
    | with_reducible (first | assumption | apply later_event | apply later_withTable)
    | intro _
    | (extract_lets +onlyGivenNames u; (have hu : Later s u := ?_); (on_goal 1 => clear_value u); (on_goal 2 => (dsimp -zeta only [u]; clear u)))
    | (extract_lets +onlyGivenNames x; clear_value x)
    | split))

theorem later_tablePut {s t : State} (i : Nat) (moves : Nat) (e_ : Bytes) (h : Later s t) : Later s (State.tablePut t i moves e_) := by
  unfold State.tablePut
  (repeat' (first
    | with_reducible (first | assumption | apply later_withTable | apply later_dadd | apply later_stashNote)
    | intro _))

theorem later_rehome {s t : State} (h : Later s t) : Later s (State.rehome t) := by
  unfold State.rehome
  (repeat' (first
    | with_reducible (first | assumption | apply later_withTable | apply later_tablePut | apply later_foldl)
    | intro _
    | split))

theorem later_tableDel {s t : State} (i : Nat) (h : Later s t) : Later s (State.tableDel t i) := by
  unfold State.tableDel
  (repeat' (first
    | with_reducible (first | assumption | apply later_withTable | apply later_rehome | apply later_stashNote)
    | intro _
    | (extract_lets +onlyGivenNames u; (have hu : Later s u := ?_); (on_goal 1 => clear_value u); (on_goal 2 => (dsimp -zeta only [u]; clear u)))
    | (extract_lets +onlyGivenNames x; clear_value x)
    | split))

theorem later_tableFull {s t : State} (owner : Nat) (h : Later s t) : Later s (State.tableFull t owner) := by
  unfold State.tableFull
  (repeat' (first
    | with_reducible (first | assumption | apply later_dinc | apply later_eventLimited)))

theorem later_tblInsert {s t : State} (n : Nat) (raw : Bytes) (replace : Bool) (h : Later s t) : Later s (State.tblInsert t n raw replace).2 := by
  unfold State.tblInsert
  (repeat' (first
    | with_reducible (first | assumption | apply later_done | apply later_withTable | apply later_tableFull | apply later_tablePut)
    | intro _
    | (extract_lets +onlyGivenNames u; (have hu : Later s u := ?_); (on_goal 1 => clear_value u); (on_goal 2 => (dsimp -zeta only [u]; clear u)))
    | (extract_lets +onlyGivenNames x; clear_value x)
    | split))

theorem later_tblInsert_eq {s t r : State} {x} {n : Nat} {raw : Bytes} {replace : Bool} (h : Later s t) (e : State.tblInsert t n raw replace = (x, r)) : Later s r := by
  have k := later_tblInsert (s := s) (t := t) n raw replace  h
  rw [e] at k; exact k

theorem later_tblDelete {s t : State} (n : Nat) (k : Bytes) (h : Later s t) : Later s (State.tblDelete t n k).2 := by
  unfold State.tblDelete
  (repeat' (first
    | with_reducible (first | assumption | apply later_done | apply later_tableDel)
    | split))

theorem later_tblDelete_eq {s t r : State} {x} {n : Nat} {k : Bytes} (h : Later s t) (e : State.tblDelete t n k = (x, r)) : Later s r := by
  have k := later_tblDelete (s := s) (t := t) n k  h
  rw [e] at k; exact k

theorem later_tblOp {s t : State} (n : Nat) (op : Nat × Bytes) (h : Later s t) : Later s (State.tblOp t n op).2 := by
  unfold State.tblOp
  (repeat' (first
    | with_reducible (first | assumption | apply later_tblInsert | refine later_tblInsert_eq ?_ (by assumption) | apply later_tblDelete | refine later_tblDelete_eq ?_ (by assumption))
    | split))

theorem later_tblOp_eq {s t r : State} {x} {n : Nat} {op : Nat × Bytes} (h : Later s t) (e : State.tblOp t n op = (x, r)) : Later s r := by
  have k := later_tblOp (s := s) (t := t) n op  h
  rw [e] at k; exact k

theorem later_tblApply {s t : State} (n : Nat) (l : List (Nat × Bytes)) (h : Later s t) : Later s (State.tblApply t n l).2 := by
  induction l generalizing t with
  | nil => exact h
  | cons op l ih =>
    have k := later_tblOp n op h
    unfold State.tblApply
    split
    · rename_i e; rw [e] at k; exact ih k
    · exact k

theorem later_tblApply_eq {s t r : State} {x} {n : Nat} {l : List (Nat × Bytes)} (h : Later s t)
    (e : State.tblApply t n l = (x, r)) : Later s r := by
  have k := later_tblApply n l h
  rw [e] at k; exact k

theorem later_sweepEntry {s t : State} (i : Nat) (h : Later s t) : Later s (State.sweepEntry t i) := by
  unfold State.sweepEntry
  (repeat' (first
    | with_reducible (first | assumption | apply later_withTable | apply later_tableDel | apply later_dinc)
    | intro _
    | split))

theorem later_sweepBucket {s t : State} (b : Nat) (h : Later s t) : Later s (State.sweepBucket t b) := by
  unfold State.sweepBucket
  (repeat' (first
    | with_reducible (first | assumption | apply later_withTable | apply later_sweepEntry | apply later_foldl)
    | intro _
    | split))

theorem later_tableHit {s t : State} (i : Nat) (h : Later s t) : Later s (State.tableHit t i) := by
  unfold State.tableHit
  (repeat' (first
    | with_reducible (first | assumption | apply later_withTable)
    | intro _
    | split))

theorem later_learnAsk {s t : State} (r_ : LearnReq) (h : Later s t) : Later s (State.learnAsk t r_) := by
  unfold State.learnAsk
  (repeat' (first
    | with_reducible (first | assumption | apply later_dinc | apply later_event | apply later_withTable | apply later_dmax)
    | intro _
    | (extract_lets +onlyGivenNames u; (have hu : Later s u := ?_); (on_goal 1 => clear_value u); (on_goal 2 => (dsimp -zeta only [u]; clear u)))
    | (extract_lets +onlyGivenNames x; clear_value x)
    | split))

theorem later_learnFrom {s t : State} (vid : Nat) (sa : Bytes) (kind : Nat) (dest : Nat) (learn : Bool) (h : Later s t) : Later s (State.learnFrom t vid sa kind dest learn) := by
  unfold State.learnFrom
  (repeat' (first
    | with_reducible (first | assumption | apply later_tableHit | apply later_learnAsk)
    | (extract_lets +onlyGivenNames u; (have hu : Later s u := ?_); (on_goal 1 => clear_value u); (on_goal 2 => (dsimp -zeta only [u]; clear u)))
    | (extract_lets +onlyGivenNames x; clear_value x)
    | split))

theorem later_learnHead {s t : State} (h : Later s t) : Later s (State.learnHead t) := by
  unfold State.learnHead
  (repeat' (first
    | with_reducible (first | assumption | apply later_withTable | apply later_dinc | apply later_eventLimited | apply later_event | apply later_tableFull | apply later_tablePut)
    | intro _
    | (extract_lets +onlyGivenNames u; (have hu : Later s u := ?_); (on_goal 1 => clear_value u); (on_goal 2 => (dsimp -zeta only [u]; clear u)))
    | (extract_lets +onlyGivenNames x; clear_value x)
    | split))

theorem later_handleFree {s t : State} (h_ : Nat) (h : Later s t) : Later s (State.handleFree t h_) := by
  unfold State.handleFree
  (repeat' (first
    | with_reducible (first | assumption | apply later_withTable | apply later_sweepBucket | apply later_foldl)
    | intro _
    | (extract_lets +onlyGivenNames u; (have hu : Later s u := ?_); (on_goal 1 => clear_value u); (on_goal 2 => (dsimp -zeta only [u]; clear u)))
    | (extract_lets +onlyGivenNames x; clear_value x)
    | split))

theorem later_tblLockTry {s t r : State} {w : TblWait} {d : Desc} (h : Later s t) (e : State.tblLockTry t w d = some r) : Later s r := by
  unfold State.tblLockTry at e
  (try dsimp only at e)
  (repeat' (first | (injection e with e; subst e) | cases e | split at e))
  all_goals (repeat' (first
    | with_reducible (first | assumption | apply later_complete | apply later_scatter | refine later_scatter_eq ?_ (by assumption) | apply later_withTable)
    | intro _
    | (extract_lets +onlyGivenNames u; (have hu : Later s u := ?_); (on_goal 1 => clear_value u); (on_goal 2 => (dsimp -zeta only [u]; clear u)))
    | (extract_lets +onlyGivenNames x; clear_value x)
    | split))

theorem later_tblUnlockTry {s t r : State} {w : TblWait} {h_ : Nat} (h : Later s t) (e : State.tblUnlockTry t w h_ = some r) : Later s r := by
  unfold State.tblUnlockTry at e
  (try dsimp only at e)
  (repeat' (first | (injection e with e; subst e) | cases e | split at e))
  all_goals (repeat' (first
    | with_reducible (first | assumption | apply later_complete | apply later_tblApply | refine later_tblApply_eq ?_ (by assumption) | apply later_done | apply later_handleFree | apply later_tableFull)
    | split))

theorem later_tblTry {s t r : State} {w : TblWait} (h : Later s t) (e : State.tblTry t w = some r) : Later s r := by
  unfold State.tblTry at e
  (try dsimp only at e)
  (repeat' (first | (injection e with e; subst e) | cases e | split at e))
  all_goals (repeat' (first
    | with_reducible (first | assumption | apply later_tblInsert | refine later_tblInsert_eq ?_ (by assumption) | apply later_done | apply later_complete | refine later_tblLockTry ?_ (by assumption) | refine later_tblUnlockTry ?_ (by assumption))
    | split))

theorem later_tblBegin {s t : State} (w : TblWait) (h : Later s t) : Later s (State.tblBegin t w) := by
  unfold State.tblBegin
  (repeat' (first
    | with_reducible (first | assumption | refine later_tblTry ?_ (by assumption) | apply later_withTable)
    | intro _
    | split))

theorem later_tblRetryN {s t : State} (f : Nat) (l : List TblWait) (h : Later s t) : Later s (State.tblRetryN f l t) := by
  induction f generalizing t l with
  | zero => unfold State.tblRetryN; exact h
  | succ f ih =>
    cases l with
    | nil => unfold State.tblRetryN; exact h
    | cons w l =>
      unfold State.tblRetryN
      split
      · rename_i e; exact ih _ (later_withTable _ (later_tblTry h e))
      · exact ih _ h

theorem later_tblRetry {s t : State} (h : Later s t) : Later s (State.tblRetry t) := by
  unfold State.tblRetry
  (repeat' (first
    | with_reducible (first | assumption | apply later_tblRetryN)))

theorem later_tblRelease {s t : State} (n : Nat) (h : Later s t) : Later s (State.tblRelease t n) := by
  unfold State.tblRelease
  (repeat' (first
    | with_reducible (first | assumption | apply later_handleFree | apply later_tblRetry | apply later_foldl)
    | intro _
    | (extract_lets +onlyGivenNames u; (have hu : Later s u := ?_); (on_goal 1 => clear_value u); (on_goal 2 => (dsimp -zeta only [u]; clear u)))
    | (extract_lets +onlyGivenNames x; clear_value x)))

theorem later_fwdClearOf {s t : State} (n : Nat) (h : Later s t) : Later s (State.fwdClearOf t n) := by
  unfold State.fwdClearOf
  (repeat' (first
    | with_reducible (first | assumption | apply later_withTable | apply later_rehome | apply later_stashNote)
    | intro _))

/-! Machine/SchedOps.lean -/

theorem later_withEg {s t : State} (p : Nat) (f : EgPort → EgPort) (h : Later s t) : Later s (State.withEg t p f) := by
  unfold State.withEg
  (repeat' (first
    | with_reducible (first | assumption | apply later_withPipe)
    | intro _))

theorem later_withRing {s t : State} (r_ : Nat) (f : ZRing → ZRing) (h : Later s t) : Later s (State.withRing t r_ f) := by
  unfold State.withRing
  (repeat' (first
    | with_reducible (first | assumption | apply later_withPipe)
    | intro _))

theorem later_withThread {s t : State} (t_ : Nat) (f : Thread → Thread) (h : Later s t) : Later s (State.withThread t t_ f) := by
  unfold State.withThread
  (repeat' (first
    | with_reducible (first | assumption | apply later_withFlow)
    | intro _))

theorem later_withGroup {s t : State} (g : Nat) (f : Group → Group) (h : Later s t) : Later s (State.withGroup t g f) := by
  unfold State.withGroup
  (repeat' (first
    | with_reducible (first | assumption | apply later_withFlow)
    | intro _))

theorem later_bufferNote {s t : State} (h : Later s t) : Later s (State.bufferNote t) := by
  unfold State.bufferNote
  (repeat' (first
    | with_reducible (first | assumption | apply later_dset)
    | split))

theorem later_bufferFail {s t : State} (h : Later s t) : Later s (State.bufferFail t) := by
  unfold State.bufferFail
  (repeat' (first
    | with_reducible (first | assumption | apply later_dinc | apply later_event)))

theorem later_groupDrop {s t : State} (g : Nat) (h : Later s t) : Later s (State.groupDrop t g) := by
  unfold State.groupDrop
  (repeat' (first
    | with_reducible (first | assumption | apply later_withGroup | apply later_dinc | apply later_eventLimited)
    | intro _))

theorem later_groupFrame {s t : State} (g : Nat) (f : RxFrame) (h : Later s t) : Later s (State.groupFrame t g f) := by
  unfold State.groupFrame
  (repeat' (first
    | with_reducible (first | assumption | apply later_dinc | apply later_groupDrop | apply later_bufferFail | apply later_withThread | apply later_bufferNote)
    | intro _
    | (extract_lets +onlyGivenNames u; (have hu : Later s u := ?_); (on_goal 1 => clear_value u); (on_goal 2 => (dsimp -zeta only [u]; clear u)))
    | (extract_lets +onlyGivenNames x; clear_value x)
    | split))

theorem later_egressDrop {s t : State} (p : Nat) (q : Nat) (h : Later s t) : Later s (State.egressDrop t p q) := by
  unfold State.egressDrop
  (repeat' (first
    | with_reducible (first | assumption | apply later_dinc | apply later_eventLimited)))

theorem later_egressOffer {s t : State} (p : Nat) (q : Nat) (b : Bytes) (h : Later s t) : Later s (State.egressOffer t p q b) := by
  unfold State.egressOffer
  (repeat' (first
    | with_reducible (first | assumption | apply later_egressDrop | apply later_dinc | apply later_event | apply later_bufferFail | apply later_withEg | apply later_bufferNote | apply later_dmax)
    | intro _
    | (extract_lets +onlyGivenNames u; (have hu : Later s u := ?_); (on_goal 1 => clear_value u); (on_goal 2 => (dsimp -zeta only [u]; clear u)))
    | (extract_lets +onlyGivenNames x; clear_value x)
    | split))

theorem later_gateDropN {s t : State} (p q f : Nat) (h : Later s t) : Later s (State.gateDropN t p q f) := by
  induction f generalizing t with
  | zero => exact h
  | succ f ih =>
    unfold State.gateDropN
    split
    · split
      · exact ih (later_event _ (later_dinc _ _ (later_withEg _ _ h)))
      · exact h
    · exact h

theorem later_shaperPay {s t : State} (p : Nat) (q : Nat) (w : Nat) (h : Later s t) : Later s (State.shaperPay t p q w) := by
  unfold State.shaperPay
  (repeat' (first
    | with_reducible (first | assumption | apply later_withEg)
    | intro _
    | split))

theorem later_frameStart {s t : State} (p : Nat) (b : Bytes) (h : Later s t) : Later s (State.frameStart t p b) := by
  unfold State.frameStart
  (repeat' (first
    | with_reducible (first | assumption | apply later_withEg | apply later_dinc | apply later_dadd | apply later_emit)
    | intro _))

theorem later_sendQueue {s t : State} (p : Nat) (q : Nat) (d : Option (SMap Nat)) (h : Later s t) : Later s (State.sendQueue t p q d) := by
  unfold State.sendQueue
  (repeat' (first
    | with_reducible (first | assumption | apply later_withEg | apply later_shaperPay | apply later_frameStart)
    | intro _
    | (extract_lets +onlyGivenNames u; (have hu : Later s u := ?_); (on_goal 1 => clear_value u); (on_goal 2 => (dsimp -zeta only [u]; clear u)))
    | (extract_lets +onlyGivenNames x; clear_value x)
    | split))

theorem later_portServe {s t : State} (p : Nat) (h : Later s t) : Later s (State.portServe t p) := by
  unfold State.portServe
  (repeat' (first
    | with_reducible (first | assumption | apply later_control | apply later_withEg | apply later_frameStart | apply later_emit | apply later_gateDropN | apply later_sendQueue | apply later_foldl)
    | intro _
    | (extract_lets +onlyGivenNames u; (have hu : Later s u := ?_); (on_goal 1 => clear_value u); (on_goal 2 => (dsimp -zeta only [u]; clear u)))
    | (extract_lets +onlyGivenNames x; clear_value x)
    | split))

theorem later_control {s t : State} (p : Nat) (f : CtlFrame) (h : Later s t) : Later s (State.control t p f) := by
  unfold State.control
  (repeat' (first
    | with_reducible (first | assumption | apply later_withEg | apply later_portServe)
    | intro _
    | split))

theorem later_egressTo {s t : State} (p : Nat) (q : Nat) (b : Bytes) (h : Later s t) : Later s (State.egressTo t p q b) := by
  unfold State.egressTo
  (repeat' (first
    | with_reducible (first | assumption | apply later_egressOffer | apply later_portServe)))

theorem later_egressFlush {s t : State} (p : Nat) (h : Later s t) : Later s (State.egressFlush t p) := by
  unfold State.egressFlush
  (repeat' (first
    | with_reducible (first | assumption | apply later_egressDrop | apply later_withEg | apply later_control | apply later_foldl)
    | intro _
    | (extract_lets +onlyGivenNames u; (have hu : Later s u := ?_); (on_goal 1 => clear_value u); (on_goal 2 => (dsimp -zeta only [u]; clear u)))
    | (extract_lets +onlyGivenNames x; clear_value x)))

theorem later_bucketRefresh {s t : State} (p : Nat) (q : Nat) (scale : Nat) (h : Later s t) : Later s (State.bucketRefresh t p q scale) := by
  unfold State.bucketRefresh
  (repeat' (first
    | with_reducible (first | assumption | apply later_withEg)
    | intro _
    | (extract_lets +onlyGivenNames u; (have hu : Later s u := ?_); (on_goal 1 => clear_value u); (on_goal 2 => (dsimp -zeta only [u]; clear u)))
    | (extract_lets +onlyGivenNames x; clear_value x)
    | split))

theorem later_portRefresh {s t : State} (p : Nat) (h : Later s t) : Later s (State.portRefresh t p) := by
  unfold State.portRefresh
  (repeat' (first
    | with_reducible (first | assumption | apply later_bucketRefresh | apply later_foldl)
    | intro _
    | (extract_lets +onlyGivenNames u; (have hu : Later s u := ?_); (on_goal 1 => clear_value u); (on_goal 2 => (dsimp -zeta only [u]; clear u)))
    | (extract_lets +onlyGivenNames x; clear_value x)
    | split))

theorem later_gateEnter {s t : State} (p : Nat) (i : Nat) (t_ : Nat) (h : Later s t) : Later s (State.gateEnter t p i t_) := by
  unfold State.gateEnter
  (repeat' (first
    | with_reducible (first | assumption | apply later_dset | apply later_withEg)
    | intro _
    | (extract_lets +onlyGivenNames u; (have hu : Later s u := ?_); (on_goal 1 => clear_value u); (on_goal 2 => (dsimp -zeta only [u]; clear u)))
    | (extract_lets +onlyGivenNames x; clear_value x)
    | split))

theorem later_gateAdvance {s t : State} (p : Nat) (h : Later s t) : Later s (State.gateAdvance t p) := by
  unfold State.gateAdvance
  (repeat' (first
    | with_reducible (first | assumption | apply later_gateEnter | apply later_portServe | apply later_event | apply later_withEg)
    | intro _
    | (extract_lets +onlyGivenNames u; (have hu : Later s u := ?_); (on_goal 1 => clear_value u); (on_goal 2 => (dsimp -zeta only [u]; clear u)))
    | (extract_lets +onlyGivenNames x; clear_value x)
    | split))

theorem later_gateChange {s t : State} (p : Nat) (h : Later s t) : Later s (State.gateChange t p) := by
  unfold State.gateChange
  (repeat' (first
    | with_reducible (first | assumption | apply later_dset | apply later_dsetv | apply later_dinc | apply later_event | apply later_withEg | apply later_gateEnter | apply later_portServe)
    | intro _
    | (extract_lets +onlyGivenNames u; (have hu : Later s u := ?_); (on_goal 1 => clear_value u); (on_goal 2 => (dsimp -zeta only [u]; clear u)))
    | (extract_lets +onlyGivenNames x; clear_value x)
    | split))

theorem later_schedApply {s t : State} (p : Nat) (h : Later s t) : Later s (State.schedApply t p) := by
  unfold State.schedApply
  (repeat' (first
    | with_reducible (first | assumption | apply later_withEg | apply later_dset)
    | intro _
    | (extract_lets +onlyGivenNames u; (have hu : Later s u := ?_); (on_goal 1 => clear_value u); (on_goal 2 => (dsimp -zeta only [u]; clear u)))
    | (extract_lets +onlyGivenNames x; clear_value x)
    | split))

theorem later_gatesStepped {s t : State} (d : Int) (h : Later s t) : Later s (State.gatesStepped t d) := by
  unfold State.gatesStepped
  (repeat' (first
    | with_reducible (first | assumption | apply later_withEg | apply later_gateEnter | apply later_foldl)
    | intro _
    | (extract_lets +onlyGivenNames u; (have hu : Later s u := ?_); (on_goal 1 => clear_value u); (on_goal 2 => (dsimp -zeta only [u]; clear u)))
    | (extract_lets +onlyGivenNames x; clear_value x)
    | split))

theorem later_setMeter {s t : State} (m : Nat) (x_ : Meter) (h : Later s t) : Later s (State.setMeter t m x_) := by
  unfold State.setMeter
  (repeat' (first
    | with_reducible (first | assumption | apply later_withPipe)
    | intro _))

theorem later_meterFrame {s t : State} (m : Nat) (l : Nat) (dei : Nat) (dscp : Option Nat) (h : Later s t) : Later s (State.meterFrame t m l dei dscp).2 := by
  unfold State.meterFrame
  (repeat' (first
    | with_reducible (first | assumption | apply later_setMeter | apply later_eventLimited)
    | (extract_lets +onlyGivenNames u; (have hu : Later s u := ?_); (on_goal 1 => clear_value u); (on_goal 2 => (dsimp -zeta only [u]; clear u)))
    | (extract_lets +onlyGivenNames x; clear_value x)
    | split))

theorem later_meterFrame_eq {s t r : State} {x} {m : Nat} {l : Nat} {dei : Nat} {dscp : Option Nat} (h : Later s t) (e : State.meterFrame t m l dei dscp = (x, r)) : Later s r := by
  have k := later_meterFrame (s := s) (t := t) m l dei dscp  h
  rw [e] at k; exact k

theorem later_vpPay {s t : State} (n : Nat) (w : Nat) (h : Later s t) : Later s (State.vpPay t n w) := by
  unfold State.vpPay
  (repeat' (first
    | with_reducible (first | assumption | apply later_withPipe)
    | intro _
    | split))

theorem later_vpRefresh {s t : State} (n : Nat) (h : Later s t) : Later s (State.vpRefresh t n) := by
  unfold State.vpRefresh
  (repeat' (first
    | with_reducible (first | assumption | apply later_withPipe)
    | intro _
    | (extract_lets +onlyGivenNames u; (have hu : Later s u := ?_); (on_goal 1 => clear_value u); (on_goal 2 => (dsimp -zeta only [u]; clear u)))
    | (extract_lets +onlyGivenNames x; clear_value x)
    | split))

/-! Machine/ZeludOps.lean -/

theorem later_ringSend {s t : State} (r_ : Nat) (east : Bool) (cls : Nat) (b : Bytes) (h : Later s t) : Later s (State.ringSend t r_ east cls b) := by
  unfold State.ringSend
  (repeat' (first
    | with_reducible (first | assumption | apply later_egressTo | apply later_dinc)
    | (extract_lets +onlyGivenNames u; (have hu : Later s u := ?_); (on_goal 1 => clear_value u); (on_goal 2 => (dsimp -zeta only [u]; clear u)))
    | (extract_lets +onlyGivenNames x; clear_value x)
    | split))

theorem later_enterRing {s t : State} (dev : Nat) (cls : Nat) (b : Bytes) (h : Later s t) : Later s (State.enterRing t dev cls b) := by
  unfold State.enterRing
  (repeat' (first
    | with_reducible (first | assumption | apply later_dinc | apply later_withRing | apply later_ringSend)
    | intro _
    | split))

theorem later_floodOut {s t : State} (r_ : Nat) (east : Bool) (hops : Nat) (cls : Nat) (ttl : Nat) (src : Nat) (b : Bytes) (h : Later s t) : Later s (State.floodOut t r_ east hops cls ttl src b) := by
  unfold State.floodOut
  (repeat' (first
    | with_reducible (first | assumption | apply later_egressTo)
    | (extract_lets +onlyGivenNames u; (have hu : Later s u := ?_); (on_goal 1 => clear_value u); (on_goal 2 => (dsimp -zeta only [u]; clear u)))
    | (extract_lets +onlyGivenNames x; clear_value x)
    | split))

theorem later_ringFlood {s t : State} (r_ : Nat) (cls : Nat) (ttl : Nat) (src : Nat) (b : Bytes) (h : Later s t) : Later s (State.ringFlood t r_ cls ttl src b) := by
  unfold State.ringFlood
  (repeat' (first
    | with_reducible (first | assumption | apply later_dinc | apply later_floodOut)
    | (extract_lets +onlyGivenNames u; (have hu : Later s u := ?_); (on_goal 1 => clear_value u); (on_goal 2 => (dsimp -zeta only [u]; clear u)))
    | (extract_lets +onlyGivenNames x; clear_value x)
    | split))

theorem later_ringControl {s t : State} (r_ : Nat) (east : Bool) (subtype : Nat) (hops : Nat) (fields : Bytes) (h : Later s t) : Later s (State.ringControl t r_ east subtype hops fields) := by
  unfold State.ringControl
  (repeat' (first
    | with_reducible (first | assumption | apply later_control)))

theorem later_ringTell {s t : State} (r_ : Nat) (subtype : Nat) (fields : Bytes) (h : Later s t) : Later s (State.ringTell t r_ subtype fields) := by
  unfold State.ringTell
  (repeat' (first
    | with_reducible (first | assumption | apply later_ringControl | apply later_foldl)
    | intro _
    | split))

theorem later_ringForward {s t : State} (r_ : Nat) (east : Bool) (subtype : Nat) (src : ZeludSource) (hops : Nat) (fields : Bytes) (h : Later s t) : Later s (State.ringForward t r_ east subtype src hops fields) := by
  unfold State.ringForward
  (repeat' (first
    | with_reducible (first | assumption | apply later_control)
    | (extract_lets +onlyGivenNames u; (have hu : Later s u := ?_); (on_goal 1 => clear_value u); (on_goal 2 => (dsimp -zeta only [u]; clear u)))
    | (extract_lets +onlyGivenNames x; clear_value x)
    | split))

theorem later_ringRecompute {s t : State} (r_ : Nat) (f : ZRing → ZRing) (h : Later s t) : Later s (State.ringRecompute t r_ f) := by
  unfold State.ringRecompute
  (repeat' (first
    | with_reducible (first | assumption | apply later_withRing)
    | intro _
    | (extract_lets +onlyGivenNames u; (have hu : Later s u := ?_); (on_goal 1 => clear_value u); (on_goal 2 => (dsimp -zeta only [u]; clear u)))
    | (extract_lets +onlyGivenNames x; clear_value x)
    | split))

theorem later_ringFaultNote {s t : State} (r_ : Nat) (h : Later s t) : Later s (State.ringFaultNote t r_) := by
  unfold State.ringFaultNote
  (repeat' (first
    | with_reducible (first | assumption | apply later_dinc | apply later_dset | apply later_event)))

theorem later_ringPortFails {s t : State} (r_ : Nat) (east : Bool) (h : Later s t) : Later s (State.ringPortFails t r_ east) := by
  unfold State.ringPortFails
  (repeat' (first
    | with_reducible (first | assumption | apply later_withEg | apply later_ringRecompute | apply later_withPort | apply later_ringFaultNote | apply later_ringTell | apply later_ringSend | apply later_foldl)
    | intro _
    | (extract_lets +onlyGivenNames u; (have hu : Later s u := ?_); (on_goal 1 => clear_value u); (on_goal 2 => (dsimp -zeta only [u]; clear u)))
    | (extract_lets +onlyGivenNames x; clear_value x)
    | split))

theorem later_ringPortDown {s t : State} (p : Nat) (h : Later s t) : Later s (State.ringPortDown t p) := by
  unfold State.ringPortDown
  (repeat' (first
    | with_reducible (first | assumption | apply later_ringPortFails)
    | split))

theorem later_ringBlock {s t : State} (r_ : Nat) (h : Later s t) : Later s (State.ringBlock t r_) := by
  unfold State.ringBlock
  (repeat' (first
    | with_reducible (first | assumption | apply later_withRing | apply later_event)
    | intro _))

theorem later_helloTake {s t : State} (port : Nat) (src : ZeludSource) (serial : Nat) (t1 : Nat) (e1 : Nat) (e2 : Nat) (e3 : Nat) (arrived : Nat) (h : Later s t) : Later s (State.helloTake t port src serial t1 e1 e2 e3 arrived) := by
  unfold State.helloTake
  (repeat' (first
    | with_reducible (first | assumption | apply later_dinc | apply later_withRing | apply later_withPort | apply later_event | apply later_ringBlock)
    | intro _
    | split))

theorem later_ringBound {s t : State} (r_ : Nat) (h : Later s t) : Later s (State.ringBound t r_) := by
  unfold State.ringBound
  (repeat' (first
    | with_reducible (first | assumption | apply later_dset | apply later_withRing | apply later_event)
    | intro _
    | (extract_lets +onlyGivenNames u; (have hu : Later s u := ?_); (on_goal 1 => clear_value u); (on_goal 2 => (dsimp -zeta only [u]; clear u)))
    | (extract_lets +onlyGivenNames x; clear_value x)
    | split))

theorem later_topologyTake {s t : State} (port : Nat) (src : ZeludSource) (serial : Nat) (delay : Nat) (rate : Nat) (reach : List Nat) (h : Later s t) : Later s (State.topologyTake t port src serial delay rate reach) := by
  unfold State.topologyTake
  (repeat' (first
    | with_reducible (first | assumption | apply later_dinc | apply later_ringBlock | apply later_ringRecompute | apply later_ringBound | apply later_event | apply later_ringForward)
    | intro _
    | (extract_lets +onlyGivenNames u; (have hu : Later s u := ?_); (on_goal 1 => clear_value u); (on_goal 2 => (dsimp -zeta only [u]; clear u)))
    | (extract_lets +onlyGivenNames x; clear_value x)
    | split))

theorem later_faultTake {s t : State} (port : Nat) (src : ZeludSource) (side : Nat) (h : Later s t) : Later s (State.faultTake t port src side) := by
  unfold State.faultTake
  (repeat' (first
    | with_reducible (first | assumption | apply later_dinc | apply later_ringFaultNote | apply later_ringRecompute | apply later_ringForward)
    | intro _
    | (extract_lets +onlyGivenNames u; (have hu : Later s u := ?_); (on_goal 1 => clear_value u); (on_goal 2 => (dsimp -zeta only [u]; clear u)))
    | (extract_lets +onlyGivenNames x; clear_value x)
    | split))

theorem later_restoreTake {s t : State} (port : Nat) (src : ZeludSource) (side : Nat) (h : Later s t) : Later s (State.restoreTake t port src side) := by
  unfold State.restoreTake
  (repeat' (first
    | with_reducible (first | assumption | apply later_dinc | apply later_event | apply later_ringRecompute | apply later_ringForward)
    | intro _
    | (extract_lets +onlyGivenNames u; (have hu : Later s u := ?_); (on_goal 1 => clear_value u); (on_goal 2 => (dsimp -zeta only [u]; clear u)))
    | (extract_lets +onlyGivenNames x; clear_value x)
    | split))

theorem later_leaveTake {s t : State} (port : Nat) (src : ZeludSource) (h : Later s t) : Later s (State.leaveTake t port src) := by
  unfold State.leaveTake
  (repeat' (first
    | with_reducible (first | assumption | apply later_dinc | apply later_ringPortFails)
    | split))

theorem later_ringRestored {s t : State} (r_ : Nat) (east : Bool) (h : Later s t) : Later s (State.ringRestored t r_ east) := by
  unfold State.ringRestored
  (repeat' (first
    | with_reducible (first | assumption | apply later_ringRecompute | apply later_withPort | apply later_event | apply later_ringTell)
    | intro _
    | (extract_lets +onlyGivenNames u; (have hu : Later s u := ?_); (on_goal 1 => clear_value u); (on_goal 2 => (dsimp -zeta only [u]; clear u)))
    | (extract_lets +onlyGivenNames x; clear_value x)
    | split))

theorem later_steerRelease {s t : State} (r_ : Nat) (h : Later s t) : Later s (State.steerRelease t r_) := by
  unfold State.steerRelease
  (repeat' (first
    | with_reducible (first | assumption | apply later_withRing | apply later_enterRing | apply later_foldl)
    | intro _
    | (extract_lets +onlyGivenNames u; (have hu : Later s u := ?_); (on_goal 1 => clear_value u); (on_goal 2 => (dsimp -zeta only [u]; clear u)))
    | (extract_lets +onlyGivenNames x; clear_value x)))

theorem later_ringLeave {s t : State} (r_ : Nat) (gone : Bool) (h : Later s t) : Later s (State.ringLeave t r_ gone) := by
  unfold State.ringLeave
  (repeat' (first
    | with_reducible (first | assumption | apply later_withRing | apply later_ringControl)
    | intro _
    | (extract_lets +onlyGivenNames u; (have hu : Later s u := ?_); (on_goal 1 => clear_value u); (on_goal 2 => (dsimp -zeta only [u]; clear u)))
    | (extract_lets +onlyGivenNames x; clear_value x)
    | split))

theorem later_zeludLeave {s t : State} (h : Later s t) : Later s (State.zeludLeave t) := by
  unfold State.zeludLeave
  (repeat' (first
    | with_reducible (first | assumption | apply later_ringLeave)))

theorem later_leaveWaited {s t : State} (h : Later s t) : Later s (State.leaveWaited t) := by
  unfold State.leaveWaited
  (repeat' (first
    | with_reducible (first | assumption | apply later_withRing | apply later_foldl)
    | intro _
    | (extract_lets +onlyGivenNames u; (have hu : Later s u := ?_); (on_goal 1 => clear_value u); (on_goal 2 => (dsimp -zeta only [u]; clear u)))
    | (extract_lets +onlyGivenNames x; clear_value x)
    | split))

theorem later_zeludReturn {s t : State} (h : Later s t) : Later s (State.zeludReturn t) := by
  unfold State.zeludReturn
  (repeat' (first
    | with_reducible (first | assumption | apply later_ringRecompute | apply later_foldl)
    | intro _
    | (extract_lets +onlyGivenNames u; (have hu : Later s u := ?_); (on_goal 1 => clear_value u); (on_goal 2 => (dsimp -zeta only [u]; clear u)))
    | (extract_lets +onlyGivenNames x; clear_value x)
    | split))

theorem later_zeludApply {s t : State} (h : Later s t) : Later s (State.zeludApply t) := by
  unfold State.zeludApply
  (repeat' (first
    | with_reducible (first | assumption | apply later_ringLeave | apply later_ringControl | apply later_withRing | apply later_foldl)
    | intro _
    | (extract_lets +onlyGivenNames u; (have hu : Later s u := ?_); (on_goal 1 => clear_value u); (on_goal 2 => (dsimp -zeta only [u]; clear u)))
    | (extract_lets +onlyGivenNames x; clear_value x)
    | split
    | cases ‹none = some _›
    | (split at ‹_ = some _›)))

theorem later_helloSend {s t : State} (h : Later s t) : Later s (State.helloSend t) := by
  unfold State.helloSend
  (repeat' (first
    | with_reducible (first | assumption | apply later_ringControl | apply later_foldl)
    | intro _
    | (extract_lets +onlyGivenNames u; (have hu : Later s u := ?_); (on_goal 1 => clear_value u); (on_goal 2 => (dsimp -zeta only [u]; clear u)))
    | (extract_lets +onlyGivenNames x; clear_value x)
    | split))

theorem later_topologySend {s t : State} (h : Later s t) : Later s (State.topologySend t) := by
  unfold State.topologySend
  (repeat' (first
    | with_reducible (first | assumption | apply later_ringControl | apply later_foldl)
    | intro _
    | (extract_lets +onlyGivenNames u; (have hu : Later s u := ?_); (on_goal 1 => clear_value u); (on_goal 2 => (dsimp -zeta only [u]; clear u)))
    | (extract_lets +onlyGivenNames x; clear_value x)
    | split))

theorem later_keepaliveSend {s t : State} (p : Nat) (h : Later s t) : Later s (State.keepaliveSend t p) := by
  unfold State.keepaliveSend
  (repeat' (first
    | with_reducible (first | assumption | apply later_ringControl)
    | split))

/-! Machine/PipeOps.lean -/

theorem later_copyPort {s t : State} (d : Decided) (p : Nat) (h : Later s t) : Later s (State.copyPort t d p) := by
  unfold State.copyPort
  (repeat' (first
    | with_reducible (first | assumption | apply later_egressTo)
    | split))

theorem later_copyRemote {s t : State} (d : Decided) (dev : Nat) (h : Later s t) : Later s (State.copyRemote t d dev) := by
  unfold State.copyRemote
  (repeat' (first
    | with_reducible (first | assumption | apply later_dinc | apply later_enterRing)
    | (extract_lets +onlyGivenNames u; (have hu : Later s u := ?_); (on_goal 1 => clear_value u); (on_goal 2 => (dsimp -zeta only [u]; clear u)))
    | (extract_lets +onlyGivenNames x; clear_value x)
    | split))

theorem later_copyRing {s t : State} (d : Decided) (r_ : Nat) (h : Later s t) : Later s (State.copyRing t d r_) := by
  unfold State.copyRing
  (repeat' (first
    | with_reducible (first | assumption | apply later_dinc | apply later_floodOut | apply later_foldl)
    | intro _
    | (extract_lets +onlyGivenNames u; (have hu : Later s u := ?_); (on_goal 1 => clear_value u); (on_goal 2 => (dsimp -zeta only [u]; clear u)))
    | (extract_lets +onlyGivenNames x; clear_value x)
    | split))

theorem later_areaWrite {s t : State} (n : Nat) (l : List (Bool × Nat × Nat)) (o : Nat) (b : Bytes) (h : Later s t) :
    Later s (State.areaWrite t n l o b) := by
  induction l generalizing t o b with
  | nil => unfold State.areaWrite; exact h
  | cons e l ih =>
    obtain ⟨dev, addr, len⟩ := e
    unfold State.areaWrite
    split
    · exact h
    · split
      · exact ih _ _ h
      · apply ih
        split
        · exact later_withDram h fun _ => wf_writeN _ _
        · exact later_hostWrite _ _ _ h

theorem later_vpCount {s t : State} (n : Nat) (sub : Nat) (h : Later s t) : Later s (State.vpCount t n sub) := by
  unfold State.vpCount
  (repeat' (first
    | with_reducible (first | assumption | apply later_dinc)))

theorem later_vpReceive {s t : State} (n : Nat) (port : Nat) (sender : Option Nat) (stamp : Nat) (b : Bytes) (h : Later s t) : Later s (State.vpReceive t n port sender stamp b) := by
  unfold State.vpReceive
  (repeat' (first
    | with_reducible (first | assumption | apply later_vpCount | apply later_areaWrite | apply later_withPipe | apply later_dadd | apply later_cqPost)
    | intro _
    | (extract_lets +onlyGivenNames u; (have hu : Later s u := ?_); (on_goal 1 => clear_value u); (on_goal 2 => (dsimp -zeta only [u]; clear u)))
    | (extract_lets +onlyGivenNames x; clear_value x)
    | split))

theorem later_copyVp {s t : State} (d : Decided) (n : Nat) (h : Later s t) : Later s (State.copyVp t d n) := by
  unfold State.copyVp
  (repeat' (first
    | with_reducible (first | assumption | apply later_vpReceive)
    | split))

theorem later_copyGroup {s t : State} (d : Decided) (g : Nat) (h : Later s t) : Later s (State.copyGroup t d g) := by
  unfold State.copyGroup
  (repeat' (first
    | with_reducible (first | assumption | apply later_groupFrame)
    | split))

theorem later_copyTo {s t : State} (d : Decided) (kind : Nat) (dest : Nat) (h : Later s t) : Later s (State.copyTo t d kind dest) := by
  unfold State.copyTo
  (repeat' (first
    | with_reducible (first | assumption | apply later_copyPort | apply later_copyRemote | apply later_copyVp | apply later_copyGroup | apply later_copyRing | apply later_foldl)
    | intro _
    | (extract_lets +onlyGivenNames u; (have hu : Later s u := ?_); (on_goal 1 => clear_value u); (on_goal 2 => (dsimp -zeta only [u]; clear u)))
    | (extract_lets +onlyGivenNames x; clear_value x)
    | split))

theorem later_copyFlood {s t : State} (d : Decided) (h : Later s t) : Later s (State.copyFlood t d) := by
  unfold State.copyFlood
  (repeat' (first
    | with_reducible (first | assumption | apply later_copyPort | apply later_copyVp | apply later_copyRing | apply later_foldl)
    | intro _
    | (extract_lets +onlyGivenNames u; (have hu : Later s u := ?_); (on_goal 1 => clear_value u); (on_goal 2 => (dsimp -zeta only [u]; clear u)))
    | (extract_lets +onlyGivenNames x; clear_value x)))

theorem later_hearthPath {s t : State} (h : Later s t) : Later s (State.hearthPath t).2 := by
  unfold State.hearthPath
  (repeat' (first
    | with_reducible (first | assumption | apply later_withPipe | apply later_dinc | apply later_eventLimited)
    | intro _
    | (extract_lets +onlyGivenNames u; (have hu : Later s u := ?_); (on_goal 1 => clear_value u); (on_goal 2 => (dsimp -zeta only [u]; clear u)))
    | (extract_lets +onlyGivenNames x; clear_value x)
    | split))

theorem later_hearthPath_eq {s t r : State} {x} (h : Later s t) (e : State.hearthPath t = (x, r)) : Later s r := by
  have k := later_hearthPath (s := s) (t := t)   h
  rw [e] at k; exact k

theorem later_hearthFrame {s t r : State} {o : Origin} {frame : Bytes} {f : Parsed} {vid : Nat} (h : Later s t) (e : State.hearthFrame t o frame f vid = some r) : Later s r := by
  unfold State.hearthFrame at e
  (try dsimp only at e)
  (repeat' (first | (injection e with e; subst e) | cases e | split at e))
  all_goals (repeat' (first
    | with_reducible (first | assumption | apply later_hearthPath | refine later_hearthPath_eq ?_ (by assumption) | apply later_egressTo | apply later_dinc)
    | (extract_lets +onlyGivenNames u; (have hu : Later s u := ?_); (on_goal 1 => clear_value u); (on_goal 2 => (dsimp -zeta only [u]; clear u)))
    | (extract_lets +onlyGivenNames x; clear_value x)
    | split
    | cases ‹none = some _›
    | (split at ‹_ = some _›)))

theorem later_srcLookup {s t : State} (o : Origin) (vid : Nat) (sa : Bytes) (h : Later s t) : Later s (State.srcLookup t o vid sa) := by
  unfold State.srcLookup
  (repeat' (first
    | with_reducible (first | assumption | apply later_tableHit | apply later_learnFrom)
    | (extract_lets +onlyGivenNames u; (have hu : Later s u := ?_); (on_goal 1 => clear_value u); (on_goal 2 => (dsimp -zeta only [u]; clear u)))
    | (extract_lets +onlyGivenNames x; clear_value x)
    | split))

theorem later_classify {s t : State} (o : Origin) (frame : Bytes) (stamp : Nat) (h : Later s t) : Later s (State.classify t o frame stamp) := by
  unfold State.classify
  (repeat' (first
    | with_reducible (first | assumption | apply later_srcLookup | refine later_hearthFrame ?_ (by assumption) | apply later_tableHit | apply later_copyFlood | apply later_kilnFrame | apply later_meterFrame | refine later_meterFrame_eq ?_ (by assumption) | apply later_copyTo)
    | intro _
    | (extract_lets +onlyGivenNames u; (have hu : Later s u := ?_); (on_goal 1 => clear_value u); (on_goal 2 => (dsimp -zeta only [u]; clear u)))
    | (extract_lets +onlyGivenNames x; clear_value x)
    | split
    | cases ‹none = some _›
    | (split at ‹_ = some _›)))

theorem later_zeludUnicast {s t : State} (r_ : Nat) (east : Bool) (b : Bytes) (stamp : Nat) (h : Later s t) : Later s (State.zeludUnicast t r_ east b stamp) := by
  unfold State.zeludUnicast
  (repeat' (first
    | with_reducible (first | assumption | apply later_classify | apply later_dinc | apply later_ringSend)
    | (extract_lets +onlyGivenNames u; (have hu : Later s u := ?_); (on_goal 1 => clear_value u); (on_goal 2 => (dsimp -zeta only [u]; clear u)))
    | (extract_lets +onlyGivenNames x; clear_value x)
    | split))

theorem later_zeludFlood {s t : State} (r_ : Nat) (east : Bool) (b : Bytes) (stamp : Nat) (h : Later s t) : Later s (State.zeludFlood t r_ east b stamp) := by
  unfold State.zeludFlood
  (repeat' (first
    | with_reducible (first | assumption | apply later_dinc | apply later_classify | apply later_ringFlood | apply later_floodOut)
    | (extract_lets +onlyGivenNames u; (have hu : Later s u := ?_); (on_goal 1 => clear_value u); (on_goal 2 => (dsimp -zeta only [u]; clear u)))
    | (extract_lets +onlyGivenNames x; clear_value x)
    | split))

theorem later_zeludControl {s t : State} (p : Nat) (b : Bytes) (stamp : Nat) (h : Later s t) : Later s (State.zeludControl t p b stamp) := by
  unfold State.zeludControl
  (repeat' (first
    | with_reducible (first | assumption | apply later_helloTake | apply later_topologyTake | apply later_faultTake | apply later_restoreTake | apply later_leaveTake | apply later_dinc)
    | intro _
    | (extract_lets +onlyGivenNames u; (have hu : Later s u := ?_); (on_goal 1 => clear_value u); (on_goal 2 => (dsimp -zeta only [u]; clear u)))
    | (extract_lets +onlyGivenNames x; clear_value x)
    | split))

theorem later_zeludFrame {s t : State} (p : Nat) (r_ : Nat) (east : Bool) (b : Bytes) (stamp : Nat) (h : Later s t) : Later s (State.zeludFrame t p r_ east b stamp) := by
  unfold State.zeludFrame
  (repeat' (first
    | with_reducible (first | assumption | apply later_dinc | apply later_zeludControl | apply later_zeludUnicast | apply later_zeludFlood)
    | split))

theorem later_frameTake {s t : State} (p : Nat) (frame : Bytes) (fcsOk : Bool) (stamp : Nat) (h : Later s t) : Later s (State.frameTake t p frame fcsOk stamp) := by
  unfold State.frameTake
  (repeat' (first
    | with_reducible (first | assumption | apply later_dinc | apply later_dadd | apply later_zeludFrame | apply later_classify)
    | (extract_lets +onlyGivenNames u; (have hu : Later s u := ?_); (on_goal 1 => clear_value u); (on_goal 2 => (dsimp -zeta only [u]; clear u)))
    | (extract_lets +onlyGivenNames x; clear_value x)
    | split
    | cases ‹none = some _›
    | (split at ‹_ = some _›)))

theorem later_vpSendHead {s t r : State} {v : VpSend} (h : Later s t) (e : State.vpSendHead t v = some r) : Later s r := by
  unfold State.vpSendHead at e
  (try dsimp only at e)
  (repeat' (first | (injection e with e; subst e) | cases e | split at e))
  all_goals (repeat' (first
    | with_reducible (first | assumption | apply later_vpPay | apply later_withPipe | apply later_vpCount | apply later_dadd | apply later_classify | apply later_complete)
    | intro _
    | (extract_lets +onlyGivenNames u; (have hu : Later s u := ?_); (on_goal 1 => clear_value u); (on_goal 2 => (dsimp -zeta only [u]; clear u)))
    | (extract_lets +onlyGivenNames x; clear_value x)
    | split))

theorem later_vpSendHeld {s t : State} (v : VpSend) (h : Later s t) : Later s (State.vpSendHeld t v) := by
  unfold State.vpSendHeld
  (repeat' (first
    | with_reducible (first | assumption | apply later_dinc | apply later_withPipe)
    | intro _
    | split))

theorem later_vpSendsN {s t : State} (f : Nat) (w : List Nat) (l : List VpSend) (h : Later s t) :
    Later s (State.vpSendsN f w l t) := by
  induction f generalizing t w l with
  | zero => unfold State.vpSendsN; exact h
  | succ f ih =>
    cases l with
    | nil => unfold State.vpSendsN; exact h
    | cons v l =>
      unfold State.vpSendsN
      split
      · apply ih
        split
        · exact h
        · exact later_withPipe _ (later_dinc _ _ h)
      · split
        · rename_i e; exact ih _ _ (later_vpSendHead h e)
        · exact ih _ _ (later_vpSendHeld _ h)

theorem later_vpSends {s t : State} (h : Later s t) : Later s (State.vpSends t) := by
  unfold State.vpSends
  (repeat' (first
    | with_reducible (first | assumption | apply later_vpSendsN)))

theorem later_portDown {s t : State} (p : Nat) (h : Later s t) : Later s (State.portDown t p) := by
  unfold State.portDown
  (repeat' (first
    | with_reducible (first | assumption | apply later_withEg | apply later_ringPortDown | apply later_withDamper | apply later_egressFlush | apply later_dinc | apply later_event)
    | intro _
    | (extract_lets +onlyGivenNames u; (have hu : Later s u := ?_); (on_goal 1 => clear_value u); (on_goal 2 => (dsimp -zeta only [u]; clear u)))
    | (extract_lets +onlyGivenNames x; clear_value x)
    | split))

theorem later_portsCheck {s t : State} (h : Later s t) : Later s (State.portsCheck t) := by
  unfold State.portsCheck
  (repeat' (first
    | with_reducible (first | assumption | apply later_portDown | apply later_foldl)
    | intro _
    | split))

theorem later_portUp {s t : State} (p : Nat) (rate : Nat) (h : Later s t) : Later s (State.portUp t p rate) := by
  unfold State.portUp
  (repeat' (first
    | with_reducible (first | assumption | apply later_dset | apply later_withEg | apply later_event)
    | intro _
    | split))

theorem later_vpUnbind {s t : State} (n : Nat) (h : Later s t) : Later s (State.vpUnbind t n) := by
  unfold State.vpUnbind
  (repeat' (first
    | with_reducible (first | assumption | apply later_withPipe)
    | intro _))

theorem later_vpDrop {s t : State} (n : Nat) (h : Later s t) : Later s (State.vpDrop t n) := by
  unfold State.vpDrop
  (repeat' (first
    | with_reducible (first | assumption | apply later_withPipe)
    | intro _))

/-! Machine/TimeOps.lean -/

theorem later_timeStep {s t : State} (d : Int) (h : Later s t) : Later s (State.timeStep t d) := by
  unfold State.timeStep
  (repeat' (first
    | with_reducible (first | assumption | apply later_withTime | apply later_dinc | apply later_logCls | apply later_gatesStepped)
    | intro _
    | (extract_lets +onlyGivenNames u; (have hu : Later s u := ?_); (on_goal 1 => clear_value u); (on_goal 2 => (dsimp -zeta only [u]; clear u)))
    | (extract_lets +onlyGivenNames x; clear_value x)))

theorem later_discipline {s t : State} (off : Int) (h : Later s t) : Later s (State.discipline t off) := by
  unfold State.discipline
  (repeat' (first
    | with_reducible (first | assumption | apply later_dset | apply later_timeStep | apply later_drawBits | refine later_drawBits_eq ?_ (by assumption) | apply later_withTime)
    | intro _
    | (extract_lets +onlyGivenNames u; (have hu : Later s u := ?_); (on_goal 1 => clear_value u); (on_goal 2 => (dsimp -zeta only [u]; clear u)))
    | (extract_lets +onlyGivenNames x; clear_value x)
    | split))

theorem later_leads {s t : State} (h : Later s t) : Later s (State.leads t) := by
  unfold State.leads
  (repeat' (first
    | with_reducible (first | assumption | apply later_dset)
    | split))

theorem later_syncTaken {s t : State} (p : Nat) (off : Int) (h : Later s t) : Later s (State.syncTaken t p off) := by
  unfold State.syncTaken
  (repeat' (first
    | with_reducible (first | assumption | apply later_dset | apply later_event | apply later_discipline)
    | (extract_lets +onlyGivenNames u; (have hu : Later s u := ?_); (on_goal 1 => clear_value u); (on_goal 2 => (dsimp -zeta only [u]; clear u)))
    | (extract_lets +onlyGivenNames x; clear_value x)
    | split))

theorem later_setRole {s t : State} (p : Nat) (r_ : Nat) (h : Later s t) : Later s (State.setRole t p r_) := by
  unfold State.setRole
  (repeat' (first
    | with_reducible (first | assumption | apply later_dset)))

theorem later_announceTaken {s t : State} (p : Nat) (gm : Nat) (better : Bool) (h : Later s t) : Later s (State.announceTaken t p gm better) := by
  unfold State.announceTaken
  (repeat' (first
    | with_reducible (first | assumption | apply later_setRole | apply later_dset | apply later_event | apply later_leads | apply later_foldl)
    | intro _
    | (extract_lets +onlyGivenNames u; (have hu : Later s u := ?_); (on_goal 1 => clear_value u); (on_goal 2 => (dsimp -zeta only [u]; clear u)))
    | (extract_lets +onlyGivenNames x; clear_value x)
    | split))

theorem later_ptpSend {s t : State} (p : Nat) (type : Nat) (h : Later s t) : Later s (State.ptpSend t p type) := by
  unfold State.ptpSend
  (repeat' (first
    | with_reducible (first | assumption | apply later_control)))

theorem later_ptpTake {s t : State} (p : Nat) (m : PtpMessage) (h : Later s t) : Later s (State.ptpTake t p m) := by
  unfold State.ptpTake
  (repeat' (first
    | with_reducible (first | assumption | apply later_syncTaken | apply later_announceTaken | apply later_ptpSend | apply later_dset)
    | split))

theorem later_ppsEdge {s t : State} (h : Later s t) : Later s (State.ppsEdge t) := by
  unfold State.ppsEdge
  (repeat' (first
    | with_reducible (first | assumption | apply later_dset | apply later_timeStep | apply later_withPipe | apply later_discipline | apply later_leads)
    | intro _
    | (extract_lets +onlyGivenNames u; (have hu : Later s u := ?_); (on_goal 1 => clear_value u); (on_goal 2 => (dsimp -zeta only [u]; clear u)))
    | (extract_lets +onlyGivenNames x; clear_value x)
    | split))

theorem later_ppsOutput {s t : State} (rising : Bool) (h : Later s t) : Later s (State.ppsOutput t rising) := by
  unfold State.ppsOutput
  (repeat' (first
    | with_reducible (first | assumption | apply later_withPipe | apply later_pin)
    | intro _
    | (extract_lets +onlyGivenNames u; (have hu : Later s u := ?_); (on_goal 1 => clear_value u); (on_goal 2 => (dsimp -zeta only [u]; clear u)))
    | (extract_lets +onlyGivenNames x; clear_value x)
    | split))

end Sys2Proof.Laws
end

