-- ==== Sys2Proof/Laws/LaterThreads.lean ====
section
/-! SUPPORT. What the operations of the flow cores, the logs, the replayer and the waiting work keep whatever else they do (the relation Later): one lemma each, to be
cited in place of unfolding the operation. -/

namespace Sys2Proof.Laws

open Sys2Proof.Machine

/-! Machine/FlowOps.lean -/

theorem later_withCore {s t : State} (c : Nat) (f : FlowCore → FlowCore) (h : Later s t) : Later s (State.withCore t c f) := by
  unfold State.withCore
  (repeat' (first
    | with_reducible (first | assumption | apply later_withFlow)
    | intro _))

theorem later_withChannel {s t : State} (c : Nat) (f : Channel → Channel) (h : Later s t) : Later s (State.withChannel t c f) := by
  unfold State.withChannel
  (repeat' (first
    | with_reducible (first | assumption | apply later_withFlow)
    | intro _))

theorem later_passIdle {s t : State} (c : Nat) (h : Later s t) : Later s (State.passIdle t c) := by
  unfold State.passIdle
  (repeat' (first
    | with_reducible (first | assumption | apply later_dadd)
    | split))

theorem later_retire {s t : State} (t_ : Nat) (npc : Nat) (slots : Nat) (h : Later s t) : Later s (State.retire t t_ npc slots) := by
  unfold State.retire
  (repeat' (first
    | with_reducible (first | assumption | apply later_withThread | apply later_withPeat | apply later_dadd)
    | intro _
    | (extract_lets +onlyGivenNames u; (have hu : Later s u := ?_); (on_goal 1 => clear_value u); (on_goal 2 => (dsimp -zeta only [u]; clear u)))
    | (extract_lets +onlyGivenNames x; clear_value x)))

theorem later_threadStart {s t : State} (t_ : Nat) (entry : Nat) (cause : Nat) (h : Later s t) : Later s (State.threadStart t t_ entry cause) := by
  unfold State.threadStart
  (repeat' (first
    | with_reducible (first | assumption | apply later_withThread | apply later_peatRecord | apply later_withPeat)
    | intro _
    | (extract_lets +onlyGivenNames u; (have hu : Later s u := ?_); (on_goal 1 => clear_value u); (on_goal 2 => (dsimp -zeta only [u]; clear u)))
    | (extract_lets +onlyGivenNames x; clear_value x)))

theorem later_claimsRelease {s t : State} (t_ : Nat) (h : Later s t) : Later s (State.claimsRelease t t_) := by
  unfold State.claimsRelease
  (repeat' (first
    | with_reducible (first | assumption | apply later_withFlow)
    | intro _
    | (extract_lets +onlyGivenNames u; (have hu : Later s u := ?_); (on_goal 1 => clear_value u); (on_goal 2 => (dsimp -zeta only [u]; clear u)))
    | (extract_lets +onlyGivenNames x; clear_value x)
    | split))

theorem later_threadFault {s t : State} (t_ : Nat) (cause : Nat) (h : Later s t) : Later s (State.threadFault t t_ cause) := by
  unfold State.threadFault
  (repeat' (first
    | with_reducible (first | assumption | apply later_peatBreak | apply later_claimsRelease | apply later_withThread | apply later_event)
    | intro _
    | (extract_lets +onlyGivenNames u; (have hu : Later s u := ?_); (on_goal 1 => clear_value u); (on_goal 2 => (dsimp -zeta only [u]; clear u)))
    | (extract_lets +onlyGivenNames x; clear_value x)
    | split))

theorem later_peatFill {s t : State} (t_ : Nat) (a : Nat) (b : Bytes) (h : Later s t) : Later s (State.peatFill t t_ a b) := by
  unfold State.peatFill
  (repeat' (first
    | with_reducible (first | assumption | apply later_peatRecord | apply later_foldl)
    | intro _
    | (extract_lets +onlyGivenNames u; (have hu : Later s u := ?_); (on_goal 1 => clear_value u); (on_goal 2 => (dsimp -zeta only [u]; clear u)))
    | (extract_lets +onlyGivenNames x; clear_value x)))

theorem later_waitReturn {s t : State} (t_ : Nat) (rd : Nat) (p : Nat) (h : Later s t) : Later s (State.waitReturn t t_ rd p) := by
  unfold State.waitReturn
  (repeat' (first
    | with_reducible (first | assumption | apply later_withThread | apply later_peatRecord | apply later_retire)
    | intro _
    | (extract_lets +onlyGivenNames u; (have hu : Later s u := ?_); (on_goal 1 => clear_value u); (on_goal 2 => (dsimp -zeta only [u]; clear u)))
    | (extract_lets +onlyGivenNames x; clear_value x)))

theorem later_threadWake {s t : State} (t_ : Nat) (h : Later s t) : Later s (State.threadWake t t_) := by
  unfold State.threadWake
  (repeat' (first
    | with_reducible (first | assumption | apply later_waitReturn)
    | (extract_lets +onlyGivenNames u; (have hu : Later s u := ?_); (on_goal 1 => clear_value u); (on_goal 2 => (dsimp -zeta only [u]; clear u)))
    | (extract_lets +onlyGivenNames x; clear_value x)
    | split))

theorem later_flowSettle {s t : State} (h : Later s t) : Later s (State.flowSettle t) := by
  unfold State.flowSettle
  (repeat' (first
    | with_reducible (first | assumption | apply later_threadWake | apply later_foldl)
    | intro _))

theorem later_trClose {s t : State} (t_ : Nat) (op : TrOp) (rd : Nat) (v : Nat) (h : Later s t) : Later s (State.trClose t t_ op rd v) := by
  unfold State.trClose
  (repeat' (first
    | with_reducible (first | assumption | apply later_withThread | apply later_peatRecord | apply later_retire)
    | intro _
    | (extract_lets +onlyGivenNames u; (have hu : Later s u := ?_); (on_goal 1 => clear_value u); (on_goal 2 => (dsimp -zeta only [u]; clear u)))
    | (extract_lets +onlyGivenNames x; clear_value x)
    | split))

theorem later_trEnd {s t : State} (n : Nat) (op : TrOp) (rd : Nat) {r : TrRes} (h : Later s t) (k : TrLater s r) :
    Later s (State.trEnd t n op rd r) := by
  cases r with
  | ok v u => exact later_trClose _ _ _ _ k
  | fail st => exact later_trClose _ _ _ _ h
  | stay u => exact k

theorem later_trWait {s t : State} (t_ : Nat) (rd : Nat) (mask : Nat) (h : Later s t) : TrLater s (State.trWait t t_ rd mask) := by
  unfold State.trWait
  (repeat' (first
    | with_reducible (first | assumption | apply later_withThread | apply later_waitReturn)
    | intro _
    | (extract_lets +onlyGivenNames u; (have hu : Later s u := ?_); (on_goal 1 => clear_value u); (on_goal 2 => (dsimp -zeta only [u]; clear u)))
    | (extract_lets +onlyGivenNames x; clear_value x)
    | split
    | (simp only [TrLater])))

theorem later_trWait_ok {s t r : State} {t_ : Nat} {rd : Nat} {mask : Nat} {w} (h : Later s t) (e : State.trWait t t_ rd mask = .ok w r) : Later s r := by
  have k := later_trWait (s := s) (t := t) t_ rd mask h
  rw [e] at k; exact k

theorem later_trWait_stay {s t r : State} {t_ : Nat} {rd : Nat} {mask : Nat} (h : Later s t) (e : State.trWait t t_ rd mask = .stay r) : Later s r := by
  have k := later_trWait (s := s) (t := t) t_ rd mask h
  rw [e] at k; exact k

theorem later_trRxf {s t : State} (t_ : Nat) (a : Nat) (room : Nat) (h : Later s t) : TrLater s (State.trRxf t t_ a room) := by
  unfold State.trRxf
  (repeat' (first
    | with_reducible (first | assumption | apply later_withThread)
    | intro _
    | (extract_lets +onlyGivenNames u; (have hu : Later s u := ?_); (on_goal 1 => clear_value u); (on_goal 2 => (dsimp -zeta only [u]; clear u)))
    | (extract_lets +onlyGivenNames x; clear_value x)
    | split
    | (simp only [TrLater])))

theorem later_trRxf_ok {s t r : State} {t_ : Nat} {a : Nat} {room : Nat} {w} (h : Later s t) (e : State.trRxf t t_ a room = .ok w r) : Later s r := by
  have k := later_trRxf (s := s) (t := t) t_ a room h
  rw [e] at k; exact k

theorem later_trRxf_stay {s t r : State} {t_ : Nat} {a : Nat} {room : Nat} (h : Later s t) (e : State.trRxf t t_ a room = .stay r) : Later s r := by
  have k := later_trRxf (s := s) (t := t) t_ a room h
  rw [e] at k; exact k

theorem later_threadSend {s t : State} (t_ : Nat) (direct : Bool) (b : Bytes) (h : Later s t) : Later s (State.threadSend t t_ direct b) := by
  unfold State.threadSend
  (repeat' (first
    | with_reducible (first | assumption | apply later_vpReceive | apply later_vpCount | apply later_classify)
    | (extract_lets +onlyGivenNames u; (have hu : Later s u := ?_); (on_goal 1 => clear_value u); (on_goal 2 => (dsimp -zeta only [u]; clear u)))
    | (extract_lets +onlyGivenNames x; clear_value x)
    | split))

theorem later_trTxf {s t : State} (t_ : Nat) (rd : Nat) (a : Nat) (h : Later s t) : TrLater s (State.trTxf t t_ rd a) := by
  unfold State.trTxf
  (repeat' (first
    | with_reducible (first | assumption | apply later_withThread | apply later_threadSend)
    | intro _
    | (extract_lets +onlyGivenNames u; (have hu : Later s u := ?_); (on_goal 1 => clear_value u); (on_goal 2 => (dsimp -zeta only [u]; clear u)))
    | (extract_lets +onlyGivenNames x; clear_value x)
    | split
    | (simp only [TrLater])))

theorem later_trTxf_ok {s t r : State} {t_ : Nat} {rd : Nat} {a : Nat} {w} (h : Later s t) (e : State.trTxf t t_ rd a = .ok w r) : Later s r := by
  have k := later_trTxf (s := s) (t := t) t_ rd a h
  rw [e] at k; exact k

theorem later_trTxf_stay {s t r : State} {t_ : Nat} {rd : Nat} {a : Nat} (h : Later s t) (e : State.trTxf t t_ rd a = .stay r) : Later s r := by
  have k := later_trTxf (s := s) (t := t) t_ rd a h
  rw [e] at k; exact k

theorem later_trDma {s t : State} (t_ : Nat) (a : Nat) (h : Later s t) : TrLater s (State.trDma t t_ a) := by
  unfold State.trDma
  (repeat' (first
    | with_reducible (first | assumption | apply later_withThread)
    | intro _
    | (extract_lets +onlyGivenNames u; (have hu : Later s u := ?_); (on_goal 1 => clear_value u); (on_goal 2 => (dsimp -zeta only [u]; clear u)))
    | (extract_lets +onlyGivenNames x; clear_value x)
    | split
    | (simp only [TrLater])))

theorem later_trDma_ok {s t r : State} {t_ : Nat} {a : Nat} {w} (h : Later s t) (e : State.trDma t t_ a = .ok w r) : Later s r := by
  have k := later_trDma (s := s) (t := t) t_ a h
  rw [e] at k; exact k

theorem later_trDma_stay {s t r : State} {t_ : Nat} {a : Nat} (h : Later s t) (e : State.trDma t t_ a = .stay r) : Later s r := by
  have k := later_trDma (s := s) (t := t) t_ a h
  rw [e] at k; exact k

theorem later_trClaim {s t : State} (t_ : Nat) (c : Nat) (h : Later s t) : TrLater s (State.trClaim t t_ c) := by
  unfold State.trClaim
  (repeat' (first
    | with_reducible (first | assumption | apply later_withChannel)
    | intro _
    | split
    | (simp only [TrLater])))

theorem later_trClaim_ok {s t r : State} {t_ : Nat} {c : Nat} {w} (h : Later s t) (e : State.trClaim t t_ c = .ok w r) : Later s r := by
  have k := later_trClaim (s := s) (t := t) t_ c h
  rw [e] at k; exact k

theorem later_trClaim_stay {s t r : State} {t_ : Nat} {c : Nat} (h : Later s t) (e : State.trClaim t t_ c = .stay r) : Later s r := by
  have k := later_trClaim (s := s) (t := t) t_ c h
  rw [e] at k; exact k

theorem later_trPut {s t : State} (t_ : Nat) (c : Nat) (w : Nat) (h : Later s t) : TrLater s (State.trPut t t_ c w) := by
  unfold State.trPut
  (repeat' (first
    | with_reducible (first | assumption | apply later_withChannel)
    | intro _
    | split
    | (simp only [TrLater])))

theorem later_trPut_ok {s t r : State} {t_ : Nat} {c : Nat} {w : Nat} {w} (h : Later s t) (e : State.trPut t t_ c w = .ok w r) : Later s r := by
  have k := later_trPut (s := s) (t := t) t_ c w h
  rw [e] at k; exact k

theorem later_trPut_stay {s t r : State} {t_ : Nat} {c : Nat} {w : Nat} (h : Later s t) (e : State.trPut t t_ c w = .stay r) : Later s r := by
  have k := later_trPut (s := s) (t := t) t_ c w h
  rw [e] at k; exact k

theorem later_trCommit {s t : State} (t_ : Nat) (c : Nat) (h : Later s t) : TrLater s (State.trCommit t t_ c) := by
  unfold State.trCommit
  (repeat' (first
    | with_reducible (first | assumption | apply later_withChannel)
    | intro _
    | (extract_lets +onlyGivenNames u; (have hu : Later s u := ?_); (on_goal 1 => clear_value u); (on_goal 2 => (dsimp -zeta only [u]; clear u)))
    | (extract_lets +onlyGivenNames x; clear_value x)
    | split
    | (simp only [TrLater])))

theorem later_trCommit_ok {s t r : State} {t_ : Nat} {c : Nat} {w} (h : Later s t) (e : State.trCommit t t_ c = .ok w r) : Later s r := by
  have k := later_trCommit (s := s) (t := t) t_ c h
  rw [e] at k; exact k

theorem later_trCommit_stay {s t r : State} {t_ : Nat} {c : Nat} (h : Later s t) (e : State.trCommit t t_ c = .stay r) : Later s r := by
  have k := later_trCommit (s := s) (t := t) t_ c h
  rw [e] at k; exact k

theorem later_trDrop {s t : State} (t_ : Nat) (c : Nat) (h : Later s t) : TrLater s (State.trDrop t t_ c) := by
  unfold State.trDrop
  (repeat' (first
    | with_reducible (first | assumption | apply later_withChannel)
    | intro _
    | split
    | (simp only [TrLater])))

theorem later_trDrop_ok {s t r : State} {t_ : Nat} {c : Nat} {w} (h : Later s t) (e : State.trDrop t t_ c = .ok w r) : Later s r := by
  have k := later_trDrop (s := s) (t := t) t_ c h
  rw [e] at k; exact k

theorem later_trDrop_stay {s t r : State} {t_ : Nat} {c : Nat} (h : Later s t) (e : State.trDrop t t_ c = .stay r) : Later s r := by
  have k := later_trDrop (s := s) (t := t) t_ c h
  rw [e] at k; exact k

theorem later_trRecv {s t : State} (t_ : Nat) (a : Nat) (h : Later s t) : TrLater s (State.trRecv t t_ a) := by
  unfold State.trRecv
  (repeat' (first
    | with_reducible (first | assumption | apply later_withThread | apply later_withChannel | apply later_peatFill)
    | intro _
    | (extract_lets +onlyGivenNames u; (have hu : Later s u := ?_); (on_goal 1 => clear_value u); (on_goal 2 => (dsimp -zeta only [u]; clear u)))
    | (extract_lets +onlyGivenNames x; clear_value x)
    | split
    | (simp only [TrLater])))

theorem later_trRecv_ok {s t r : State} {t_ : Nat} {a : Nat} {w} (h : Later s t) (e : State.trRecv t t_ a = .ok w r) : Later s r := by
  have k := later_trRecv (s := s) (t := t) t_ a h
  rw [e] at k; exact k

theorem later_trRecv_stay {s t r : State} {t_ : Nat} {a : Nat} (h : Later s t) (e : State.trRecv t t_ a = .stay r) : Later s r := by
  have k := later_trRecv (s := s) (t := t) t_ a h
  rw [e] at k; exact k

theorem later_trBreak {s t : State} (t_ : Nat) (op : TrOp) (r_ : TrRes) (h : Later s t) : Later s (State.trBreak t t_ op r_) := by
  unfold State.trBreak
  (repeat' (first
    | with_reducible (first | assumption | apply later_peatBreak)
    | split))

theorem later_trRun {s t : State} (t_ : Nat) (op : TrOp) (rd : Nat) (a : Nat) (b : Nat) (h : Later s t) : TrLater s (State.trRun t t_ op rd a b) := by
  unfold State.trRun
  (repeat' (first
    | with_reducible (first | assumption | refine later_trWait_ok ?_ (by assumption) | refine later_trWait_stay ?_ (by assumption) | apply later_trWait | refine later_trRxf_ok ?_ (by assumption) | refine later_trRxf_stay ?_ (by assumption) | apply later_trRxf | refine later_trTxf_ok ?_ (by assumption) | refine later_trTxf_stay ?_ (by assumption) | apply later_trTxf | refine later_trDma_ok ?_ (by assumption) | refine later_trDma_stay ?_ (by assumption) | apply later_trDma | refine later_trClaim_ok ?_ (by assumption) | refine later_trClaim_stay ?_ (by assumption) | apply later_trClaim | refine later_trPut_ok ?_ (by assumption) | refine later_trPut_stay ?_ (by assumption) | apply later_trPut | refine later_trCommit_ok ?_ (by assumption) | refine later_trCommit_stay ?_ (by assumption) | apply later_trCommit | refine later_trRecv_ok ?_ (by assumption) | refine later_trRecv_stay ?_ (by assumption) | apply later_trRecv | refine later_trDrop_ok ?_ (by assumption) | refine later_trDrop_stay ?_ (by assumption) | apply later_trDrop)
    | split
    | (simp only [TrLater])))

theorem later_trRun_ok {s t r : State} {t_ : Nat} {op : TrOp} {rd : Nat} {a : Nat} {b : Nat} {w} (h : Later s t) (e : State.trRun t t_ op rd a b = .ok w r) : Later s r := by
  have k := later_trRun (s := s) (t := t) t_ op rd a b h
  rw [e] at k; exact k

theorem later_trRun_stay {s t r : State} {t_ : Nat} {op : TrOp} {rd : Nat} {a : Nat} {b : Nat} (h : Later s t) (e : State.trRun t t_ op rd a b = .stay r) : Later s r := by
  have k := later_trRun (s := s) (t := t) t_ op rd a b h
  rw [e] at k; exact k

theorem later_trExec {s t : State} (t_ : Nat) (op : TrOp) (rd : Nat) (rs1 : Nat) (rs2 : Nat) (h : Later s t) : Later s (State.trExec t t_ op rd rs1 rs2) := by
  unfold State.trExec
  (repeat' (first
    | with_reducible (first | assumption | refine later_trRun_ok ?_ (by assumption) | refine later_trRun_stay ?_ (by assumption) | apply later_trRun | apply later_trBreak | apply later_trEnd)
    | exact True.intro
    | (extract_lets +onlyGivenNames u; (have hu : TrLater s u := ?_); (on_goal 1 => clear_value u); (on_goal 2 => (dsimp -zeta only [u]; clear u)))
    | simp only [TrLater]
    | (extract_lets +onlyGivenNames u; (have hu : Later s u := ?_); (on_goal 1 => clear_value u); (on_goal 2 => (dsimp -zeta only [u]; clear u)))
    | (extract_lets +onlyGivenNames x; clear_value x)))

theorem later_txfDone {s t : State} (t_ : Nat) (h : Later s t) : Later s (State.txfDone t t_) := by
  unfold State.txfDone
  (repeat' (first
    | with_reducible (first | assumption | apply later_threadSend | apply later_withThread | apply later_trEnd)
    | exact True.intro
    | (extract_lets +onlyGivenNames u; (have hu : TrLater s u := ?_); (on_goal 1 => clear_value u); (on_goal 2 => (dsimp -zeta only [u]; clear u)))
    | simp only [TrLater]
    | intro _
    | (extract_lets +onlyGivenNames u; (have hu : Later s u := ?_); (on_goal 1 => clear_value u); (on_goal 2 => (dsimp -zeta only [u]; clear u)))
    | (extract_lets +onlyGivenNames x; clear_value x)
    | split))

theorem later_timerWrite {s t : State} (t_ : Nat) (n : Nat) (h : Later s t) : Later s (State.timerWrite t t_ n) := by
  unfold State.timerWrite
  (repeat' (first
    | with_reducible (first | assumption | apply later_withThread)
    | intro _
    | split))

theorem later_csrRecord {s t : State} (t_ : Nat) (num : Nat) (v : Nat) (h : Later s t) : Later s (State.csrRecord t t_ num v) := by
  unfold State.csrRecord
  (repeat' (first
    | with_reducible (first | assumption | apply later_peatRecord)))

theorem later_csrRead {s t : State} (t_ : Nat) (num : Nat) (h : Later s t) : Later s (State.csrRead t t_ num).2 := by
  unfold State.csrRead
  (repeat' (first
    | with_reducible (first | assumption | apply later_csrRecord | apply later_withThread | apply later_egClaimOp | refine later_egClaimOp_eq ?_ (by assumption))
    | intro _
    | (extract_lets +onlyGivenNames u; (have hu : Later s u := ?_); (on_goal 1 => clear_value u); (on_goal 2 => (dsimp -zeta only [u]; clear u)))
    | (extract_lets +onlyGivenNames x; clear_value x)
    | split))

theorem later_csrRead_eq {s t r : State} {x} {t_ : Nat} {num : Nat} (h : Later s t) (e : State.csrRead t t_ num = (x, r)) : Later s r := by
  have k := later_csrRead (s := s) (t := t) t_ num  h
  rw [e] at k; exact k

theorem later_csrWrite {s t : State} (t_ : Nat) (num : Nat) (v : Nat) (h : Later s t) : Later s (State.csrWrite t t_ num v) := by
  unfold State.csrWrite
  (repeat' (first
    | with_reducible (first | assumption | apply later_withThread | apply later_timerWrite | apply later_egEoiOp)
    | intro _
    | split))

theorem later_csrExec {s t : State} (t_ : Nat) (f3 : Nat) (num : Nat) (rd : Nat) (rs1 : Nat) (npc : Nat) (h : Later s t) : Later s (State.csrExec t t_ f3 num rd rs1 npc) := by
  unfold State.csrExec
  (repeat' (first
    | with_reducible (first | assumption | apply later_threadFault | apply later_csrRead | refine later_csrRead_eq ?_ (by assumption) | apply later_csrWrite | apply later_withThread | apply later_retire)
    | intro _
    | (extract_lets +onlyGivenNames u; (have hu : Later s u := ?_); (on_goal 1 => clear_value u); (on_goal 2 => (dsimp -zeta only [u]; clear u)))
    | (extract_lets +onlyGivenNames x; clear_value x)
    | split))

theorem later_putReg {s t : State} (t_ : Nat) (rd : Nat) (v : Nat) (h : Later s t) : Later s (State.putReg t t_ rd v) := by
  unfold State.putReg
  (repeat' (first
    | with_reducible (first | assumption | apply later_withThread)
    | intro _))

theorem later_rvExec {s t : State} (t_ : Nat) (op : RvOp) (len : Nat) (h : Later s t) : Later s (State.rvExec t t_ op len) := by
  unfold State.rvExec
  (repeat' (first
    | with_reducible (first | assumption | apply later_threadFault | apply later_retire | apply later_withThread | apply later_putReg | apply later_stall | apply later_peatRecord | apply later_csrExec | apply later_trExec)
    | intro _
    | (extract_lets +onlyGivenNames u; (have hu : Later s u := ?_); (on_goal 1 => clear_value u); (on_goal 2 => (dsimp -zeta only [u]; clear u)))
    | (extract_lets +onlyGivenNames x; clear_value x)
    | split))

theorem later_threadStep {s t : State} (t_ : Nat) (h : Later s t) : Later s (State.threadStep t t_) := by
  unfold State.threadStep
  (repeat' (first
    | with_reducible (first | assumption | apply later_threadFault | apply later_rvExec)
    | split))

theorem later_copyDone {s t : State} (t_ : Nat) (h : Later s t) : Later s (State.copyDone t t_) := by
  unfold State.copyDone
  (repeat' (first
    | with_reducible (first | assumption | apply later_withThread | apply later_peatFill)
    | intro _
    | (extract_lets +onlyGivenNames u; (have hu : Later s u := ?_); (on_goal 1 => clear_value u); (on_goal 2 => (dsimp -zeta only [u]; clear u)))
    | (extract_lets +onlyGivenNames x; clear_value x)
    | split))

theorem later_dmaEnd {s t : State} (t_ : Nat) (tag : Nat) (h : Later s t) : Later s (State.dmaEnd t t_ tag) := by
  unfold State.dmaEnd
  (repeat' (first
    | with_reducible (first | assumption | apply later_withDram | apply later_withThread | apply later_peatFill)
    | exact fun _ => wf_writeN _ _
    | exact fun _ => wf_clear _ _
    | exact fun _ k => wf_writeN _ _ (wf_writeN _ _ k)
    | intro _
    | (extract_lets +onlyGivenNames u; (have hu : Later s u := ?_); (on_goal 1 => clear_value u); (on_goal 2 => (dsimp -zeta only [u]; clear u)))
    | (extract_lets +onlyGivenNames x; clear_value x)
    | split))

theorem later_groupStart {s t : State} (g : Nat) (cause : Nat) (h : Later s t) : Later s (State.groupStart t g cause) := by
  unfold State.groupStart
  (repeat' (first
    | with_reducible (first | assumption | apply later_threadStart | apply later_withThread | apply later_withGroup | apply later_event | apply later_foldl)
    | intro _
    | (extract_lets +onlyGivenNames u; (have hu : Later s u := ?_); (on_goal 1 => clear_value u); (on_goal 2 => (dsimp -zeta only [u]; clear u)))
    | (extract_lets +onlyGivenNames x; clear_value x)))

theorem later_groupStop {s t : State} (g : Nat) (after : AfterStop) (h : Later s t) : Later s (State.groupStop t g after) := by
  unfold State.groupStop
  (repeat' (first
    | with_reducible (first | assumption | apply later_claimsRelease | apply later_withThread | apply later_withChannel | apply later_withGroup | apply later_foldl)
    | intro _
    | (extract_lets +onlyGivenNames u; (have hu : Later s u := ?_); (on_goal 1 => clear_value u); (on_goal 2 => (dsimp -zeta only [u]; clear u)))
    | (extract_lets +onlyGivenNames x; clear_value x)
    | split))

theorem later_groupStopped {s t : State} (g : Nat) (h : Later s t) : Later s (State.groupStopped t g) := by
  unfold State.groupStopped
  (repeat' (first
    | with_reducible (first | assumption | apply later_withGroup | apply later_event | apply later_groupStart)
    | intro _
    | (extract_lets +onlyGivenNames u; (have hu : Later s u := ?_); (on_goal 1 => clear_value u); (on_goal 2 => (dsimp -zeta only [u]; clear u)))
    | (extract_lets +onlyGivenNames x; clear_value x)
    | split))

theorem later_groupCommand {s t : State} (g : Nat) (cmd : Nat) (h : Later s t) : Later s (State.groupCommand t g cmd).2 := by
  unfold State.groupCommand
  (repeat' (first
    | with_reducible (first | assumption | apply later_groupStart | apply later_groupStop | apply later_withGroup)
    | intro _
    | (extract_lets +onlyGivenNames u; (have hu : Later s u := ?_); (on_goal 1 => clear_value u); (on_goal 2 => (dsimp -zeta only [u]; clear u)))
    | (extract_lets +onlyGivenNames x; clear_value x)
    | split))

theorem later_groupCommand_eq {s t r : State} {x} {g : Nat} {cmd : Nat} (h : Later s t) (e : State.groupCommand t g cmd = (x, r)) : Later s r := by
  have k := later_groupCommand (s := s) (t := t) g cmd  h
  rw [e] at k; exact k

theorem later_groupRestartOwn {s t : State} (n : Nat) (g : Nat) (h : Later s t) : Later s (State.groupRestartOwn t n g).2 := by
  unfold State.groupRestartOwn
  (repeat' (first
    | with_reducible (first | assumption | apply later_groupStop)
    | (extract_lets +onlyGivenNames u; (have hu : Later s u := ?_); (on_goal 1 => clear_value u); (on_goal 2 => (dsimp -zeta only [u]; clear u)))
    | (extract_lets +onlyGivenNames x; clear_value x)
    | split))

theorem later_groupRestartOwn_eq {s t r : State} {x} {n : Nat} {g : Nat} (h : Later s t) (e : State.groupRestartOwn t n g = (x, r)) : Later s r := by
  have k := later_groupRestartOwn (s := s) (t := t) n g  h
  rw [e] at k; exact k

theorem later_quiesceGroups {s t : State} (n : Nat) (h : Later s t) : Later s (State.quiesceGroups t n) := by
  unfold State.quiesceGroups
  (repeat' (first
    | with_reducible (first | assumption | apply later_groupStop | apply later_withGroup | apply later_foldl)
    | intro _
    | split))

theorem later_resumeGroups {s t : State} (n : Nat) (h : Later s t) : Later s (State.resumeGroups t n) := by
  unfold State.resumeGroups
  (repeat' (first
    | with_reducible (first | assumption | apply later_groupStart | apply later_withGroup | apply later_foldl)
    | intro _
    | split))

theorem later_stall {s t : State} (g : Nat) (h : Later s t) : Later s (State.stall t g) := by
  unfold State.stall
  (repeat' (first
    | with_reducible (first | assumption | apply later_withGroup | apply later_dinc | apply later_eventLog | apply later_logSrc | apply later_groupStop | apply later_foldl)
    | intro _
    | (extract_lets +onlyGivenNames u; (have hu : Later s u := ?_); (on_goal 1 => clear_value u); (on_goal 2 => (dsimp -zeta only [u]; clear u)))
    | (extract_lets +onlyGivenNames x; clear_value x)
    | split))

theorem later_queueMove {s t : State} (g : Nat) (t_ : Nat) (h : Later s t) : Later s (State.queueMove t g t_) := by
  unfold State.queueMove
  (repeat' (first
    | with_reducible (first | assumption | apply later_withThread | apply later_foldl)
    | intro _
    | (extract_lets +onlyGivenNames u; (have hu : Later s u := ?_); (on_goal 1 => clear_value u); (on_goal 2 => (dsimp -zeta only [u]; clear u)))
    | (extract_lets +onlyGivenNames x; clear_value x)
    | split))

theorem later_deliveryClear {s t : State} (c : Nat) (h : Later s t) : Later s (State.deliveryClear t c) := by
  unfold State.deliveryClear
  (repeat' (first
    | with_reducible (first | assumption | apply later_withGatherer)
    | intro _))

theorem later_deliveryFault {s t : State} (t_ : Nat) (h : Later s t) : Later s (State.deliveryFault t t_) := by
  unfold State.deliveryFault
  (repeat' (first
    | with_reducible (first | assumption | apply later_deliveryClear)
    | split))

theorem later_takeover {s t : State} (g : Nat) (t_ : Nat) (spare : Nat) (h : Later s t) : Later s (State.takeover t g t_ spare) := by
  unfold State.takeover
  (repeat' (first
    | with_reducible (first | assumption | apply later_withGroup | apply later_queueMove | apply later_threadStart | apply later_dinc | apply later_event)
    | intro _
    | (extract_lets +onlyGivenNames u; (have hu : Later s u := ?_); (on_goal 1 => clear_value u); (on_goal 2 => (dsimp -zeta only [u]; clear u)))
    | (extract_lets +onlyGivenNames x; clear_value x)
    | split))

theorem later_steeringSpread {s t : State} (g : Nat) (t_ : Nat) (h : Later s t) : Later s (State.steeringSpread t g t_) := by
  unfold State.steeringSpread
  (repeat' (first
    | with_reducible (first | assumption | apply later_withGroup | apply later_queueMove)
    | intro _
    | (extract_lets +onlyGivenNames u; (have hu : Later s u := ?_); (on_goal 1 => clear_value u); (on_goal 2 => (dsimp -zeta only [u]; clear u)))
    | (extract_lets +onlyGivenNames x; clear_value x)))

theorem later_faultHandle {s t : State} (t_ : Nat) (h : Later s t) : Later s (State.faultHandle t t_) := by
  unfold State.faultHandle
  (repeat' (first
    | with_reducible (first | assumption | apply later_logSrc | apply later_threadFault | apply later_withThread | apply later_dinc | apply later_withGroup | apply later_takeover | apply later_deliveryFault | apply later_threadStart | apply later_steeringSpread)
    | intro _
    | (extract_lets +onlyGivenNames u; (have hu : Later s u := ?_); (on_goal 1 => clear_value u); (on_goal 2 => (dsimp -zeta only [u]; clear u)))
    | (extract_lets +onlyGivenNames x; clear_value x)
    | split))

theorem later_coreRelease {s t : State} (c : Nat) (cause : Nat) (h : Later s t) : Later s (State.coreRelease t c cause) := by
  unfold State.coreRelease
  (repeat' (first
    | with_reducible (first | assumption | apply later_withCore | apply later_withThread | apply later_threadStart | apply later_foldl)
    | intro _
    | (extract_lets +onlyGivenNames u; (have hu : Later s u := ?_); (on_goal 1 => clear_value u); (on_goal 2 => (dsimp -zeta only [u]; clear u)))
    | (extract_lets +onlyGivenNames x; clear_value x)))

theorem later_coreStop {s t : State} (c : Nat) (run : ThreadRun) (h : Later s t) : Later s (State.coreStop t c run) := by
  unfold State.coreStop
  (repeat' (first
    | with_reducible (first | assumption | apply later_claimsRelease | apply later_withThread | apply later_foldl)
    | intro _))

theorem later_queuesDrop {s t : State} (g : Nat) (h : Later s t) : Later s (State.queuesDrop t g) := by
  unfold State.queuesDrop
  (repeat' (first
    | with_reducible (first | assumption | apply later_withThread | apply later_foldl)
    | intro _
    | (extract_lets +onlyGivenNames u; (have hu : Later s u := ?_); (on_goal 1 => clear_value u); (on_goal 2 => (dsimp -zeta only [u]; clear u)))
    | (extract_lets +onlyGivenNames x; clear_value x)))

theorem later_coreFault {s t : State} (c : Nat) (h : Later s t) : Later s (State.coreFault t c) := by
  unfold State.coreFault
  (repeat' (first
    | with_reducible (first | assumption | apply later_coreStop | apply later_withCore | apply later_event | apply later_withGroup | apply later_queuesDrop | apply later_dinc | apply later_foldl)
    | intro _
    | (extract_lets +onlyGivenNames u; (have hu : Later s u := ?_); (on_goal 1 => clear_value u); (on_goal 2 => (dsimp -zeta only [u]; clear u)))
    | (extract_lets +onlyGivenNames x; clear_value x)
    | split))

theorem later_coreLoad {s t : State} (c : Nat) (cause : Nat) (h : Later s t) : Later s (State.coreLoad t c cause) := by
  unfold State.coreLoad
  (repeat' (first
    | with_reducible (first | assumption | apply later_withCore | apply later_withThread | apply later_coreRelease | apply later_foldl)
    | intro _
    | (extract_lets +onlyGivenNames u; (have hu : Later s u := ?_); (on_goal 1 => clear_value u); (on_goal 2 => (dsimp -zeta only [u]; clear u)))
    | (extract_lets +onlyGivenNames x; clear_value x)))

theorem later_coreFailed {s t : State} (c : Nat) (h : Later s t) : Later s (State.coreFailed t c) := by
  unfold State.coreFailed
  (repeat' (first
    | with_reducible (first | assumption | apply later_coreStop | apply later_withCore | apply later_logCls | apply later_queuesDrop | apply later_withGroup | apply later_foldl)
    | intro _
    | (extract_lets +onlyGivenNames u; (have hu : Later s u := ?_); (on_goal 1 => clear_value u); (on_goal 2 => (dsimp -zeta only [u]; clear u)))
    | (extract_lets +onlyGivenNames x; clear_value x)
    | split))

theorem later_coreReloaded {s t : State} (c : Nat) (ok : Bool) (h : Later s t) : Later s (State.coreReloaded t c ok) := by
  unfold State.coreReloaded
  (repeat' (first
    | with_reducible (first | assumption | apply later_dinc | apply later_coreLoad | apply later_deliveryClear | apply later_groupStart | apply later_coreFailed | apply later_foldl)
    | intro _
    | (extract_lets +onlyGivenNames u; (have hu : Later s u := ?_); (on_goal 1 => clear_value u); (on_goal 2 => (dsimp -zeta only [u]; clear u)))
    | (extract_lets +onlyGivenNames x; clear_value x)
    | split))

theorem later_debugHalt {s t : State} (t_ : Nat) (h : Later s t) : Later s (State.debugHalt t t_) := by
  unfold State.debugHalt
  (repeat' (first
    | with_reducible (first | assumption | apply later_withThread)
    | intro _
    | split))

theorem later_debugResume {s t : State} (t_ : Nat) (h : Later s t) : Later s (State.debugResume t t_) := by
  unfold State.debugResume
  (repeat' (first
    | with_reducible (first | assumption | apply later_withThread)
    | intro _
    | split))

theorem later_forceRelease {s t : State} (t_ : Nat) (h : Later s t) : Later s (State.forceRelease t t_) := by
  unfold State.forceRelease
  (repeat' (first
    | with_reducible (first | assumption | apply later_claimsRelease | apply later_dinc | apply later_event | apply later_peatBreak)
    | split))

theorem later_deliveryHolder {s t : State} (c : Nat) (h : Later s t) : Later s (State.deliveryHolder t c) := by
  unfold State.deliveryHolder
  (repeat' (first
    | with_reducible (first | assumption | apply later_withGatherer | apply later_foldl)
    | intro _
    | (extract_lets +onlyGivenNames u; (have hu : Later s u := ?_); (on_goal 1 => clear_value u); (on_goal 2 => (dsimp -zeta only [u]; clear u)))
    | (extract_lets +onlyGivenNames x; clear_value x)))

theorem later_threadsMoved {s t : State} (l : List Nat) (h : Later s t) : Later s (State.threadsMoved t l) := by
  unfold State.threadsMoved
  (repeat' (first
    | with_reducible (first | assumption | apply later_withThread | apply later_deliveryHolder | apply later_foldl)
    | intro _
    | (extract_lets +onlyGivenNames u; (have hu : Later s u := ?_); (on_goal 1 => clear_value u); (on_goal 2 => (dsimp -zeta only [u]; clear u)))
    | (extract_lets +onlyGivenNames x; clear_value x)
    | split))

/-! Machine/LogOps.lean -/

theorem later_logCleared {s t : State} (n : Nat) (h : Later s t) : Later s (State.logCleared t n) := by
  unfold State.logCleared
  (repeat' (first
    | with_reducible (first | assumption | apply later_ashTake)))

theorem later_logClear {s t : State} (h : Later s t) : Later s (State.logClear t) := by
  unfold State.logClear
  (repeat' (first
    | with_reducible (first | assumption | apply later_ashOverrun | apply later_withAsh | apply later_logCleared | apply later_foldl)
    | intro _
    | (extract_lets +onlyGivenNames u; (have hu : Later s u := ?_); (on_goal 1 => clear_value u); (on_goal 2 => (dsimp -zeta only [u]; clear u)))
    | (extract_lets +onlyGivenNames x; clear_value x)))

theorem later_fokClear {s t : State} (h : Later s t) : Later s (State.fokClear t) := by
  unfold State.fokClear
  (repeat' (first
    | with_reducible (first | assumption | apply later_withAsh | apply later_logCleared)
    | intro _
    | (extract_lets +onlyGivenNames u; (have hu : Later s u := ?_); (on_goal 1 => clear_value u); (on_goal 2 => (dsimp -zeta only [u]; clear u)))
    | (extract_lets +onlyGivenNames x; clear_value x)))

theorem later_tokenGain {s t : State} (c : Nat) (h : Later s t) : Later s (State.tokenGain t c) := by
  unfold State.tokenGain
  (repeat' (first
    | with_reducible (first | assumption | apply later_withAsh)
    | intro _))

theorem later_summary {s t : State} (c : Nat) (h : Later s t) : Later s (State.summary t c) := by
  unfold State.summary
  (repeat' (first
    | with_reducible (first | assumption | apply later_withAsh | apply later_ashTake)
    | intro _
    | (extract_lets +onlyGivenNames u; (have hu : Later s u := ?_); (on_goal 1 => clear_value u); (on_goal 2 => (dsimp -zeta only [u]; clear u)))
    | (extract_lets +onlyGivenNames x; clear_value x)
    | split))

theorem later_summaries {s t : State} (h : Later s t) : Later s (State.summaries t) := by
  unfold State.summaries
  (repeat' (first
    | with_reducible (first | assumption | apply later_summary | apply later_foldl)
    | intro _))

theorem later_backlogTake {s t : State} (p : Nat) (n : Nat) (h : Later s t) : Later s (State.backlogTake t p n).2 := by
  unfold State.backlogTake
  (repeat' (first
    | with_reducible (first | assumption | apply later_withAsh | apply later_dadd)
    | intro _
    | (extract_lets +onlyGivenNames u; (have hu : Later s u := ?_); (on_goal 1 => clear_value u); (on_goal 2 => (dsimp -zeta only [u]; clear u)))
    | (extract_lets +onlyGivenNames x; clear_value x)))

theorem later_backlogTake_eq {s t r : State} {x} {p : Nat} {n : Nat} (h : Later s t) (e : State.backlogTake t p n = (x, r)) : Later s r := by
  have k := later_backlogTake (s := s) (t := t) p n  h
  rw [e] at k; exact k

theorem later_exportPull {s t : State} (h : Later s t) : Later s (State.exportPull t).2 := by
  unfold State.exportPull
  (repeat' (first
    | with_reducible (first | assumption | apply later_backlogTake | refine later_backlogTake_eq ?_ (by assumption))
    | (extract_lets +onlyGivenNames u; (have hu : Later s u := ?_); (on_goal 1 => clear_value u); (on_goal 2 => (dsimp -zeta only [u]; clear u)))
    | (extract_lets +onlyGivenNames x; clear_value x)
    | split))

theorem later_exportPull_eq {s t r : State} {x} (h : Later s t) (e : State.exportPull t = (x, r)) : Later s r := by
  have k := later_exportPull (s := s) (t := t)   h
  rw [e] at k; exact k

theorem later_udpPush {s t : State} (h : Later s t) : Later s (State.udpPush t) := by
  unfold State.udpPush
  (repeat' (first
    | with_reducible (first | assumption | apply later_backlogTake | refine later_backlogTake_eq ?_ (by assumption) | apply later_emit | apply later_withAsh)
    | intro _
    | (extract_lets +onlyGivenNames u; (have hu : Later s u := ?_); (on_goal 1 => clear_value u); (on_goal 2 => (dsimp -zeta only [u]; clear u)))
    | (extract_lets +onlyGivenNames x; clear_value x)
    | split))

theorem later_canExport {s t : State} (h : Later s t) : Later s (State.canExport t) := by
  unfold State.canExport
  (repeat' (first
    | with_reducible (first | assumption | apply later_backlogTake | refine later_backlogTake_eq ?_ (by assumption) | apply later_emit)
    | (extract_lets +onlyGivenNames u; (have hu : Later s u := ?_); (on_goal 1 => clear_value u); (on_goal 2 => (dsimp -zeta only [u]; clear u)))
    | (extract_lets +onlyGivenNames x; clear_value x)
    | split))

theorem later_alarmAck {s t : State} (k : Nat) (h : Later s t) : Later s (State.alarmAck t k) := by
  unfold State.alarmAck
  (repeat' (first
    | with_reducible (first | assumption | apply later_dset)
    | split))

theorem later_ackAll {s t : State} (h : Later s t) : Later s (State.ackAll t) := by
  unfold State.ackAll
  (repeat' (first
    | with_reducible (first | assumption | apply later_alarmAck | apply later_foldl)
    | intro _))

theorem later_inhibitOver {s t : State} (k : Nat) (h : Later s t) : Later s (State.inhibitOver t k) := by
  unfold State.inhibitOver
  (repeat' (first
    | with_reducible (first | assumption | apply later_withAsh | apply later_sendAlarm)
    | intro _
    | (extract_lets +onlyGivenNames u; (have hu : Later s u := ?_); (on_goal 1 => clear_value u); (on_goal 2 => (dsimp -zeta only [u]; clear u)))
    | (extract_lets +onlyGivenNames x; clear_value x)
    | split))

theorem later_checkpointRecord {s t : State} (hart : Nat) (number : Nat) (st : Bytes) (memory : Bytes) (h : Later s t) : Later s (State.checkpointRecord t hart number st memory) := by
  unfold State.checkpointRecord
  (repeat' (first
    | with_reducible (first | assumption | apply later_peatRecord)
    | (extract_lets +onlyGivenNames u; (have hu : Later s u := ?_); (on_goal 1 => clear_value u); (on_goal 2 => (dsimp -zeta only [u]; clear u)))
    | (extract_lets +onlyGivenNames x; clear_value x)))

theorem later_peatCheckpoint {s t : State} (hearthMemory : Bytes) (h : Later s t) : Later s (State.peatCheckpoint t hearthMemory) := by
  unfold State.peatCheckpoint
  (repeat' (first
    | with_reducible (first | assumption | apply later_drawBytes | refine later_drawBytes_eq ?_ (by assumption) | apply later_checkpointRecord | apply later_withPeat | apply later_foldl)
    | intro _
    | (extract_lets +onlyGivenNames u; (have hu : Later s u := ?_); (on_goal 1 => clear_value u); (on_goal 2 => (dsimp -zeta only [u]; clear u)))
    | (extract_lets +onlyGivenNames x; clear_value x)
    | split))

theorem later_peatMode {s t : State} (m : Nat) (h : Later s t) : Later s (State.peatMode t m) := by
  unfold State.peatMode
  (repeat' (first
    | with_reducible (first | assumption | apply later_dset | apply later_withPeat | apply later_drawBytes | refine later_drawBytes_eq ?_ (by assumption) | apply later_peatCheckpoint)
    | intro _
    | (extract_lets +onlyGivenNames u; (have hu : Later s u := ?_); (on_goal 1 => clear_value u); (on_goal 2 => (dsimp -zeta only [u]; clear u)))
    | (extract_lets +onlyGivenNames x; clear_value x)
    | split))

theorem later_peatFreezeNow {s t : State} (h : Later s t) : Later s (State.peatFreezeNow t) := by
  unfold State.peatFreezeNow
  (repeat' (first
    | with_reducible (first | assumption | apply later_withPeat | apply later_peatFreeze | apply later_dset)
    | intro _
    | split))

theorem later_peatWindowWrite {s t : State} (b : Bytes) (h : Later s t) : Later s (State.peatWindowWrite t b).2 := by
  unfold State.peatWindowWrite
  (repeat' (first
    | with_reducible (first | assumption | apply later_withDram | apply later_dset)
    | exact fun _ => wf_writeN _ _
    | exact fun _ => wf_clear _ _
    | exact fun _ k => wf_writeN _ _ (wf_writeN _ _ k)
    | intro _
    | (extract_lets +onlyGivenNames u; (have hu : Later s u := ?_); (on_goal 1 => clear_value u); (on_goal 2 => (dsimp -zeta only [u]; clear u)))
    | (extract_lets +onlyGivenNames x; clear_value x)
    | split))

theorem later_peatWindowWrite_eq {s t r : State} {x} {b : Bytes} (h : Later s t) (e : State.peatWindowWrite t b = (x, r)) : Later s r := by
  have k := later_peatWindowWrite (s := s) (t := t) b  h
  rw [e] at k; exact k

/-! Machine/ReplayOps.lean -/

theorem later_recordTaken {s t : State} (t_ : Nat) (r_ : PeatRec) (h : Later s t) : Later s (State.recordTaken t t_ r_) := by
  unfold State.recordTaken
  (repeat' (first
    | with_reducible (first | assumption | apply later_withPeat)
    | intro _))

theorem later_replayHalt {s t : State} (h : Later s t) : Later s (State.replayHalt t) := by
  unfold State.replayHalt
  (repeat' (first
    | with_reducible (first | assumption | apply later_withPeat)
    | intro _))

theorem later_replayDiverge {s t : State} (t_ : Nat) (h : Later s t) : Later s (State.replayDiverge t t_) := by
  unfold State.replayDiverge
  (repeat' (first
    | with_reducible (first | assumption | apply later_withPeat | apply later_replayHalt)
    | intro _))

theorem later_replayLoad {s t : State} (t_ : Nat) (r_ : PeatRec) (h : Later s t) : Later s (State.replayLoad t t_ r_) := by
  unfold State.replayLoad
  (repeat' (first
    | with_reducible (first | assumption | apply later_withThread | apply later_withPeat | apply later_recordTaken | apply later_foldl)
    | intro _
    | (extract_lets +onlyGivenNames u; (have hu : Later s u := ?_); (on_goal 1 => clear_value u); (on_goal 2 => (dsimp -zeta only [u]; clear u)))
    | (extract_lets +onlyGivenNames x; clear_value x)))

theorem later_replayBegin {s t : State} (h : Later s t) : Later s (State.replayBegin t) := by
  unfold State.replayBegin
  (repeat' (first
    | with_reducible (first | assumption | apply later_replayLoad | apply later_withThread | apply later_foldl)
    | intro _
    | split))

theorem later_replayFeed {s t : State} (n f : Nat) (h : Later s t) : Later s (State.replayFeed t n f) := by
  induction f generalizing t with
  | zero => exact h
  | succ f ih =>
    unfold State.replayFeed
    repeat' (first
      | with_reducible assumption
      | with_reducible apply later_replayHalt
      | with_reducible apply later_replayDiverge
      | with_reducible apply ih
      | with_reducible apply later_recordTaken
      | with_reducible apply later_withThread
      | with_reducible apply later_threadStart
      | split
      | dsimp only)

theorem later_takeRecord {s t r : State} {x} {t_ type : Nat} {first : Bytes} {off len : Nat} (h : Later s t)
    (e : State.takeRecord t t_ type first off len = some (x, r)) : Later s r := by
  unfold State.takeRecord at e
  generalize t.nextRecord t_ = o at e
  cases o with
  | none => cases e
  | some q =>
    dsimp only at e
    split at e
    · injection e with e
      injection e with e1 e2
      exact e2 ▸ later_recordTaken _ _ h
    · cases e

theorem later_replayTr {s t : State} (t_ : Nat) (op : TrOp) (rd : Nat) (rs1 : Nat) (rs2 : Nat) (h : Later s t) : Later s (State.replayTr t t_ op rd rs1 rs2) := by
  unfold State.replayTr
  (repeat' (first
    | with_reducible (first | assumption | refine later_takeRecord ?_ (by assumption) | apply later_replayDiverge | apply later_withChannel | apply later_withThread | apply later_retire | apply later_trEnd | refine later_trPut_ok ?_ (by assumption) | refine later_trPut_stay ?_ (by assumption) | apply later_trPut | refine later_trDrop_ok ?_ (by assumption) | refine later_trDrop_stay ?_ (by assumption) | apply later_trDrop | refine later_trDma_ok ?_ (by assumption) | refine later_trDma_stay ?_ (by assumption) | apply later_trDma | apply later_drawBits | refine later_drawBits_eq ?_ (by assumption) | refine later_trTxf_ok ?_ (by assumption) | refine later_trTxf_stay ?_ (by assumption) | apply later_trTxf)
    | exact True.intro
    | (extract_lets +onlyGivenNames u; (have hu : TrLater s u := ?_); (on_goal 1 => clear_value u); (on_goal 2 => (dsimp -zeta only [u]; clear u)))
    | simp only [TrLater]
    | intro _
    | (extract_lets +onlyGivenNames u; (have hu : Later s u := ?_); (on_goal 1 => clear_value u); (on_goal 2 => (dsimp -zeta only [u]; clear u)))
    | (extract_lets +onlyGivenNames x; clear_value x)
    | split))

theorem later_replayCsr {s t : State} (t_ : Nat) (f3 : Nat) (num : Nat) (rd : Nat) (rs1 : Nat) (npc : Nat) (h : Later s t) : Later s (State.replayCsr t t_ f3 num rd rs1 npc) := by
  unfold State.replayCsr
  (repeat' (first
    | with_reducible (first | assumption | apply later_csrExec | refine later_takeRecord ?_ (by assumption) | apply later_replayDiverge | apply later_withThread | apply later_retire)
    | intro _
    | split))

theorem later_replayStep {s t : State} (t_ : Nat) (h : Later s t) : Later s (State.replayStep t t_) := by
  unfold State.replayStep
  (repeat' (first
    | with_reducible (first | assumption | apply later_replayFeed | apply later_threadFault | apply later_replayTr | apply later_replayCsr | apply later_rvExec | refine later_takeRecord ?_ (by assumption) | apply later_replayDiverge | apply later_withThread | apply later_retire)
    | intro _
    | (extract_lets +onlyGivenNames u; (have hu : Later s u := ?_); (on_goal 1 => clear_value u); (on_goal 2 => (dsimp -zeta only [u]; clear u)))
    | (extract_lets +onlyGivenNames x; clear_value x)
    | split))

/-! Machine/Work.lean -/

theorem later_unqueue {s t : State} (n : Nat) (q : Nat) (t_ : Nat) (h : Later s t) : Later s (State.unqueue t n q t_) := by
  unfold State.unqueue
  (repeat' (first
    | with_reducible (first | assumption | apply later_withCipher | apply later_withTable | apply later_withPipe | apply later_dropJob | apply later_withJob | apply later_foldl)
    | intro _
    | (extract_lets +onlyGivenNames u; (have hu : Later s u := ?_); (on_goal 1 => clear_value u); (on_goal 2 => (dsimp -zeta only [u]; clear u)))
    | (extract_lets +onlyGivenNames x; clear_value x)
    | split))

theorem later_endCommand {s t : State} (n : Nat) (q : Nat) (t_ : Nat) (st : Status) (h : Later s t) : Later s (State.endCommand t n q t_ st) := by
  unfold State.endCommand
  (repeat' (first
    | with_reducible (first | assumption | apply later_cipherEnd | apply later_checkEnd | apply later_unqueue | apply later_storEnd | apply later_complete)
    | intro _
    | (extract_lets +onlyGivenNames u; (have hu : Later s u := ?_); (on_goal 1 => clear_value u); (on_goal 2 => (dsimp -zeta only [u]; clear u)))
    | (extract_lets +onlyGivenNames x; clear_value x)
    | split))

theorem later_hostFailure {s t : State} (n : Nat) (q : Nat) (t_ : Nat) (st : Status) (h : Later s t) : Later s (State.hostFailure t n q t_ st) := by
  unfold State.hostFailure
  (repeat' (first
    | with_reducible (first | assumption | apply later_endCommand)))

theorem later_hostData {s t : State} (n : Nat) (q : Nat) (t_ : Nat) (i : Nat) (b : Bytes) (h : Later s t) : Later s (State.hostData t n q t_ i b) := by
  unfold State.hostData
  (repeat' (first
    | with_reducible (first | assumption | apply later_cipherData)))

theorem later_domainFailed {s t : State} (d : Nat) (h : Later s t) : Later s (State.domainFailed t d) := by
  unfold State.domainFailed
  (repeat' (first
    | with_reducible (first | assumption | apply later_endCommand | apply later_foldl)
    | intro _))

theorem later_abortCipher {s t r : State} {c : Ctx} (h : Later s t) (e : State.abortCipher t c = some r) : Later s r := by
  unfold State.abortCipher at e
  (try dsimp only at e)
  (repeat' (first | (injection e with e; subst e) | cases e | split at e))
  all_goals (repeat' (first
    | with_reducible (first | assumption | apply later_dropCJob | apply later_complete)
    | split
    | cases ‹none = some _›
    | (split at ‹_ = some _›)))

theorem later_abortCheck {s t r : State} {c : Ctx} (h : Later s t) (e : State.abortCheck t c = some r) : Later s r := by
  unfold State.abortCheck at e
  (try dsimp only at e)
  (repeat' (first | (injection e with e; subst e) | cases e | split at e))
  all_goals (repeat' (first
    | with_reducible (first | assumption | apply later_done | apply later_withCipher | apply later_complete | apply later_checkAssign)
    | intro _
    | (extract_lets +onlyGivenNames u; (have hu : Later s u := ?_); (on_goal 1 => clear_value u); (on_goal 2 => (dsimp -zeta only [u]; clear u)))
    | (extract_lets +onlyGivenNames x; clear_value x)
    | split
    | cases ‹none = some _›
    | (split at ‹_ = some _›)))

theorem later_abortWaiting {s t r : State} {c : Ctx} (h : Later s t) (e : State.abortWaiting t c = some r) : Later s r := by
  unfold State.abortWaiting at e
  (try dsimp only at e)
  (repeat' (first | (injection e with e; subst e) | cases e | split at e))
  all_goals (repeat' (first
    | with_reducible (first | assumption | apply later_unqueue | apply later_complete)
    | intro _
    | (extract_lets +onlyGivenNames u; (have hu : Later s u := ?_); (on_goal 1 => clear_value u); (on_goal 2 => (dsimp -zeta only [u]; clear u)))
    | (extract_lets +onlyGivenNames x; clear_value x)
    | split
    | cases ‹none = some _›
    | (split at ‹_ = some _›)))

theorem later_orElse {s r : State} {a : Option State} {b : Unit → Option State} (ha : ∀ u, a = some u → Later s u)
    (hb : ∀ u, b () = some u → Later s u) (e : a.orElse b = some r) : Later s r := by
  cases a with
  | none => exact hb r e
  | some v => exact ha r e

theorem later_abortStarted {s t r : State} {c : Ctx} (h : Later s t) (e : State.abortStarted t c = some r) : Later s r :=
  later_orElse (fun _ k => later_storageAbort h k)
    (fun _ k => later_orElse (fun _ k => later_abortCipher h k)
      (fun _ k => later_orElse (fun _ k => later_abortCheck h k) (fun _ k => later_abortWaiting h k) k) k) e

theorem later_abandon {s t : State} (n : Nat) (h : Later s t) : Later s (State.abandon t n) := by
  unfold State.abandon
  (repeat' (first
    | with_reducible (first | assumption | apply later_storageAbandon | apply later_withCipher | apply later_dropCJob | apply later_checkAssign | apply later_withTable | apply later_vpDrop | apply later_withKiln | apply later_withStor | apply later_foldl)
    | intro _
    | (extract_lets +onlyGivenNames u; (have hu : Later s u := ?_); (on_goal 1 => clear_value u); (on_goal 2 => (dsimp -zeta only [u]; clear u)))
    | (extract_lets +onlyGivenNames x; clear_value x)
    | split))

theorem later_accessLost {s t : State} (n : Nat) (h : Later s t) : Later s (State.accessLost t n) := by
  unfold State.accessLost
  (repeat' (first
    | with_reducible (first | assumption | apply later_storageAccessLost)))

theorem later_locksRelease {s t : State} (n : Nat) (h : Later s t) : Later s (State.locksRelease t n) := by
  unfold State.locksRelease
  (repeat' (first
    | with_reducible (first | assumption | apply later_enginesRelease | apply later_tblRelease)))

theorem later_bindingsVoid {s t : State} (n : Nat) (h : Later s t) : Later s (State.bindingsVoid t n) := by
  unfold State.bindingsVoid
  (repeat' (first
    | with_reducible (first | assumption | apply later_bindingsVoidOf | apply later_vpUnbind)))

theorem later_resumeForgotten {s t : State} (n : Nat) (h : Later s t) : Later s (State.resumeForgotten t n) := by
  unfold State.resumeForgotten
  (repeat' (first
    | with_reducible (first | assumption | apply later_withFlow)
    | intro _
    | split))

theorem later_groupsGone {s t : State} (n : Nat) (h : Later s t) : Later s (State.groupsGone t n) := by
  unfold State.groupsGone
  (repeat' (first
    | with_reducible (first | assumption | apply later_withFlow)
    | intro _
    | split))

theorem later_shadowsDrop {s t : State} (n : Nat) (h : Later s t) : Later s (State.shadowsDrop t n) := by
  unfold State.shadowsDrop
  (repeat' (first
    | with_reducible (first | assumption | apply later_withSvc)
    | intro _
    | (extract_lets +onlyGivenNames u; (have hu : Later s u := ?_); (on_goal 1 => clear_value u); (on_goal 2 => (dsimp -zeta only [u]; clear u)))
    | (extract_lets +onlyGivenNames x; clear_value x)))

theorem later_shadowDropBlock {s t : State} (n : Nat) (h : Later s t) : Later s (State.shadowDropBlock t n) := by
  unfold State.shadowDropBlock
  (repeat' (first
    | with_reducible (first | assumption | apply later_withSvc)
    | intro _
    | split))

theorem later_mailboxForget {s t : State} (n : Nat) (h : Later s t) : Later s (State.mailboxForget t n) := by
  unfold State.mailboxForget
  (repeat' (first
    | with_reducible (first | assumption | apply later_withSvc)
    | intro _
    | (extract_lets +onlyGivenNames u; (have hu : Later s u := ?_); (on_goal 1 => clear_value u); (on_goal 2 => (dsimp -zeta only [u]; clear u)))
    | (extract_lets +onlyGivenNames x; clear_value x)
    | split))

theorem later_keysClear {s t : State} (a : Nat) (n : Nat) (h : Later s t) : Later s (State.keysClear t a n) := by
  unfold State.keysClear
  (repeat' (first
    | with_reducible (first | assumption | apply later_slotGone | apply later_foldl)
    | intro _
    | split))

theorem later_metersClear {s t : State} (a : Nat) (n : Nat) (h : Later s t) : Later s (State.metersClear t a n) := by
  unfold State.metersClear
  (repeat' (first
    | with_reducible (first | assumption | apply later_withPipe)
    | intro _))

theorem later_slicesClear {s t : State} (l : List Nat) (h : Later s t) : Later s (State.slicesClear t l) := by
  unfold State.slicesClear
  (repeat' (first
    | with_reducible (first | assumption | apply later_withThread | apply later_foldl)
    | intro _
    | split))

end Sys2Proof.Laws
end

