-- ==== Sys2Proof/Laws/LaterPower.lean ====
section
/-! SUPPORT. What the operations of starts, the power states and the damper keep whatever else they do (the relation Later): one lemma each, to be
cited in place of unfolding the operation. -/

namespace Sys2Proof.Laws

open Sys2Proof.Machine

/-! Machine/Resets.lean -/

theorem later_startBase {s t : State} (c : Nat) (h : Later s t) : Later s (State.startBase t c) := by
  refine later_trans h ⟨rfl, List.prefix_refl _, Nat.le_refl _, rfl, fun k => ?_, fun k => ?_⟩
  on_goal 2 => (show SMap.sorted (dictKept _ t.dict) = true; exact sorted_keep _ k)
  show Mem.wf (if _ then _ else _) = true
  split
  · exact k
  · rfl

theorem later_hostLinkLost {s t : State} (h : Later s t) : Later s (State.hostLinkLost t) := by
  unfold State.hostLinkLost
  (repeat' (first
    | with_reducible (first | assumption)
    | (simp -zeta only [later_mk])))

theorem later_instanceZero {s t : State} (h : Later s t) : Later s (State.instanceZero t) := by
  unfold State.instanceZero
  (repeat' (first
    | with_reducible (first | assumption | apply later_withInst | apply later_dset)
    | intro _))

theorem later_peatRecover {s t : State} (h : Later s t) : Later s (State.peatRecover t) := by
  unfold State.peatRecover
  (repeat' (first
    | with_reducible (first | assumption | apply later_dset)
    | intro _
    | split))

theorem later_vaultWaits {s t : State} (h : Later s t) : Later s (State.vaultWaits t) := by
  unfold State.vaultWaits
  (repeat' (first
    | with_reducible (first | assumption | apply later_withCipher)
    | intro _
    | split))

theorem later_firmwareReady {s t : State} (h : Later s t) : Later s (State.firmwareReady t) := by
  unfold State.firmwareReady
  (repeat' (first
    | with_reducible (first | assumption | apply later_instanceZero | apply later_peatRecover | apply later_damperFresh | apply later_vaultWaits | apply later_attachStart)))

theorem later_loadCores {s t : State} (h : Later s t) : Later s (State.loadCores t) := by
  unfold State.loadCores
  (repeat' (first
    | with_reducible (first | assumption | apply later_coreLoad | apply later_foldl)
    | intro _))

theorem later_dropEgressFrames {s t : State} (h : Later s t) : Later s (State.dropEgressFrames t) := by
  unfold State.dropEgressFrames
  (repeat' (first
    | with_reducible (first | assumption | apply later_control | apply later_withEg | apply later_dadd | apply later_foldl)
    | intro _
    | (extract_lets +onlyGivenNames u; (have hu : Later s u := ?_); (on_goal 1 => clear_value u); (on_goal 2 => (dsimp -zeta only [u]; clear u)))
    | (extract_lets +onlyGivenNames x; clear_value x)
    | split))

theorem later_dropBuffered {s t : State} (h : Later s t) : Later s (State.dropBuffered t) := by
  unfold State.dropBuffered
  (repeat' (first
    | with_reducible (first | assumption | apply later_withFlow | apply later_withPipe)
    | intro _
    | (extract_lets +onlyGivenNames u; (have hu : Later s u := ?_); (on_goal 1 => clear_value u); (on_goal 2 => (dsimp -zeta only [u]; clear u)))
    | (extract_lets +onlyGivenNames x; clear_value x)))

theorem later_linksDown {s t : State} (h : Later s t) : Later s (State.linksDown t) := by
  unfold State.linksDown
  (repeat' (first
    | with_reducible (first | assumption | apply later_portDown | apply later_foldl)
    | intro _))

theorem later_peatPause {s t : State} (h : Later s t) : Later s (State.peatPause t) := by
  unfold State.peatPause
  (repeat' (first
    | with_reducible (first | assumption | apply later_peatRecord | apply later_dset)
    | (extract_lets +onlyGivenNames u; (have hu : Later s u := ?_); (on_goal 1 => clear_value u); (on_goal 2 => (dsimp -zeta only [u]; clear u)))
    | (extract_lets +onlyGivenNames x; clear_value x)
    | split))

theorem later_peatResume {s t : State} (h : Later s t) : Later s (State.peatResume t) := by
  unfold State.peatResume
  (repeat' (first
    | with_reducible (first | assumption | apply later_dset | apply later_peatRecord)
    | split))

theorem later_l1Counted {s t : State} (h : Later s t) : Later s (State.l1Counted t) := by
  unfold State.l1Counted
  (repeat' (first
    | with_reducible (first | assumption | apply later_dadd)
    | split))

theorem later_hostLinkL12 {s t : State} (h : Later s t) : Later s (State.hostLinkL12 t) := by
  unfold State.hostLinkL12
  (repeat' (first
    | with_reducible (first | assumption | apply later_emit | apply later_withHost | apply later_l1Counted | apply later_enterL1)
    | intro _
    | (extract_lets +onlyGivenNames u; (have hu : Later s u := ?_); (on_goal 1 => clear_value u); (on_goal 2 => (dsimp -zeta only [u]; clear u)))
    | (extract_lets +onlyGivenNames x; clear_value x)
    | split))

theorem later_hostLinkL0 {s t : State} (h : Later s t) : Later s (State.hostLinkL0 t) := by
  unfold State.hostLinkL0
  (repeat' (first
    | with_reducible (first | assumption | apply later_hostActivity)
    | split))

theorem later_pfailTaken {s t : State} (h : Later s t) : Later s (State.pfailTaken t) := by
  unfold State.pfailTaken
  (repeat' (first
    | with_reducible (first | assumption | apply later_pfStart | apply later_linksDown)
    | split))

theorem later_domainLost {s t : State} (d : Nat) (h : Later s t) : Later s (State.domainLost t d) := by
  unfold State.domainLost
  (repeat' (first
    | with_reducible (first | assumption | apply later_coreStop | apply later_withCore | apply later_withThread | apply later_withChannel | apply later_egressFlush | apply later_dropBuffered | apply later_foldl)
    | intro _
    | (extract_lets +onlyGivenNames u; (have hu : Later s u := ?_); (on_goal 1 => clear_value u); (on_goal 2 => (dsimp -zeta only [u]; clear u)))
    | (extract_lets +onlyGivenNames x; clear_value x)
    | split))

theorem later_domainPoweredUp {s t : State} (d : Nat) (good : List Nat) (h : Later s t) : Later s (State.domainPoweredUp t d good) := by
  unfold State.domainPoweredUp
  (repeat' (first
    | with_reducible (first | assumption | apply later_coreLoad | apply later_coreFailed | apply later_deliveryClear | apply later_zeludReturn | apply later_foldl)
    | intro _
    | split))

/-! Machine/BootOps.lean -/

theorem later_resetRelease {s t : State} (h : Later s t) : Later s (State.resetRelease t) := by
  unfold State.resetRelease
  (repeat' (first
    | with_reducible (first | assumption | apply later_startBase | apply later_withBoot | apply later_withPow | apply later_pin)
    | intro _
    | (extract_lets +onlyGivenNames u; (have hu : Later s u := ?_); (on_goal 1 => clear_value u); (on_goal 2 => (dsimp -zeta only [u]; clear u)))
    | (extract_lets +onlyGivenNames x; clear_value x)
    | split))

theorem later_enterHostWait {s t : State} (h : Later s t) : Later s (State.enterHostWait t) := by
  unfold State.enterHostWait
  (repeat' (first
    | with_reducible (first | assumption | apply later_withBoot)
    | intro _
    | split))

theorem later_coreReset {s t : State} (cause : Nat) (h : Later s t) : Later s (State.coreReset t cause) := by
  unfold State.coreReset
  (repeat' (first
    | with_reducible (first | assumption | apply later_peatTrigger | apply later_startBase | apply later_withBoot | apply later_withPow)
    | intro _
    | (extract_lets +onlyGivenNames u; (have hu : Later s u := ?_); (on_goal 1 => clear_value u); (on_goal 2 => (dsimp -zeta only [u]; clear u)))
    | (extract_lets +onlyGivenNames x; clear_value x)))

theorem later_imageRefusal {s t : State} (st : Status) (detail : Nat) (h : Later s t) : Later s (State.imageRefusal t st detail) := by
  unfold State.imageRefusal
  (repeat' (first
    | with_reducible (first | assumption | apply later_withBoot)
    | intro _))

theorem later_clockSwitch {s t : State} (h : Later s t) : Later s (State.clockSwitch t) := by
  unfold State.clockSwitch
  (repeat' (first
    | with_reducible (first | assumption | apply later_withTime)
    | intro _))

theorem later_kindle {s t : State} (b : Bytes) (slot : Nat) (sealArm : Bool) (h : Later s t) : Later s (State.kindle t b slot sealArm) := by
  unfold State.kindle
  (repeat' (first
    | with_reducible (first | assumption | apply later_withBoot | apply later_clockSwitch | apply later_coreReset | apply later_imageRefusal | apply later_foldl)
    | intro _
    | (extract_lets +onlyGivenNames u; (have hu : Later s u := ?_); (on_goal 1 => clear_value u); (on_goal 2 => (dsimp -zeta only [u]; clear u)))
    | (extract_lets +onlyGivenNames x; clear_value x)
    | split))

theorem later_enterReady {s t : State} (info : BundleInfo) (h : Later s t) : Later s (State.enterReady t info) := by
  unfold State.enterReady
  (repeat' (first
    | with_reducible (first | assumption | apply later_withBoot | apply later_dset | apply later_dsetv | apply later_withGatherer | apply later_withPow | apply later_firmwareReady | apply later_event | apply later_foldl)
    | intro _
    | (extract_lets +onlyGivenNames u; (have hu : Later s u := ?_); (on_goal 1 => clear_value u); (on_goal 2 => (dsimp -zeta only [u]; clear u)))
    | (extract_lets +onlyGivenNames x; clear_value x)
    | split))

/-! Machine/PowerSteps.lean -/

theorem later_transitionEnd {s t : State} (st : Status) (h : Later s t) : Later s (State.transitionEnd t st) := by
  unfold State.transitionEnd
  (repeat' (first
    | with_reducible (first | assumption | apply later_withPow | apply later_dset)
    | intro _
    | (extract_lets +onlyGivenNames u; (have hu : Later s u := ?_); (on_goal 1 => clear_value u); (on_goal 2 => (dsimp -zeta only [u]; clear u)))
    | (extract_lets +onlyGivenNames x; clear_value x)))

theorem later_entryAbandoned {s t : State} (st : Status) (h : Later s t) : Later s (State.entryAbandoned t st) := by
  unfold State.entryAbandoned
  (repeat' (first
    | with_reducible (first | assumption | apply later_zeludReturn | apply later_transitionEnd)))

theorem later_goBlaze {s t : State} (h : Later s t) : Later s (State.goBlaze t) := by
  unfold State.goBlaze
  (repeat' (first
    | with_reducible (first | assumption | apply later_withPow | apply later_setDom | apply later_dinc | apply later_domainPoweredUp | apply later_event | apply later_transitionEnd | apply later_foldl)
    | intro _
    | (extract_lets +onlyGivenNames u; (have hu : Later s u := ?_); (on_goal 1 => clear_value u); (on_goal 2 => (dsimp -zeta only [u]; clear u)))
    | (extract_lets +onlyGivenNames x; clear_value x)
    | split))

theorem later_beginDrain {s t : State} (trans : Nat) (h : Later s t) : Later s (State.beginDrain t trans) := by
  unfold State.beginDrain
  (repeat' (first
    | with_reducible (first | assumption | apply later_zeludLeave | apply later_withPow)
    | intro _))

theorem later_blazeLeft {s t : State} (h : Later s t) : Later s (State.blazeLeft t) := by
  unfold State.blazeLeft
  (repeat' (first
    | with_reducible (first | assumption | apply later_withPow | apply later_event)
    | intro _
    | split))

theorem later_requestStart {s t : State} (v : Nat) (h : Later s t) : Later s (State.requestStart t v) := by
  unfold State.requestStart
  (repeat' (first
    | with_reducible (first | assumption | apply later_goBlaze | apply later_blazeLeft | apply later_transitionEnd | apply later_beginDrain)
    | split))

theorem later_firmwareRequest {s t : State} (h : Later s t) : Later s (State.firmwareRequest t) := by
  unfold State.firmwareRequest
  (repeat' (first
    | with_reducible (first | assumption | apply later_withPow | apply later_requestStart)
    | intro _
    | (extract_lets +onlyGivenNames u; (have hu : Later s u := ?_); (on_goal 1 => clear_value u); (on_goal 2 => (dsimp -zeta only [u]; clear u)))
    | (extract_lets +onlyGivenNames x; clear_value x)
    | split))

theorem later_waitingRequest {s t : State} (h : Later s t) : Later s (State.waitingRequest t) := by
  unfold State.waitingRequest
  (repeat' (first
    | with_reducible (first | assumption | apply later_firmwareRequest)
    | split))

theorem later_enterBanked {s t : State} (h : Later s t) : Later s (State.enterBanked t) := by
  unfold State.enterBanked
  (repeat' (first
    | with_reducible (first | assumption | apply later_leaveWaited | apply later_dropEgressFrames | apply later_dropBuffered | apply later_peatPause | apply later_linksDown | apply later_hostLinkL12 | apply later_dinc | apply later_withTime | apply later_withPow)
    | intro _
    | (extract_lets +onlyGivenNames u; (have hu : Later s u := ?_); (on_goal 1 => clear_value u); (on_goal 2 => (dsimp -zeta only [u]; clear u)))
    | (extract_lets +onlyGivenNames x; clear_value x)))

theorem later_emberOff {s t : State} (h : Later s t) : Later s (State.emberOff t) := by
  unfold State.emberOff
  (repeat' (first
    | with_reducible (first | assumption | apply later_hostLinkLost | apply later_startBase | apply later_withBoot | apply later_withPow | apply later_pin)
    | intro _
    | (extract_lets +onlyGivenNames u; (have hu : Later s u := ?_); (on_goal 1 => clear_value u); (on_goal 2 => (dsimp -zeta only [u]; clear u)))
    | (extract_lets +onlyGivenNames x; clear_value x)))

theorem later_bankedWake {s t : State} (h : Later s t) : Later s (State.bankedWake t) := by
  unfold State.bankedWake
  (repeat' (first
    | with_reducible (first | assumption | apply later_withTime | apply later_withPow | apply later_dset | apply later_event | apply later_peatResume | apply later_damperFresh | apply later_zeludReturn | apply later_hostLinkL0)
    | intro _
    | (extract_lets +onlyGivenNames u; (have hu : Later s u := ?_); (on_goal 1 => clear_value u); (on_goal 2 => (dsimp -zeta only [u]; clear u)))
    | (extract_lets +onlyGivenNames x; clear_value x)))

theorem later_emberWake {s t : State} (src : Nat) (h : Later s t) : Later s (State.emberWake t src) := by
  unfold State.emberWake
  (repeat' (first
    | with_reducible (first | assumption | apply later_withBoot | apply later_withPow | apply later_pin)
    | intro _
    | (extract_lets +onlyGivenNames u; (have hu : Later s u := ?_); (on_goal 1 => clear_value u); (on_goal 2 => (dsimp -zeta only [u]; clear u)))
    | (extract_lets +onlyGivenNames x; clear_value x)))

theorem later_wakeReport {s t : State} (src : Nat) (h : Later s t) : Later s (State.wakeReport t src) := by
  unfold State.wakeReport
  (repeat' (first
    | with_reducible (first | assumption | apply later_withPow | apply later_wakeNote)
    | intro _
    | (extract_lets +onlyGivenNames u; (have hu : Later s u := ?_); (on_goal 1 => clear_value u); (on_goal 2 => (dsimp -zeta only [u]; clear u)))
    | (extract_lets +onlyGivenNames x; clear_value x)
    | split))

theorem later_wakeTake {s t : State} (src : Nat) (bitNo : Nat) (ev : Nat) (h : Later s t) : Later s (State.wakeTake t src bitNo ev) := by
  unfold State.wakeTake
  (repeat' (first
    | with_reducible (first | assumption | apply later_withPow | apply later_wakeReport | apply later_bankedWake | apply later_emberWake | apply later_withBoot | apply later_entryAbandoned | apply later_event)
    | intro _
    | (extract_lets +onlyGivenNames u; (have hu : Later s u := ?_); (on_goal 1 => clear_value u); (on_goal 2 => (dsimp -zeta only [u]; clear u)))
    | (extract_lets +onlyGivenNames x; clear_value x)
    | split))

theorem later_wakeSource {s t : State} (src : Nat) (bitNo : Nat) (ev : Nat) (h : Later s t) : Later s (State.wakeSource t src bitNo ev) := by
  unfold State.wakeSource
  (repeat' (first
    | with_reducible (first | assumption | apply later_withPow | apply later_wakeTake)
    | intro _
    | split))

theorem later_emberStart {s t : State} (h : Later s t) : Later s (State.emberStart t) := by
  unfold State.emberStart
  (repeat' (first
    | with_reducible (first | assumption | apply later_withPow)
    | intro _))

theorem later_mainResetStart {s t : State} (cause : Nat) (h : Later s t) : Later s (State.mainResetStart t cause) := by
  unfold State.mainResetStart
  (repeat' (first
    | with_reducible (first | assumption | apply later_hostLinkLost | apply later_startBase | apply later_withBoot | apply later_withPow | apply later_resetRelease)
    | intro _
    | (extract_lets +onlyGivenNames u; (have hu : Later s u := ?_); (on_goal 1 => clear_value u); (on_goal 2 => (dsimp -zeta only [u]; clear u)))
    | (extract_lets +onlyGivenNames x; clear_value x)
    | split))

theorem later_startOrHold {s t : State} (cause : Nat) (h : Later s t) : Later s (State.startOrHold t cause) := by
  unfold State.startOrHold
  (repeat' (first
    | with_reducible (first | assumption | apply later_dinc | apply later_withPow | apply later_mainResetStart)
    | intro _
    | split))

theorem later_tinderStretch {s t : State} (h : Later s t) : Later s (State.tinderStretch t) := by
  unfold State.tinderStretch
  (repeat' (first
    | with_reducible (first | assumption | apply later_dmax)))

theorem later_bankedToEmber {s t : State} (h : Later s t) : Later s (State.bankedToEmber t) := by
  unfold State.bankedToEmber
  (repeat' (first
    | with_reducible (first | assumption | apply later_bankedWake | apply later_beginDrain)
    | (extract_lets +onlyGivenNames u; (have hu : Later s u := ?_); (on_goal 1 => clear_value u); (on_goal 2 => (dsimp -zeta only [u]; clear u)))
    | (extract_lets +onlyGivenNames x; clear_value x)
    | split))

/-! Machine/DamperSteps.lean -/

theorem later_ladderMove {s t : State} (k : Nat) (climb : Bool) (h : Later s t) : Later s (State.ladderMove t k climb) := by
  unfold State.ladderMove
  (repeat' (first
    | with_reducible (first | assumption | apply later_dset | apply later_dmax | apply later_withDamper | apply later_eventLog | apply later_portsCheck)
    | intro _
    | (extract_lets +onlyGivenNames u; (have hu : Later s u := ?_); (on_goal 1 => clear_value u); (on_goal 2 => (dsimp -zeta only [u]; clear u)))
    | (extract_lets +onlyGivenNames x; clear_value x)
    | split))

theorem later_ladderStep {s t : State} (h : Later s t) : Later s (State.ladderStep t) := by
  unfold State.ladderStep
  (repeat' (first
    | with_reducible (first | assumption | apply later_ladderMove)
    | (extract_lets +onlyGivenNames u; (have hu : Later s u := ?_); (on_goal 1 => clear_value u); (on_goal 2 => (dsimp -zeta only [u]; clear u)))
    | (extract_lets +onlyGivenNames x; clear_value x)
    | split))

theorem later_capTick {s t : State} (n : Nat) (uj : Nat) (h : Later s t) : Later s (State.capTick t n uj) := by
  unfold State.capTick
  (repeat' (first
    | with_reducible (first | assumption | apply later_dadd | apply later_dset | apply later_withDamper | apply later_dinc | apply later_eventLimited)
    | intro _
    | (extract_lets +onlyGivenNames u; (have hu : Later s u := ?_); (on_goal 1 => clear_value u); (on_goal 2 => (dsimp -zeta only [u]; clear u)))
    | (extract_lets +onlyGivenNames x; clear_value x)
    | split))

theorem later_damperTickOp {s t : State} (i : TickInput) (h : Later s t) : Later s (State.damperTickOp t i) := by
  unfold State.damperTickOp
  (repeat' (first
    | with_reducible (first | assumption | apply later_tick | apply later_withDamper | apply later_dadd | apply later_capTick | apply later_dset | apply later_dmax | apply later_withPow | apply later_event | apply later_eventLog | apply later_dinc | apply later_drawBits | refine later_drawBits_eq ?_ (by assumption) | apply later_ladderStep | apply later_foldl)
    | intro _
    | (extract_lets +onlyGivenNames u; (have hu : Later s u := ?_); (on_goal 1 => clear_value u); (on_goal 2 => (dsimp -zeta only [u]; clear u)))
    | (extract_lets +onlyGivenNames x; clear_value x)
    | split))

theorem later_forceStepEffect {s t : State} (v : Nat) (h : Later s t) : Later s (State.forceStepEffect t v) := by
  unfold State.forceStepEffect
  (repeat' (first
    | with_reducible (first | assumption | apply later_dset | apply later_logCls | apply later_dmax | apply later_withDamper | apply later_portsCheck)
    | intro _
    | (extract_lets +onlyGivenNames u; (have hu : Later s u := ?_); (on_goal 1 => clear_value u); (on_goal 2 => (dsimp -zeta only [u]; clear u)))
    | (extract_lets +onlyGivenNames x; clear_value x)
    | split))

theorem later_snapshotEffect {s t : State} (h : Later s t) : Later s (State.snapshotEffect t) := by
  unfold State.snapshotEffect
  (repeat' (first
    | with_reducible (first | assumption | apply later_dset)))

end Sys2Proof.Laws
end

