-- ==== Sys2Proof/Laws/LaterService.lean ====
section
/-! SUPPORT. What the operations of the dictionary service, and of what follows a command keep whatever else they do (the relation Later): one lemma each, to be
cited in place of unfolding the operation. -/

namespace Sys2Proof.Laws

open Sys2Proof.Machine

/-! Machine/DictView.lean -/

theorem later_dictRead {s t : State} (idx : Nat) (sub : Nat) (h : Later s t) : Later s (State.dictRead t idx sub).2 := by
  unfold State.dictRead
  (repeat' (first
    | with_reducible (first | assumption | apply later_exportPull | refine later_exportPull_eq ?_ (by assumption) | apply later_drawBits | refine later_drawBits_eq ?_ (by assumption))
    | (extract_lets +onlyGivenNames u; (have hu : Later s u := ?_); (on_goal 1 => clear_value u); (on_goal 2 => (dsimp -zeta only [u]; clear u)))
    | (extract_lets +onlyGivenNames x; clear_value x)
    | split))

theorem later_dictRead_eq {s t r : State} {x} {idx : Nat} {sub : Nat} (h : Later s t) (e : State.dictRead t idx sub = (x, r)) : Later s r := by
  have k := later_dictRead (s := s) (t := t) idx sub  h
  rw [e] at k; exact k

/-! Machine/GroupCheck.lean -/

theorem later_shadowWrite {s t : State} (g : Nat) (who : Requester) (idx : Nat) (sub : Nat) (v : DVal) (h : Later s t) : Later s (State.shadowWrite t g who idx sub v) := by
  unfold State.shadowWrite
  (repeat' (first
    | with_reducible (first | assumption | apply later_withSvc)
    | intro _
    | (extract_lets +onlyGivenNames u; (have hu : Later s u := ?_); (on_goal 1 => clear_value u); (on_goal 2 => (dsimp -zeta only [u]; clear u)))
    | (extract_lets +onlyGivenNames x; clear_value x)
    | split))

theorem later_shadowDrop {s t : State} (g : Nat) (h : Later s t) : Later s (State.shadowDrop t g) := by
  unfold State.shadowDrop
  (repeat' (first
    | with_reducible (first | assumption | apply later_withSvc)
    | intro _))

theorem later_meterApply {s t : State} (m : Nat) (f : Nat → Nat) (h : Later s t) : Later s (State.meterApply t m f) := by
  unfold State.meterApply
  (repeat' (first
    | with_reducible (first | assumption | apply later_setMeter)))

theorem later_threadGroupApply {s t : State} (g : Nat) (f : Nat → Nat) (weights : Bytes) (h : Later s t) : Later s (State.threadGroupApply t g f weights) := by
  unfold State.threadGroupApply
  (repeat' (first
    | with_reducible (first | assumption | apply later_withGroup)
    | intro _
    | split))

theorem later_groupApply {s t : State} (g : Nat) (h : Later s t) : Later s (State.groupApply t g) := by
  unfold State.groupApply
  (repeat' (first
    | with_reducible (first | assumption | apply later_dsetv | apply later_portDown | apply later_zeludApply | apply later_schedApply | apply later_meterApply | apply later_threadGroupApply | apply later_shadowDrop | apply later_foldl)
    | intro _
    | (extract_lets +onlyGivenNames u; (have hu : Later s u := ?_); (on_goal 1 => clear_value u); (on_goal 2 => (dsimp -zeta only [u]; clear u)))
    | (extract_lets +onlyGivenNames x; clear_value x)
    | split))

/-! Machine/DictWrite.lean -/

theorem later_regionWrite {s t : State} (mib : Nat) (h : Later s t) : Later s (State.regionWrite t mib).2 := by
  unfold State.regionWrite
  (repeat' (first
    | with_reducible (first | assumption | apply later_dset | apply later_foldl)
    | intro _
    | (extract_lets +onlyGivenNames u; (have hu : Later s u := ?_); (on_goal 1 => clear_value u); (on_goal 2 => (dsimp -zeta only [u]; clear u)))
    | (extract_lets +onlyGivenNames x; clear_value x)
    | split))

theorem later_regionWrite_eq {s t r : State} {x} {mib : Nat} (h : Later s t) (e : State.regionWrite t mib = (x, r)) : Later s r := by
  have k := later_regionWrite (s := s) (t := t) mib  h
  rw [e] at k; exact k

theorem later_replayArm {s t : State} (h : Later s t) : Later s (State.replayArm t).2 := by
  unfold State.replayArm
  (repeat' (first
    | with_reducible (first | assumption | apply later_groupStop | apply later_portDown | apply later_foldl)
    | intro _
    | (extract_lets +onlyGivenNames u; (have hu : Later s u := ?_); (on_goal 1 => clear_value u); (on_goal 2 => (dsimp -zeta only [u]; clear u)))
    | (extract_lets +onlyGivenNames x; clear_value x)
    | split))

theorem later_replayArm_eq {s t r : State} {x} (h : Later s t) (e : State.replayArm t = (x, r)) : Later s r := by
  have k := later_replayArm (s := s) (t := t)   h
  rw [e] at k; exact k

theorem later_powerWrite {s t r : State} {x} {idx : Nat} {sub : Nat} {v : DVal} (h : Later s t) (e : State.powerWrite t idx sub v = some (x, r)) : Later s r := by
  unfold State.powerWrite at e
  (try dsimp only at e)
  (repeat' (first | (injection e with e; injection e with e1 e2; subst e2) | cases e | split at e))
  all_goals (repeat' (first
    | with_reducible (first | assumption | apply later_emberStart | apply later_requestStart | apply later_forceStepEffect | apply later_snapshotEffect)
    | split))

theorem later_blockWrite {s t r : State} {x} {idx : Nat} {sub : Nat} {v : DVal} (h : Later s t) (e : State.blockWrite t idx sub v = some (x, r)) : Later s r := by
  have k : OptLater s (State.blockWrite t idx sub v) := by
    unfold State.blockWrite
    (repeat' (first
      | with_reducible apply opt_some
      | exact opt_none
      | with_reducible (first | assumption | apply later_withPipe | apply later_groupCommand | refine later_groupCommand_eq ?_ (by assumption) | apply later_withGatherer | apply later_dset | apply later_deliveryClear | apply later_groupRestartOwn | refine later_groupRestartOwn_eq ?_ (by assumption))
      | intro _
      | (extract_lets +onlyGivenNames u; (have hu : Later s u := ?_); (on_goal 1 => clear_value u); (on_goal 2 => (dsimp -zeta only [u]; clear u)))
      | (extract_lets +onlyGivenNames x; clear_value x)
      | split
      | (dsimp -zeta only)
      | cases ‹none = some _›
      | (split at ‹_ = some _›)))
  exact k.some _ e

theorem later_watchWrite {s t r : State} {x} {idx : Nat} {sub : Nat} {v : DVal} (h : Later s t) (e : State.watchWrite t idx sub v = some (x, r)) : Later s r := by
  have k : OptLater s (State.watchWrite t idx sub v) := by
    unfold State.watchWrite
    (repeat' (first
      | with_reducible apply opt_some
      | exact opt_none
      | with_reducible (first | assumption | apply later_logClear | apply later_fokClear | apply later_ackAll | apply later_peatMode | apply later_regionWrite | refine later_regionWrite_eq ?_ (by assumption) | apply later_dsetv | apply later_peatTrigger | apply later_replayArm | refine later_replayArm_eq ?_ (by assumption) | apply later_peatWindowWrite | refine later_peatWindowWrite_eq ?_ (by assumption) | apply later_dset | apply later_event | apply later_alarmAck)
      | (extract_lets +onlyGivenNames u; (have hu : Later s u := ?_); (on_goal 1 => clear_value u); (on_goal 2 => (dsimp -zeta only [u]; clear u)))
      | (extract_lets +onlyGivenNames x; clear_value x)
      | split
      | (dsimp -zeta only)
      | cases ‹none = some _›
      | (split at ‹_ = some _›)))
  exact k.some _ e

theorem later_maskWrite {s t : State} (n : Nat) (v : Nat) (h : Later s t) : Later s (State.maskWrite t n v) := by
  unfold State.maskWrite
  (repeat' (first
    | with_reducible (first | assumption | apply later_dset | apply later_shadowsDrop)))

theorem later_entryWrite {s t : State} (idx : Nat) (sub : Nat) (v : DVal) (h : Later s t) : Later s (State.entryWrite t idx sub v).2 := by
  unfold State.entryWrite
  (repeat' (first
    | with_reducible (first | assumption | refine later_powerWrite ?_ (by assumption) | refine later_blockWrite ?_ (by assumption) | refine later_watchWrite ?_ (by assumption) | apply later_maskWrite | apply later_dsetv)
    | split))

theorem later_entryWrite_eq {s t r : State} {x} {idx : Nat} {sub : Nat} {v : DVal} (h : Later s t) (e : State.entryWrite t idx sub v = (x, r)) : Later s r := by
  have k := later_entryWrite (s := s) (t := t) idx sub v  h
  rw [e] at k; exact k

/-! Machine/Service.lean -/

theorem later_denied {s t : State} (who : Requester) (idx : Nat) (h : Later s t) : Later s (State.denied t who idx) := by
  unfold State.denied
  (repeat' (first
    | with_reducible (first | assumption | apply later_dinc)
    | split))

theorem later_commitWrite {s t : State} (g : Nat) (v : Nat) (h : Later s t) : ServedLater s (State.commitWrite t g v) := by
  unfold State.commitWrite
  (repeat' (first
    | with_reducible (first | assumption | apply later_answer | apply later_shadowDrop | apply later_withSvc | apply later_dset)
    | intro _
    | (extract_lets +onlyGivenNames u; (have hu : Later s u := ?_); (on_goal 1 => clear_value u); (on_goal 2 => (dsimp -zeta only [u]; clear u)))
    | (extract_lets +onlyGivenNames x; clear_value x)
    | split
    | (simp only [ServedLater])))

theorem later_serveWrite {s t : State} (who : Requester) (idx : Nat) (sub : Nat) (data : Bytes) (h : Later s t) : ServedLater s (State.serveWrite t who idx sub data) := by
  unfold State.serveWrite
  (repeat' (first
    | with_reducible (first | assumption | apply later_answer | apply later_shadowWrite | refine later_commitWrite_answer ?_ (by assumption) | refine later_commitWrite_commit ?_ (by assumption) | apply later_commitWrite | apply later_entryWrite | refine later_entryWrite_eq ?_ (by assumption) | apply later_denied)
    | (extract_lets +onlyGivenNames u; (have hu : Later s u := ?_); (on_goal 1 => clear_value u); (on_goal 2 => (dsimp -zeta only [u]; clear u)))
    | (extract_lets +onlyGivenNames x; clear_value x)
    | split
    | cases ‹none = some _›
    | (split at ‹_ = some _›)
    | (simp only [ServedLater])))

theorem later_serveRequest {s t : State} (r_ : DictReq) (h : Later s t) : ServedLater s (State.serveRequest t r_) := by
  unfold State.serveRequest
  (repeat' (first
    | with_reducible (first | assumption | apply later_answer | refine later_serveWrite_answer ?_ (by assumption) | refine later_serveWrite_commit ?_ (by assumption) | apply later_serveWrite | apply later_dictRead | refine later_dictRead_eq ?_ (by assumption))
    | (extract_lets +onlyGivenNames u; (have hu : Later s u := ?_); (on_goal 1 => clear_value u); (on_goal 2 => (dsimp -zeta only [u]; clear u)))
    | (extract_lets +onlyGivenNames x; clear_value x)
    | split
    | (simp only [ServedLater])))

theorem later_serveRequest_answer {s t r : State} {r_ : DictReq} {w} {w2} (h : Later s t) (e : State.serveRequest t r_ = .answer w w2 r) : Later s r := by
  have k := later_serveRequest (s := s) (t := t) r_ h
  rw [e] at k; exact k

theorem later_serveRequest_commit {s t r : State} {r_ : DictReq} {w} (h : Later s t) (e : State.serveRequest t r_ = .commit w r) : Later s r := by
  have k := later_serveRequest (s := s) (t := t) r_ h
  rw [e] at k; exact k

theorem later_mailboxAnswer {s t : State} (n : Nat) (st : Status) (data : Bytes) (h : Later s t) : Later s (State.mailboxAnswer t n st data) := by
  unfold State.mailboxAnswer
  (repeat' (first
    | with_reducible (first | assumption | apply later_withFn | apply later_done | apply later_emit | apply later_raise)
    | intro _
    | (extract_lets +onlyGivenNames u; (have hu : Later s u := ?_); (on_goal 1 => clear_value u); (on_goal 2 => (dsimp -zeta only [u]; clear u)))
    | (extract_lets +onlyGivenNames x; clear_value x)
    | split))

theorem later_usdoAbort {s t : State} (port : Nat) (st : Status) (h : Later s t) : Later s (State.usdoAbort t port st) := by
  unfold State.usdoAbort
  (repeat' (first
    | with_reducible (first | assumption | apply later_dset | apply later_emit)))

theorem later_usdoAnswer {s t : State} (port : Nat) (idx : Nat) (sub : Nat) (upload : Bool) (st : Status) (data : Bytes) (h : Later s t) : Later s (State.usdoAnswer t port idx sub upload st data) := by
  unfold State.usdoAnswer
  (repeat' (first
    | with_reducible (first | assumption | apply later_usdoAbort | apply later_withSvc | apply later_emit)
    | intro _
    | (extract_lets +onlyGivenNames u; (have hu : Later s u := ?_); (on_goal 1 => clear_value u); (on_goal 2 => (dsimp -zeta only [u]; clear u)))
    | (extract_lets +onlyGivenNames x; clear_value x)
    | split))

theorem later_withSession {s t : State} (a : Nat) (p : Nat) (k : Nat) (f : OnsiaSession → OnsiaSession) (h : Later s t) : Later s (State.withSession t a p k f) := by
  unfold State.withSession
  (repeat' (first
    | with_reducible (first | assumption | apply later_withSvc)
    | intro _
    | split))

theorem later_onsiaSend {s t : State} (a : Nat) (p : Nat) (k : Nat) (vlan : Nat) (b : Bytes) (h : Later s t) : Later s (State.onsiaSend t a p k vlan b) := by
  unfold State.onsiaSend
  (repeat' (first
    | with_reducible (first | assumption | apply later_dinc | apply later_withSession | apply later_answer | apply later_emit)
    | intro _))

theorem later_answer {s t : State} (r_ : DictReq) (vlan : Nat) (st : Status) (data : Bytes) (h : Later s t) : Later s (State.answer t r_ vlan st data) := by
  unfold State.answer
  (repeat' (first
    | with_reducible (first | assumption | apply later_onsiaSend | apply later_usdoAnswer | apply later_mailboxAnswer | apply later_emit | apply later_usdoAbort)
    | (extract_lets +onlyGivenNames u; (have hu : Later s u := ?_); (on_goal 1 => clear_value u); (on_goal 2 => (dsimp -zeta only [u]; clear u)))
    | (extract_lets +onlyGivenNames x; clear_value x)
    | split))

theorem later_onsiaPart {s t : State} (a : Nat) (p : Nat) (k : Nat) (r_ : DictReq) (op : Nat) (seq : Nat) (off : Nat) (x_ : Status × Bytes × Bool) (h : Later s t) : Later s (State.onsiaPart t a p k r_ op seq off x_) := by
  unfold State.onsiaPart
  (repeat' (first
    | with_reducible (first | assumption | apply later_withSession | apply later_answer)
    | intro _
    | (extract_lets +onlyGivenNames u; (have hu : Later s u := ?_); (on_goal 1 => clear_value u); (on_goal 2 => (dsimp -zeta only [u]; clear u)))
    | (extract_lets +onlyGivenNames x; clear_value x)
    | split))

theorem later_commitWaits {s t : State} (g : Nat) (r_ : DictReq) (h : Later s t) : Later s (State.commitWaits t g r_) := by
  unfold State.commitWaits
  (repeat' (first
    | with_reducible (first | assumption | apply later_withSvc)
    | intro _))

theorem later_afterAnswer {s t : State} (r_ : DictReq) (st : Status) (h : Later s t) : Later s (State.afterAnswer t r_ st) := by
  unfold State.afterAnswer
  (repeat' (first
    | with_reducible (first | assumption | apply later_withPeat | apply later_replayBegin)
    | intro _
    | split))

theorem later_servePlain {s t : State} (r_ : DictReq) (h : Later s t) : Later s (State.servePlain t r_) := by
  unfold State.servePlain
  (repeat' (first
    | with_reducible (first | assumption | refine later_serveRequest_answer ?_ (by assumption) | refine later_serveRequest_commit ?_ (by assumption) | apply later_serveRequest | apply later_answer | apply later_afterAnswer | apply later_commitWaits)
    | (extract_lets +onlyGivenNames u; (have hu : Later s u := ?_); (on_goal 1 => clear_value u); (on_goal 2 => (dsimp -zeta only [u]; clear u)))
    | (extract_lets +onlyGivenNames x; clear_value x)
    | split))

theorem later_serveOnsia {s t : State} (r_ : DictReq) (a : Nat) (p : Nat) (k : Nat) (op : Nat) (seq : Nat) (flags : Nat) (off : Nat) (h : Later s t) : Later s (State.serveOnsia t r_ a p k op seq flags off) := by
  unfold State.serveOnsia
  (repeat' (first
    | with_reducible (first | assumption | apply later_withSession | apply later_answer | apply later_servePlain | apply later_onsiaPart | refine later_serveRequest_answer ?_ (by assumption) | refine later_serveRequest_commit ?_ (by assumption) | apply later_serveRequest | apply later_commitWaits)
    | intro _
    | (extract_lets +onlyGivenNames u; (have hu : Later s u := ?_); (on_goal 1 => clear_value u); (on_goal 2 => (dsimp -zeta only [u]; clear u)))
    | (extract_lets +onlyGivenNames x; clear_value x)
    | split))

theorem later_serveOne {s t : State} (r_ : DictReq) (h : Later s t) : Later s (State.serveOne t r_) := by
  unfold State.serveOne
  (repeat' (first
    | with_reducible (first | assumption | apply later_serveOnsia | apply later_servePlain)
    | split))

theorem later_serveN {s t : State} (f : Nat) (h : Later s t) : Later s (State.serveN t f) := by
  induction f generalizing t with
  | zero => exact h
  | succ f ih =>
    unfold State.serveN
    split
    · split
      · exact h
      · exact ih (later_serveOne _ (later_withSvc _ h))
    · exact h

theorem later_serveHeld {s t : State} (h : Later s t) : Later s (State.serveHeld t) := by
  unfold State.serveHeld
  (repeat' (first
    | with_reducible (first | assumption | apply later_serveN)))

theorem later_enqueue {s t : State} (r_ : DictReq) (h : Later s t) : Later s (State.enqueue t r_) := by
  unfold State.enqueue
  (repeat' (first
    | with_reducible (first | assumption | apply later_withSvc)
    | intro _))

theorem later_mailboxGo {s t : State} (n : Nat) (r_ : DictReq) (h : Later s t) : Later s (State.mailboxGo t n r_) := by
  unfold State.mailboxGo
  (repeat' (first
    | with_reducible (first | assumption | apply later_withFn | apply later_done | apply later_emit | apply later_raise | apply later_enqueue)
    | intro _
    | (extract_lets +onlyGivenNames u; (have hu : Later s u := ?_); (on_goal 1 => clear_value u); (on_goal 2 => (dsimp -zeta only [u]; clear u)))
    | (extract_lets +onlyGivenNames x; clear_value x)
    | split))

theorem later_request {s t : State} (r_ : DictReq) (h : Later s t) : Later s (State.request t r_) := by
  unfold State.request
  (repeat' (first
    | with_reducible (first | assumption | apply later_mailboxGo | apply later_enqueue)
    | split))

theorem later_dictRequest {s t : State} (who : Requester) (op : DictOp) (idx : Nat) (sub : Nat) (data : Bytes) (h : Later s t) : Later s (State.dictRequest t who op idx sub data) := by
  unfold State.dictRequest
  (repeat' (first
    | with_reducible (first | assumption | apply later_withFn | apply later_request)
    | intro _
    | (extract_lets +onlyGivenNames u; (have hu : Later s u := ?_); (on_goal 1 => clear_value u); (on_goal 2 => (dsimp -zeta only [u]; clear u)))
    | (extract_lets +onlyGivenNames x; clear_value x)
    | split))

theorem later_writeRequest {s t : State} (who : Requester) (idx : Nat) (sub : Nat) (v : Nat) (h : Later s t) : Later s (State.writeRequest t who idx sub v) := by
  unfold State.writeRequest
  (repeat' (first
    | with_reducible (first | assumption | apply later_dictRequest)))

theorem later_applyNow {s t : State} (g : Nat) (h : Later s t) : Later s (State.applyNow t g) := by
  unfold State.applyNow
  (repeat' (first
    | with_reducible (first | assumption | apply later_withSvc | apply later_groupApply | apply later_dset | apply later_dinc | apply later_answer)
    | intro _
    | (extract_lets +onlyGivenNames u; (have hu : Later s u := ?_); (on_goal 1 => clear_value u); (on_goal 2 => (dsimp -zeta only [u]; clear u)))
    | (extract_lets +onlyGivenNames x; clear_value x)
    | split))

theorem later_shadowExpire {s t : State} (g : Nat) (h : Later s t) : Later s (State.shadowExpire t g) := by
  unfold State.shadowExpire
  (repeat' (first
    | with_reducible (first | assumption | apply later_shadowDrop | apply later_logCls)
    | split))

theorem later_onsiaTake {s t : State} (a : Nat) (p : Nat) (dst : Nat) (vlan : Nat) (b : Bytes) (h : Later s t) : Later s (State.onsiaTake t a p dst vlan b) := by
  unfold State.onsiaTake
  (repeat' (first
    | with_reducible (first | assumption | apply later_dinc | apply later_answer | apply later_emit | apply later_withSession | apply later_request | apply later_withSvc)
    | intro _
    | (extract_lets +onlyGivenNames u; (have hu : Later s u := ?_); (on_goal 1 => clear_value u); (on_goal 2 => (dsimp -zeta only [u]; clear u)))
    | (extract_lets +onlyGivenNames x; clear_value x)
    | split))

theorem later_usdoInitiate {s t : State} (port : Nat) (idx : Nat) (sub : Nat) (write : Option (Nat × Bytes)) (h : Later s t) : Later s (State.usdoInitiate t port idx sub write) := by
  unfold State.usdoInitiate
  (repeat' (first
    | with_reducible (first | assumption | apply later_usdoAbort | apply later_request | apply later_withSvc | apply later_emit)
    | intro _
    | split))

theorem later_usdoDrop {s t : State} (port : Nat) (h : Later s t) : Later s (State.usdoDrop t port) := by
  unfold State.usdoDrop
  (repeat' (first
    | with_reducible (first | assumption | apply later_withSvc)
    | intro _))

theorem later_usdoSegment {s t : State} (port : Nat) (f : UsdoFrame) (h : Later s t) : Later s (State.usdoSegment t port f) := by
  unfold State.usdoSegment
  (repeat' (first
    | with_reducible (first | assumption | apply later_usdoDrop | apply later_usdoAbort | apply later_emit | apply later_withSvc | apply later_request)
    | intro _
    | (extract_lets +onlyGivenNames u; (have hu : Later s u := ?_); (on_goal 1 => clear_value u); (on_goal 2 => (dsimp -zeta only [u]; clear u)))
    | (extract_lets +onlyGivenNames x; clear_value x)
    | split))

theorem later_usdoTimeout {s t : State} (port : Nat) (h : Later s t) : Later s (State.usdoTimeout t port) := by
  unfold State.usdoTimeout
  (repeat' (first
    | with_reducible (first | assumption | apply later_usdoDrop | apply later_usdoAbort)
    | split))

theorem later_heartbeatSend {s t : State} (h : Later s t) : Later s (State.heartbeatSend t) := by
  unfold State.heartbeatSend
  (repeat' (first
    | with_reducible (first | assumption | apply later_emit | apply later_foldl)
    | intro _
    | split))

/-! Machine/Settle.lean -/

theorem later_domainSettle {s t : State} (d : Nat) (h : Later s t) : Later s (State.domainSettle t d) := by
  unfold State.domainSettle
  (repeat' (first
    | with_reducible (first | assumption | apply later_setDom)
    | (extract_lets +onlyGivenNames u; (have hu : Later s u := ?_); (on_goal 1 => clear_value u); (on_goal 2 => (dsimp -zeta only [u]; clear u)))
    | (extract_lets +onlyGivenNames x; clear_value x)
    | split))

theorem later_domainsSettle {s t : State} (h : Later s t) : Later s (State.domainsSettle t) := by
  unfold State.domainsSettle
  (repeat' (first
    | with_reducible (first | assumption | apply later_domainSettle | apply later_foldl)
    | intro _
    | split))

theorem later_cipherSettle {s t : State} (h : Later s t) : Later s (State.cipherSettle t) := by
  unfold State.cipherSettle
  (repeat' (first
    | with_reducible (first | assumption | apply later_cipherPump | apply later_lockedOut)
    | split))

theorem later_indexSettle {s t : State} (h : Later s t) : Later s (State.indexSettle t) := by
  unfold State.indexSettle
  (repeat' (first
    | with_reducible (first | assumption | apply later_indexRetry | apply later_foldl)
    | intro _))

theorem later_heldStartSettle {s t : State} (h : Later s t) : Later s (State.heldStartSettle t) := by
  unfold State.heldStartSettle
  (repeat' (first
    | with_reducible (first | assumption | apply later_mainResetStart)
    | split))

theorem later_workSettle {s t : State} (h : Later s t) : Later s (State.workSettle t) := by
  unfold State.workSettle
  (repeat' (first
    | with_reducible (first | assumption | apply later_storageSettle | apply later_cipherSettle | apply later_indexSettle | apply later_keyWaitsSettle | apply later_vpSends | apply later_tblRetry | apply later_flowSettle | apply later_portsCheck | apply later_deletionsSettle | apply later_domainsSettle)))

theorem later_settleLive {s t : State} (h : Later s t) : Later s (State.settleLive t) := by
  unfold State.settleLive
  (repeat' (first
    | with_reducible (first | assumption | apply later_workSettle | apply later_serveHeld | apply later_waitingRequest | apply later_heldStartSettle)
    | (extract_lets +onlyGivenNames u; (have hu : Later s u := ?_); (on_goal 1 => clear_value u); (on_goal 2 => (dsimp -zeta only [u]; clear u)))
    | (extract_lets +onlyGivenNames x; clear_value x)))

theorem later_settle {s t : State} (h : Later s t) : Later s (State.settle t) := by
  unfold State.settle
  (repeat' (first
    | with_reducible (first | assumption | apply later_settleLive)
    | split))

theorem later_done {s t : State} (h : Later s t) : OutLater s (done t) := by
  constructor
  intro u e
  injection e with e
  subst e
  exact later_settle h

end Sys2Proof.Laws
end

