-- ==== Sys2Proof/Laws/LaterRowsA.lean ====
section
/-! SUPPORT. What the operations of the command rows, first part keep whatever else they do (the relation Later): one lemma each, to be
cited in place of unfolding the operation. -/

namespace Sys2Proof.Laws

open Sys2Proof.Machine

/-! Machine/Boot.lean -/

theorem later_bootGo {s t : State} (v : Nat) (h : Later s t) : Later s (State.bootGo t v) := by
  unfold State.bootGo
  (repeat' (first
    | with_reducible (first | assumption | apply later_withBoot | apply later_imageRefusal | apply later_kindle)
    | intro _
    | (extract_lets +onlyGivenNames u; (have hu : Later s u := ?_); (on_goal 1 => clear_value u); (on_goal 2 => (dsimp -zeta only [u]; clear u)))
    | (extract_lets +onlyGivenNames x; clear_value x)
    | split))

theorem later_execBootGo {s t : State} (value : Word) (h : Later s t) : OutLater s (execBootGo value t) := by
  unfold execBootGo
  (repeat' (first
    | with_reducible (first | assumption | apply later_hostActivity | apply later_done | apply later_bootGo | apply later_unsupportedRequest)
    | (extract_lets +onlyGivenNames u; (have hu : Later s u := ?_); (on_goal 1 => clear_value u); (on_goal 2 => (dsimp -zeta only [u]; clear u)))
    | (extract_lets +onlyGivenNames x; clear_value x)
    | split
    | exact out_refused
    | (with_reducible apply later_done)))

theorem later_execBootWindowAccess {s t : State} (access : WindowAccess) (h : Later s t) : OutLater s (execBootWindowAccess access t) := by
  unfold execBootWindowAccess
  (repeat' (first
    | with_reducible (first | assumption | apply later_hostActivity | apply later_done | apply later_unsupportedRequest | apply later_emit | apply later_withBoot)
    | intro _
    | (extract_lets +onlyGivenNames u; (have hu : Later s u := ?_); (on_goal 1 => clear_value u); (on_goal 2 => (dsimp -zeta only [u]; clear u)))
    | (extract_lets +onlyGivenNames x; clear_value x)
    | split
    | exact out_refused
    | (with_reducible apply later_done)))

theorem later_execPllLockTimeout {s t : State} (pll : Nat) (h : Later s t) : OutLater s (execPllLockTimeout pll t) := by
  unfold execPllLockTimeout
  (repeat' (first
    | with_reducible (first | assumption | apply later_done | apply later_coreReset | apply later_imageRefusal)
    | split
    | exact out_refused
    | (with_reducible apply later_done)))

theorem Seal.forward_rfl (a : Seal) : Seal.Forward a a := ⟨fun _ h => h, Nat.le_refl _, Nat.le_refl _, fun _ _ h => h⟩

theorem Seal.forward_trans {a b c : Seal} (h : Seal.Forward a b) (k : Seal.Forward b c) : Seal.Forward a c :=
  ⟨fun i x => k.1 i (h.1 i x), Nat.le_trans h.2.1 k.2.1, Nat.le_trans h.2.2.1 k.2.2.1, fun i v x => k.2.2.2 i v (h.2.2.2 i v x)⟩

/-- A command that passes its check moves the seal store forward (R81, Table 3-15). -/
theorem Seal.forward_apply {z : Seal} {info : BundleInfo} {c : Bytes} (h : z.accepts info c = true) :
    Seal.Forward z (z.apply c) := by
  unfold Seal.accepts at h
  unfold Seal.apply
  simp only [Bool.and_eq_true] at h
  have h := h.2
  split at h <;> dsimp only
  · simp only [Bool.and_eq_true] at h
    refine ⟨fun _ x => x, Nat.le_refl _, Nat.le_refl _, fun k v x => ?_⟩
    dsimp only
    by_cases ek : k = byteAt c 1
    · subst ek
      have h := h.2
      rw [x] at h
      rw [get?_put_same]
      simpa using Eq.symm (by simpa using h)
    · rw [get?_put_other _ _ ek]; exact x
  · refine ⟨fun k x => ?_, Nat.le_refl _, Nat.le_refl _, fun _ _ x => x⟩
    unfold bit at *
    rw [Nat.testBit_or, x]; rfl
  · exact ⟨fun _ x => x, Nat.le_max_left _ _, Nat.le_refl _, fun _ _ x => x⟩
  · simp only [Bool.and_eq_true, decide_eq_true_eq] at h
    exact ⟨fun _ x => x, Nat.le_refl _, h.2, fun _ _ x => x⟩
  · cases h

/-- A section that passes its checks moves the seal store forward. -/
theorem Seal.forward_all {info : BundleInfo} (cs : List Bytes) {z : Seal} {i : Nat} (h : sealFirstBad info z i cs = none) :
    Seal.Forward z (cs.foldl Seal.apply z) := by
  induction cs generalizing z i with
  | nil => exact Seal.forward_rfl z
  | cons c cs ih =>
    unfold sealFirstBad at h
    split at h
    · rename_i k
      simp only [Bool.and_eq_true] at k
      exact Seal.forward_trans (Seal.forward_apply k.1) (ih h)
    · cases h

theorem later_kept {s t : State} (h : Later s t) : Kept s t :=
  ⟨h.queue, h.sent, h.drawn, h.store ▸ Seal.forward_rfl _, h.dram, h.dict⟩

theorem kept_trans {s t u : State} (h : Kept s t) (k : Kept t u) : Kept s u :=
  ⟨k.queue.trans h.queue, h.sent.trans k.sent, Nat.le_trans h.drawn k.drawn, Seal.forward_trans h.store k.store,
    fun x => k.dram (h.dram x), fun x => k.dict (h.dict x)⟩

theorem kept_sealCommands (s : State) (info : BundleInfo) : Kept s (s.sealCommands info) := by
  unfold State.sealCommands
  split
  · exact later_kept (later_rfl s)
  · split
    · exact later_kept (later_dset _ _ _ (later_rfl s))
    · dsimp only
      split
      · exact later_kept (later_dset _ _ _ (later_dset _ _ _ (later_rfl s)))
      · rename_i h
        exact ⟨rfl, List.prefix_refl _, Nat.le_refl _, Seal.forward_all _ h, id, id⟩

theorem kept_lpddr5TrainingDone {s u : State} {f : Option Nat} (e : execLpddr5TrainingDone f s = .next u) : Kept s u := by
  unfold execLpddr5TrainingDone at e
  split at e
  · injection e with e
    subst e
    exact later_kept (later_settle (later_imageRefusal _ _ (later_coreReset _ (later_rfl s))))
  · injection e with e
    subst e
    exact kept_trans (kept_trans (later_kept (later_loadCores (later_rfl s))) (kept_sealCommands _ _))
      (later_kept (later_settle (later_enterReady _ (later_rfl _))))
  · injection e with e
    subst e
    exact later_kept (later_settle (later_rfl s))

theorem later_sectorErase {s t : State} (base : Nat) (k : Nat) (h : Later s t) : Later s (State.sectorErase t base k) := by
  unfold State.sectorErase
  (repeat' (first
    | with_reducible (first | assumption | apply later_emit)))

theorem later_sectorProgram {s t : State} (base : Nat) (fw : Bytes) (k : Nat) (h : Later s t) : Later s (State.sectorProgram t base fw k) := by
  unfold State.sectorProgram
  (repeat' (first
    | with_reducible (first | assumption | apply later_emit | apply later_foldl)
    | intro _))

theorem later_execEmberFwWrite {s t : State} (readBackOk : Bool) (h : Later s t) : OutLater s (execEmberFwWrite readBackOk t) := by
  unfold execEmberFwWrite
  (repeat' (first
    | with_reducible (first | assumption | apply later_sectorErase | apply later_sectorProgram | apply later_dset | apply later_done | apply later_withBoot | apply later_foldl)
    | intro _
    | (extract_lets +onlyGivenNames u; (have hu : Later s u := ?_); (on_goal 1 => clear_value u); (on_goal 2 => (dsimp -zeta only [u]; clear u)))
    | (extract_lets +onlyGivenNames x; clear_value x)
    | split
    | exact out_refused
    | (with_reducible apply later_done)))

theorem later_execHearthWatchdogExpiry {s t : State} (h : Later s t) : OutLater s (execHearthWatchdogExpiry t) := by
  unfold execHearthWatchdogExpiry
  (repeat' (first
    | with_reducible (first | assumption | apply later_done | apply later_logCls | apply later_coreReset)
    | split
    | exact out_refused
    | (with_reducible apply later_done)))

/-! Machine/Queues.lean -/

theorem later_onCommand {s t : State} (op : Nat) (n : Nat) (q : Nat) (tag : Nat) (k : Ctx → State → State) (k_k : ∀ v0 u, Later s u → Later s (k v0 u)) (h : Later s t) : OutLater s (onCommand op n q tag t k) := by
  unfold onCommand
  (repeat' (first
    | with_reducible (first | assumption | apply k_k | apply later_done)
    | split
    | exact out_refused
    | (with_reducible apply later_done)))

theorem later_strayDoorbell {s t : State} (n : Nat) (h : Later s t) : Later s (State.strayDoorbell t n) := by
  unfold State.strayDoorbell
  (repeat' (first
    | with_reducible (first | assumption | apply later_dinc | apply later_eventLimited)))

theorem later_sqBell {s t : State} (n : Nat) (q : Nat) (v : Nat) (h : Later s t) : Later s (State.sqBell t n q v) := by
  unfold State.sqBell
  (repeat' (first
    | with_reducible (first | assumption | apply later_setSq | apply later_freeze)
    | (extract_lets +onlyGivenNames u; (have hu : Later s u := ?_); (on_goal 1 => clear_value u); (on_goal 2 => (dsimp -zeta only [u]; clear u)))
    | (extract_lets +onlyGivenNames x; clear_value x)
    | split))

theorem later_cqBell {s t : State} (n : Nat) (q : Nat) (v : Nat) (h : Later s t) : Later s (State.cqBell t n q v) := by
  unfold State.cqBell
  (repeat' (first
    | with_reducible (first | assumption | apply later_setCq | apply later_cqDrain | apply later_freeze | apply later_stallCheck)
    | (extract_lets +onlyGivenNames u; (have hu : Later s u := ?_); (on_goal 1 => clear_value u); (on_goal 2 => (dsimp -zeta only [u]; clear u)))
    | (extract_lets +onlyGivenNames x; clear_value x)
    | split))

theorem later_sqDoorbell {s t : State} (n : Nat) (q : Nat) (value : Nat) (h : Later s t) : Later s (State.sqDoorbell t n q value) := by
  unfold State.sqDoorbell
  (repeat' (first
    | with_reducible (first | assumption | apply later_unsupportedRequest | apply later_strayDoorbell | apply later_setSq | apply later_sqBell)
    | (extract_lets +onlyGivenNames u; (have hu : Later s u := ?_); (on_goal 1 => clear_value u); (on_goal 2 => (dsimp -zeta only [u]; clear u)))
    | (extract_lets +onlyGivenNames x; clear_value x)
    | split))

theorem later_cqDoorbell {s t : State} (n : Nat) (q : Nat) (value : Nat) (h : Later s t) : Later s (State.cqDoorbell t n q value) := by
  unfold State.cqDoorbell
  (repeat' (first
    | with_reducible (first | assumption | apply later_unsupportedRequest | apply later_strayDoorbell | apply later_setCq | apply later_cqBell)
    | (extract_lets +onlyGivenNames u; (have hu : Later s u := ?_); (on_goal 1 => clear_value u); (on_goal 2 => (dsimp -zeta only [u]; clear u)))
    | (extract_lets +onlyGivenNames x; clear_value x)
    | split))

theorem later_execSqTailDoorbell {s t : State} (fn : Nat) (queue : Nat) (value : Nat) (h : Later s t) : OutLater s (execSqTailDoorbell fn queue value t) := by
  unfold execSqTailDoorbell
  (repeat' (first
    | with_reducible (first | assumption | apply later_done | apply later_hostActivity | apply later_sqDoorbell)
    | exact out_refused
    | (with_reducible apply later_done)))

theorem later_execCqHeadDoorbell {s t : State} (fn : Nat) (queue : Nat) (value : Nat) (h : Later s t) : OutLater s (execCqHeadDoorbell fn queue value t) := by
  unfold execCqHeadDoorbell
  (repeat' (first
    | with_reducible (first | assumption | apply later_done | apply later_hostActivity | apply later_cqDoorbell)
    | exact out_refused
    | (with_reducible apply later_done)))

theorem later_takeEntry {s t : State} (n : Nat) (q : Nat) (b : Bytes) (h : Later s t) : Later s (State.takeEntry t n q b) := by
  unfold State.takeEntry
  (repeat' (first
    | with_reducible (first | assumption | apply later_freeze | apply later_setSq | apply later_finish | apply later_withQ)
    | intro _
    | (extract_lets +onlyGivenNames u; (have hu : Later s u := ?_); (on_goal 1 => clear_value u); (on_goal 2 => (dsimp -zeta only [u]; clear u)))
    | (extract_lets +onlyGivenNames x; clear_value x)
    | split))

theorem later_execSqFetch {s t : State} (fn : Nat) (queue : Nat) (answer : FetchAnswer) (h : Later s t) : OutLater s (execSqFetch fn queue answer t) := by
  unfold execSqFetch
  (repeat' (first
    | with_reducible (first | assumption | apply later_wrrCount | apply later_answer | apply later_done | apply later_issueRead | apply later_withSq | apply later_hostActivity | apply later_emit | apply later_takeEntry)
    | intro _
    | (extract_lets +onlyGivenNames u; (have hu : Later s u := ?_); (on_goal 1 => clear_value u); (on_goal 2 => (dsimp -zeta only [u]; clear u)))
    | (extract_lets +onlyGivenNames x; clear_value x)
    | split
    | exact out_refused
    | (with_reducible apply later_done)))

theorem later_execCreateCq {s t : State} (fn : Nat) (tag : Nat) (h : Later s t) : OutLater s (execCreateCq fn tag t) := by
  unfold execCreateCq
  (repeat' (first
    | with_reducible (first | assumption | apply later_onCommand | apply later_setCq | apply later_reserveLow | apply later_complete)
    | intro _
    | (extract_lets +onlyGivenNames u; (have hu : Later s u := ?_); (on_goal 1 => clear_value u); (on_goal 2 => (dsimp -zeta only [u]; clear u)))
    | (extract_lets +onlyGivenNames x; clear_value x)
    | split
    | exact out_refused
    | (with_reducible apply later_done)))

theorem later_execCreateSq {s t : State} (fn : Nat) (tag : Nat) (h : Later s t) : OutLater s (execCreateSq fn tag t) := by
  unfold execCreateSq
  (repeat' (first
    | with_reducible (first | assumption | apply later_onCommand | apply later_setSq | apply later_complete)
    | intro _
    | (extract_lets +onlyGivenNames u; (have hu : Later s u := ?_); (on_goal 1 => clear_value u); (on_goal 2 => (dsimp -zeta only [u]; clear u)))
    | (extract_lets +onlyGivenNames x; clear_value x)
    | split
    | exact out_refused
    | (with_reducible apply later_done)))

theorem later_execDeleteSq {s t : State} (fn : Nat) (tag : Nat) (h : Later s t) : OutLater s (execDeleteSq fn tag t) := by
  unfold execDeleteSq
  (repeat' (first
    | with_reducible (first | assumption | apply later_onCommand | apply later_complete | apply later_setSq | apply later_markStarted)
    | intro _
    | (extract_lets +onlyGivenNames u; (have hu : Later s u := ?_); (on_goal 1 => clear_value u); (on_goal 2 => (dsimp -zeta only [u]; clear u)))
    | (extract_lets +onlyGivenNames x; clear_value x)
    | split
    | exact out_refused
    | (with_reducible apply later_done)))

theorem later_execDeleteCq {s t : State} (fn : Nat) (tag : Nat) (h : Later s t) : OutLater s (execDeleteCq fn tag t) := by
  unfold execDeleteCq
  (repeat' (first
    | with_reducible (first | assumption | apply later_onCommand | apply later_complete | apply later_withQ | apply later_reserveLow)
    | intro _
    | (extract_lets +onlyGivenNames u; (have hu : Later s u := ?_); (on_goal 1 => clear_value u); (on_goal 2 => (dsimp -zeta only [u]; clear u)))
    | (extract_lets +onlyGivenNames x; clear_value x)
    | split
    | exact out_refused
    | (with_reducible apply later_done)))

theorem later_restart {s t : State} (n : Nat) (q : Nat) (kind : Nat) (head : Nat) (phase : Bool) (h : Later s t) : Later s (State.restart t n q kind head phase).1 := by
  unfold State.restart
  (repeat' (first
    | with_reducible (first | assumption | apply later_setSq | apply later_sqBell | apply later_setCq | apply later_freeze | apply later_cqBell)
    | split))

theorem later_restart_eq {s t r : State} {x} {n : Nat} {q : Nat} {kind : Nat} {head : Nat} {phase : Bool} (h : Later s t) (e : State.restart t n q kind head phase = (r, x)) : Later s r := by
  have k := later_restart (s := s) (t := t) n q kind head phase  h
  rw [e] at k; exact k

theorem later_execRestartQueue {s t : State} (fn : Nat) (tag : Nat) (h : Later s t) : OutLater s (execRestartQueue fn tag t) := by
  unfold execRestartQueue
  (repeat' (first
    | with_reducible (first | assumption | apply later_onCommand | apply later_complete | apply later_restart | refine later_restart_eq ?_ (by assumption))
    | intro _
    | (extract_lets +onlyGivenNames u; (have hu : Later s u := ?_); (on_goal 1 => clear_value u); (on_goal 2 => (dsimp -zeta only [u]; clear u)))
    | (extract_lets +onlyGivenNames x; clear_value x)
    | split
    | exact out_refused
    | (with_reducible apply later_done)))

theorem later_execGetErrorLog {s t : State} (fn : Nat) (tag : Nat) (buf : HostRead) (h : Later s t) : OutLater s (execGetErrorLog fn tag buf t) := by
  unfold execGetErrorLog
  (repeat' (first
    | with_reducible (first | assumption | apply later_onCommand | apply later_complete | apply later_scatter | refine later_scatter_eq ?_ (by assumption))
    | intro _
    | (extract_lets +onlyGivenNames u; (have hu : Later s u := ?_); (on_goal 1 => clear_value u); (on_goal 2 => (dsimp -zeta only [u]; clear u)))
    | (extract_lets +onlyGivenNames x; clear_value x)
    | split
    | exact out_refused
    | (with_reducible apply later_done)))

theorem later_execAbort {s t : State} (fn : Nat) (tag : Nat) (h : Later s t) : OutLater s (execAbort fn tag t) := by
  unfold execAbort
  (repeat' (first
    | with_reducible (first | assumption | apply later_onCommand | apply later_complete | refine later_abortStarted ?_ (by assumption))
    | intro _
    | (extract_lets +onlyGivenNames u; (have hu : Later s u := ?_); (on_goal 1 => clear_value u); (on_goal 2 => (dsimp -zeta only [u]; clear u)))
    | (extract_lets +onlyGivenNames x; clear_value x)
    | split
    | exact out_refused
    | (with_reducible apply later_done)))

theorem later_execSetModeration {s t : State} (fn : Nat) (tag : Nat) (h : Later s t) : OutLater s (execSetModeration fn tag t) := by
  unfold execSetModeration
  (repeat' (first
    | with_reducible (first | assumption | apply later_onCommand | apply later_complete | apply later_setCq | apply later_cqMessage)
    | intro _
    | (extract_lets +onlyGivenNames u; (have hu : Later s u := ?_); (on_goal 1 => clear_value u); (on_goal 2 => (dsimp -zeta only [u]; clear u)))
    | (extract_lets +onlyGivenNames x; clear_value x)
    | split
    | exact out_refused
    | (with_reducible apply later_done)))

theorem later_execGetQueueStatus {s t : State} (fn : Nat) (tag : Nat) (h : Later s t) : OutLater s (execGetQueueStatus fn tag t) := by
  unfold execGetQueueStatus
  (repeat' (first
    | with_reducible (first | assumption | apply later_onCommand | apply later_complete)
    | intro _
    | (extract_lets +onlyGivenNames u; (have hu : Later s u := ?_); (on_goal 1 => clear_value u); (on_goal 2 => (dsimp -zeta only [u]; clear u)))
    | (extract_lets +onlyGivenNames x; clear_value x)
    | split
    | exact out_refused
    | (with_reducible apply later_done)))

theorem later_withTq {s t : State} (n : Nat) (f : TqRegs → TqRegs) (h : Later s t) : Later s (State.withTq t n f) := by
  unfold State.withTq
  (repeat' (first
    | with_reducible (first | assumption | apply later_withFn)
    | intro _))

theorem later_lastErr {s t : State} (n : Nat) (st : Status) (h : Later s t) : Later s (State.lastErr t n st) := by
  unfold State.lastErr
  (repeat' (first
    | with_reducible (first | assumption | apply later_withTq)
    | intro _))

theorem later_adminEnable {s t : State} (n : Nat) (h : Later s t) : Later s (State.adminEnable t n) := by
  unfold State.adminEnable
  (repeat' (first
    | with_reducible (first | assumption | apply later_setSq | apply later_setCq | apply later_lastErr)
    | (extract_lets +onlyGivenNames u; (have hu : Later s u := ?_); (on_goal 1 => clear_value u); (on_goal 2 => (dsimp -zeta only [u]; clear u)))
    | (extract_lets +onlyGivenNames x; clear_value x)
    | split))

theorem later_adminDisable {s t : State} (n : Nat) (h : Later s t) : Later s (State.adminDisable t n) := by
  unfold State.adminDisable
  (repeat' (first
    | with_reducible (first | assumption | apply later_lastErr | apply later_withTq)
    | intro _
    | split))

theorem later_adminRestart {s t : State} (n : Nat) (h : Later s t) : Later s (State.adminRestart t n) := by
  unfold State.adminRestart
  (repeat' (first
    | with_reducible (first | assumption | apply later_lastErr | apply later_restart | refine later_restart_eq ?_ (by assumption))
    | intro _
    | (extract_lets +onlyGivenNames u; (have hu : Later s u := ?_); (on_goal 1 => clear_value u); (on_goal 2 => (dsimp -zeta only [u]; clear u)))
    | (extract_lets +onlyGivenNames x; clear_value x)
    | split))

theorem later_actrl {s t : State} (n : Nat) (k : State → State) (k_k : ∀ u, Later s u → Later s (k u)) (h : Later s t) : Later s (State.actrl t n k) := by
  unfold State.actrl
  (repeat' (first
    | with_reducible (first | assumption | apply k_k | apply later_unsupportedRequest)
    | split))

theorem later_execAdminEnable {s t : State} (fn : Nat) (h : Later s t) : OutLater s (execAdminEnable fn t) := by
  unfold execAdminEnable
  (repeat' (first
    | with_reducible (first | assumption | apply later_done | apply later_hostActivity | apply later_actrl | apply later_adminEnable)
    | intro _
    | exact out_refused
    | (with_reducible apply later_done)))

theorem later_execAdminDisable {s t : State} (fn : Nat) (h : Later s t) : OutLater s (execAdminDisable fn t) := by
  unfold execAdminDisable
  (repeat' (first
    | with_reducible (first | assumption | apply later_done | apply later_hostActivity | apply later_actrl | apply later_adminDisable)
    | intro _
    | exact out_refused
    | (with_reducible apply later_done)))

theorem later_execAdminRestart {s t : State} (fn : Nat) (h : Later s t) : OutLater s (execAdminRestart fn t) := by
  unfold execAdminRestart
  (repeat' (first
    | with_reducible (first | assumption | apply later_done | apply later_hostActivity | apply later_actrl | apply later_adminRestart)
    | intro _
    | exact out_refused
    | (with_reducible apply later_done)))

theorem later_execAggTimeExpiry {s t : State} (fn : Nat) (queue : Nat) (h : Later s t) : OutLater s (execAggTimeExpiry fn queue t) := by
  unfold execAggTimeExpiry
  (repeat' (first
    | with_reducible (first | assumption | apply later_done | apply later_cqMessage)
    | split
    | exact out_refused
    | (with_reducible apply later_done)))

/-! Machine/Flow.lean -/

theorem later_execThreadInstruction {s t : State} (thread : Nat) (h : Later s t) : OutLater s (execThreadInstruction thread t) := by
  unfold execThreadInstruction
  (repeat' (first
    | with_reducible (first | assumption | apply later_done | apply later_replayStep | apply later_threadStep)
    | split
    | exact out_refused
    | (with_reducible apply later_done)))

theorem later_trRow {s t : State} (t_ : Nat) (op : TrOp) (rd : Nat) (rs1 : Nat) (rs2 : Nat) (h : Later s t) : Later s (State.trRow t t_ op rd rs1 rs2) := by
  unfold State.trRow
  (repeat' (first
    | with_reducible (first | assumption | apply later_trExec)
    | split))

theorem later_execTrWait {s t : State} (thread : Nat) (rd : Nat) (rs1 : Nat) (h : Later s t) : OutLater s (execTrWait thread rd rs1 t) := by
  unfold execTrWait
  (repeat' (first
    | with_reducible (first | assumption | apply later_done | apply later_trRow)
    | exact out_refused
    | (with_reducible apply later_done)))

theorem later_execTrRxf {s t : State} (thread : Nat) (rd : Nat) (rs1 : Nat) (rs2 : Nat) (h : Later s t) : OutLater s (execTrRxf thread rd rs1 rs2 t) := by
  unfold execTrRxf
  (repeat' (first
    | with_reducible (first | assumption | apply later_done | apply later_trRow)
    | exact out_refused
    | (with_reducible apply later_done)))

theorem later_execTrTxf {s t : State} (thread : Nat) (rd : Nat) (rs1 : Nat) (h : Later s t) : OutLater s (execTrTxf thread rd rs1 t) := by
  unfold execTrTxf
  (repeat' (first
    | with_reducible (first | assumption | apply later_done | apply later_trRow)
    | exact out_refused
    | (with_reducible apply later_done)))

theorem later_execTrDma {s t : State} (thread : Nat) (rd : Nat) (rs1 : Nat) (h : Later s t) : OutLater s (execTrDma thread rd rs1 t) := by
  unfold execTrDma
  (repeat' (first
    | with_reducible (first | assumption | apply later_done | apply later_trRow)
    | exact out_refused
    | (with_reducible apply later_done)))

theorem later_execTrClaim {s t : State} (thread : Nat) (rd : Nat) (rs1 : Nat) (h : Later s t) : OutLater s (execTrClaim thread rd rs1 t) := by
  unfold execTrClaim
  (repeat' (first
    | with_reducible (first | assumption | apply later_done | apply later_trRow)
    | exact out_refused
    | (with_reducible apply later_done)))

theorem later_execTrPut {s t : State} (thread : Nat) (rd : Nat) (rs1 : Nat) (rs2 : Nat) (h : Later s t) : OutLater s (execTrPut thread rd rs1 rs2 t) := by
  unfold execTrPut
  (repeat' (first
    | with_reducible (first | assumption | apply later_done | apply later_trRow)
    | exact out_refused
    | (with_reducible apply later_done)))

theorem later_execTrCommit {s t : State} (thread : Nat) (rd : Nat) (rs1 : Nat) (h : Later s t) : OutLater s (execTrCommit thread rd rs1 t) := by
  unfold execTrCommit
  (repeat' (first
    | with_reducible (first | assumption | apply later_done | apply later_trRow)
    | exact out_refused
    | (with_reducible apply later_done)))

theorem later_execTrRecv {s t : State} (thread : Nat) (rd : Nat) (rs1 : Nat) (h : Later s t) : OutLater s (execTrRecv thread rd rs1 t) := by
  unfold execTrRecv
  (repeat' (first
    | with_reducible (first | assumption | apply later_done | apply later_trRow)
    | exact out_refused
    | (with_reducible apply later_done)))

theorem later_execTrDrop {s t : State} (thread : Nat) (rd : Nat) (rs1 : Nat) (h : Later s t) : OutLater s (execTrDrop thread rd rs1 t) := by
  unfold execTrDrop
  (repeat' (first
    | with_reducible (first | assumption | apply later_done | apply later_trRow)
    | exact out_refused
    | (with_reducible apply later_done)))

theorem later_csrRow {s t : State} (t_ : Nat) (num : Nat) (v : Nat) (h : Later s t) : Later s (State.csrRow t t_ num v) := by
  unfold State.csrRow
  (repeat' (first
    | with_reducible (first | assumption | apply later_csrWrite | apply later_retire)
    | split))

theorem later_execTtimerWrite {s t : State} (thread : Nat) (value : Nat) (h : Later s t) : OutLater s (execTtimerWrite thread value t) := by
  unfold execTtimerWrite
  (repeat' (first
    | with_reducible (first | assumption | apply later_done | apply later_csrRow)
    | exact out_refused
    | (with_reducible apply later_done)))

theorem later_execTpetWrite {s t : State} (thread : Nat) (h : Later s t) : OutLater s (execTpetWrite thread t) := by
  unfold execTpetWrite
  (repeat' (first
    | with_reducible (first | assumption | apply later_done | apply later_csrRow)
    | exact out_refused
    | (with_reducible apply later_done)))

theorem later_execTtimerExpiry {s t : State} (thread : Nat) (h : Later s t) : OutLater s (execTtimerExpiry thread t) := by
  unfold execTtimerExpiry
  (repeat' (first
    | with_reducible (first | assumption | apply later_done | apply later_withThread)
    | intro _
    | split
    | exact out_refused
    | (with_reducible apply later_done)))

theorem later_execThreadWatchdogExpiry {s t : State} (thread : Nat) (h : Later s t) : OutLater s (execThreadWatchdogExpiry thread t) := by
  unfold execThreadWatchdogExpiry
  (repeat' (first
    | with_reducible (first | assumption | apply later_done | apply later_threadFault)
    | split
    | exact out_refused
    | (with_reducible apply later_done)))

theorem later_execReceiveCopyDone {s t : State} (thread : Nat) (h : Later s t) : OutLater s (execReceiveCopyDone thread t) := by
  unfold execReceiveCopyDone
  (repeat' (first
    | with_reducible (first | assumption | apply later_done | apply later_copyDone)
    | exact out_refused
    | (with_reducible apply later_done)))

theorem later_execDmaDone {s t : State} (thread : Nat) (tag : Nat) (h : Later s t) : OutLater s (execDmaDone thread tag t) := by
  unfold execDmaDone
  (repeat' (first
    | with_reducible (first | assumption | apply later_done | apply later_dmaEnd)
    | exact out_refused
    | (with_reducible apply later_done)))

theorem later_execTxfDone {s t : State} (thread : Nat) (h : Later s t) : OutLater s (execTxfDone thread t) := by
  unfold execTxfDone
  (repeat' (first
    | with_reducible (first | assumption | apply later_done | apply later_txfDone)
    | exact out_refused
    | (with_reducible apply later_done)))

theorem later_execGroupStopComplete {s t : State} (group : Nat) (h : Later s t) : OutLater s (execGroupStopComplete group t) := by
  unfold execGroupStopComplete
  (repeat' (first
    | with_reducible (first | assumption | apply later_done | apply later_groupStopped)
    | exact out_refused
    | (with_reducible apply later_done)))

theorem later_execStallDetected {s t : State} (group : Nat) (h : Later s t) : OutLater s (execStallDetected group t) := by
  unfold execStallDetected
  (repeat' (first
    | with_reducible (first | assumption | apply later_done | apply later_stall)
    | split
    | exact out_refused
    | (with_reducible apply later_done)))

theorem later_execThreadFaultHandling {s t : State} (thread : Nat) (h : Later s t) : OutLater s (execThreadFaultHandling thread t) := by
  unfold execThreadFaultHandling
  (repeat' (first
    | with_reducible (first | assumption | apply later_done | apply later_faultHandle)
    | split
    | exact out_refused
    | (with_reducible apply later_done)))

theorem later_execSliceDoubleBitError {s t : State} (thread : Nat) (h : Later s t) : OutLater s (execSliceDoubleBitError thread t) := by
  unfold execSliceDoubleBitError
  (repeat' (first
    | with_reducible (first | assumption | apply later_done | apply later_threadFault)
    | split
    | exact out_refused
    | (with_reducible apply later_done)))

theorem later_execCoreFault {s t : State} (core : Nat) (h : Later s t) : OutLater s (execCoreFault core t) := by
  unfold execCoreFault
  (repeat' (first
    | with_reducible (first | assumption | apply later_done | apply later_coreFault)
    | split
    | exact out_refused
    | (with_reducible apply later_done)))

theorem later_execCoreReloadDone {s t : State} (core : Nat) (measureOk : Bool) (h : Later s t) : OutLater s (execCoreReloadDone core measureOk t) := by
  unfold execCoreReloadDone
  (repeat' (first
    | with_reducible (first | assumption | apply later_done | apply later_coreReloaded)
    | exact out_refused
    | (with_reducible apply later_done)))

theorem later_execDebugHalt {s t : State} (thread : Nat) (h : Later s t) : OutLater s (execDebugHalt thread t) := by
  unfold execDebugHalt
  (repeat' (first
    | with_reducible (first | assumption | apply later_done | apply later_debugHalt)
    | split
    | exact out_refused
    | (with_reducible apply later_done)))

theorem later_execDebugResume {s t : State} (thread : Nat) (h : Later s t) : OutLater s (execDebugResume thread t) := by
  unfold execDebugResume
  (repeat' (first
    | with_reducible (first | assumption | apply later_done | apply later_debugResume)
    | split
    | exact out_refused
    | (with_reducible apply later_done)))

theorem later_execClaimRelease {s t : State} (thread : Nat) (h : Later s t) : OutLater s (execClaimRelease thread t) := by
  unfold execClaimRelease
  (repeat' (first
    | with_reducible (first | assumption | apply later_done | apply later_forceRelease)
    | split
    | exact out_refused
    | (with_reducible apply later_done)))

/-! Machine/Damper.lean -/

theorem later_execDamperTick {s t : State} (input : TickInput) (h : Later s t) : OutLater s (execDamperTick input t) := by
  unfold execDamperTick
  (repeat' (first
    | with_reducible (first | assumption | apply later_done | apply later_damperTickOp)
    | split
    | exact out_refused
    | (with_reducible apply later_done)))

theorem later_execDescentHoldExpiry {s t : State} (h : Later s t) : OutLater s (execDescentHoldExpiry t) := by
  unfold execDescentHoldExpiry
  (repeat' (first
    | with_reducible (first | assumption | apply later_done | apply later_ladderMove)
    | split
    | exact out_refused
    | (with_reducible apply later_done)))

theorem later_execCapReleaseHoldExpiry {s t : State} (inst : Nat) (h : Later s t) : OutLater s (execCapReleaseHoldExpiry inst t) := by
  unfold execCapReleaseHoldExpiry
  (repeat' (first
    | with_reducible (first | assumption | apply later_done | apply later_withDamper)
    | intro _
    | (extract_lets +onlyGivenNames u; (have hu : Later s u := ?_); (on_goal 1 => clear_value u); (on_goal 2 => (dsimp -zeta only [u]; clear u)))
    | (extract_lets +onlyGivenNames x; clear_value x)
    | split
    | exact out_refused
    | (with_reducible apply later_done)))

theorem later_execShedPortSearch {s t : State} (port : Nat) (partner : Bool) (h : Later s t) : OutLater s (execShedPortSearch port partner t) := by
  unfold execShedPortSearch
  (repeat' (first
    | with_reducible (first | assumption | apply later_done | apply later_withDamper | apply later_portsCheck)
    | intro _
    | split
    | exact out_refused
    | (with_reducible apply later_done)))

theorem later_execMeterSampleTimeout {s t : State} (domain : Nat) (h : Later s t) : OutLater s (execMeterSampleTimeout domain t) := by
  unfold execMeterSampleTimeout
  (repeat' (first
    | with_reducible (first | assumption | apply later_done | apply later_withDamper | apply later_logCls)
    | intro _
    | split
    | exact out_refused
    | (with_reducible apply later_done)))

theorem later_execIgnOffAllowanceReached {s t : State} (h : Later s t) : OutLater s (execIgnOffAllowanceReached t) := by
  unfold execIgnOffAllowanceReached
  (repeat' (first
    | with_reducible (first | assumption | apply later_event | apply later_withDamper | apply later_done | apply later_firmwareRequest)
    | intro _
    | (extract_lets +onlyGivenNames u; (have hu : Later s u := ?_); (on_goal 1 => clear_value u); (on_goal 2 => (dsimp -zeta only [u]; clear u)))
    | (extract_lets +onlyGivenNames x; clear_value x)
    | split
    | exact out_refused
    | (with_reducible apply later_done)))

theorem later_execThermalTrip {s t : State} (h : Later s t) : OutLater s (execThermalTrip t) := by
  unfold execThermalTrip
  (repeat' (first
    | with_reducible (first | assumption | apply later_done | apply later_wakeNote | apply later_withPow | apply later_pfailTaken)
    | intro _
    | split
    | exact out_refused
    | (with_reducible apply later_done)))

theorem later_execThermalTripShutdown {s t : State} (h : Later s t) : OutLater s (execThermalTripShutdown t) := by
  unfold execThermalTripShutdown
  (repeat' (first
    | with_reducible (first | assumption | apply later_done | apply later_emberOff | apply later_withPow)
    | intro _
    | split
    | exact out_refused
    | (with_reducible apply later_done)))

theorem later_execVsenseSample {s t : State} (code : Nat) (h : Later s t) : OutLater s (execVsenseSample code t) := by
  unfold execVsenseSample
  (repeat' (first
    | with_reducible (first | assumption | apply later_dset | apply later_withPow | apply later_done)
    | intro _
    | (extract_lets +onlyGivenNames u; (have hu : Later s u := ?_); (on_goal 1 => clear_value u); (on_goal 2 => (dsimp -zeta only [u]; clear u)))
    | (extract_lets +onlyGivenNames x; clear_value x)
    | split
    | exact out_refused
    | (with_reducible apply later_done)))

/-! Machine/Gatherer.lean -/

theorem later_claimRead {s t : State} (t_ : Nat) (h : Later s t) : Later s (State.claimRead t t_) := by
  unfold State.claimRead
  (repeat' (first
    | with_reducible (first | assumption | apply later_egClaimOp | refine later_egClaimOp_eq ?_ (by assumption) | apply later_emit | apply later_peatRecord | apply later_stackFaultHandling)
    | (extract_lets +onlyGivenNames u; (have hu : Later s u := ?_); (on_goal 1 => clear_value u); (on_goal 2 => (dsimp -zeta only [u]; clear u)))
    | (extract_lets +onlyGivenNames x; clear_value x)
    | split))

theorem later_execEgClaim {s t : State} (target : Nat) (h : Later s t) : OutLater s (execEgClaim target t) := by
  unfold execEgClaim
  (repeat' (first
    | with_reducible (first | assumption | apply later_done | apply later_claimRead)
    | split
    | exact out_refused
    | (with_reducible apply later_done)))

theorem later_execEgEoi {s t : State} (target : Nat) (source : Nat) (h : Later s t) : OutLater s (execEgEoi target source t) := by
  unfold execEgEoi
  (repeat' (first
    | with_reducible (first | assumption | apply later_done | apply later_egEoiOp)
    | split
    | exact out_refused
    | (with_reducible apply later_done)))

theorem later_execEgTctrlClear {s t : State} (target : Nat) (h : Later s t) : OutLater s (execEgTctrlClear target t) := by
  unfold execEgTctrlClear
  (repeat' (first
    | with_reducible (first | assumption | apply later_done | apply later_withGatherer)
    | intro _
    | split
    | exact out_refused
    | (with_reducible apply later_done)))

theorem later_execEgPset {s t : State} (k : Nat) (mask : Word) (h : Later s t) : OutLater s (execEgPset k mask t) := by
  unfold execEgPset
  (repeat' (first
    | with_reducible (first | assumption | apply later_done | apply later_event | apply later_foldl)
    | intro _
    | split
    | exact out_refused
    | (with_reducible apply later_done)))

theorem later_execEgPclr {s t : State} (k : Nat) (mask : Word) (firing : List Nat) (h : Later s t) : OutLater s (execEgPclr k mask firing t) := by
  unfold execEgPclr
  (repeat' (first
    | with_reducible (first | assumption | apply later_withGatherer | apply later_done | apply later_event | apply later_foldl)
    | intro _
    | (extract_lets +onlyGivenNames u; (have hu : Later s u := ?_); (on_goal 1 => clear_value u); (on_goal 2 => (dsimp -zeta only [u]; clear u)))
    | (extract_lets +onlyGivenNames x; clear_value x)
    | split
    | exact out_refused
    | (with_reducible apply later_done)))

theorem later_execEgSrcWrite {s t : State} (source : Nat) (value : Word) (h : Later s t) : OutLater s (execEgSrcWrite source value t) := by
  unfold execEgSrcWrite
  (repeat' (first
    | with_reducible (first | assumption | apply later_done | apply later_withGatherer)
    | intro _
    | (extract_lets +onlyGivenNames u; (have hu : Later s u := ?_); (on_goal 1 => clear_value u); (on_goal 2 => (dsimp -zeta only [u]; clear u)))
    | (extract_lets +onlyGivenNames x; clear_value x)
    | split
    | exact out_refused
    | (with_reducible apply later_done)))

/-! Machine/Ash.lean -/

theorem later_execAdmissionTokenGain {s t : State} (cls : Nat) (h : Later s t) : OutLater s (execAdmissionTokenGain cls t) := by
  unfold execAdmissionTokenGain
  (repeat' (first
    | with_reducible (first | assumption | apply later_done | apply later_tokenGain)
    | split
    | exact out_refused
    | (with_reducible apply later_done)))

theorem later_execAdmissionSummary {s t : State} (h : Later s t) : OutLater s (execAdmissionSummary t) := by
  unfold execAdmissionSummary
  (repeat' (first
    | with_reducible (first | assumption | apply later_done | apply later_summaries)
    | split
    | exact out_refused
    | (with_reducible apply later_done)))

theorem later_execUdpPush {s t : State} (h : Later s t) : OutLater s (execUdpPush t) := by
  unfold execUdpPush
  (repeat' (first
    | with_reducible (first | assumption | apply later_done | apply later_udpPush)
    | split
    | exact out_refused
    | (with_reducible apply later_done)))

theorem later_execCanExport {s t : State} (h : Later s t) : OutLater s (execCanExport t) := by
  unfold execCanExport
  (repeat' (first
    | with_reducible (first | assumption | apply later_done | apply later_canExport)
    | split
    | exact out_refused
    | (with_reducible apply later_done)))

theorem later_execAlarmInhibitExpiry {s t : State} (alarm : Nat) (h : Later s t) : OutLater s (execAlarmInhibitExpiry alarm t) := by
  unfold execAlarmInhibitExpiry
  (repeat' (first
    | with_reducible (first | assumption | apply later_done | apply later_inhibitOver)
    | split
    | exact out_refused
    | (with_reducible apply later_done)))

theorem later_execPeatCheckpoint {s t : State} (hearthMemory : Bytes) (h : Later s t) : OutLater s (execPeatCheckpoint hearthMemory t) := by
  unfold execPeatCheckpoint
  (repeat' (first
    | with_reducible (first | assumption | apply later_done | apply later_peatCheckpoint)
    | split
    | exact out_refused
    | (with_reducible apply later_done)))

theorem later_execPeatFreeze {s t : State} (h : Later s t) : OutLater s (execPeatFreeze t) := by
  unfold execPeatFreeze
  (repeat' (first
    | with_reducible (first | assumption | apply later_done | apply later_peatFreezeNow)
    | exact out_refused
    | (with_reducible apply later_done)))

theorem later_execPeatTrigger {s t : State} (h : Later s t) : OutLater s (execPeatTrigger t) := by
  unfold execPeatTrigger
  (repeat' (first
    | with_reducible (first | assumption | apply later_done | apply later_peatTrigger)
    | split
    | exact out_refused
    | (with_reducible apply later_done)))

/-! Machine/Debug.lean -/

theorem later_debugAttach {s t : State} (h : Later s t) : Later s (State.debugAttach t) := by
  unfold State.debugAttach
  (repeat' (first
    | with_reducible (first | assumption | apply later_withDbg | apply later_dset | apply later_dinc | apply later_event)
    | intro _
    | split))

theorem later_debugDetach {s t : State} (h : Later s t) : Later s (State.debugDetach t) := by
  unfold State.debugDetach
  (repeat' (first
    | with_reducible (first | assumption | apply later_dset | apply later_event)
    | split))

theorem later_execDebugSessionAttach {s t : State} (h : Later s t) : OutLater s (execDebugSessionAttach t) := by
  unfold execDebugSessionAttach
  (repeat' (first
    | with_reducible (first | assumption | apply later_done | apply later_debugAttach)
    | split
    | exact out_refused
    | (with_reducible apply later_done)))

theorem later_execDebugSessionDetach {s t : State} (h : Later s t) : OutLater s (execDebugSessionDetach t) := by
  unfold execDebugSessionDetach
  (repeat' (first
    | with_reducible (first | assumption | apply later_done | apply later_withDbg | apply later_debugDetach)
    | intro _
    | exact out_refused
    | (with_reducible apply later_done)))

theorem later_hartHalt {s t : State} (h_ : Nat) (h : Later s t) : Later s (State.hartHalt t h_) := by
  unfold State.hartHalt
  (repeat' (first
    | with_reducible (first | assumption | apply later_withDbg | apply later_debugHalt)
    | intro _
    | split))

theorem later_hearthResume {s t : State} (h : Later s t) : Later s (State.hearthResume t) := by
  unfold State.hearthResume
  (repeat' (first
    | with_reducible (first | assumption | apply later_logSubmit | apply later_withDbg | apply later_foldl)
    | intro _
    | (extract_lets +onlyGivenNames u; (have hu : Later s u := ?_); (on_goal 1 => clear_value u); (on_goal 2 => (dsimp -zeta only [u]; clear u)))
    | (extract_lets +onlyGivenNames x; clear_value x)))

theorem later_hartStep {s t : State} (h_ : Nat) (h : Later s t) : Later s (State.hartStep t h_) := by
  unfold State.hartStep
  (repeat' (first
    | with_reducible (first | assumption | apply later_debugResume | apply later_replayStep | apply later_threadStep | apply later_withThread)
    | intro _
    | (extract_lets +onlyGivenNames u; (have hu : Later s u := ?_); (on_goal 1 => clear_value u); (on_goal 2 => (dsimp -zeta only [u]; clear u)))
    | (extract_lets +onlyGivenNames x; clear_value x)
    | split))

theorem later_hartResume {s t : State} (h_ : Nat) (h : Later s t) : Later s (State.hartResume t h_) := by
  unfold State.hartResume
  (repeat' (first
    | with_reducible (first | assumption | apply later_withDbg | apply later_hearthResume | apply later_hartStep | apply later_debugResume)
    | intro _
    | (extract_lets +onlyGivenNames u; (have hu : Later s u := ?_); (on_goal 1 => clear_value u); (on_goal 2 => (dsimp -zeta only [u]; clear u)))
    | (extract_lets +onlyGivenNames x; clear_value x)
    | split))

theorem later_dmcontrolWrite {s t : State} (v : Nat) (h : Later s t) : Later s (State.dmcontrolWrite t v) := by
  unfold State.dmcontrolWrite
  (repeat' (first
    | with_reducible (first | assumption | apply later_withDbg | apply later_debugDetach | apply later_debugAttach | apply later_hartHalt | apply later_hartResume)
    | intro _
    | (extract_lets +onlyGivenNames u; (have hu : Later s u := ?_); (on_goal 1 => clear_value u); (on_goal 2 => (dsimp -zeta only [u]; clear u)))
    | (extract_lets +onlyGivenNames x; clear_value x)
    | split))

theorem later_dbgErr {s t : State} (n : Nat) (h : Later s t) : Later s (State.dbgErr t n) := by
  unfold State.dbgErr
  (repeat' (first
    | with_reducible (first | assumption | apply later_withDbg)
    | intro _))

theorem later_dbgReg {s t r : State} {x} {t_ : Nat} {n : Nat} (h : Later s t) (e : State.dbgReg t t_ n = some (x, r)) : Later s r := by
  have k : OptLater s (State.dbgReg t t_ n) := by
    unfold State.dbgReg
    (repeat' (first
      | with_reducible apply opt_some
      | exact opt_none
      | with_reducible (first | assumption | apply later_csrRead | refine later_csrRead_eq ?_ (by assumption))
      | (extract_lets +onlyGivenNames u; (have hu : Later s u := ?_); (on_goal 1 => clear_value u); (on_goal 2 => (dsimp -zeta only [u]; clear u)))
      | (extract_lets +onlyGivenNames x; clear_value x)
      | split
      | (dsimp -zeta only)
      | cases ‹none = some _›
      | (split at ‹_ = some _›)))
  exact k.some _ e

theorem later_dbgRegWrite {s t r : State} {t_ : Nat} {n : Nat} {v : Nat} (h : Later s t) (e : State.dbgRegWrite t t_ n v = some r) : Later s r := by
  unfold State.dbgRegWrite at e
  (try dsimp only at e)
  (repeat' (first | (injection e with e; subst e) | cases e | split at e))
  all_goals (repeat' (first
    | with_reducible (first | assumption | apply later_withThread | apply later_peatBreak | apply later_withDbg | apply later_csrWrite)
    | intro _
    | split
    | cases ‹none = some _›
    | (split at ‹_ = some _›)))

theorem later_dbgStore {s t r : State} {t_ : Nat} {a : Nat} {n : Nat} {v : Nat} (h : Later s t) (e : State.dbgStore t t_ a n v = some r) : Later s r := by
  unfold State.dbgStore at e
  (try dsimp only at e)
  (repeat' (first | (injection e with e; subst e) | cases e | split at e))
  all_goals (repeat' (first
    | with_reducible (first | assumption | apply later_withThread | apply later_peatBreak)
    | intro _
    | split
    | cases ‹none = some _›
    | (split at ‹_ = some _›)))

theorem later_dbgAdvance {s t : State} (v : Nat) (n : Nat) (h : Later s t) : Later s (State.dbgAdvance t v n) := by
  unfold State.dbgAdvance
  (repeat' (first
    | with_reducible (first | assumption | apply later_withDbg)
    | intro _
    | split))

theorem later_dmCommand {s t : State} (v : Nat) (h : Later s t) : Later s (State.dmCommand t v) := by
  unfold State.dmCommand
  (repeat' (first
    | with_reducible (first | assumption | apply later_dbgErr | apply later_peatBreak | apply later_drawBits | refine later_drawBits_eq ?_ (by assumption) | apply later_withDbg | refine later_dbgRegWrite ?_ (by assumption) | refine later_dbgReg ?_ (by assumption) | apply later_dbgAdvance | refine later_dbgStore ?_ (by assumption))
    | intro _
    | (extract_lets +onlyGivenNames u; (have hu : Later s u := ?_); (on_goal 1 => clear_value u); (on_goal 2 => (dsimp -zeta only [u]; clear u)))
    | (extract_lets +onlyGivenNames x; clear_value x)
    | split))

theorem later_dmiWrite {s t : State} (a : Nat) (v : Nat) (h : Later s t) : Later s (State.dmiWrite t a v) := by
  unfold State.dmiWrite
  (repeat' (first
    | with_reducible (first | assumption | apply later_dmcontrolWrite | apply later_forceRelease | apply later_withDbg | apply later_dmCommand)
    | intro _
    | split))

theorem later_dmiAccess {s t : State} (op : DmiOp) (h : Later s t) : Later s (State.dmiAccess t op) := by
  unfold State.dmiAccess
  (repeat' (first
    | with_reducible (first | assumption | apply later_emit | apply later_dmiWrite)
    | split))

theorem later_execDmiAccess {s t : State} (op : DmiOp) (h : Later s t) : OutLater s (execDmiAccess op t) := by
  unfold execDmiAccess
  (repeat' (first
    | with_reducible (first | assumption | apply later_done | apply later_dmiAccess)
    | exact out_refused
    | (with_reducible apply later_done)))

/-! Machine/Dictionary.lean -/

theorem later_execDictRead {s t : State} (who : Requester) (index : Nat) (sub : Nat) (h : Later s t) : OutLater s (execDictRead who index sub t) := by
  unfold execDictRead
  (repeat' (first
    | with_reducible (first | assumption | apply later_done | apply later_dictRequest)
    | exact out_refused
    | (with_reducible apply later_done)))

theorem later_execDictWrite {s t : State} (who : Requester) (index : Nat) (sub : Nat) (data : Bytes) (h : Later s t) : OutLater s (execDictWrite who index sub data t) := by
  unfold execDictWrite
  (repeat' (first
    | with_reducible (first | assumption | apply later_done | apply later_dictRequest)
    | exact out_refused
    | (with_reducible apply later_done)))

theorem later_execDictInfo {s t : State} (who : Requester) (index : Nat) (sub : Nat) (h : Later s t) : OutLater s (execDictInfo who index sub t) := by
  unfold execDictInfo
  (repeat' (first
    | with_reducible (first | assumption | apply later_done | apply later_dictRequest)
    | exact out_refused
    | (with_reducible apply later_done)))

theorem later_execDictNext {s t : State} (who : Requester) (index : Nat) (sub : Nat) (h : Later s t) : OutLater s (execDictNext who index sub t) := by
  unfold execDictNext
  (repeat' (first
    | with_reducible (first | assumption | apply later_done | apply later_dictRequest)
    | exact out_refused
    | (with_reducible apply later_done)))

theorem later_execDictReadShadow {s t : State} (who : Requester) (index : Nat) (sub : Nat) (h : Later s t) : OutLater s (execDictReadShadow who index sub t) := by
  unfold execDictReadShadow
  (repeat' (first
    | with_reducible (first | assumption | apply later_done | apply later_dictRequest)
    | exact out_refused
    | (with_reducible apply later_done)))

theorem later_execOnsiaDatagram {s t : State} (srcAddr : Nat) (srcPort : Nat) (dstAddr : Nat) (vlan : Nat) (payload : Bytes) (h : Later s t) : OutLater s (execOnsiaDatagram srcAddr srcPort dstAddr vlan payload t) := by
  unfold execOnsiaDatagram
  (repeat' (first
    | with_reducible (first | assumption | apply later_done | apply later_onsiaTake)
    | exact out_refused
    | (with_reducible apply later_done)))

theorem later_execOnsiaSessionTimeout {s t : State} (addr : Nat) (port : Nat) (session : Nat) (h : Later s t) : OutLater s (execOnsiaSessionTimeout addr port session t) := by
  unfold execOnsiaSessionTimeout
  (repeat' (first
    | with_reducible (first | assumption | apply later_done | apply later_withSvc)
    | intro _
    | exact out_refused
    | (with_reducible apply later_done)))

theorem later_execUsdoInitiateUpload {s t : State} (port : Nat) (index : Nat) (sub : Nat) (h : Later s t) : OutLater s (execUsdoInitiateUpload port index sub t) := by
  unfold execUsdoInitiateUpload
  (repeat' (first
    | with_reducible (first | assumption | apply later_done | apply later_usdoInitiate)
    | exact out_refused
    | (with_reducible apply later_done)))

theorem later_execUsdoInitiateDownload {s t : State} (port : Nat) (index : Nat) (sub : Nat) (size : Nat) (data : Bytes) (h : Later s t) : OutLater s (execUsdoInitiateDownload port index sub size data t) := by
  unfold execUsdoInitiateDownload
  (repeat' (first
    | with_reducible (first | assumption | apply later_done | apply later_usdoInitiate)
    | exact out_refused
    | (with_reducible apply later_done)))

theorem later_execUsdoSegment {s t : State} (port : Nat) (frame : UsdoFrame) (h : Later s t) : OutLater s (execUsdoSegment port frame t) := by
  unfold execUsdoSegment
  (repeat' (first
    | with_reducible (first | assumption | apply later_done | apply later_usdoSegment)
    | exact out_refused
    | (with_reducible apply later_done)))

theorem later_execUsdoTransferTimeout {s t : State} (port : Nat) (h : Later s t) : OutLater s (execUsdoTransferTimeout port t) := by
  unfold execUsdoTransferTimeout
  (repeat' (first
    | with_reducible (first | assumption | apply later_done | apply later_usdoTimeout)
    | exact out_refused
    | (with_reducible apply later_done)))

theorem later_execHeartbeat {s t : State} (h : Later s t) : OutLater s (execHeartbeat t) := by
  unfold execHeartbeat
  (repeat' (first
    | with_reducible (first | assumption | apply later_done | apply later_heartbeatSend)
    | exact out_refused
    | (with_reducible apply later_done)))

theorem later_execGroupCommit {s t : State} (who : Requester) (group : Nat) (h : Later s t) : OutLater s (execGroupCommit who group t) := by
  unfold execGroupCommit
  (repeat' (first
    | with_reducible (first | assumption | apply later_done | apply later_writeRequest)
    | exact out_refused
    | (with_reducible apply later_done)))

theorem later_execGroupDiscard {s t : State} (who : Requester) (group : Nat) (h : Later s t) : OutLater s (execGroupDiscard who group t) := by
  unfold execGroupDiscard
  (repeat' (first
    | with_reducible (first | assumption | apply later_done | apply later_writeRequest)
    | exact out_refused
    | (with_reducible apply later_done)))

theorem later_execGroupApply {s t : State} (group : Nat) (h : Later s t) : OutLater s (execGroupApply group t) := by
  unfold execGroupApply
  (repeat' (first
    | with_reducible (first | assumption | apply later_done | apply later_applyNow)
    | exact out_refused
    | (with_reducible apply later_done)))

theorem later_execShadowTimeout {s t : State} (group : Nat) (h : Later s t) : OutLater s (execShadowTimeout group t) := by
  unfold execShadowTimeout
  (repeat' (first
    | with_reducible (first | assumption | apply later_done | apply later_shadowExpire)
    | split
    | exact out_refused
    | (with_reducible apply later_done)))

theorem later_execWriteMaskWrite {s t : State} (who : Requester) (inst : Nat) (mask : Nat) (h : Later s t) : OutLater s (execWriteMaskWrite who inst mask t) := by
  unfold execWriteMaskWrite
  (repeat' (first
    | with_reducible (first | assumption | apply later_done | apply later_writeRequest)
    | exact out_refused
    | (with_reducible apply later_done)))

theorem later_execEmberRestart {s t : State} (who : Requester) (h : Later s t) : OutLater s (execEmberRestart who t) := by
  unfold execEmberRestart
  (repeat' (first
    | with_reducible (first | assumption | apply later_done | apply later_writeRequest)
    | exact out_refused
    | (with_reducible apply later_done)))

theorem later_execRequestBlaze {s t : State} (who : Requester) (h : Later s t) : OutLater s (execRequestBlaze who t) := by
  unfold execRequestBlaze
  (repeat' (first
    | with_reducible (first | assumption | apply later_done | apply later_writeRequest)
    | exact out_refused
    | (with_reducible apply later_done)))

theorem later_execRequestGlow {s t : State} (who : Requester) (h : Later s t) : OutLater s (execRequestGlow who t) := by
  unfold execRequestGlow
  (repeat' (first
    | with_reducible (first | assumption | apply later_done | apply later_writeRequest)
    | exact out_refused
    | (with_reducible apply later_done)))

theorem later_execRequestBanked {s t : State} (who : Requester) (h : Later s t) : OutLater s (execRequestBanked who t) := by
  unfold execRequestBanked
  (repeat' (first
    | with_reducible (first | assumption | apply later_done | apply later_writeRequest)
    | exact out_refused
    | (with_reducible apply later_done)))

theorem later_execRequestEmber {s t : State} (who : Requester) (h : Later s t) : OutLater s (execRequestEmber who t) := by
  unfold execRequestEmber
  (repeat' (first
    | with_reducible (first | assumption | apply later_done | apply later_writeRequest)
    | exact out_refused
    | (with_reducible apply later_done)))

theorem later_execManagerVote {s t : State} (who : Requester) (domain : Nat) (value : Nat) (h : Later s t) : OutLater s (execManagerVote who domain value t) := by
  unfold execManagerVote
  (repeat' (first
    | with_reducible (first | assumption | apply later_done | apply later_writeRequest)
    | exact out_refused
    | (with_reducible apply later_done)))

theorem later_execForceStep {s t : State} (who : Requester) (value : Nat) (h : Later s t) : OutLater s (execForceStep who value t) := by
  unfold execForceStep
  (repeat' (first
    | with_reducible (first | assumption | apply later_done | apply later_writeRequest)
    | exact out_refused
    | (with_reducible apply later_done)))

theorem later_execSnapshot {s t : State} (who : Requester) (value : Nat) (h : Later s t) : OutLater s (execSnapshot who value t) := by
  unfold execSnapshot
  (repeat' (first
    | with_reducible (first | assumption | apply later_done | apply later_writeRequest)
    | exact out_refused
    | (with_reducible apply later_done)))

theorem later_execTimeSet {s t : State} (who : Requester) (value : Nat) (h : Later s t) : OutLater s (execTimeSet who value t) := by
  unfold execTimeSet
  (repeat' (first
    | with_reducible (first | assumption | apply later_done | apply later_writeRequest)
    | exact out_refused
    | (with_reducible apply later_done)))

theorem later_execGroupStart {s t : State} (who : Requester) (group : Nat) (h : Later s t) : OutLater s (execGroupStart who group t) := by
  unfold execGroupStart
  (repeat' (first
    | with_reducible (first | assumption | apply later_done | apply later_writeRequest)
    | exact out_refused
    | (with_reducible apply later_done)))

theorem later_execGroupStop {s t : State} (who : Requester) (group : Nat) (h : Later s t) : OutLater s (execGroupStop who group t) := by
  unfold execGroupStop
  (repeat' (first
    | with_reducible (first | assumption | apply later_done | apply later_writeRequest)
    | exact out_refused
    | (with_reducible apply later_done)))

theorem later_execGroupRestart {s t : State} (who : Requester) (group : Nat) (h : Later s t) : OutLater s (execGroupRestart who group t) := by
  unfold execGroupRestart
  (repeat' (first
    | with_reducible (first | assumption | apply later_done | apply later_writeRequest)
    | exact out_refused
    | (with_reducible apply later_done)))

theorem later_execGroupDelete {s t : State} (who : Requester) (group : Nat) (h : Later s t) : OutLater s (execGroupDelete who group t) := by
  unfold execGroupDelete
  (repeat' (first
    | with_reducible (first | assumption | apply later_done | apply later_writeRequest)
    | exact out_refused
    | (with_reducible apply later_done)))

theorem later_execRestartGroup {s t : State} (who : Requester) (inst : Nat) (group : Nat) (h : Later s t) : OutLater s (execRestartGroup who inst group t) := by
  unfold execRestartGroup
  (repeat' (first
    | with_reducible (first | assumption | apply later_done | apply later_writeRequest)
    | exact out_refused
    | (with_reducible apply later_done)))

theorem later_execDeliveryThreadWrite {s t : State} (who : Requester) (core : Nat) (thread : Nat) (h : Later s t) : OutLater s (execDeliveryThreadWrite who core thread t) := by
  unfold execDeliveryThreadWrite
  (repeat' (first
    | with_reducible (first | assumption | apply later_done | apply later_writeRequest)
    | exact out_refused
    | (with_reducible apply later_done)))

theorem later_execClearTarget {s t : State} (who : Requester) (target : Nat) (h : Later s t) : OutLater s (execClearTarget who target t) := by
  unfold execClearTarget
  (repeat' (first
    | with_reducible (first | assumption | apply later_done | apply later_writeRequest)
    | exact out_refused
    | (with_reducible apply later_done)))

theorem later_execSourceMap {s t : State} (who : Requester) (data : Bytes) (h : Later s t) : OutLater s (execSourceMap who data t) := by
  unfold execSourceMap
  (repeat' (first
    | with_reducible (first | assumption | apply later_done | apply later_dictRequest)
    | exact out_refused
    | (with_reducible apply later_done)))

theorem later_execLogClear {s t : State} (who : Requester) (h : Later s t) : OutLater s (execLogClear who t) := by
  unfold execLogClear
  (repeat' (first
    | with_reducible (first | assumption | apply later_done | apply later_writeRequest)
    | exact out_refused
    | (with_reducible apply later_done)))

theorem later_execFirstOfKindClear {s t : State} (who : Requester) (h : Later s t) : OutLater s (execFirstOfKindClear who t) := by
  unfold execFirstOfKindClear
  (repeat' (first
    | with_reducible (first | assumption | apply later_done | apply later_writeRequest)
    | exact out_refused
    | (with_reducible apply later_done)))

theorem later_execExportPull {s t : State} (who : Requester) (h : Later s t) : OutLater s (execExportPull who t) := by
  unfold execExportPull
  (repeat' (first
    | with_reducible (first | assumption | apply later_done | apply later_dictRequest)
    | exact out_refused
    | (with_reducible apply later_done)))

theorem later_execAlarmAck {s t : State} (who : Requester) (alarm : Nat) (h : Later s t) : OutLater s (execAlarmAck who alarm t) := by
  unfold execAlarmAck
  (repeat' (first
    | with_reducible (first | assumption | apply later_done | apply later_writeRequest)
    | exact out_refused
    | (with_reducible apply later_done)))

theorem later_execAckAll {s t : State} (who : Requester) (h : Later s t) : OutLater s (execAckAll who t) := by
  unfold execAckAll
  (repeat' (first
    | with_reducible (first | assumption | apply later_done | apply later_writeRequest)
    | exact out_refused
    | (with_reducible apply later_done)))

theorem later_execAlarmDefine {s t : State} (who : Requester) (alarm : Nat) (sub : Nat) (value : Nat) (h : Later s t) : OutLater s (execAlarmDefine who alarm sub value t) := by
  unfold execAlarmDefine
  (repeat' (first
    | with_reducible (first | assumption | apply later_done | apply later_writeRequest)
    | exact out_refused
    | (with_reducible apply later_done)))

theorem later_execPeatOff {s t : State} (who : Requester) (h : Later s t) : OutLater s (execPeatOff who t) := by
  unfold execPeatOff
  (repeat' (first
    | with_reducible (first | assumption | apply later_done | apply later_writeRequest)
    | exact out_refused
    | (with_reducible apply later_done)))

theorem later_execPeatRing {s t : State} (who : Requester) (h : Later s t) : OutLater s (execPeatRing who t) := by
  unfold execPeatRing
  (repeat' (first
    | with_reducible (first | assumption | apply later_done | apply later_writeRequest)
    | exact out_refused
    | (with_reducible apply later_done)))

theorem later_execPeatOneShot {s t : State} (who : Requester) (h : Later s t) : OutLater s (execPeatOneShot who t) := by
  unfold execPeatOneShot
  (repeat' (first
    | with_reducible (first | assumption | apply later_done | apply later_writeRequest)
    | exact out_refused
    | (with_reducible apply later_done)))

theorem later_execTrigger {s t : State} (who : Requester) (h : Later s t) : OutLater s (execTrigger who t) := by
  unfold execTrigger
  (repeat' (first
    | with_reducible (first | assumption | apply later_done | apply later_writeRequest)
    | exact out_refused
    | (with_reducible apply later_done)))

theorem later_execPeatWindowWrite {s t : State} (who : Requester) (data : Bytes) (h : Later s t) : OutLater s (execPeatWindowWrite who data t) := by
  unfold execPeatWindowWrite
  (repeat' (first
    | with_reducible (first | assumption | apply later_done | apply later_dictRequest)
    | exact out_refused
    | (with_reducible apply later_done)))

theorem later_execReplayArm {s t : State} (who : Requester) (h : Later s t) : OutLater s (execReplayArm who t) := by
  unfold execReplayArm
  (repeat' (first
    | with_reducible (first | assumption | apply later_done | apply later_writeRequest)
    | exact out_refused
    | (with_reducible apply later_done)))

end Sys2Proof.Laws
end

