-- ==== Sys2Proof/Laws/LaterRowsB.lean ====
section
/-! SUPPORT. What the operations of the command rows, second part, and the tick keep whatever else they do (the relation Later): one lemma each, to be
cited in place of unfolding the operation. -/

namespace Sys2Proof.Laws

open Sys2Proof.Machine

/-! Machine/Storage.lean -/

theorem later_startStorage {s t : State} (c : Ctx) (j : Job) (h : Later s t) : Later s (State.startStorage t c j) := by
  unfold State.startStorage
  (repeat' (first
    | with_reducible (first | assumption | apply later_markStarted | apply later_startJob)))

theorem later_execNsCreate {s t : State} (fn : Nat) (tag : Nat) (h : Later s t) : OutLater s (execNsCreate fn tag t) := by
  unfold execNsCreate
  (repeat' (first
    | with_reducible (first | assumption | apply later_onCommand | apply later_withStor | apply later_startStorage | apply later_complete)
    | intro _
    | (extract_lets +onlyGivenNames u; (have hu : Later s u := ?_); (on_goal 1 => clear_value u); (on_goal 2 => (dsimp -zeta only [u]; clear u)))
    | (extract_lets +onlyGivenNames x; clear_value x)
    | split
    | cases ‹none = some _›
    | (split at ‹_ = some _›)
    | exact out_refused
    | (with_reducible apply later_done)))

theorem later_execNsDelete {s t : State} (fn : Nat) (tag : Nat) (h : Later s t) : OutLater s (execNsDelete fn tag t) := by
  unfold execNsDelete
  (repeat' (first
    | with_reducible (first | assumption | apply later_onCommand | apply later_complete | apply later_startStorage)
    | intro _
    | (extract_lets +onlyGivenNames u; (have hu : Later s u := ?_); (on_goal 1 => clear_value u); (on_goal 2 => (dsimp -zeta only [u]; clear u)))
    | (extract_lets +onlyGivenNames x; clear_value x)
    | split
    | exact out_refused
    | (with_reducible apply later_done)))

theorem later_execNsIdentify {s t : State} (fn : Nat) (tag : Nat) (buf : HostRead) (h : Later s t) : OutLater s (execNsIdentify fn tag buf t) := by
  unfold execNsIdentify
  (repeat' (first
    | with_reducible (first | assumption | apply later_onCommand | apply later_complete | apply later_scatter | refine later_scatter_eq ?_ (by assumption) | apply later_storEnd)
    | intro _
    | (extract_lets +onlyGivenNames u; (have hu : Later s u := ?_); (on_goal 1 => clear_value u); (on_goal 2 => (dsimp -zeta only [u]; clear u)))
    | (extract_lets +onlyGivenNames x; clear_value x)
    | split
    | exact out_refused
    | (with_reducible apply later_done)))

theorem later_execNsErase {s t : State} (fn : Nat) (tag : Nat) (h : Later s t) : OutLater s (execNsErase fn tag t) := by
  unfold execNsErase
  (repeat' (first
    | with_reducible (first | assumption | apply later_onCommand | apply later_complete | apply later_startStorage)
    | intro _
    | (extract_lets +onlyGivenNames u; (have hu : Later s u := ?_); (on_goal 1 => clear_value u); (on_goal 2 => (dsimp -zeta only [u]; clear u)))
    | (extract_lets +onlyGivenNames x; clear_value x)
    | split
    | exact out_refused
    | (with_reducible apply later_done)))

theorem later_execEvidenceRelease {s t : State} (fn : Nat) (tag : Nat) (h : Later s t) : OutLater s (execEvidenceRelease fn tag t) := by
  unfold execEvidenceRelease
  (repeat' (first
    | with_reducible (first | assumption | apply later_onCommand | apply later_complete | apply later_startStorage)
    | intro _
    | (extract_lets +onlyGivenNames u; (have hu : Later s u := ?_); (on_goal 1 => clear_value u); (on_goal 2 => (dsimp -zeta only [u]; clear u)))
    | (extract_lets +onlyGivenNames x; clear_value x)
    | split
    | exact out_refused
    | (with_reducible apply later_done)))

theorem later_execSsdPrepare {s t : State} (fn : Nat) (tag : Nat) (h : Later s t) : OutLater s (execSsdPrepare fn tag t) := by
  unfold execSsdPrepare
  (repeat' (first
    | with_reducible (first | assumption | apply later_onCommand | apply later_complete | apply later_startStorage)
    | intro _
    | (extract_lets +onlyGivenNames u; (have hu : Later s u := ?_); (on_goal 1 => clear_value u); (on_goal 2 => (dsimp -zeta only [u]; clear u)))
    | (extract_lets +onlyGivenNames x; clear_value x)
    | split
    | exact out_refused
    | (with_reducible apply later_done)))

theorem later_execSsdDetach {s t : State} (fn : Nat) (tag : Nat) (h : Later s t) : OutLater s (execSsdDetach fn tag t) := by
  unfold execSsdDetach
  (repeat' (first
    | with_reducible (first | assumption | apply later_onCommand | apply later_complete | apply later_markStarted | apply later_withPort)
    | intro _
    | (extract_lets +onlyGivenNames u; (have hu : Later s u := ?_); (on_goal 1 => clear_value u); (on_goal 2 => (dsimp -zeta only [u]; clear u)))
    | (extract_lets +onlyGivenNames x; clear_value x)
    | split
    | exact out_refused
    | (with_reducible apply later_done)))

theorem later_execSsdAttach {s t : State} (fn : Nat) (tag : Nat) (h : Later s t) : OutLater s (execSsdAttach fn tag t) := by
  unfold execSsdAttach
  (repeat' (first
    | with_reducible (first | assumption | apply later_onCommand | apply later_complete | apply later_markStarted | apply later_attachStart | apply later_withPort)
    | intro _
    | (extract_lets +onlyGivenNames u; (have hu : Later s u := ?_); (on_goal 1 => clear_value u); (on_goal 2 => (dsimp -zeta only [u]; clear u)))
    | (extract_lets +onlyGivenNames x; clear_value x)
    | split
    | exact out_refused
    | (with_reducible apply later_done)))

theorem later_execRead {s t : State} (fn : Nat) (queue : Nat) (tag : Nat) (buf : HostRead) (h : Later s t) : OutLater s (execRead fn queue tag buf t) := by
  unfold execRead
  (repeat' (first
    | with_reducible (first | assumption | apply later_onCommand | apply later_complete | apply later_storEnd | apply later_startStorage)
    | intro _
    | (extract_lets +onlyGivenNames u; (have hu : Later s u := ?_); (on_goal 1 => clear_value u); (on_goal 2 => (dsimp -zeta only [u]; clear u)))
    | (extract_lets +onlyGivenNames x; clear_value x)
    | split
    | exact out_refused
    | (with_reducible apply later_done)))

theorem later_execWrite {s t : State} (fn : Nat) (queue : Nat) (tag : Nat) (data : HostRead) (h : Later s t) : OutLater s (execWrite fn queue tag data t) := by
  unfold execWrite
  (repeat' (first
    | with_reducible (first | assumption | apply later_onCommand | apply later_complete | apply later_storEnd | apply later_startStorage)
    | intro _
    | (extract_lets +onlyGivenNames u; (have hu : Later s u := ?_); (on_goal 1 => clear_value u); (on_goal 2 => (dsimp -zeta only [u]; clear u)))
    | (extract_lets +onlyGivenNames x; clear_value x)
    | split
    | exact out_refused
    | (with_reducible apply later_done)))

theorem later_execFlush {s t : State} (fn : Nat) (queue : Nat) (tag : Nat) (h : Later s t) : OutLater s (execFlush fn queue tag t) := by
  unfold execFlush
  (repeat' (first
    | with_reducible (first | assumption | apply later_onCommand | apply later_complete | apply later_startStorage)
    | intro _
    | (extract_lets +onlyGivenNames u; (have hu : Later s u := ?_); (on_goal 1 => clear_value u); (on_goal 2 => (dsimp -zeta only [u]; clear u)))
    | (extract_lets +onlyGivenNames x; clear_value x)
    | split
    | exact out_refused
    | (with_reducible apply later_done)))

theorem later_execDeallocate {s t : State} (fn : Nat) (queue : Nat) (tag : Nat) (h : Later s t) : OutLater s (execDeallocate fn queue tag t) := by
  unfold execDeallocate
  (repeat' (first
    | with_reducible (first | assumption | apply later_onCommand | apply later_complete | apply later_startStorage)
    | intro _
    | (extract_lets +onlyGivenNames u; (have hu : Later s u := ?_); (on_goal 1 => clear_value u); (on_goal 2 => (dsimp -zeta only [u]; clear u)))
    | (extract_lets +onlyGivenNames x; clear_value x)
    | split
    | exact out_refused
    | (with_reducible apply later_done)))

theorem later_execWriteZeroes {s t : State} (fn : Nat) (queue : Nat) (tag : Nat) (h : Later s t) : OutLater s (execWriteZeroes fn queue tag t) := by
  unfold execWriteZeroes
  (repeat' (first
    | with_reducible (first | assumption | apply later_onCommand | apply later_complete | apply later_startStorage)
    | intro _
    | (extract_lets +onlyGivenNames u; (have hu : Later s u := ?_); (on_goal 1 => clear_value u); (on_goal 2 => (dsimp -zeta only [u]; clear u)))
    | (extract_lets +onlyGivenNames x; clear_value x)
    | split
    | exact out_refused
    | (with_reducible apply later_done)))

theorem later_execVerify {s t : State} (fn : Nat) (queue : Nat) (tag : Nat) (h : Later s t) : OutLater s (execVerify fn queue tag t) := by
  unfold execVerify
  (repeat' (first
    | with_reducible (first | assumption | apply later_onCommand | apply later_complete | apply later_startStorage)
    | intro _
    | (extract_lets +onlyGivenNames u; (have hu : Later s u := ?_); (on_goal 1 => clear_value u); (on_goal 2 => (dsimp -zeta only [u]; clear u)))
    | (extract_lets +onlyGivenNames x; clear_value x)
    | split
    | exact out_refused
    | (with_reducible apply later_done)))

theorem later_execEvidenceAppend {s t : State} (fn : Nat) (queue : Nat) (tag : Nat) (data : HostRead) (h : Later s t) : OutLater s (execEvidenceAppend fn queue tag data t) := by
  unfold execEvidenceAppend
  (repeat' (first
    | with_reducible (first | assumption | apply later_onCommand | apply later_complete | apply later_storEnd | apply later_eventLimited | apply later_takePositions | apply later_startStorage)
    | intro _
    | (extract_lets +onlyGivenNames u; (have hu : Later s u := ?_); (on_goal 1 => clear_value u); (on_goal 2 => (dsimp -zeta only [u]; clear u)))
    | (extract_lets +onlyGivenNames x; clear_value x)
    | split
    | exact out_refused
    | (with_reducible apply later_done)))

theorem later_execRootPortLinkUp {s t : State} (port : Nat) (h : Later s t) : OutLater s (execRootPortLinkUp port t) := by
  unfold execRootPortLinkUp
  (repeat' (first
    | with_reducible (first | assumption | apply later_done | apply later_withPort | apply later_emit)
    | intro _
    | (extract_lets +onlyGivenNames u; (have hu : Later s u := ?_); (on_goal 1 => clear_value u); (on_goal 2 => (dsimp -zeta only [u]; clear u)))
    | (extract_lets +onlyGivenNames x; clear_value x)
    | split
    | exact out_refused
    | (with_reducible apply later_done)))

theorem later_execRootPortLinkDown {s t : State} (port : Nat) (h : Later s t) : OutLater s (execRootPortLinkDown port t) := by
  unfold execRootPortLinkDown
  (repeat' (first
    | with_reducible (first | assumption | apply later_withPort | apply later_done | apply later_portFail)
    | intro _
    | (extract_lets +onlyGivenNames u; (have hu : Later s u := ?_); (on_goal 1 => clear_value u); (on_goal 2 => (dsimp -zeta only [u]; clear u)))
    | (extract_lets +onlyGivenNames x; clear_value x)
    | split
    | exact out_refused
    | (with_reducible apply later_done)))

theorem later_execControllerReady {s t : State} (port : Nat) (identity : SsdIdentity) (h : Later s t) : OutLater s (execControllerReady port identity t) := by
  unfold execControllerReady
  (repeat' (first
    | with_reducible (first | assumption | apply later_done | apply later_attachIdentified | apply later_withPort | apply later_emit | apply later_foldl)
    | intro _
    | (extract_lets +onlyGivenNames u; (have hu : Later s u := ?_); (on_goal 1 => clear_value u); (on_goal 2 => (dsimp -zeta only [u]; clear u)))
    | (extract_lets +onlyGivenNames x; clear_value x)
    | split
    | exact out_refused
    | (with_reducible apply later_done)))

theorem later_execControllerReadyTimeout {s t : State} (port : Nat) (h : Later s t) : OutLater s (execControllerReadyTimeout port t) := by
  unfold execControllerReadyTimeout
  (repeat' (first
    | with_reducible (first | assumption | apply later_done | apply later_portFail | apply later_attachEnd)
    | (extract_lets +onlyGivenNames u; (have hu : Later s u := ?_); (on_goal 1 => clear_value u); (on_goal 2 => (dsimp -zeta only [u]; clear u)))
    | (extract_lets +onlyGivenNames x; clear_value x)
    | split
    | exact out_refused
    | (with_reducible apply later_done)))

theorem later_execBackendCompletion {s t : State} (port : Nat) (command : Nat) (result : BackendResult) (h : Later s t) : OutLater s (execBackendCompletion port command result t) := by
  unfold execBackendCompletion
  (repeat' (first
    | with_reducible (first | assumption | apply later_done | apply later_backendEnds)
    | intro _
    | split
    | exact out_refused
    | (with_reducible apply later_done)))

theorem later_execBackendTimeout {s t : State} (port : Nat) (command : Nat) (h : Later s t) : OutLater s (execBackendTimeout port command t) := by
  unfold execBackendTimeout
  (repeat' (first
    | with_reducible (first | assumption | apply later_done | apply later_backendEnds | apply later_withPort | apply later_dinc | apply later_eventLog | apply later_emit)
    | intro _
    | (extract_lets +onlyGivenNames u; (have hu : Later s u := ?_); (on_goal 1 => clear_value u); (on_goal 2 => (dsimp -zeta only [u]; clear u)))
    | (extract_lets +onlyGivenNames x; clear_value x)
    | split
    | exact out_refused
    | (with_reducible apply later_done)))

theorem later_execSsdAsyncEvent {s t : State} (port : Nat) (warning : Nat) (h : Later s t) : OutLater s (execSsdAsyncEvent port warning t) := by
  unfold execSsdAsyncEvent
  (repeat' (first
    | with_reducible (first | assumption | apply later_dset | apply later_done | apply later_eventLog)
    | (extract_lets +onlyGivenNames u; (have hu : Later s u := ?_); (on_goal 1 => clear_value u); (on_goal 2 => (dsimp -zeta only [u]; clear u)))
    | (extract_lets +onlyGivenNames x; clear_value x)
    | split
    | exact out_refused
    | (with_reducible apply later_done)))

theorem later_execCatalogueCheckpoint {s t : State} (ns : Nat) (h : Later s t) : OutLater s (execCatalogueCheckpoint ns t) := by
  unfold execCatalogueCheckpoint
  (repeat' (first
    | with_reducible (first | assumption | apply later_done | apply later_withNs | apply later_catalogueWrite)
    | intro _
    | split
    | exact out_refused
    | (with_reducible apply later_done)))

theorem later_execFlushGatherExpiry {s t : State} (h : Later s t) : OutLater s (execFlushGatherExpiry t) := by
  unfold execFlushGatherExpiry
  (repeat' (first
    | with_reducible (first | assumption | apply later_done | apply later_dadd | apply later_withStor)
    | intro _
    | (extract_lets +onlyGivenNames u; (have hu : Later s u := ?_); (on_goal 1 => clear_value u); (on_goal 2 => (dsimp -zeta only [u]; clear u)))
    | (extract_lets +onlyGivenNames x; clear_value x)
    | exact out_refused
    | (with_reducible apply later_done)))

/-! Machine/Kiln.lean -/

theorem later_onKiln {s t : State} (op : Nat) (tag : Nat) (k : Ctx → Nat → State → State) (k_k : ∀ v0 v1 u, Later s u → Later s (k v0 v1 u)) (h : Later s t) : OutLater s (onKiln op tag t k) := by
  unfold onKiln
  (repeat' (first
    | with_reducible (first | assumption | apply k_k | apply later_onCommand)
    | intro _
    | exact out_refused
    | (with_reducible apply later_done)))

theorem later_execKilnStreamCreate {s t : State} (tag : Nat) (record : HostRead) (h : Later s t) : OutLater s (execKilnStreamCreate tag record t) := by
  unfold execKilnStreamCreate
  (repeat' (first
    | with_reducible (first | assumption | apply later_onKiln | apply later_complete | apply later_withStream | apply later_streamTo)
    | intro _
    | (extract_lets +onlyGivenNames u; (have hu : Later s u := ?_); (on_goal 1 => clear_value u); (on_goal 2 => (dsimp -zeta only [u]; clear u)))
    | (extract_lets +onlyGivenNames x; clear_value x)
    | split
    | exact out_refused
    | (with_reducible apply later_done)))

theorem later_execKilnStreamOpen {s t : State} (tag : Nat) (h : Later s t) : OutLater s (execKilnStreamOpen tag t) := by
  unfold execKilnStreamOpen
  (repeat' (first
    | with_reducible (first | assumption | apply later_onKiln | apply later_complete | apply later_markStarted | apply later_withStream | apply later_emit)
    | intro _
    | (extract_lets +onlyGivenNames u; (have hu : Later s u := ?_); (on_goal 1 => clear_value u); (on_goal 2 => (dsimp -zeta only [u]; clear u)))
    | (extract_lets +onlyGivenNames x; clear_value x)
    | split
    | exact out_refused
    | (with_reducible apply later_done)))

theorem later_execLeaseWritten {s t : State} (stream : Nat) (ok : Bool) (h : Later s t) : OutLater s (execLeaseWritten stream ok t) := by
  unfold execLeaseWritten
  (repeat' (first
    | with_reducible (first | assumption | apply later_done | apply later_withStream | apply later_withNs | apply later_mediaError | apply later_complete | apply later_streamTo)
    | intro _
    | (extract_lets +onlyGivenNames u; (have hu : Later s u := ?_); (on_goal 1 => clear_value u); (on_goal 2 => (dsimp -zeta only [u]; clear u)))
    | (extract_lets +onlyGivenNames x; clear_value x)
    | split
    | exact out_refused
    | (with_reducible apply later_done)))

theorem later_execKilnStreamClose {s t : State} (tag : Nat) (h : Later s t) : OutLater s (execKilnStreamClose tag t) := by
  unfold execKilnStreamClose
  (repeat' (first
    | with_reducible (first | assumption | apply later_onKiln | apply later_complete | apply later_markStarted | apply later_kilnFlush | apply later_withStream | apply later_closeSeg | apply later_streamTo | apply later_closingSettle | apply later_streamClosed)
    | intro _
    | (extract_lets +onlyGivenNames u; (have hu : Later s u := ?_); (on_goal 1 => clear_value u); (on_goal 2 => (dsimp -zeta only [u]; clear u)))
    | (extract_lets +onlyGivenNames x; clear_value x)
    | split
    | exact out_refused
    | (with_reducible apply later_done)))

theorem later_execKilnStreamKeys {s t : State} (tag : Nat) (list : HostRead) (h : Later s t) : OutLater s (execKilnStreamKeys tag list t) := by
  unfold execKilnStreamKeys
  (repeat' (first
    | with_reducible (first | assumption | apply later_onKiln | apply later_complete | apply later_withStream | apply later_streamTo)
    | intro _
    | (extract_lets +onlyGivenNames u; (have hu : Later s u := ?_); (on_goal 1 => clear_value u); (on_goal 2 => (dsimp -zeta only [u]; clear u)))
    | (extract_lets +onlyGivenNames x; clear_value x)
    | split
    | exact out_refused
    | (with_reducible apply later_done)))

theorem later_execKilnStreamDelete {s t : State} (tag : Nat) (h : Later s t) : OutLater s (execKilnStreamDelete tag t) := by
  unfold execKilnStreamDelete
  (repeat' (first
    | with_reducible (first | assumption | apply later_onKiln | apply later_complete | apply later_withStream | apply later_streamTo)
    | intro _
    | (extract_lets +onlyGivenNames u; (have hu : Later s u := ?_); (on_goal 1 => clear_value u); (on_goal 2 => (dsimp -zeta only [u]; clear u)))
    | (extract_lets +onlyGivenNames x; clear_value x)
    | split
    | exact out_refused
    | (with_reducible apply later_done)))

theorem later_execKilnStreamGet {s t : State} (tag : Nat) (buf : HostRead) (h : Later s t) : OutLater s (execKilnStreamGet tag buf t) := by
  unfold execKilnStreamGet
  (repeat' (first
    | with_reducible (first | assumption | apply later_onKiln | apply later_complete | apply later_scatter | refine later_scatter_eq ?_ (by assumption))
    | intro _
    | (extract_lets +onlyGivenNames u; (have hu : Later s u := ?_); (on_goal 1 => clear_value u); (on_goal 2 => (dsimp -zeta only [u]; clear u)))
    | (extract_lets +onlyGivenNames x; clear_value x)
    | split
    | exact out_refused
    | (with_reducible apply later_done)))

theorem later_execKilnStreamIndex {s t : State} (tag : Nat) (h : Later s t) : OutLater s (execKilnStreamIndex tag t) := by
  unfold execKilnStreamIndex
  (repeat' (first
    | with_reducible (first | assumption | apply later_onKiln | apply later_complete | apply later_withStream | apply later_rangePost)
    | intro _
    | (extract_lets +onlyGivenNames u; (have hu : Later s u := ?_); (on_goal 1 => clear_value u); (on_goal 2 => (dsimp -zeta only [u]; clear u)))
    | (extract_lets +onlyGivenNames x; clear_value x)
    | split
    | exact out_refused
    | (with_reducible apply later_done)))

theorem later_execKilnAdmission {s t : State} (stream : Nat) (h : Later s t) : OutLater s (execKilnAdmission stream t) := by
  unfold execKilnAdmission
  (repeat' (first
    | with_reducible (first | assumption | apply later_done | apply later_admission)
    | exact out_refused
    | (with_reducible apply later_done)))

theorem later_execSegmentAgeExpiry {s t : State} (stream : Nat) (h : Later s t) : OutLater s (execSegmentAgeExpiry stream t) := by
  unfold execSegmentAgeExpiry
  (repeat' (first
    | with_reducible (first | assumption | apply later_done | apply later_closeSeg)
    | exact out_refused
    | (with_reducible apply later_done)))

theorem later_execRunAgeExpiry {s t : State} (stream : Nat) (h : Later s t) : OutLater s (execRunAgeExpiry stream t) := by
  unfold execRunAgeExpiry
  (repeat' (first
    | with_reducible (first | assumption | apply later_done | apply later_issueRun)
    | split
    | exact out_refused
    | (with_reducible apply later_done)))

theorem later_execPfail {s t : State} (h : Later s t) : OutLater s (execPfail t) := by
  unfold execPfail
  (repeat' (first
    | with_reducible (first | assumption | apply later_withKiln | apply later_done | apply later_pfailTaken)
    | intro _
    | (extract_lets +onlyGivenNames u; (have hu : Later s u := ?_); (on_goal 1 => clear_value u); (on_goal 2 => (dsimp -zeta only [u]; clear u)))
    | (extract_lets +onlyGivenNames x; clear_value x)
    | split
    | exact out_refused
    | (with_reducible apply later_done)))

theorem later_execPfailRelease {s t : State} (h : Later s t) : OutLater s (execPfailRelease t) := by
  unfold execPfailRelease
  (repeat' (first
    | with_reducible (first | assumption | apply later_done | apply later_withKiln)
    | intro _
    | exact out_refused
    | (with_reducible apply later_done)))

theorem later_execPfSequenceBoundExpiry {s t : State} (h : Later s t) : OutLater s (execPfSequenceBoundExpiry t) := by
  unfold execPfSequenceBoundExpiry
  (repeat' (first
    | with_reducible (first | assumption | apply later_done | apply later_event | apply later_withKiln)
    | intro _
    | split
    | exact out_refused
    | (with_reducible apply later_done)))

theorem later_execPfailReleaseExpiry {s t : State} (h : Later s t) : OutLater s (execPfailReleaseExpiry t) := by
  unfold execPfailReleaseExpiry
  (repeat' (first
    | with_reducible (first | assumption | apply later_done | apply later_withKiln | apply later_event)
    | intro _
    | split
    | exact out_refused
    | (with_reducible apply later_done)))

/-! Machine/Cipher.lean -/

theorem later_cipherSubmit {s t : State} (c : Ctx) (op : Nat) (h : Later s t) : Later s (State.cipherSubmit t c op) := by
  unfold State.cipherSubmit
  (repeat' (first
    | with_reducible (first | assumption | apply later_complete | apply later_markStarted | apply later_withCipher)
    | intro _
    | (extract_lets +onlyGivenNames u; (have hu : Later s u := ?_); (on_goal 1 => clear_value u); (on_goal 2 => (dsimp -zeta only [u]; clear u)))
    | (extract_lets +onlyGivenNames x; clear_value x)
    | split
    | cases ‹none = some _›
    | (split at ‹_ = some _›)))

theorem later_execGcmEncrypt {s t : State} (fn : Nat) (queue : Nat) (tag : Nat) (h : Later s t) : OutLater s (execGcmEncrypt fn queue tag t) := by
  unfold execGcmEncrypt
  (repeat' (first
    | with_reducible (first | assumption | apply later_onCommand | apply later_cipherSubmit)
    | intro _
    | exact out_refused
    | (with_reducible apply later_done)))

theorem later_execGcmDecrypt {s t : State} (fn : Nat) (queue : Nat) (tag : Nat) (h : Later s t) : OutLater s (execGcmDecrypt fn queue tag t) := by
  unfold execGcmDecrypt
  (repeat' (first
    | with_reducible (first | assumption | apply later_onCommand | apply later_cipherSubmit)
    | intro _
    | exact out_refused
    | (with_reducible apply later_done)))

theorem later_execCcmEncrypt {s t : State} (fn : Nat) (queue : Nat) (tag : Nat) (h : Later s t) : OutLater s (execCcmEncrypt fn queue tag t) := by
  unfold execCcmEncrypt
  (repeat' (first
    | with_reducible (first | assumption | apply later_onCommand | apply later_cipherSubmit)
    | intro _
    | exact out_refused
    | (with_reducible apply later_done)))

theorem later_execCcmDecrypt {s t : State} (fn : Nat) (queue : Nat) (tag : Nat) (h : Later s t) : OutLater s (execCcmDecrypt fn queue tag t) := by
  unfold execCcmDecrypt
  (repeat' (first
    | with_reducible (first | assumption | apply later_onCommand | apply later_cipherSubmit)
    | intro _
    | exact out_refused
    | (with_reducible apply later_done)))

theorem later_execCtr {s t : State} (fn : Nat) (queue : Nat) (tag : Nat) (h : Later s t) : OutLater s (execCtr fn queue tag t) := by
  unfold execCtr
  (repeat' (first
    | with_reducible (first | assumption | apply later_onCommand | apply later_cipherSubmit)
    | intro _
    | exact out_refused
    | (with_reducible apply later_done)))

theorem later_execCbcEncrypt {s t : State} (fn : Nat) (queue : Nat) (tag : Nat) (h : Later s t) : OutLater s (execCbcEncrypt fn queue tag t) := by
  unfold execCbcEncrypt
  (repeat' (first
    | with_reducible (first | assumption | apply later_onCommand | apply later_cipherSubmit)
    | intro _
    | exact out_refused
    | (with_reducible apply later_done)))

theorem later_execCbcDecrypt {s t : State} (fn : Nat) (queue : Nat) (tag : Nat) (h : Later s t) : OutLater s (execCbcDecrypt fn queue tag t) := by
  unfold execCbcDecrypt
  (repeat' (first
    | with_reducible (first | assumption | apply later_onCommand | apply later_cipherSubmit)
    | intro _
    | exact out_refused
    | (with_reducible apply later_done)))

theorem later_execXtsEncrypt {s t : State} (fn : Nat) (queue : Nat) (tag : Nat) (h : Later s t) : OutLater s (execXtsEncrypt fn queue tag t) := by
  unfold execXtsEncrypt
  (repeat' (first
    | with_reducible (first | assumption | apply later_onCommand | apply later_cipherSubmit)
    | intro _
    | exact out_refused
    | (with_reducible apply later_done)))

theorem later_execXtsDecrypt {s t : State} (fn : Nat) (queue : Nat) (tag : Nat) (h : Later s t) : OutLater s (execXtsDecrypt fn queue tag t) := by
  unfold execXtsDecrypt
  (repeat' (first
    | with_reducible (first | assumption | apply later_onCommand | apply later_cipherSubmit)
    | intro _
    | exact out_refused
    | (with_reducible apply later_done)))

theorem later_execChacha20Poly1305Encrypt {s t : State} (fn : Nat) (queue : Nat) (tag : Nat) (h : Later s t) : OutLater s (execChacha20Poly1305Encrypt fn queue tag t) := by
  unfold execChacha20Poly1305Encrypt
  (repeat' (first
    | with_reducible (first | assumption | apply later_onCommand | apply later_cipherSubmit)
    | intro _
    | exact out_refused
    | (with_reducible apply later_done)))

theorem later_execChacha20Poly1305Decrypt {s t : State} (fn : Nat) (queue : Nat) (tag : Nat) (h : Later s t) : OutLater s (execChacha20Poly1305Decrypt fn queue tag t) := by
  unfold execChacha20Poly1305Decrypt
  (repeat' (first
    | with_reducible (first | assumption | apply later_onCommand | apply later_cipherSubmit)
    | intro _
    | exact out_refused
    | (with_reducible apply later_done)))

theorem later_execCmacGenerate {s t : State} (fn : Nat) (queue : Nat) (tag : Nat) (h : Later s t) : OutLater s (execCmacGenerate fn queue tag t) := by
  unfold execCmacGenerate
  (repeat' (first
    | with_reducible (first | assumption | apply later_onCommand | apply later_cipherSubmit)
    | intro _
    | exact out_refused
    | (with_reducible apply later_done)))

theorem later_execCmacVerify {s t : State} (fn : Nat) (queue : Nat) (tag : Nat) (h : Later s t) : OutLater s (execCmacVerify fn queue tag t) := by
  unfold execCmacVerify
  (repeat' (first
    | with_reducible (first | assumption | apply later_onCommand | apply later_cipherSubmit)
    | intro _
    | exact out_refused
    | (with_reducible apply later_done)))

theorem later_execSha256 {s t : State} (fn : Nat) (queue : Nat) (tag : Nat) (h : Later s t) : OutLater s (execSha256 fn queue tag t) := by
  unfold execSha256
  (repeat' (first
    | with_reducible (first | assumption | apply later_onCommand | apply later_cipherSubmit)
    | intro _
    | exact out_refused
    | (with_reducible apply later_done)))

theorem later_execSha384 {s t : State} (fn : Nat) (queue : Nat) (tag : Nat) (h : Later s t) : OutLater s (execSha384 fn queue tag t) := by
  unfold execSha384
  (repeat' (first
    | with_reducible (first | assumption | apply later_onCommand | apply later_cipherSubmit)
    | intro _
    | exact out_refused
    | (with_reducible apply later_done)))

theorem later_execHmacGenerate {s t : State} (fn : Nat) (queue : Nat) (tag : Nat) (h : Later s t) : OutLater s (execHmacGenerate fn queue tag t) := by
  unfold execHmacGenerate
  (repeat' (first
    | with_reducible (first | assumption | apply later_onCommand | apply later_cipherSubmit)
    | intro _
    | exact out_refused
    | (with_reducible apply later_done)))

theorem later_execHmacVerify {s t : State} (fn : Nat) (queue : Nat) (tag : Nat) (h : Later s t) : OutLater s (execHmacVerify fn queue tag t) := by
  unfold execHmacVerify
  (repeat' (first
    | with_reducible (first | assumption | apply later_onCommand | apply later_cipherSubmit)
    | intro _
    | exact out_refused
    | (with_reducible apply later_done)))

theorem later_execCipherJobStart {s t : State} (fn : Nat) (queue : Nat) (tag : Nat) (h : Later s t) : OutLater s (execCipherJobStart fn queue tag t) := by
  unfold execCipherJobStart
  (repeat' (first
    | with_reducible (first | assumption | apply later_done | apply later_cipherEnd | apply later_withCJob | apply later_withCipher | apply later_keyUse)
    | intro _
    | (extract_lets +onlyGivenNames u; (have hu : Later s u := ?_); (on_goal 1 => clear_value u); (on_goal 2 => (dsimp -zeta only [u]; clear u)))
    | (extract_lets +onlyGivenNames x; clear_value x)
    | split
    | exact out_refused
    | (with_reducible apply later_done)))

theorem later_cipherFinish {s t : State} (j : CJob) (c : Ctx) (e_ : Nat) (h : Later s t) : Later s (State.cipherFinish t j c e_) := by
  unfold State.cipherFinish
  (repeat' (first
    | with_reducible (first | assumption | apply later_dadd | apply later_cipherEnd | apply later_scatter | refine later_scatter_eq ?_ (by assumption) | apply later_event | apply later_dinc)
    | (extract_lets +onlyGivenNames u; (have hu : Later s u := ?_); (on_goal 1 => clear_value u); (on_goal 2 => (dsimp -zeta only [u]; clear u)))
    | (extract_lets +onlyGivenNames x; clear_value x)
    | split))

theorem later_execCipherJobDone {s t : State} (engine : Nat) (h : Later s t) : OutLater s (execCipherJobDone engine t) := by
  unfold execCipherJobDone
  (repeat' (first
    | with_reducible (first | assumption | apply later_done | apply later_cipherFinish | apply later_dropCJob)
    | split
    | exact out_refused
    | (with_reducible apply later_done)))

theorem later_onKey {s t : State} (op : Nat) (fn : Nat) (queue : Nat) (tag : Nat) (k : Ctx → Nat → State → State) (k_k : ∀ v0 v1 u, Later s u → Later s (k v0 v1 u)) (h : Later s t) : OutLater s (onKey op fn queue tag t k) := by
  unfold onKey
  (repeat' (first
    | with_reducible (first | assumption | apply k_k | apply later_onCommand | apply later_complete)
    | intro _
    | split
    | exact out_refused
    | (with_reducible apply later_done)))

theorem later_fillSlot {s t : State} (c : Ctx) (k : Nat) (x_ : KeySlot) (h : Later s t) : Later s (State.fillSlot t c k x_) := by
  unfold State.fillSlot
  (repeat' (first
    | with_reducible (first | assumption | apply later_setSlot | apply later_vaultPush | apply later_keyEnd)
    | (extract_lets +onlyGivenNames u; (have hu : Later s u := ?_); (on_goal 1 => clear_value u); (on_goal 2 => (dsimp -zeta only [u]; clear u)))
    | (extract_lets +onlyGivenNames x; clear_value x)
    | split))

theorem later_execKeyGenerate {s t : State} (fn : Nat) (queue : Nat) (tag : Nat) (h : Later s t) : OutLater s (execKeyGenerate fn queue tag t) := by
  unfold execKeyGenerate
  (repeat' (first
    | with_reducible (first | assumption | apply later_onKey | apply later_complete | apply later_random | refine later_random_eq ?_ (by assumption) | apply later_fillSlot)
    | intro _
    | (extract_lets +onlyGivenNames u; (have hu : Later s u := ?_); (on_goal 1 => clear_value u); (on_goal 2 => (dsimp -zeta only [u]; clear u)))
    | (extract_lets +onlyGivenNames x; clear_value x)
    | split
    | exact out_refused
    | (with_reducible apply later_done)))

theorem later_execKeyImport {s t : State} (fn : Nat) (queue : Nat) (tag : Nat) (blob : HostRead) (h : Later s t) : OutLater s (execKeyImport fn queue tag blob t) := by
  unfold execKeyImport
  (repeat' (first
    | with_reducible (first | assumption | apply later_onKey | apply later_complete | apply later_keyUse | apply later_event | apply later_fillSlot)
    | intro _
    | (extract_lets +onlyGivenNames u; (have hu : Later s u := ?_); (on_goal 1 => clear_value u); (on_goal 2 => (dsimp -zeta only [u]; clear u)))
    | (extract_lets +onlyGivenNames x; clear_value x)
    | split
    | cases ‹none = some _›
    | (split at ‹_ = some _›)
    | exact out_refused
    | (with_reducible apply later_done)))

theorem later_execKeyExport {s t : State} (fn : Nat) (queue : Nat) (tag : Nat) (buf : HostRead) (h : Later s t) : OutLater s (execKeyExport fn queue tag buf t) := by
  unfold execKeyExport
  (repeat' (first
    | with_reducible (first | assumption | apply later_onKey | apply later_complete | apply later_random | refine later_random_eq ?_ (by assumption) | apply later_keyUse | apply later_scatter | refine later_scatter_eq ?_ (by assumption) | apply later_keyEnd)
    | intro _
    | (extract_lets +onlyGivenNames u; (have hu : Later s u := ?_); (on_goal 1 => clear_value u); (on_goal 2 => (dsimp -zeta only [u]; clear u)))
    | (extract_lets +onlyGivenNames x; clear_value x)
    | split
    | cases ‹none = some _›
    | (split at ‹_ = some _›)
    | exact out_refused
    | (with_reducible apply later_done)))

theorem later_execKeyClear {s t : State} (fn : Nat) (queue : Nat) (tag : Nat) (h : Later s t) : OutLater s (execKeyClear fn queue tag t) := by
  unfold execKeyClear
  (repeat' (first
    | with_reducible (first | assumption | apply later_onKey | apply later_complete | apply later_emptySlot | apply later_vaultPush | apply later_keyEnd)
    | intro _
    | (extract_lets +onlyGivenNames u; (have hu : Later s u := ?_); (on_goal 1 => clear_value u); (on_goal 2 => (dsimp -zeta only [u]; clear u)))
    | (extract_lets +onlyGivenNames x; clear_value x)
    | split
    | exact out_refused
    | (with_reducible apply later_done)))

theorem later_execKeyInfo {s t : State} (fn : Nat) (queue : Nat) (tag : Nat) (buf : HostRead) (h : Later s t) : OutLater s (execKeyInfo fn queue tag buf t) := by
  unfold execKeyInfo
  (repeat' (first
    | with_reducible (first | assumption | apply later_onKey | apply later_complete | apply later_scatter | refine later_scatter_eq ?_ (by assumption) | apply later_keyEnd)
    | intro _
    | (extract_lets +onlyGivenNames u; (have hu : Later s u := ?_); (on_goal 1 => clear_value u); (on_goal 2 => (dsimp -zeta only [u]; clear u)))
    | (extract_lets +onlyGivenNames x; clear_value x)
    | split
    | exact out_refused
    | (with_reducible apply later_done)))

theorem later_execKeySetLimit {s t : State} (fn : Nat) (queue : Nat) (tag : Nat) (h : Later s t) : OutLater s (execKeySetLimit fn queue tag t) := by
  unfold execKeySetLimit
  (repeat' (first
    | with_reducible (first | assumption | apply later_onKey | apply later_complete | apply later_setSlot | apply later_slotSpent | apply later_keyEnd)
    | intro _
    | (extract_lets +onlyGivenNames u; (have hu : Later s u := ?_); (on_goal 1 => clear_value u); (on_goal 2 => (dsimp -zeta only [u]; clear u)))
    | (extract_lets +onlyGivenNames x; clear_value x)
    | split
    | exact out_refused
    | (with_reducible apply later_done)))

theorem later_vaultAnswer {s t : State} (w : VaultWrite) (ok : Bool) (h : Later s t) : Later s (State.vaultAnswer t w ok) := by
  unfold State.vaultAnswer
  (repeat' (first
    | with_reducible (first | assumption | apply later_emptySlot | apply later_withCipher | apply later_mediaError | apply later_keyWaitsSettle)
    | intro _
    | (extract_lets +onlyGivenNames u; (have hu : Later s u := ?_); (on_goal 1 => clear_value u); (on_goal 2 => (dsimp -zeta only [u]; clear u)))
    | (extract_lets +onlyGivenNames x; clear_value x)
    | split))

theorem later_execVaultWriteDone {s t : State} (ok : Bool) (h : Later s t) : OutLater s (execVaultWriteDone ok t) := by
  unfold execVaultWriteDone
  (repeat' (first
    | with_reducible (first | assumption | apply later_done | apply later_event | apply later_withCipher | apply later_vaultSend | apply later_vaultAnswer)
    | intro _
    | (extract_lets +onlyGivenNames u; (have hu : Later s u := ?_); (on_goal 1 => clear_value u); (on_goal 2 => (dsimp -zeta only [u]; clear u)))
    | (extract_lets +onlyGivenNames x; clear_value x)
    | split
    | exact out_refused
    | (with_reducible apply later_done)))

theorem later_execVaultRestore {s t : State} (h : Later s t) : OutLater s (execVaultRestore t) := by
  unfold execVaultRestore
  (repeat' (first
    | with_reducible (first | assumption | apply later_done | apply later_withCipher | apply later_event | apply later_dset | apply later_vaultPush | apply later_foldl)
    | intro _
    | (extract_lets +onlyGivenNames u; (have hu : Later s u := ?_); (on_goal 1 => clear_value u); (on_goal 2 => (dsimp -zeta only [u]; clear u)))
    | (extract_lets +onlyGivenNames x; clear_value x)
    | split
    | exact out_refused
    | (with_reducible apply later_done)))

theorem later_execKeyStoreDoubleBitError {s t : State} (slot : Nat) (h : Later s t) : OutLater s (execKeyStoreDoubleBitError slot t) := by
  unfold execKeyStoreDoubleBitError
  (repeat' (first
    | with_reducible (first | assumption | apply later_emptySlot | apply later_logCls | apply later_done | apply later_cipherEnd | apply later_foldl)
    | intro _
    | (extract_lets +onlyGivenNames u; (have hu : Later s u := ?_); (on_goal 1 => clear_value u); (on_goal 2 => (dsimp -zeta only [u]; clear u)))
    | (extract_lets +onlyGivenNames x; clear_value x)
    | exact out_refused
    | (with_reducible apply later_done)))

theorem later_engineTake {s t : State} (n : Nat) (e_ : Nat) (h : Later s t) : Later s (State.engineTake t n e_) := by
  unfold State.engineTake
  (repeat' (first
    | with_reducible (first | assumption | apply later_withCipher | apply later_event | apply later_lockedOut)
    | intro _
    | split))

theorem later_engineRelease {s t : State} (n : Nat) (e_ : Nat) (h : Later s t) : Later s (State.engineRelease t n e_) := by
  unfold State.engineRelease
  (repeat' (first
    | with_reducible (first | assumption | apply later_withCipher | apply later_event)
    | intro _
    | split))

theorem later_execEngineTake {s t : State} (fn : Nat) (engine : Nat) (h : Later s t) : OutLater s (execEngineTake fn engine t) := by
  unfold execEngineTake
  (repeat' (first
    | with_reducible (first | assumption | apply later_done | apply later_hostActivity | apply later_engineTake | apply later_unsupportedRequest)
    | split
    | exact out_refused
    | (with_reducible apply later_done)))

theorem later_execEngineRelease {s t : State} (fn : Nat) (engine : Nat) (h : Later s t) : OutLater s (execEngineRelease fn engine t) := by
  unfold execEngineRelease
  (repeat' (first
    | with_reducible (first | assumption | apply later_done | apply later_hostActivity | apply later_engineRelease | apply later_unsupportedRequest)
    | split
    | exact out_refused
    | (with_reducible apply later_done)))

theorem later_checkSubmit {s t : State} (c : Ctx) (op : Nat) (h : Later s t) : Later s (State.checkSubmit t c op) := by
  unfold State.checkSubmit
  (repeat' (first
    | with_reducible (first | assumption | apply later_complete | apply later_markStarted | apply later_withCipher | apply later_checkAssign | apply later_dmax)
    | intro _
    | (extract_lets +onlyGivenNames u; (have hu : Later s u := ?_); (on_goal 1 => clear_value u); (on_goal 2 => (dsimp -zeta only [u]; clear u)))
    | (extract_lets +onlyGivenNames x; clear_value x)
    | split))

theorem later_execCheckCompute {s t : State} (fn : Nat) (queue : Nat) (tag : Nat) (h : Later s t) : OutLater s (execCheckCompute fn queue tag t) := by
  unfold execCheckCompute
  (repeat' (first
    | with_reducible (first | assumption | apply later_onCommand | apply later_checkSubmit)
    | intro _
    | exact out_refused
    | (with_reducible apply later_done)))

theorem later_execCheckBlocks {s t : State} (fn : Nat) (queue : Nat) (tag : Nat) (h : Later s t) : OutLater s (execCheckBlocks fn queue tag t) := by
  unfold execCheckBlocks
  (repeat' (first
    | with_reducible (first | assumption | apply later_onCommand | apply later_checkSubmit)
    | intro _
    | exact out_refused
    | (with_reducible apply later_done)))

theorem later_execCheckVerifyBlocks {s t : State} (fn : Nat) (queue : Nat) (tag : Nat) (h : Later s t) : OutLater s (execCheckVerifyBlocks fn queue tag t) := by
  unfold execCheckVerifyBlocks
  (repeat' (first
    | with_reducible (first | assumption | apply later_onCommand | apply later_checkSubmit)
    | intro _
    | exact out_refused
    | (with_reducible apply later_done)))

theorem later_checkNext {s t : State} (last : Bool) (x_ : KJob) (st : Status) (r0 : Nat) (h : Later s t) : Later s (State.checkNext t last x_ st r0) := by
  unfold State.checkNext
  (repeat' (first
    | with_reducible (first | assumption | apply later_checkEnd | apply later_withKJob | apply later_checkAssign)
    | intro _
    | split))

theorem later_checkSlice {s t : State} (j : KJob) (c : Ctx) (payload : HostRead) (array : HostRead) (h : Later s t) : Later s (State.checkSlice t j c payload array) := by
  unfold State.checkSlice
  (repeat' (first
    | with_reducible (first | assumption | apply later_checkEnd | apply later_done | apply later_checkNext | apply later_scatterInto)
    | intro _
    | (extract_lets +onlyGivenNames u; (have hu : Later s u := ?_); (on_goal 1 => clear_value u); (on_goal 2 => (dsimp -zeta only [u]; clear u)))
    | (extract_lets +onlyGivenNames x; clear_value x)
    | split))

theorem later_execCheckSliceDone {s t : State} (unit : Nat) (payload : HostRead) (array : HostRead) (h : Later s t) : OutLater s (execCheckSliceDone unit payload array t) := by
  unfold execCheckSliceDone
  (repeat' (first
    | with_reducible (first | assumption | apply later_done | apply later_checkSlice | apply later_withCipher)
    | intro _
    | split
    | exact out_refused
    | (with_reducible apply later_done)))

/-! Machine/Tenants.lean -/

theorem later_onTenant {s t : State} (op : Nat) (tag : Nat) (k : Ctx → Nat → State → State) (k_k : ∀ v0 v1 u, Later s u → Later s (k v0 v1 u)) (h : Later s t) : OutLater s (onTenant op tag t k) := by
  unfold onTenant
  (repeat' (first
    | with_reducible (first | assumption | apply k_k | apply later_onCommand)
    | intro _
    | exact out_refused
    | (with_reducible apply later_done)))

theorem later_tenantEnd {s t : State} (tag : Nat) (n : Nat) (st : Status) (r1 : Nat) (h : Later s t) : Later s (State.tenantEnd t tag n st r1) := by
  unfold State.tenantEnd
  (repeat' (first
    | with_reducible (first | assumption | apply later_complete)))

theorem later_cleanDifference {s t : State} (a : Bytes) (b : Bytes) (h : Later s t) : Later s (State.cleanDifference t a b) := by
  unfold State.cleanDifference
  (repeat' (first
    | with_reducible (first | assumption | apply later_keysClear | apply later_metersClear | apply later_withDram | apply later_slicesClear | apply later_foldl)
    | exact fun _ => wf_writeN _ _
    | exact fun _ => wf_clear _ _
    | exact fun _ k => wf_writeN _ _ (wf_writeN _ _ k)
    | intro _
    | (extract_lets +onlyGivenNames u; (have hu : Later s u := ?_); (on_goal 1 => clear_value u); (on_goal 2 => (dsimp -zeta only [u]; clear u)))
    | (extract_lets +onlyGivenNames x; clear_value x)))

theorem later_putRecord {s t : State} (n : Nat) (r_ : Bytes) (h : Later s t) : Later s (State.putRecord t n r_) := by
  unfold State.putRecord
  (repeat' (first
    | with_reducible (first | assumption | apply later_cleanDifference | apply later_withInst | apply later_threadsMoved | apply later_dset | apply later_shadowsDrop)
    | intro _
    | (extract_lets +onlyGivenNames u; (have hu : Later s u := ?_); (on_goal 1 => clear_value u); (on_goal 2 => (dsimp -zeta only [u]; clear u)))
    | (extract_lets +onlyGivenNames x; clear_value x)
    | split))

theorem later_execCreateInstance {s t : State} (tag : Nat) (record : HostRead) (h : Later s t) : OutLater s (execCreateInstance tag record t) := by
  unfold execCreateInstance
  (repeat' (first
    | with_reducible (first | assumption | apply later_onTenant | apply later_tenantEnd | apply later_withInst | apply later_putRecord | apply later_dinc | apply later_instTo)
    | intro _
    | (extract_lets +onlyGivenNames u; (have hu : Later s u := ?_); (on_goal 1 => clear_value u); (on_goal 2 => (dsimp -zeta only [u]; clear u)))
    | (extract_lets +onlyGivenNames x; clear_value x)
    | split
    | exact out_refused
    | (with_reducible apply later_done)))

theorem later_execModifyInstance {s t : State} (tag : Nat) (record : HostRead) (h : Later s t) : OutLater s (execModifyInstance tag record t) := by
  unfold execModifyInstance
  (repeat' (first
    | with_reducible (first | assumption | apply later_onTenant | apply later_tenantEnd | apply later_putRecord)
    | intro _
    | (extract_lets +onlyGivenNames u; (have hu : Later s u := ?_); (on_goal 1 => clear_value u); (on_goal 2 => (dsimp -zeta only [u]; clear u)))
    | (extract_lets +onlyGivenNames x; clear_value x)
    | split
    | exact out_refused
    | (with_reducible apply later_done)))

theorem later_forceQuiet {s t : State} (n : Nat) (h : Later s t) : Later s (State.forceQuiet t n) := by
  unfold State.forceQuiet
  (repeat' (first
    | with_reducible (first | assumption | apply later_abandon | apply later_withQ)
    | intro _
    | (extract_lets +onlyGivenNames u; (have hu : Later s u := ?_); (on_goal 1 => clear_value u); (on_goal 2 => (dsimp -zeta only [u]; clear u)))
    | (extract_lets +onlyGivenNames x; clear_value x)
    | split))

theorem later_execQuiesceInstance {s t : State} (tag : Nat) (h : Later s t) : OutLater s (execQuiesceInstance tag t) := by
  unfold execQuiesceInstance
  (repeat' (first
    | with_reducible (first | assumption | apply later_onTenant | apply later_tenantEnd | apply later_withInst | apply later_instTo | apply later_markStarted | apply later_forceQuiet)
    | intro _
    | (extract_lets +onlyGivenNames u; (have hu : Later s u := ?_); (on_goal 1 => clear_value u); (on_goal 2 => (dsimp -zeta only [u]; clear u)))
    | (extract_lets +onlyGivenNames x; clear_value x)
    | split
    | exact out_refused
    | (with_reducible apply later_done)))

theorem later_quiesceEnd {s t : State} (n : Nat) (st : Status) (h : Later s t) : Later s (State.quiesceEnd t n st) := by
  unfold State.quiesceEnd
  (repeat' (first
    | with_reducible (first | assumption | apply later_withInst | apply later_tenantEnd)
    | intro _
    | (extract_lets +onlyGivenNames u; (have hu : Later s u := ?_); (on_goal 1 => clear_value u); (on_goal 2 => (dsimp -zeta only [u]; clear u)))
    | (extract_lets +onlyGivenNames x; clear_value x)
    | split))

theorem later_execQuiesceComplete {s t : State} (inst : Nat) (h : Later s t) : OutLater s (execQuiesceComplete inst t) := by
  unfold execQuiesceComplete
  (repeat' (first
    | with_reducible (first | assumption | apply later_done | apply later_quiesceGroups | apply later_locksRelease | apply later_instTo | apply later_quiesceEnd)
    | split
    | exact out_refused
    | (with_reducible apply later_done)))

theorem later_execQuiesceTimeout {s t : State} (inst : Nat) (h : Later s t) : OutLater s (execQuiesceTimeout inst t) := by
  unfold execQuiesceTimeout
  (repeat' (first
    | with_reducible (first | assumption | apply later_done | apply later_instTo | apply later_quiesceEnd)
    | split
    | exact out_refused
    | (with_reducible apply later_done)))

theorem later_execResumeInstance {s t : State} (tag : Nat) (h : Later s t) : OutLater s (execResumeInstance tag t) := by
  unfold execResumeInstance
  (repeat' (first
    | with_reducible (first | assumption | apply later_onTenant | apply later_resumeGroups | apply later_instTo | apply later_tenantEnd)
    | intro _
    | split
    | exact out_refused
    | (with_reducible apply later_done)))

theorem later_functionCleared {s t : State} (n : Nat) (h : Later s t) : Later s (State.functionCleared t n) := by
  unfold State.functionCleared
  (repeat' (first
    | with_reducible (first | assumption | apply later_mailboxForget | apply later_shadowsDrop | apply later_shadowDropBlock | apply later_withFn)
    | intro _))

theorem later_instanceCleaned {s t : State} (n : Nat) (keep : Bool) (h : Later s t) : Later s (State.instanceCleaned t n keep) := by
  unfold State.instanceCleaned
  (repeat' (first
    | with_reducible (first | assumption | apply later_abandon | apply later_locksRelease | apply later_bindingsVoid | apply later_queuesGone | apply later_cleanDifference | apply later_fwdClearOf | apply later_dinc | apply later_nsInstanceEnds | apply later_functionCleared)
    | intro _
    | (extract_lets +onlyGivenNames u; (have hu : Later s u := ?_); (on_goal 1 => clear_value u); (on_goal 2 => (dsimp -zeta only [u]; clear u)))
    | (extract_lets +onlyGivenNames x; clear_value x)
    | split))

theorem later_execResetInstance {s t : State} (tag : Nat) (h : Later s t) : OutLater s (execResetInstance tag t) := by
  unfold execResetInstance
  (repeat' (first
    | with_reducible (first | assumption | apply later_onTenant | apply later_tenantEnd | apply later_instanceCleaned | apply later_resumeForgotten | apply later_instTo)
    | intro _
    | (extract_lets +onlyGivenNames u; (have hu : Later s u := ?_); (on_goal 1 => clear_value u); (on_goal 2 => (dsimp -zeta only [u]; clear u)))
    | (extract_lets +onlyGivenNames x; clear_value x)
    | split
    | exact out_refused
    | (with_reducible apply later_done)))

theorem later_execDestroyInstance {s t : State} (tag : Nat) (h : Later s t) : OutLater s (execDestroyInstance tag t) := by
  unfold execDestroyInstance
  (repeat' (first
    | with_reducible (first | assumption | apply later_onTenant | apply later_tenantEnd | apply later_instanceCleaned | apply later_groupsGone | apply later_withInst | apply later_threadsMoved | apply later_instTo)
    | intro _
    | (extract_lets +onlyGivenNames u; (have hu : Later s u := ?_); (on_goal 1 => clear_value u); (on_goal 2 => (dsimp -zeta only [u]; clear u)))
    | (extract_lets +onlyGivenNames x; clear_value x)
    | split
    | exact out_refused
    | (with_reducible apply later_done)))

theorem later_execRearmInstance {s t : State} (tag : Nat) (h : Later s t) : OutLater s (execRearmInstance tag t) := by
  unfold execRearmInstance
  (repeat' (first
    | with_reducible (first | assumption | apply later_onTenant | apply later_tenantEnd | apply later_instanceCleaned | apply later_resumeForgotten | apply later_instTo)
    | intro _
    | split
    | exact out_refused
    | (with_reducible apply later_done)))

theorem later_execGetInstance {s t : State} (tag : Nat) (buf : HostRead) (h : Later s t) : OutLater s (execGetInstance tag buf t) := by
  unfold execGetInstance
  (repeat' (first
    | with_reducible (first | assumption | apply later_onTenant | apply later_tenantEnd | apply later_scatter | refine later_scatter_eq ?_ (by assumption))
    | intro _
    | (extract_lets +onlyGivenNames u; (have hu : Later s u := ?_); (on_goal 1 => clear_value u); (on_goal 2 => (dsimp -zeta only [u]; clear u)))
    | (extract_lets +onlyGivenNames x; clear_value x)
    | split
    | exact out_refused
    | (with_reducible apply later_done)))

/-! Machine/Host.lean -/

theorem later_resumeFn {s t : State} (n : Nat) (h : Later s t) : Later s (State.resumeFn t n) := by
  unfold State.resumeFn
  (repeat' (first
    | with_reducible (first | assumption | apply later_withFn | apply later_cqDrain | apply later_sendPending | apply later_foldl)
    | intro _
    | (extract_lets +onlyGivenNames u; (have hu : Later s u := ?_); (on_goal 1 => clear_value u); (on_goal 2 => (dsimp -zeta only [u]; clear u)))
    | (extract_lets +onlyGivenNames x; clear_value x)
    | split))

theorem later_loseAccess {s t : State} (n : Nat) (h : Later s t) : Later s (State.loseAccess t n) := by
  unfold State.loseAccess
  (repeat' (first
    | with_reducible (first | assumption | apply later_withFn | apply later_withSq | apply later_accessLost | apply later_foldl)
    | intro _
    | (extract_lets +onlyGivenNames u; (have hu : Later s u := ?_); (on_goal 1 => clear_value u); (on_goal 2 => (dsimp -zeta only [u]; clear u)))
    | (extract_lets +onlyGivenNames x; clear_value x)
    | split))

theorem later_execBusMasterEnableClear {s t : State} (fn : Nat) (h : Later s t) : OutLater s (execBusMasterEnableClear fn t) := by
  unfold execBusMasterEnableClear
  (repeat' (first
    | with_reducible (first | assumption | apply later_withFn | apply later_event | apply later_dinc | apply later_done | apply later_loseAccess)
    | intro _
    | (extract_lets +onlyGivenNames u; (have hu : Later s u := ?_); (on_goal 1 => clear_value u); (on_goal 2 => (dsimp -zeta only [u]; clear u)))
    | (extract_lets +onlyGivenNames x; clear_value x)
    | split
    | exact out_refused
    | (with_reducible apply later_done)))

theorem later_execBusMasterEnableSet {s t : State} (fn : Nat) (h : Later s t) : OutLater s (execBusMasterEnableSet fn t) := by
  unfold execBusMasterEnableSet
  (repeat' (first
    | with_reducible (first | assumption | apply later_withFn | apply later_event | apply later_done | apply later_resumeFn)
    | intro _
    | (extract_lets +onlyGivenNames u; (have hu : Later s u := ?_); (on_goal 1 => clear_value u); (on_goal 2 => (dsimp -zeta only [u]; clear u)))
    | (extract_lets +onlyGivenNames x; clear_value x)
    | split
    | exact out_refused
    | (with_reducible apply later_done)))

theorem later_flrBegin {s t : State} (n : Nat) (cause : Nat) (h : Later s t) : Later s (State.flrBegin t n cause) := by
  unfold State.flrBegin
  (repeat' (first
    | with_reducible (first | assumption | apply later_withFn | apply later_mailboxForget | apply later_shadowsDrop | apply later_dinc | apply later_event | apply later_abandon | apply later_bindingsVoid | apply later_queuesGone | apply later_withInsts)
    | intro _
    | (extract_lets +onlyGivenNames u; (have hu : Later s u := ?_); (on_goal 1 => clear_value u); (on_goal 2 => (dsimp -zeta only [u]; clear u)))
    | (extract_lets +onlyGivenNames x; clear_value x)
    | split))

theorem later_execFunctionLevelReset {s t : State} (fn : Nat) (h : Later s t) : OutLater s (execFunctionLevelReset fn t) := by
  unfold execFunctionLevelReset
  (repeat' (first
    | with_reducible (first | assumption | apply later_done | apply later_flrBegin)
    | split
    | exact out_refused
    | (with_reducible apply later_done)))

theorem later_execPf0FunctionLevelReset {s t : State} (h : Later s t) : OutLater s (execPf0FunctionLevelReset t) := by
  unfold execPf0FunctionLevelReset
  (repeat' (first
    | with_reducible (first | assumption | apply later_flrBegin | apply later_done | apply later_withHost | apply later_foldl)
    | intro _
    | (extract_lets +onlyGivenNames u; (have hu : Later s u := ?_); (on_goal 1 => clear_value u); (on_goal 2 => (dsimp -zeta only [u]; clear u)))
    | (extract_lets +onlyGivenNames x; clear_value x)
    | exact out_refused
    | (with_reducible apply later_done)))

theorem later_execFlrQuiesceComplete {s t : State} (inst : Nat) (h : Later s t) : OutLater s (execFlrQuiesceComplete inst t) := by
  unfold execFlrQuiesceComplete
  (repeat' (first
    | with_reducible (first | assumption | apply later_done | apply later_withFn | apply later_quiesceGroups | apply later_locksRelease | apply later_instTo | apply later_dset | apply later_quiesceEnd | apply later_eventLog)
    | intro _
    | (extract_lets +onlyGivenNames u; (have hu : Later s u := ?_); (on_goal 1 => clear_value u); (on_goal 2 => (dsimp -zeta only [u]; clear u)))
    | (extract_lets +onlyGivenNames x; clear_value x)
    | split
    | exact out_refused
    | (with_reducible apply later_done)))

theorem later_execVfEnableSet {s t : State} (h : Later s t) : OutLater s (execVfEnableSet t) := by
  unfold execVfEnableSet
  (repeat' (first
    | with_reducible (first | assumption | apply later_withHost | apply later_flrBegin | apply later_done | apply later_withFn | apply later_resumeFn | apply later_foldl)
    | intro _
    | (extract_lets +onlyGivenNames u; (have hu : Later s u := ?_); (on_goal 1 => clear_value u); (on_goal 2 => (dsimp -zeta only [u]; clear u)))
    | (extract_lets +onlyGivenNames x; clear_value x)
    | split
    | exact out_refused
    | (with_reducible apply later_done)))

theorem later_execVfEnableClear {s t : State} (h : Later s t) : OutLater s (execVfEnableClear t) := by
  unfold execVfEnableClear
  (repeat' (first
    | with_reducible (first | assumption | apply later_flrBegin | apply later_done | apply later_withHost | apply later_foldl)
    | intro _
    | (extract_lets +onlyGivenNames u; (have hu : Later s u := ?_); (on_goal 1 => clear_value u); (on_goal 2 => (dsimp -zeta only [u]; clear u)))
    | (extract_lets +onlyGivenNames x; clear_value x)
    | split
    | exact out_refused
    | (with_reducible apply later_done)))

theorem later_enterD3 {s t : State} (h : Later s t) : Later s (State.enterD3 t) := by
  unfold State.enterD3
  (repeat' (first
    | with_reducible (first | assumption | apply later_withHost | apply later_loseAccess | apply later_foldl)
    | intro _
    | (extract_lets +onlyGivenNames u; (have hu : Later s u := ?_); (on_goal 1 => clear_value u); (on_goal 2 => (dsimp -zeta only [u]; clear u)))
    | (extract_lets +onlyGivenNames x; clear_value x)
    | split))

theorem later_enterD0 {s t : State} (h : Later s t) : Later s (State.enterD0 t) := by
  unfold State.enterD0
  (repeat' (first
    | with_reducible (first | assumption | apply later_withHost | apply later_resumeFn | apply later_foldl)
    | intro _
    | (extract_lets +onlyGivenNames u; (have hu : Later s u := ?_); (on_goal 1 => clear_value u); (on_goal 2 => (dsimp -zeta only [u]; clear u)))
    | (extract_lets +onlyGivenNames x; clear_value x)
    | split))

theorem later_execPowerStateD3hot {s t : State} (h : Later s t) : OutLater s (execPowerStateD3hot t) := by
  unfold execPowerStateD3hot
  (repeat' (first
    | with_reducible (first | assumption | apply later_done | apply later_enterD3)
    | exact out_refused
    | (with_reducible apply later_done)))

theorem later_execPowerStateD0 {s t : State} (h : Later s t) : OutLater s (execPowerStateD0 t) := by
  unfold execPowerStateD0
  (repeat' (first
    | with_reducible (first | assumption | apply later_done | apply later_enterD0)
    | exact out_refused
    | (with_reducible apply later_done)))

theorem later_modeEnable {s t : State} (n : Nat) (msix : Bool) (h : Later s t) : Later s (State.modeEnable t n msix) := by
  unfold State.modeEnable
  (repeat' (first
    | with_reducible (first | assumption | apply later_withFn | apply later_sendPending)
    | intro _
    | split))

theorem later_execInterruptModeEnable {s t : State} (fn : Nat) (msix : Bool) (h : Later s t) : OutLater s (execInterruptModeEnable fn msix t) := by
  unfold execInterruptModeEnable
  (repeat' (first
    | with_reducible (first | assumption | apply later_done | apply later_modeEnable)
    | split
    | exact out_refused
    | (with_reducible apply later_done)))

theorem later_unmask {s t : State} (n : Nat) (v : Nat) (h : Later s t) : Later s (State.unmask t n v) := by
  unfold State.unmask
  (repeat' (first
    | with_reducible (first | assumption | apply later_cfgPut | apply later_withFn | apply later_sendPending)
    | intro _
    | (extract_lets +onlyGivenNames u; (have hu : Later s u := ?_); (on_goal 1 => clear_value u); (on_goal 2 => (dsimp -zeta only [u]; clear u)))
    | (extract_lets +onlyGivenNames x; clear_value x)
    | split))

theorem later_execVectorUnmask {s t : State} (fn : Nat) (vector : Nat) (h : Later s t) : OutLater s (execVectorUnmask fn vector t) := by
  unfold execVectorUnmask
  (repeat' (first
    | with_reducible (first | assumption | apply later_done | apply later_unmask)
    | split
    | exact out_refused
    | (with_reducible apply later_done)))

theorem later_holdExpire {s t : State} (h : Later s t) : Later s (State.holdExpire t) := by
  unfold State.holdExpire
  (repeat' (first
    | with_reducible (first | assumption | apply later_flrBegin | apply later_epstatSet | apply later_dinc | apply later_eventLog | apply later_foldl)
    | intro _
    | (extract_lets +onlyGivenNames u; (have hu : Later s u := ?_); (on_goal 1 => clear_value u); (on_goal 2 => (dsimp -zeta only [u]; clear u)))
    | (extract_lets +onlyGivenNames x; clear_value x)
    | split))

theorem later_execLinkLossHoldExpiry {s t : State} (h : Later s t) : OutLater s (execLinkLossHoldExpiry t) := by
  unfold execLinkLossHoldExpiry
  (repeat' (first
    | with_reducible (first | assumption | apply later_done | apply later_holdExpire)
    | exact out_refused
    | (with_reducible apply later_done)))

theorem later_linkLoss {s t : State} (h : Later s t) : Later s (State.linkLoss t) := by
  unfold State.linkLoss
  (repeat' (first
    | with_reducible (first | assumption | apply later_withHost | apply later_withFns | apply later_withFn | apply later_loseAccess | apply later_holdExpire | apply later_foldl)
    | intro _
    | (extract_lets +onlyGivenNames u; (have hu : Later s u := ?_); (on_goal 1 => clear_value u); (on_goal 2 => (dsimp -zeta only [u]; clear u)))
    | (extract_lets +onlyGivenNames x; clear_value x)
    | split))

theorem later_execHostLinkUp {s t : State} (width : Nat) (speed : Nat) (h : Later s t) : OutLater s (execHostLinkUp width speed t) := by
  unfold execHostLinkUp
  (repeat' (first
    | with_reducible (first | assumption | apply later_done | apply later_withHost | apply later_event | apply later_enterHostWait)
    | intro _
    | split
    | exact out_refused
    | (with_reducible apply later_done)))

theorem later_execHostLinkDown {s t : State} (h : Later s t) : OutLater s (execHostLinkDown t) := by
  unfold execHostLinkDown
  (repeat' (first
    | with_reducible (first | assumption | apply later_done | apply later_dinc | apply later_event | apply later_withHost | apply later_linkLoss)
    | intro _
    | split
    | exact out_refused
    | (with_reducible apply later_done)))

theorem later_execHotReset {s t : State} (h : Later s t) : OutLater s (execHotReset t) := by
  unfold execHotReset
  (repeat' (first
    | with_reducible (first | assumption | apply later_done | apply later_dinc | apply later_linkLoss)
    | split
    | exact out_refused
    | (with_reducible apply later_done)))

theorem later_accessFailed {s t : State} (n : Nat) (o : TagOwner) (st : Status) (h : Later s t) : Later s (State.accessFailed t n o st) := by
  unfold State.accessFailed
  (repeat' (first
    | with_reducible (first | assumption | apply later_hostFailure | apply later_withSq | apply later_freeze)
    | intro _
    | split))

theorem later_accessData {s t : State} (n : Nat) (o : TagOwner) (b : Bytes) (h : Later s t) : Later s (State.accessData t n o b) := by
  unfold State.accessData
  (repeat' (first
    | with_reducible (first | assumption | apply later_hostData | apply later_setSq | apply later_takeEntry | apply later_dinc)
    | (extract_lets +onlyGivenNames u; (have hu : Later s u := ?_); (on_goal 1 => clear_value u); (on_goal 2 => (dsimp -zeta only [u]; clear u)))
    | (extract_lets +onlyGivenNames x; clear_value x)
    | split))

theorem later_unexpectedCpl {s t : State} (n : Nat) (h : Later s t) : Later s (State.unexpectedCpl t n) := by
  unfold State.unexpectedCpl
  (repeat' (first
    | with_reducible (first | assumption | apply later_aerAdvisory | apply later_epstatSet | apply later_event | apply later_dinc)))

theorem later_execCompletionReceived {s t : State} (fn : Nat) (tag : Nat) (cpl : Cpl) (h : Later s t) : OutLater s (execCompletionReceived fn tag cpl t) := by
  unfold execCompletionReceived
  (repeat' (first
    | with_reducible (first | assumption | apply later_hostActivity | apply later_done | apply later_unexpectedCpl | apply later_withFn | apply later_dinc | apply later_accessData | apply later_aerAdvisory | apply later_epstatSet | apply later_accessFailed | apply later_cfgPut)
    | intro _
    | (extract_lets +onlyGivenNames u; (have hu : Later s u := ?_); (on_goal 1 => clear_value u); (on_goal 2 => (dsimp -zeta only [u]; clear u)))
    | (extract_lets +onlyGivenNames x; clear_value x)
    | split
    | exact out_refused
    | (with_reducible apply later_done)))

theorem later_execCompletionTimeout {s t : State} (fn : Nat) (tag : Nat) (h : Later s t) : OutLater s (execCompletionTimeout fn tag t) := by
  unfold execCompletionTimeout
  (repeat' (first
    | with_reducible (first | assumption | apply later_done | apply later_withFn | apply later_aerUncor | apply later_epstatSet | apply later_event | apply later_dinc | apply later_accessFailed)
    | intro _
    | (extract_lets +onlyGivenNames u; (have hu : Later s u := ?_); (on_goal 1 => clear_value u); (on_goal 2 => (dsimp -zeta only [u]; clear u)))
    | (extract_lets +onlyGivenNames x; clear_value x)
    | split
    | exact out_refused
    | (with_reducible apply later_done)))

theorem later_execQuarantineWindowClose {s t : State} (fn : Nat) (tag : Nat) (h : Later s t) : OutLater s (execQuarantineWindowClose fn tag t) := by
  unfold execQuarantineWindowClose
  (repeat' (first
    | with_reducible (first | assumption | apply later_done | apply later_withFn)
    | intro _
    | split
    | exact out_refused
    | (with_reducible apply later_done)))

theorem later_execL0sEntry {s t : State} (h : Later s t) : OutLater s (execL0sEntry t) := by
  unfold execL0sEntry
  (repeat' (first
    | with_reducible (first | assumption | apply later_done | apply later_withHost)
    | intro _
    | split
    | exact out_refused
    | (with_reducible apply later_done)))

theorem later_execL1IdleExpiry {s t : State} (h : Later s t) : OutLater s (execL1IdleExpiry t) := by
  unfold execL1IdleExpiry
  (repeat' (first
    | with_reducible (first | assumption | apply later_done | apply later_enterL1)
    | split
    | exact out_refused
    | (with_reducible apply later_done)))

theorem later_execLtrIdleExpiry {s t : State} (h : Later s t) : OutLater s (execLtrIdleExpiry t) := by
  unfold execLtrIdleExpiry
  (repeat' (first
    | with_reducible (first | assumption | apply later_done | apply later_emit | apply later_withHost)
    | intro _
    | split
    | exact out_refused
    | (with_reducible apply later_done)))

theorem later_execHostBufferDoubleBitError {s t : State} (fn : Nat) (queue : Nat) (tag : Nat) (h : Later s t) : OutLater s (execHostBufferDoubleBitError fn queue tag t) := by
  unfold execHostBufferDoubleBitError
  (repeat' (first
    | with_reducible (first | assumption | apply later_done | apply later_aerUncor | apply later_logCls | apply later_hostFailure)
    | exact out_refused
    | (with_reducible apply later_done)))

theorem later_execHostLinkError {s t : State} (err : LinkError) (h : Later s t) : OutLater s (execHostLinkError err t) := by
  unfold execHostLinkError
  (repeat' (first
    | with_reducible (first | assumption | apply later_done | apply later_aerUncor | apply later_aerCor)
    | split
    | exact out_refused
    | (with_reducible apply later_done)))

theorem later_execCorrectedInternalError {s t : State} (fn : Nat) (h : Later s t) : OutLater s (execCorrectedInternalError fn t) := by
  unfold execCorrectedInternalError
  (repeat' (first
    | with_reducible (first | assumption | apply later_done | apply later_aerCor)
    | exact out_refused
    | (with_reducible apply later_done)))

/-! Machine/Pipeline.lean -/

theorem later_execFrameReceived {s t : State} (port : Nat) (frame : Bytes) (fcsOk : Bool) (stamp : Nat) (h : Later s t) : OutLater s (execFrameReceived port frame fcsOk stamp t) := by
  unfold execFrameReceived
  (repeat' (first
    | with_reducible (first | assumption | apply later_done | apply later_frameTake)
    | exact out_refused
    | (with_reducible apply later_done)))

theorem later_execLearnInsert {s t : State} (h : Later s t) : OutLater s (execLearnInsert t) := by
  unfold execLearnInsert
  (repeat' (first
    | with_reducible (first | assumption | apply later_done | apply later_learnHead)
    | split
    | exact out_refused
    | (with_reducible apply later_done)))

theorem later_execAgeingSweep {s t : State} (bucket : Nat) (h : Later s t) : OutLater s (execAgeingSweep bucket t) := by
  unfold execAgeingSweep
  (repeat' (first
    | with_reducible (first | assumption | apply later_done | apply later_sweepBucket)
    | split
    | exact out_refused
    | (with_reducible apply later_done)))

theorem later_onPipe {s t : State} (op : Nat) (n : Nat) (q : Nat) (tag : Nat) (k : Ctx → State → State) (k_k : ∀ v0 u, Later s u → Later s (k v0 u)) (h : Later s t) : OutLater s (onPipe op n q tag t k) := by
  unfold onPipe
  (repeat' (first
    | with_reducible (first | assumption | apply k_k | apply later_onCommand | apply later_done)
    | split
    | exact out_refused
    | (with_reducible apply later_done)))

theorem later_onTable {s t : State} (op : Nat) (n : Nat) (q : Nat) (tag : Nat) (len : Nat) (r_ : HostRead) (k : Ctx → Bytes → State → State) (k_k : ∀ v0 v1 u, Later s u → Later s (k v0 v1 u)) (h : Later s t) : OutLater s (onTable op n q tag len r_ t k) := by
  unfold onTable
  (repeat' (first
    | with_reducible (first | assumption | apply k_k | apply later_onPipe | apply later_complete)
    | intro _
    | split
    | exact out_refused
    | (with_reducible apply later_done)))

theorem later_execTblInsert {s t : State} (fn : Nat) (queue : Nat) (tag : Nat) (entry : HostRead) (h : Later s t) : OutLater s (execTblInsert fn queue tag entry t) := by
  unfold execTblInsert
  (repeat' (first
    | with_reducible (first | assumption | apply later_onTable | apply later_markStarted | apply later_tblBegin)
    | intro _
    | exact out_refused
    | (with_reducible apply later_done)))

theorem later_execTblDelete {s t : State} (fn : Nat) (queue : Nat) (tag : Nat) (key : HostRead) (h : Later s t) : OutLater s (execTblDelete fn queue tag key t) := by
  unfold execTblDelete
  (repeat' (first
    | with_reducible (first | assumption | apply later_onTable | apply later_tblDelete | refine later_tblDelete_eq ?_ (by assumption) | apply later_done | apply later_complete)
    | intro _
    | split
    | exact out_refused
    | (with_reducible apply later_done)))

theorem later_execTblLookup {s t : State} (fn : Nat) (queue : Nat) (tag : Nat) (key : HostRead) (h : Later s t) : OutLater s (execTblLookup fn queue tag key t) := by
  unfold execTblLookup
  (repeat' (first
    | with_reducible (first | assumption | apply later_onTable | apply later_complete | apply later_scatter | refine later_scatter_eq ?_ (by assumption))
    | intro _
    | (extract_lets +onlyGivenNames u; (have hu : Later s u := ?_); (on_goal 1 => clear_value u); (on_goal 2 => (dsimp -zeta only [u]; clear u)))
    | (extract_lets +onlyGivenNames x; clear_value x)
    | split
    | exact out_refused
    | (with_reducible apply later_done)))

theorem later_execTblLock {s t : State} (fn : Nat) (queue : Nat) (tag : Nat) (key : HostRead) (h : Later s t) : OutLater s (execTblLock fn queue tag key t) := by
  unfold execTblLock
  (repeat' (first
    | with_reducible (first | assumption | apply later_onTable | apply later_markStarted | apply later_tblBegin)
    | intro _
    | exact out_refused
    | (with_reducible apply later_done)))

theorem later_execTblStage {s t : State} (fn : Nat) (queue : Nat) (tag : Nat) (entry : HostRead) (h : Later s t) : OutLater s (execTblStage fn queue tag entry t) := by
  unfold execTblStage
  (repeat' (first
    | with_reducible (first | assumption | apply later_onTable | apply later_complete | apply later_withTable)
    | intro _
    | (extract_lets +onlyGivenNames u; (have hu : Later s u := ?_); (on_goal 1 => clear_value u); (on_goal 2 => (dsimp -zeta only [u]; clear u)))
    | (extract_lets +onlyGivenNames x; clear_value x)
    | split
    | exact out_refused
    | (with_reducible apply later_done)))

theorem later_execTblUnlock {s t : State} (fn : Nat) (queue : Nat) (tag : Nat) (h : Later s t) : OutLater s (execTblUnlock fn queue tag t) := by
  unfold execTblUnlock
  (repeat' (first
    | with_reducible (first | assumption | apply later_onPipe | apply later_complete | apply later_markStarted | apply later_tblBegin | apply later_tblRetry | apply later_handleFree)
    | intro _
    | (extract_lets +onlyGivenNames u; (have hu : Later s u := ?_); (on_goal 1 => clear_value u); (on_goal 2 => (dsimp -zeta only [u]; clear u)))
    | (extract_lets +onlyGivenNames x; clear_value x)
    | split
    | exact out_refused
    | (with_reducible apply later_done)))

theorem later_execTblRead {s t : State} (fn : Nat) (queue : Nat) (tag : Nat) (buf : HostRead) (h : Later s t) : OutLater s (execTblRead fn queue tag buf t) := by
  unfold execTblRead
  (repeat' (first
    | with_reducible (first | assumption | apply later_onPipe | apply later_complete | apply later_scatter | refine later_scatter_eq ?_ (by assumption))
    | intro _
    | (extract_lets +onlyGivenNames u; (have hu : Later s u := ?_); (on_goal 1 => clear_value u); (on_goal 2 => (dsimp -zeta only [u]; clear u)))
    | (extract_lets +onlyGivenNames x; clear_value x)
    | split
    | exact out_refused
    | (with_reducible apply later_done)))

theorem later_execLockHoldExpiry {s t : State} (handle : Nat) (h : Later s t) : OutLater s (execLockHoldExpiry handle t) := by
  unfold execLockHoldExpiry
  (repeat' (first
    | with_reducible (first | assumption | apply later_done | apply later_handleFree | apply later_dinc | apply later_event | apply later_tblRetry)
    | split
    | exact out_refused
    | (with_reducible apply later_done)))

theorem later_execTableDoubleBitError {s t : State} (bucket : Nat) (h : Later s t) : OutLater s (execTableDoubleBitError bucket t) := by
  unfold execTableDoubleBitError
  (repeat' (first
    | with_reducible (first | assumption | apply later_withTable | apply later_done | apply later_rehome | apply later_stashNote | apply later_eventLog)
    | intro _
    | (extract_lets +onlyGivenNames u; (have hu : Later s u := ?_); (on_goal 1 => clear_value u); (on_goal 2 => (dsimp -zeta only [u]; clear u)))
    | (extract_lets +onlyGivenNames x; clear_value x)
    | exact out_refused
    | (with_reducible apply later_done)))

theorem later_execVpSend {s t : State} (fn : Nat) (queue : Nat) (tag : Nat) (frame : HostRead) (h : Later s t) : OutLater s (execVpSend fn queue tag frame t) := by
  unfold execVpSend
  (repeat' (first
    | with_reducible (first | assumption | apply later_onPipe | apply later_complete | apply later_markStarted | apply later_withPipe)
    | intro _
    | (extract_lets +onlyGivenNames u; (have hu : Later s u := ?_); (on_goal 1 => clear_value u); (on_goal 2 => (dsimp -zeta only [u]; clear u)))
    | (extract_lets +onlyGivenNames x; clear_value x)
    | split
    | exact out_refused
    | (with_reducible apply later_done)))

theorem later_execVpRxBind {s t : State} (fn : Nat) (queue : Nat) (tag : Nat) (area : HostRead) (h : Later s t) : OutLater s (execVpRxBind fn queue tag area t) := by
  unfold execVpRxBind
  (repeat' (first
    | with_reducible (first | assumption | apply later_onPipe | apply later_vpUnbind | apply later_complete | apply later_withPipe)
    | intro _
    | (extract_lets +onlyGivenNames u; (have hu : Later s u := ?_); (on_goal 1 => clear_value u); (on_goal 2 => (dsimp -zeta only [u]; clear u)))
    | (extract_lets +onlyGivenNames x; clear_value x)
    | split
    | exact out_refused
    | (with_reducible apply later_done)))

theorem later_execVpRxReturn {s t : State} (fn : Nat) (queue : Nat) (tag : Nat) (h : Later s t) : OutLater s (execVpRxReturn fn queue tag t) := by
  unfold execVpRxReturn
  (repeat' (first
    | with_reducible (first | assumption | apply later_onPipe | apply later_complete | apply later_withPipe)
    | intro _
    | (extract_lets +onlyGivenNames u; (have hu : Later s u := ?_); (on_goal 1 => clear_value u); (on_goal 2 => (dsimp -zeta only [u]; clear u)))
    | (extract_lets +onlyGivenNames x; clear_value x)
    | split
    | exact out_refused
    | (with_reducible apply later_done)))

theorem later_execPortLinkUp {s t : State} (port : Nat) (rate : Nat) (h : Later s t) : OutLater s (execPortLinkUp port rate t) := by
  unfold execPortLinkUp
  (repeat' (first
    | with_reducible (first | assumption | apply later_done | apply later_portUp)
    | split
    | exact out_refused
    | (with_reducible apply later_done)))

theorem later_execPortLinkDown {s t : State} (port : Nat) (h : Later s t) : OutLater s (execPortLinkDown port t) := by
  unfold execPortLinkDown
  (repeat' (first
    | with_reducible (first | assumption | apply later_done | apply later_portDown)
    | exact out_refused
    | (with_reducible apply later_done)))

theorem later_execHelloTimer {s t : State} (h : Later s t) : OutLater s (execHelloTimer t) := by
  unfold execHelloTimer
  (repeat' (first
    | with_reducible (first | assumption | apply later_done | apply later_helloSend)
    | split
    | exact out_refused
    | (with_reducible apply later_done)))

theorem later_execTopologyTimer {s t : State} (h : Later s t) : OutLater s (execTopologyTimer t) := by
  unfold execTopologyTimer
  (repeat' (first
    | with_reducible (first | assumption | apply later_done | apply later_topologySend)
    | split
    | exact out_refused
    | (with_reducible apply later_done)))

theorem later_execKeepaliveTimer {s t : State} (port : Nat) (h : Later s t) : OutLater s (execKeepaliveTimer port t) := by
  unfold execKeepaliveTimer
  (repeat' (first
    | with_reducible (first | assumption | apply later_done | apply later_keepaliveSend)
    | split
    | exact out_refused
    | (with_reducible apply later_done)))

theorem later_execHello {s t : State} (port : Nat) (src : ZeludSource) (serial : Nat) (_ring : Nat) (_side : Nat) (t1 : Nat) (echoT1 : Nat) (echoT2 : Nat) (echoT3 : Nat) (arrived : Nat) (h : Later s t) : OutLater s (execHello port src serial _ring _side t1 echoT1 echoT2 echoT3 arrived t) := by
  unfold execHello
  (repeat' (first
    | with_reducible (first | assumption | apply later_done | apply later_helloTake)
    | split
    | exact out_refused
    | (with_reducible apply later_done)))

theorem later_execTopology {s t : State} (port : Nat) (src : ZeludSource) (serial : Nat) (eastDelay : Nat) (eastRate : Nat) (reach : List Nat) (h : Later s t) : OutLater s (execTopology port src serial eastDelay eastRate reach t) := by
  unfold execTopology
  (repeat' (first
    | with_reducible (first | assumption | apply later_done | apply later_topologyTake)
    | split
    | exact out_refused
    | (with_reducible apply later_done)))

theorem later_execFault {s t : State} (port : Nat) (src : ZeludSource) (side : Nat) (h : Later s t) : OutLater s (execFault port src side t) := by
  unfold execFault
  (repeat' (first
    | with_reducible (first | assumption | apply later_done | apply later_faultTake)
    | split
    | exact out_refused
    | (with_reducible apply later_done)))

theorem later_execRestore {s t : State} (port : Nat) (src : ZeludSource) (side : Nat) (h : Later s t) : OutLater s (execRestore port src side t) := by
  unfold execRestore
  (repeat' (first
    | with_reducible (first | assumption | apply later_done | apply later_restoreTake)
    | split
    | exact out_refused
    | (with_reducible apply later_done)))

theorem later_execLeave {s t : State} (port : Nat) (src : ZeludSource) (h : Later s t) : OutLater s (execLeave port src t) := by
  unfold execLeave
  (repeat' (first
    | with_reducible (first | assumption | apply later_done | apply later_leaveTake)
    | split
    | exact out_refused
    | (with_reducible apply later_done)))

theorem later_ringPortLost {s t : State} (port : Nat) (h : Later s t) : Later s (State.ringPortLost t port) := by
  unfold State.ringPortLost
  (repeat' (first
    | with_reducible (first | assumption | apply later_ringPortFails)
    | split))

theorem later_execRingPortFail {s t : State} (port : Nat) (h : Later s t) : OutLater s (execRingPortFail port t) := by
  unfold execRingPortFail
  (repeat' (first
    | with_reducible (first | assumption | apply later_done | apply later_ringPortLost)
    | split
    | exact out_refused
    | (with_reducible apply later_done)))

theorem later_execRingPortSilence {s t : State} (port : Nat) (h : Later s t) : OutLater s (execRingPortSilence port t) := by
  unfold execRingPortSilence
  (repeat' (first
    | with_reducible (first | assumption | apply later_done | apply later_ringPortLost)
    | split
    | exact out_refused
    | (with_reducible apply later_done)))

theorem later_execSteerHoldExpiry {s t : State} (ring : Nat) (h : Later s t) : OutLater s (execSteerHoldExpiry ring t) := by
  unfold execSteerHoldExpiry
  (repeat' (first
    | with_reducible (first | assumption | apply later_done | apply later_steerRelease)
    | split
    | exact out_refused
    | (with_reducible apply later_done)))

theorem later_execRestoreHoldExpiry {s t : State} (port : Nat) (h : Later s t) : OutLater s (execRestoreHoldExpiry port t) := by
  unfold execRestoreHoldExpiry
  (repeat' (first
    | with_reducible (first | assumption | apply later_done | apply later_ringRestored)
    | split
    | exact out_refused
    | (with_reducible apply later_done)))

theorem later_execLeaveWaitExpiry {s t : State} (h : Later s t) : OutLater s (execLeaveWaitExpiry t) := by
  unfold execLeaveWaitExpiry
  (repeat' (first
    | with_reducible (first | assumption | apply later_done | apply later_leaveWaited)
    | exact out_refused
    | (with_reducible apply later_done)))

theorem later_execPtpMessage {s t : State} (port : Nat) (msg : PtpMessage) (h : Later s t) : OutLater s (execPtpMessage port msg t) := by
  unfold execPtpMessage
  (repeat' (first
    | with_reducible (first | assumption | apply later_done | apply later_ptpTake)
    | split
    | exact out_refused
    | (with_reducible apply later_done)))

theorem later_execSyncTimeout {s t : State} (h : Later s t) : OutLater s (execSyncTimeout t) := by
  unfold execSyncTimeout
  (repeat' (first
    | with_reducible (first | assumption | apply later_done | apply later_dset | apply later_event)
    | split
    | exact out_refused
    | (with_reducible apply later_done)))

theorem later_execSyncIntervalExpiry {s t : State} (port : Nat) (h : Later s t) : OutLater s (execSyncIntervalExpiry port t) := by
  unfold execSyncIntervalExpiry
  (repeat' (first
    | with_reducible (first | assumption | apply later_ptpSend | apply later_done)
    | (extract_lets +onlyGivenNames u; (have hu : Later s u := ?_); (on_goal 1 => clear_value u); (on_goal 2 => (dsimp -zeta only [u]; clear u)))
    | (extract_lets +onlyGivenNames x; clear_value x)
    | split
    | exact out_refused
    | (with_reducible apply later_done)))

theorem later_execPpsInEdge {s t : State} (h : Later s t) : OutLater s (execPpsInEdge t) := by
  unfold execPpsInEdge
  (repeat' (first
    | with_reducible (first | assumption | apply later_done | apply later_ppsEdge)
    | exact out_refused
    | (with_reducible apply later_done)))

theorem later_execPpsInTimeout {s t : State} (h : Later s t) : OutLater s (execPpsInTimeout t) := by
  unfold execPpsInTimeout
  (repeat' (first
    | with_reducible (first | assumption | apply later_done | apply later_event)
    | split
    | exact out_refused
    | (with_reducible apply later_done)))

theorem later_execPpsOutEdge {s t : State} (rising : Bool) (h : Later s t) : OutLater s (execPpsOutEdge rising t) := by
  unfold execPpsOutEdge
  (repeat' (first
    | with_reducible (first | assumption | apply later_done | apply later_ppsOutput)
    | exact out_refused
    | (with_reducible apply later_done)))

/-! Machine/Power.lean -/

theorem later_execAoPowerOn {s t : State} (tinderStraps : Nat) (testMode : Bool) (h : Later s t) : OutLater s (execAoPowerOn tinderStraps testMode t) := by
  unfold execAoPowerOn
  (repeat' (first
    | with_reducible (first | assumption | apply later_startBase | apply later_withTime | apply later_dset | apply later_done | apply later_withPow | apply later_pin)
    | intro _
    | (extract_lets +onlyGivenNames u; (have hu : Later s u := ?_); (on_goal 1 => clear_value u); (on_goal 2 => (dsimp -zeta only [u]; clear u)))
    | (extract_lets +onlyGivenNames x; clear_value x)
    | split
    | exact out_refused
    | (with_reducible apply later_done)))

theorem later_execEmberWatchdogExpiry {s t : State} (h : Later s t) : OutLater s (execEmberWatchdogExpiry t) := by
  unfold execEmberWatchdogExpiry
  (repeat' (first
    | with_reducible (first | assumption | apply later_done | apply later_emberStart)
    | split
    | exact out_refused
    | (with_reducible apply later_done)))

theorem later_execEmberStartComplete {s t : State} (slot0 : EmberSlot) (slot1 : EmberSlot) (h : Later s t) : OutLater s (execEmberStartComplete slot0 slot1 t) := by
  unfold execEmberStartComplete
  (repeat' (first
    | with_reducible (first | assumption | apply later_done | apply later_withPow | apply later_wakeTake | apply later_foldl)
    | intro _
    | (extract_lets +onlyGivenNames u; (have hu : Later s u := ?_); (on_goal 1 => clear_value u); (on_goal 2 => (dsimp -zeta only [u]; clear u)))
    | (extract_lets +onlyGivenNames x; clear_value x)
    | split
    | exact out_refused
    | (with_reducible apply later_done)))

theorem later_execMainPgRise {s t : State} (h : Later s t) : OutLater s (execMainPgRise t) := by
  unfold execMainPgRise
  (repeat' (first
    | with_reducible (first | assumption | apply later_withPow | apply later_done | apply later_resetRelease)
    | intro _
    | (extract_lets +onlyGivenNames u; (have hu : Later s u := ?_); (on_goal 1 => clear_value u); (on_goal 2 => (dsimp -zeta only [u]; clear u)))
    | (extract_lets +onlyGivenNames x; clear_value x)
    | split
    | exact out_refused
    | (with_reducible apply later_done)))

theorem later_execMainPgTimeout {s t : State} (h : Later s t) : OutLater s (execMainPgTimeout t) := by
  unfold execMainPgTimeout
  (repeat' (first
    | with_reducible (first | assumption | apply later_withPow | apply later_pin | apply later_done | apply later_wakeNote)
    | intro _
    | (extract_lets +onlyGivenNames u; (have hu : Later s u := ?_); (on_goal 1 => clear_value u); (on_goal 2 => (dsimp -zeta only [u]; clear u)))
    | (extract_lets +onlyGivenNames x; clear_value x)
    | split
    | exact out_refused
    | (with_reducible apply later_done)))

theorem later_execMainEnRetryExpiry {s t : State} (h : Later s t) : OutLater s (execMainEnRetryExpiry t) := by
  unfold execMainEnRetryExpiry
  (repeat' (first
    | with_reducible (first | assumption | apply later_done | apply later_withPow | apply later_pin)
    | intro _
    | split
    | exact out_refused
    | (with_reducible apply later_done)))

theorem later_execMainPgLoss {s t : State} (h : Later s t) : OutLater s (execMainPgLoss t) := by
  unfold execMainPgLoss
  (repeat' (first
    | with_reducible (first | assumption | apply later_wakeNote | apply later_hostLinkLost | apply later_startBase | apply later_dinc | apply later_withBoot | apply later_done | apply later_withPow)
    | intro _
    | (extract_lets +onlyGivenNames u; (have hu : Later s u := ?_); (on_goal 1 => clear_value u); (on_goal 2 => (dsimp -zeta only [u]; clear u)))
    | (extract_lets +onlyGivenNames x; clear_value x)
    | split
    | exact out_refused
    | (with_reducible apply later_done)))

theorem later_execPerstNAssert {s t : State} (h : Later s t) : OutLater s (execPerstNAssert t) := by
  unfold execPerstNAssert
  (repeat' (first
    | with_reducible (first | assumption | apply later_withPow | apply later_done | apply later_startOrHold)
    | intro _
    | (extract_lets +onlyGivenNames u; (have hu : Later s u := ?_); (on_goal 1 => clear_value u); (on_goal 2 => (dsimp -zeta only [u]; clear u)))
    | (extract_lets +onlyGivenNames x; clear_value x)
    | split
    | exact out_refused
    | (with_reducible apply later_done)))

theorem later_execPerstNRelease {s t : State} (h : Later s t) : OutLater s (execPerstNRelease t) := by
  unfold execPerstNRelease
  (repeat' (first
    | with_reducible (first | assumption | apply later_withPow | apply later_done | apply later_resetRelease)
    | intro _
    | (extract_lets +onlyGivenNames u; (have hu : Later s u := ?_); (on_goal 1 => clear_value u); (on_goal 2 => (dsimp -zeta only [u]; clear u)))
    | (extract_lets +onlyGivenNames x; clear_value x)
    | split
    | cases ‹none = some _›
    | (split at ‹_ = some _›)
    | exact out_refused
    | (with_reducible apply later_done)))

theorem later_execResetReq {s t : State} (h : Later s t) : OutLater s (execResetReq t) := by
  unfold execResetReq
  (repeat' (first
    | with_reducible (first | assumption | apply later_done | apply later_startOrHold)
    | split
    | exact out_refused
    | (with_reducible apply later_done)))

theorem later_execDrainComplete {s t : State} (h : Later s t) : OutLater s (execDrainComplete t) := by
  unfold execDrainComplete
  (repeat' (first
    | with_reducible (first | assumption | apply later_done | apply later_enterBanked | apply later_dropEgressFrames | apply later_hostLinkL12 | apply later_emit | apply later_withPow | apply later_emberOff | apply later_foldl)
    | intro _
    | (extract_lets +onlyGivenNames u; (have hu : Later s u := ?_); (on_goal 1 => clear_value u); (on_goal 2 => (dsimp -zeta only [u]; clear u)))
    | (extract_lets +onlyGivenNames x; clear_value x)
    | split
    | exact out_refused
    | (with_reducible apply later_done)))

theorem later_execDrainTimeout {s t : State} (h : Later s t) : OutLater s (execDrainTimeout t) := by
  unfold execDrainTimeout
  (repeat' (first
    | with_reducible (first | assumption | apply later_done | apply later_entryAbandoned)
    | split
    | exact out_refused
    | (with_reducible apply later_done)))

theorem later_execEgressDrainExpiry {s t : State} (h : Later s t) : OutLater s (execEgressDrainExpiry t) := by
  unfold execEgressDrainExpiry
  (repeat' (first
    | with_reducible (first | assumption | apply later_done | apply later_dropEgressFrames | apply later_withPow)
    | intro _
    | split
    | exact out_refused
    | (with_reducible apply later_done)))

theorem later_execSsdShutdownComplete {s t : State} (port : Nat) (h : Later s t) : OutLater s (execSsdShutdownComplete port t) := by
  unfold execSsdShutdownComplete
  (repeat' (first
    | with_reducible (first | assumption | apply later_withPow | apply later_done | apply later_emberOff)
    | intro _
    | (extract_lets +onlyGivenNames u; (have hu : Later s u := ?_); (on_goal 1 => clear_value u); (on_goal 2 => (dsimp -zeta only [u]; clear u)))
    | (extract_lets +onlyGivenNames x; clear_value x)
    | split
    | exact out_refused
    | (with_reducible apply later_done)))

theorem later_execSsdShutdownTimeout {s t : State} (h : Later s t) : OutLater s (execSsdShutdownTimeout t) := by
  unfold execSsdShutdownTimeout
  (repeat' (first
    | with_reducible (first | assumption | apply later_done | apply later_emberOff)
    | split
    | exact out_refused
    | (with_reducible apply later_done)))

theorem later_execMainPgFall {s t : State} (h : Later s t) : OutLater s (execMainPgFall t) := by
  unfold execMainPgFall
  (repeat' (first
    | with_reducible (first | assumption | apply later_done | apply later_withPow)
    | intro _
    | split
    | exact out_refused
    | (with_reducible apply later_done)))

theorem later_execEmberWakeHoldExpiry {s t : State} (h : Later s t) : OutLater s (execEmberWakeHoldExpiry t) := by
  unfold execEmberWakeHoldExpiry
  (repeat' (first
    | with_reducible (first | assumption | apply later_withPow | apply later_done | apply later_emberWake)
    | intro _
    | (extract_lets +onlyGivenNames u; (have hu : Later s u := ?_); (on_goal 1 => clear_value u); (on_goal 2 => (dsimp -zeta only [u]; clear u)))
    | (extract_lets +onlyGivenNames x; clear_value x)
    | split
    | exact out_refused
    | (with_reducible apply later_done)))

theorem later_execIgnRise {s t : State} (h : Later s t) : OutLater s (execIgnRise t) := by
  unfold execIgnRise
  (repeat' (first
    | with_reducible (first | assumption | apply later_withPow | apply later_withDamper | apply later_done | apply later_wakeSource)
    | intro _
    | (extract_lets +onlyGivenNames u; (have hu : Later s u := ?_); (on_goal 1 => clear_value u); (on_goal 2 => (dsimp -zeta only [u]; clear u)))
    | (extract_lets +onlyGivenNames x; clear_value x)
    | exact out_refused
    | (with_reducible apply later_done)))

theorem later_execIgnFall {s t : State} (h : Later s t) : OutLater s (execIgnFall t) := by
  unfold execIgnFall
  (repeat' (first
    | with_reducible (first | assumption | apply later_withPow | apply later_dset | apply later_withDamper | apply later_event | apply later_done)
    | intro _
    | (extract_lets +onlyGivenNames u; (have hu : Later s u := ?_); (on_goal 1 => clear_value u); (on_goal 2 => (dsimp -zeta only [u]; clear u)))
    | (extract_lets +onlyGivenNames x; clear_value x)
    | split
    | exact out_refused
    | (with_reducible apply later_done)))

theorem later_execWakeEdge {s t : State} (pin : Nat) (h : Later s t) : OutLater s (execWakeEdge pin t) := by
  unfold execWakeEdge
  (repeat' (first
    | with_reducible (first | assumption | apply later_pin | apply later_withPow | apply later_done | apply later_wakeSource)
    | intro _
    | (extract_lets +onlyGivenNames u; (have hu : Later s u := ?_); (on_goal 1 => clear_value u); (on_goal 2 => (dsimp -zeta only [u]; clear u)))
    | (extract_lets +onlyGivenNames x; clear_value x)
    | exact out_refused
    | (with_reducible apply later_done)))

theorem later_execWakeAlarm {s t : State} (h : Later s t) : OutLater s (execWakeAlarm t) := by
  unfold execWakeAlarm
  (repeat' (first
    | with_reducible (first | assumption | apply later_done | apply later_wakeSource)
    | split
    | exact out_refused
    | (with_reducible apply later_done)))

theorem later_execTinderAddressMatch {s t : State} (address : Nat) (isRead : Bool) (h : Later s t) : OutLater s (execTinderAddressMatch address isRead t) := by
  unfold execTinderAddressMatch
  (repeat' (first
    | with_reducible (first | assumption | apply later_withPow | apply later_done | apply later_dinc | apply later_wakeSource)
    | intro _
    | (extract_lets +onlyGivenNames u; (have hu : Later s u := ?_); (on_goal 1 => clear_value u); (on_goal 2 => (dsimp -zeta only [u]; clear u)))
    | (extract_lets +onlyGivenNames x; clear_value x)
    | split
    | exact out_refused
    | (with_reducible apply later_done)))

theorem later_execTinderTransferTaken {s t : State} (count : Nat) (h : Later s t) : OutLater s (execTinderTransferTaken count t) := by
  unfold execTinderTransferTaken
  (repeat' (first
    | with_reducible (first | assumption | apply later_tinderStretch | apply later_withPow | apply later_done | apply later_emit)
    | intro _
    | (extract_lets +onlyGivenNames u; (have hu : Later s u := ?_); (on_goal 1 => clear_value u); (on_goal 2 => (dsimp -zeta only [u]; clear u)))
    | (extract_lets +onlyGivenNames x; clear_value x)
    | split
    | exact out_refused
    | (with_reducible apply later_done)))

theorem later_execTinderStretchLimit {s t : State} (h : Later s t) : OutLater s (execTinderStretchLimit t) := by
  unfold execTinderStretchLimit
  (repeat' (first
    | with_reducible (first | assumption | apply later_dmax | apply later_withPow | apply later_done | apply later_emit)
    | intro _
    | (extract_lets +onlyGivenNames u; (have hu : Later s u := ?_); (on_goal 1 => clear_value u); (on_goal 2 => (dsimp -zeta only [u]; clear u)))
    | (extract_lets +onlyGivenNames x; clear_value x)
    | split
    | exact out_refused
    | (with_reducible apply later_done)))

theorem later_execTinderRegisterWrite {s t : State} (data : Bytes) (h : Later s t) : OutLater s (execTinderRegisterWrite data t) := by
  unfold execTinderRegisterWrite
  (repeat' (first
    | with_reducible (first | assumption | apply later_done | apply later_withPow | apply later_foldl)
    | intro _
    | (extract_lets +onlyGivenNames u; (have hu : Later s u := ?_); (on_goal 1 => clear_value u); (on_goal 2 => (dsimp -zeta only [u]; clear u)))
    | (extract_lets +onlyGivenNames x; clear_value x)
    | split
    | exact out_refused
    | (with_reducible apply later_done)))

theorem later_execBankedMaxExpiry {s t : State} (h : Later s t) : OutLater s (execBankedMaxExpiry t) := by
  unfold execBankedMaxExpiry
  (repeat' (first
    | with_reducible (first | assumption | apply later_done | apply later_bankedToEmber)
    | split
    | exact out_refused
    | (with_reducible apply later_done)))

theorem later_execVsenseEmberHoldExpiry {s t : State} (h : Later s t) : OutLater s (execVsenseEmberHoldExpiry t) := by
  unfold execVsenseEmberHoldExpiry
  (repeat' (first
    | with_reducible (first | assumption | apply later_done | apply later_bankedToEmber)
    | split
    | exact out_refused
    | (with_reducible apply later_done)))

theorem later_execIgnOffTimerExpiry {s t : State} (h : Later s t) : OutLater s (execIgnOffTimerExpiry t) := by
  unfold execIgnOffTimerExpiry
  (repeat' (first
    | with_reducible (first | assumption | apply later_done | apply later_withPow | apply later_firmwareRequest)
    | intro _
    | split
    | exact out_refused
    | (with_reducible apply later_done)))

theorem later_execIgnOffRetryExpiry {s t : State} (h : Later s t) : OutLater s (execIgnOffRetryExpiry t) := by
  unfold execIgnOffRetryExpiry
  (repeat' (first
    | with_reducible (first | assumption | apply later_done | apply later_firmwareRequest)
    | split
    | exact out_refused
    | (with_reducible apply later_done)))

theorem later_execDomainPowerUpStart {s t : State} (domain : Nat) (h : Later s t) : OutLater s (execDomainPowerUpStart domain t) := by
  unfold execDomainPowerUpStart
  (repeat' (first
    | with_reducible (first | assumption | apply later_done | apply later_setDom)
    | split
    | exact out_refused
    | (with_reducible apply later_done)))

theorem later_execDomainPowerGood {s t : State} (domain : Nat) (measureOk : List Nat) (h : Later s t) : OutLater s (execDomainPowerGood domain measureOk t) := by
  unfold execDomainPowerGood
  (repeat' (first
    | with_reducible (first | assumption | apply later_done | apply later_setDom | apply later_dinc | apply later_domainPoweredUp)
    | split
    | exact out_refused
    | (with_reducible apply later_done)))

theorem later_execDomainPowerGoodTimeout {s t : State} (domain : Nat) (h : Later s t) : OutLater s (execDomainPowerGoodTimeout domain t) := by
  unfold execDomainPowerGoodTimeout
  (repeat' (first
    | with_reducible (first | assumption | apply later_done | apply later_setDom | apply later_eventLog | apply later_domainFailed)
    | split
    | exact out_refused
    | (with_reducible apply later_done)))

theorem later_execHysteresisExpiry {s t : State} (domain : Nat) (h : Later s t) : OutLater s (execHysteresisExpiry domain t) := by
  unfold execHysteresisExpiry
  (repeat' (first
    | with_reducible (first | assumption | apply later_done | apply later_setDom | apply later_domainLost)
    | split
    | exact out_refused
    | (with_reducible apply later_done)))

theorem later_execDomainPowerDownDone {s t : State} (domain : Nat) (h : Later s t) : OutLater s (execDomainPowerDownDone domain t) := by
  unfold execDomainPowerDownDone
  (repeat' (first
    | with_reducible (first | assumption | apply later_done | apply later_setDom)
    | split
    | exact out_refused
    | (with_reducible apply later_done)))

theorem later_execSlowclk1024Cycles {s t : State} (h : Later s t) : OutLater s (execSlowclk1024Cycles t) := by
  unfold execSlowclk1024Cycles
  (repeat' (first
    | with_reducible (first | assumption | apply later_done | apply later_withPow)
    | intro _
    | exact out_refused
    | (with_reducible apply later_done)))

/-! Machine/Registers.lean -/

theorem later_elockWrite {s t : State} (n : Nat) (e_ : Nat) (v : Nat) (h : Later s t) : Later s (State.elockWrite t n e_ v) := by
  unfold State.elockWrite
  (repeat' (first
    | with_reducible (first | assumption | apply later_engineRelease | apply later_engineTake)
    | (extract_lets +onlyGivenNames u; (have hu : Later s u := ?_); (on_goal 1 => clear_value u); (on_goal 2 => (dsimp -zeta only [u]; clear u)))
    | (extract_lets +onlyGivenNames x; clear_value x)
    | split))

theorem later_adminSet {s t : State} (n : Nat) (f : TqRegs → TqRegs) (h : Later s t) : Later s (State.adminSet t n f) := by
  unfold State.adminSet
  (repeat' (first
    | with_reducible (first | assumption | apply later_withTq)
    | split))

theorem later_tqWrite {s t : State} (n : Nat) (off : Nat) (v : Nat) (h : Later s t) : Later s (State.tqWrite t n off v) := by
  unfold State.tqWrite
  (repeat' (first
    | with_reducible (first | assumption | apply later_adminRestart | apply later_adminEnable | apply later_adminDisable | apply later_adminSet | apply later_withTq)
    | intro _
    | split))

theorem later_functionRegWrite {s t : State} (n : Nat) (off : Nat) (v : Nat) (h : Later s t) : Later s (State.functionRegWrite t n off v) := by
  unfold State.functionRegWrite
  (repeat' (first
    | with_reducible (first | assumption | apply later_withFn | apply later_bootGo | apply later_withBoot | apply later_tqWrite | apply later_elockWrite)
    | intro _
    | split))

theorem later_doorbellWrite {s t : State} (n : Nat) (off : Nat) (v : Nat) (h : Later s t) : Later s (State.doorbellWrite t n off v) := by
  unfold State.doorbellWrite
  (repeat' (first
    | with_reducible (first | assumption | apply later_sqDoorbell | apply later_cqDoorbell)
    | split))

theorem later_msixWrite {s t : State} (n : Nat) (i : Nat) (v : Nat) (h : Later s t) : Later s (State.msixWrite t n i v) := by
  unfold State.msixWrite
  (repeat' (first
    | with_reducible (first | assumption | apply later_withFn | apply later_sendPending)
    | intro _
    | (extract_lets +onlyGivenNames u; (have hu : Later s u := ?_); (on_goal 1 => clear_value u); (on_goal 2 => (dsimp -zeta only [u]; clear u)))
    | (extract_lets +onlyGivenNames x; clear_value x)
    | split))

theorem later_withBox {s t : State} (n : Nat) (f : Mailbox → Mailbox) (h : Later s t) : Later s (State.withBox t n f) := by
  unfold State.withBox
  (repeat' (first
    | with_reducible (first | assumption | apply later_withFn)
    | intro _))

theorem later_mailboxWrite {s t : State} (n : Nat) (off : Nat) (v : Nat) (h : Later s t) : Later s (State.mailboxWrite t n off v) := by
  unfold State.mailboxWrite
  (repeat' (first
    | with_reducible (first | assumption | apply later_withBox | apply later_done | apply later_mailboxGo | apply later_request)
    | intro _
    | (extract_lets +onlyGivenNames u; (have hu : Later s u := ?_); (on_goal 1 => clear_value u); (on_goal 2 => (dsimp -zeta only [u]; clear u)))
    | (extract_lets +onlyGivenNames x; clear_value x)
    | split))

theorem later_bar0Write {s t : State} (n : Nat) (off : Nat) (v : Nat) (h : Later s t) : Later s (State.bar0Write t n off v) := by
  unfold State.bar0Write
  (repeat' (first
    | with_reducible (first | assumption | apply later_hostActivity | apply later_unsupportedRequest | apply later_functionRegWrite | apply later_doorbellWrite | apply later_msixWrite | apply later_mailboxWrite)
    | intro _
    | (extract_lets +onlyGivenNames u; (have hu : Later s u := ?_); (on_goal 1 => clear_value u); (on_goal 2 => (dsimp -zeta only [u]; clear u)))
    | (extract_lets +onlyGivenNames x; clear_value x)
    | split))

theorem later_cfgWrite {s t : State} (n : Nat) (f : CfgField) (v : Nat) (h : Later s t) : Later s (State.cfgWrite t n f v) := by
  unfold State.cfgWrite
  (repeat' (first
    | with_reducible (first | assumption | apply later_modeEnable | apply later_withFn | apply later_sendPending | apply later_enterD0 | apply later_enterD3 | apply later_cfgPut)
    | intro _
    | split))

theorem later_execRegisterWrite {s t : State} (fn : Nat) (space : RegSpace) (value : Nat) (h : Later s t) : OutLater s (execRegisterWrite fn space value t) := by
  unfold execRegisterWrite
  (repeat' (first
    | with_reducible (first | assumption | apply later_done | apply later_bar0Write | apply later_cfgWrite)
    | split
    | exact out_refused
    | (with_reducible apply later_done)))

/-! Machine/Sched.lean -/

theorem later_execFrameTransmitDone {s t : State} (port : Nat) (h : Later s t) : OutLater s (execFrameTransmitDone port t) := by
  unfold execFrameTransmitDone
  (repeat' (first
    | with_reducible (first | assumption | apply later_done | apply later_withEg | apply later_portServe)
    | intro _
    | split
    | exact out_refused
    | (with_reducible apply later_done)))

theorem later_execShaperRefresh {s t : State} (h : Later s t) : OutLater s (execShaperRefresh t) := by
  unfold execShaperRefresh
  (repeat' (first
    | with_reducible (first | assumption | apply later_portRefresh | apply later_vpRefresh | apply later_done | apply later_portServe | apply later_foldl)
    | intro _
    | (extract_lets +onlyGivenNames u; (have hu : Later s u := ?_); (on_goal 1 => clear_value u); (on_goal 2 => (dsimp -zeta only [u]; clear u)))
    | (extract_lets +onlyGivenNames x; clear_value x)
    | split
    | exact out_refused
    | (with_reducible apply later_done)))

theorem later_execGateIntervalEnd {s t : State} (port : Nat) (h : Later s t) : OutLater s (execGateIntervalEnd port t) := by
  unfold execGateIntervalEnd
  (repeat' (first
    | with_reducible (first | assumption | apply later_done | apply later_gateAdvance)
    | exact out_refused
    | (with_reducible apply later_done)))

theorem later_execGateListChange {s t : State} (port : Nat) (h : Later s t) : OutLater s (execGateListChange port t) := by
  unfold execGateListChange
  (repeat' (first
    | with_reducible (first | assumption | apply later_done | apply later_gateChange)
    | exact out_refused
    | (with_reducible apply later_done)))

/-! Machine/Tick.lean -/

theorem later_passes {s t : State} (h : Later s t) : Later s (State.passes t) := by
  unfold State.passes
  (repeat' (first
    | with_reducible (first | assumption | apply later_passIdle | apply later_foldl)
    | intro _
    | split))

theorem later_tick {s t : State} (h : Later s t) : Later s (State.tick t) := by
  unfold State.tick
  (repeat' (first
    | with_reducible (first | assumption | apply later_withTime | apply later_withFlow | apply later_passes)
    | intro _
    | (extract_lets +onlyGivenNames u; (have hu : Later s u := ?_); (on_goal 1 => clear_value u); (on_goal 2 => (dsimp -zeta only [u]; clear u)))
    | (extract_lets +onlyGivenNames x; clear_value x)
    | split))

end Sys2Proof.Laws
end

