-- ==== Sys2Proof/Laws/State.lean ====
section
/-! SUPPORT. What each update of the state leaves: one lemma per field and update, by rfl, so that no proof unfolds a record
update; and what a read of the dictionary, a function or an instance gives after a write of it. -/

namespace Sys2Proof.Laws

open Sys2Proof.Machine

variable (s : State)

/-! withTime -/

@[simp] theorem withTime_dict (f : TimeBase → TimeBase) : (s.withTime f).dict = s.dict := rfl
@[simp] theorem withTime_time (f : TimeBase → TimeBase) : (s.withTime f).time = f s.time := rfl
@[simp] theorem withTime_eg (f : TimeBase → TimeBase) : (s.withTime f).eg = s.eg := rfl
@[simp] theorem withTime_ash (f : TimeBase → TimeBase) : (s.withTime f).ash = s.ash := rfl
@[simp] theorem withTime_peat (f : TimeBase → TimeBase) : (s.withTime f).peat = s.peat := rfl
@[simp] theorem withTime_sealStore (f : TimeBase → TimeBase) : (s.withTime f).sealStore = s.sealStore := rfl
@[simp] theorem withTime_boot (f : TimeBase → TimeBase) : (s.withTime f).boot = s.boot := rfl
@[simp] theorem withTime_pow (f : TimeBase → TimeBase) : (s.withTime f).pow = s.pow := rfl
@[simp] theorem withTime_damper (f : TimeBase → TimeBase) : (s.withTime f).damper = s.damper := rfl
@[simp] theorem withTime_host (f : TimeBase → TimeBase) : (s.withTime f).host = s.host := rfl
@[simp] theorem withTime_fns (f : TimeBase → TimeBase) : (s.withTime f).fns = s.fns := rfl
@[simp] theorem withTime_q (f : TimeBase → TimeBase) : (s.withTime f).q = s.q := rfl
@[simp] theorem withTime_insts (f : TimeBase → TimeBase) : (s.withTime f).insts = s.insts := rfl
@[simp] theorem withTime_stor (f : TimeBase → TimeBase) : (s.withTime f).stor = s.stor := rfl
@[simp] theorem withTime_kiln (f : TimeBase → TimeBase) : (s.withTime f).kiln = s.kiln := rfl
@[simp] theorem withTime_cipher (f : TimeBase → TimeBase) : (s.withTime f).cipher = s.cipher := rfl
@[simp] theorem withTime_pipe (f : TimeBase → TimeBase) : (s.withTime f).pipe = s.pipe := rfl
@[simp] theorem withTime_flow (f : TimeBase → TimeBase) : (s.withTime f).flow = s.flow := rfl
@[simp] theorem withTime_dbg (f : TimeBase → TimeBase) : (s.withTime f).dbg = s.dbg := rfl
@[simp] theorem withTime_svc (f : TimeBase → TimeBase) : (s.withTime f).svc = s.svc := rfl
@[simp] theorem withTime_dram (f : TimeBase → TimeBase) : (s.withTime f).dram = s.dram := rfl
@[simp] theorem withTime_free (f : TimeBase → TimeBase) : (s.withTime f).free = s.free := rfl
@[simp] theorem withTime_lastFire (f : TimeBase → TimeBase) : (s.withTime f).lastFire = s.lastFire := rfl
@[simp] theorem withTime_out (f : TimeBase → TimeBase) : (s.withTime f).out = s.out := rfl
@[simp] theorem withTime_pending (f : TimeBase → TimeBase) : (s.withTime f).pending = s.pending := rfl
@[simp] theorem withTime_dget (f : TimeBase → TimeBase) (i k : Nat) : (s.withTime f).dget i k = s.dget i k := rfl
@[simp] theorem withTime_dval (f : TimeBase → TimeBase) (i k : Nat) : (s.withTime f).dval i k = s.dval i k := rfl
@[simp] theorem withTime_fn (f : TimeBase → TimeBase) (n : Nat) : (s.withTime f).fn n = s.fn n := rfl
@[simp] theorem withTime_inst (f : TimeBase → TimeBase) (n : Nat) : (s.withTime f).inst n = s.inst n := rfl

/-! withGatherer -/

@[simp] theorem withGatherer_dict (f : Gatherer → Gatherer) : (s.withGatherer f).dict = s.dict := rfl
@[simp] theorem withGatherer_time (f : Gatherer → Gatherer) : (s.withGatherer f).time = s.time := rfl
@[simp] theorem withGatherer_eg (f : Gatherer → Gatherer) : (s.withGatherer f).eg = f s.eg := rfl
@[simp] theorem withGatherer_ash (f : Gatherer → Gatherer) : (s.withGatherer f).ash = s.ash := rfl
@[simp] theorem withGatherer_peat (f : Gatherer → Gatherer) : (s.withGatherer f).peat = s.peat := rfl
@[simp] theorem withGatherer_sealStore (f : Gatherer → Gatherer) : (s.withGatherer f).sealStore = s.sealStore := rfl
@[simp] theorem withGatherer_boot (f : Gatherer → Gatherer) : (s.withGatherer f).boot = s.boot := rfl
@[simp] theorem withGatherer_pow (f : Gatherer → Gatherer) : (s.withGatherer f).pow = s.pow := rfl
@[simp] theorem withGatherer_damper (f : Gatherer → Gatherer) : (s.withGatherer f).damper = s.damper := rfl
@[simp] theorem withGatherer_host (f : Gatherer → Gatherer) : (s.withGatherer f).host = s.host := rfl
@[simp] theorem withGatherer_fns (f : Gatherer → Gatherer) : (s.withGatherer f).fns = s.fns := rfl
@[simp] theorem withGatherer_q (f : Gatherer → Gatherer) : (s.withGatherer f).q = s.q := rfl
@[simp] theorem withGatherer_insts (f : Gatherer → Gatherer) : (s.withGatherer f).insts = s.insts := rfl
@[simp] theorem withGatherer_stor (f : Gatherer → Gatherer) : (s.withGatherer f).stor = s.stor := rfl
@[simp] theorem withGatherer_kiln (f : Gatherer → Gatherer) : (s.withGatherer f).kiln = s.kiln := rfl
@[simp] theorem withGatherer_cipher (f : Gatherer → Gatherer) : (s.withGatherer f).cipher = s.cipher := rfl
@[simp] theorem withGatherer_pipe (f : Gatherer → Gatherer) : (s.withGatherer f).pipe = s.pipe := rfl
@[simp] theorem withGatherer_flow (f : Gatherer → Gatherer) : (s.withGatherer f).flow = s.flow := rfl
@[simp] theorem withGatherer_dbg (f : Gatherer → Gatherer) : (s.withGatherer f).dbg = s.dbg := rfl
@[simp] theorem withGatherer_svc (f : Gatherer → Gatherer) : (s.withGatherer f).svc = s.svc := rfl
@[simp] theorem withGatherer_dram (f : Gatherer → Gatherer) : (s.withGatherer f).dram = s.dram := rfl
@[simp] theorem withGatherer_free (f : Gatherer → Gatherer) : (s.withGatherer f).free = s.free := rfl
@[simp] theorem withGatherer_lastFire (f : Gatherer → Gatherer) : (s.withGatherer f).lastFire = s.lastFire := rfl
@[simp] theorem withGatherer_out (f : Gatherer → Gatherer) : (s.withGatherer f).out = s.out := rfl
@[simp] theorem withGatherer_pending (f : Gatherer → Gatherer) : (s.withGatherer f).pending = s.pending := rfl
@[simp] theorem withGatherer_dget (f : Gatherer → Gatherer) (i k : Nat) : (s.withGatherer f).dget i k = s.dget i k := rfl
@[simp] theorem withGatherer_dval (f : Gatherer → Gatherer) (i k : Nat) : (s.withGatherer f).dval i k = s.dval i k := rfl
@[simp] theorem withGatherer_fn (f : Gatherer → Gatherer) (n : Nat) : (s.withGatherer f).fn n = s.fn n := rfl
@[simp] theorem withGatherer_inst (f : Gatherer → Gatherer) (n : Nat) : (s.withGatherer f).inst n = s.inst n := rfl

/-! withAsh -/

@[simp] theorem withAsh_dict (f : Ash → Ash) : (s.withAsh f).dict = s.dict := rfl
@[simp] theorem withAsh_time (f : Ash → Ash) : (s.withAsh f).time = s.time := rfl
@[simp] theorem withAsh_eg (f : Ash → Ash) : (s.withAsh f).eg = s.eg := rfl
@[simp] theorem withAsh_ash (f : Ash → Ash) : (s.withAsh f).ash = f s.ash := rfl
@[simp] theorem withAsh_peat (f : Ash → Ash) : (s.withAsh f).peat = s.peat := rfl
@[simp] theorem withAsh_sealStore (f : Ash → Ash) : (s.withAsh f).sealStore = s.sealStore := rfl
@[simp] theorem withAsh_boot (f : Ash → Ash) : (s.withAsh f).boot = s.boot := rfl
@[simp] theorem withAsh_pow (f : Ash → Ash) : (s.withAsh f).pow = s.pow := rfl
@[simp] theorem withAsh_damper (f : Ash → Ash) : (s.withAsh f).damper = s.damper := rfl
@[simp] theorem withAsh_host (f : Ash → Ash) : (s.withAsh f).host = s.host := rfl
@[simp] theorem withAsh_fns (f : Ash → Ash) : (s.withAsh f).fns = s.fns := rfl
@[simp] theorem withAsh_q (f : Ash → Ash) : (s.withAsh f).q = s.q := rfl
@[simp] theorem withAsh_insts (f : Ash → Ash) : (s.withAsh f).insts = s.insts := rfl
@[simp] theorem withAsh_stor (f : Ash → Ash) : (s.withAsh f).stor = s.stor := rfl
@[simp] theorem withAsh_kiln (f : Ash → Ash) : (s.withAsh f).kiln = s.kiln := rfl
@[simp] theorem withAsh_cipher (f : Ash → Ash) : (s.withAsh f).cipher = s.cipher := rfl
@[simp] theorem withAsh_pipe (f : Ash → Ash) : (s.withAsh f).pipe = s.pipe := rfl
@[simp] theorem withAsh_flow (f : Ash → Ash) : (s.withAsh f).flow = s.flow := rfl
@[simp] theorem withAsh_dbg (f : Ash → Ash) : (s.withAsh f).dbg = s.dbg := rfl
@[simp] theorem withAsh_svc (f : Ash → Ash) : (s.withAsh f).svc = s.svc := rfl
@[simp] theorem withAsh_dram (f : Ash → Ash) : (s.withAsh f).dram = s.dram := rfl
@[simp] theorem withAsh_free (f : Ash → Ash) : (s.withAsh f).free = s.free := rfl
@[simp] theorem withAsh_lastFire (f : Ash → Ash) : (s.withAsh f).lastFire = s.lastFire := rfl
@[simp] theorem withAsh_out (f : Ash → Ash) : (s.withAsh f).out = s.out := rfl
@[simp] theorem withAsh_pending (f : Ash → Ash) : (s.withAsh f).pending = s.pending := rfl
@[simp] theorem withAsh_dget (f : Ash → Ash) (i k : Nat) : (s.withAsh f).dget i k = s.dget i k := rfl
@[simp] theorem withAsh_dval (f : Ash → Ash) (i k : Nat) : (s.withAsh f).dval i k = s.dval i k := rfl
@[simp] theorem withAsh_fn (f : Ash → Ash) (n : Nat) : (s.withAsh f).fn n = s.fn n := rfl
@[simp] theorem withAsh_inst (f : Ash → Ash) (n : Nat) : (s.withAsh f).inst n = s.inst n := rfl

/-! withPeat -/

@[simp] theorem withPeat_dict (f : Peat → Peat) : (s.withPeat f).dict = s.dict := rfl
@[simp] theorem withPeat_time (f : Peat → Peat) : (s.withPeat f).time = s.time := rfl
@[simp] theorem withPeat_eg (f : Peat → Peat) : (s.withPeat f).eg = s.eg := rfl
@[simp] theorem withPeat_ash (f : Peat → Peat) : (s.withPeat f).ash = s.ash := rfl
@[simp] theorem withPeat_peat (f : Peat → Peat) : (s.withPeat f).peat = f s.peat := rfl
@[simp] theorem withPeat_sealStore (f : Peat → Peat) : (s.withPeat f).sealStore = s.sealStore := rfl
@[simp] theorem withPeat_boot (f : Peat → Peat) : (s.withPeat f).boot = s.boot := rfl
@[simp] theorem withPeat_pow (f : Peat → Peat) : (s.withPeat f).pow = s.pow := rfl
@[simp] theorem withPeat_damper (f : Peat → Peat) : (s.withPeat f).damper = s.damper := rfl
@[simp] theorem withPeat_host (f : Peat → Peat) : (s.withPeat f).host = s.host := rfl
@[simp] theorem withPeat_fns (f : Peat → Peat) : (s.withPeat f).fns = s.fns := rfl
@[simp] theorem withPeat_q (f : Peat → Peat) : (s.withPeat f).q = s.q := rfl
@[simp] theorem withPeat_insts (f : Peat → Peat) : (s.withPeat f).insts = s.insts := rfl
@[simp] theorem withPeat_stor (f : Peat → Peat) : (s.withPeat f).stor = s.stor := rfl
@[simp] theorem withPeat_kiln (f : Peat → Peat) : (s.withPeat f).kiln = s.kiln := rfl
@[simp] theorem withPeat_cipher (f : Peat → Peat) : (s.withPeat f).cipher = s.cipher := rfl
@[simp] theorem withPeat_pipe (f : Peat → Peat) : (s.withPeat f).pipe = s.pipe := rfl
@[simp] theorem withPeat_flow (f : Peat → Peat) : (s.withPeat f).flow = s.flow := rfl
@[simp] theorem withPeat_dbg (f : Peat → Peat) : (s.withPeat f).dbg = s.dbg := rfl
@[simp] theorem withPeat_svc (f : Peat → Peat) : (s.withPeat f).svc = s.svc := rfl
@[simp] theorem withPeat_dram (f : Peat → Peat) : (s.withPeat f).dram = s.dram := rfl
@[simp] theorem withPeat_free (f : Peat → Peat) : (s.withPeat f).free = s.free := rfl
@[simp] theorem withPeat_lastFire (f : Peat → Peat) : (s.withPeat f).lastFire = s.lastFire := rfl
@[simp] theorem withPeat_out (f : Peat → Peat) : (s.withPeat f).out = s.out := rfl
@[simp] theorem withPeat_pending (f : Peat → Peat) : (s.withPeat f).pending = s.pending := rfl
@[simp] theorem withPeat_dget (f : Peat → Peat) (i k : Nat) : (s.withPeat f).dget i k = s.dget i k := rfl
@[simp] theorem withPeat_dval (f : Peat → Peat) (i k : Nat) : (s.withPeat f).dval i k = s.dval i k := rfl
@[simp] theorem withPeat_fn (f : Peat → Peat) (n : Nat) : (s.withPeat f).fn n = s.fn n := rfl
@[simp] theorem withPeat_inst (f : Peat → Peat) (n : Nat) : (s.withPeat f).inst n = s.inst n := rfl

/-! withBoot -/

@[simp] theorem withBoot_dict (f : Boot → Boot) : (s.withBoot f).dict = s.dict := rfl
@[simp] theorem withBoot_time (f : Boot → Boot) : (s.withBoot f).time = s.time := rfl
@[simp] theorem withBoot_eg (f : Boot → Boot) : (s.withBoot f).eg = s.eg := rfl
@[simp] theorem withBoot_ash (f : Boot → Boot) : (s.withBoot f).ash = s.ash := rfl
@[simp] theorem withBoot_peat (f : Boot → Boot) : (s.withBoot f).peat = s.peat := rfl
@[simp] theorem withBoot_sealStore (f : Boot → Boot) : (s.withBoot f).sealStore = s.sealStore := rfl
@[simp] theorem withBoot_boot (f : Boot → Boot) : (s.withBoot f).boot = f s.boot := rfl
@[simp] theorem withBoot_pow (f : Boot → Boot) : (s.withBoot f).pow = s.pow := rfl
@[simp] theorem withBoot_damper (f : Boot → Boot) : (s.withBoot f).damper = s.damper := rfl
@[simp] theorem withBoot_host (f : Boot → Boot) : (s.withBoot f).host = s.host := rfl
@[simp] theorem withBoot_fns (f : Boot → Boot) : (s.withBoot f).fns = s.fns := rfl
@[simp] theorem withBoot_q (f : Boot → Boot) : (s.withBoot f).q = s.q := rfl
@[simp] theorem withBoot_insts (f : Boot → Boot) : (s.withBoot f).insts = s.insts := rfl
@[simp] theorem withBoot_stor (f : Boot → Boot) : (s.withBoot f).stor = s.stor := rfl
@[simp] theorem withBoot_kiln (f : Boot → Boot) : (s.withBoot f).kiln = s.kiln := rfl
@[simp] theorem withBoot_cipher (f : Boot → Boot) : (s.withBoot f).cipher = s.cipher := rfl
@[simp] theorem withBoot_pipe (f : Boot → Boot) : (s.withBoot f).pipe = s.pipe := rfl
@[simp] theorem withBoot_flow (f : Boot → Boot) : (s.withBoot f).flow = s.flow := rfl
@[simp] theorem withBoot_dbg (f : Boot → Boot) : (s.withBoot f).dbg = s.dbg := rfl
@[simp] theorem withBoot_svc (f : Boot → Boot) : (s.withBoot f).svc = s.svc := rfl
@[simp] theorem withBoot_dram (f : Boot → Boot) : (s.withBoot f).dram = s.dram := rfl
@[simp] theorem withBoot_free (f : Boot → Boot) : (s.withBoot f).free = s.free := rfl
@[simp] theorem withBoot_lastFire (f : Boot → Boot) : (s.withBoot f).lastFire = s.lastFire := rfl
@[simp] theorem withBoot_out (f : Boot → Boot) : (s.withBoot f).out = s.out := rfl
@[simp] theorem withBoot_pending (f : Boot → Boot) : (s.withBoot f).pending = s.pending := rfl
@[simp] theorem withBoot_dget (f : Boot → Boot) (i k : Nat) : (s.withBoot f).dget i k = s.dget i k := rfl
@[simp] theorem withBoot_dval (f : Boot → Boot) (i k : Nat) : (s.withBoot f).dval i k = s.dval i k := rfl
@[simp] theorem withBoot_fn (f : Boot → Boot) (n : Nat) : (s.withBoot f).fn n = s.fn n := rfl
@[simp] theorem withBoot_inst (f : Boot → Boot) (n : Nat) : (s.withBoot f).inst n = s.inst n := rfl

/-! withPow -/

@[simp] theorem withPow_dict (f : Power → Power) : (s.withPow f).dict = s.dict := rfl
@[simp] theorem withPow_time (f : Power → Power) : (s.withPow f).time = s.time := rfl
@[simp] theorem withPow_eg (f : Power → Power) : (s.withPow f).eg = s.eg := rfl
@[simp] theorem withPow_ash (f : Power → Power) : (s.withPow f).ash = s.ash := rfl
@[simp] theorem withPow_peat (f : Power → Power) : (s.withPow f).peat = s.peat := rfl
@[simp] theorem withPow_sealStore (f : Power → Power) : (s.withPow f).sealStore = s.sealStore := rfl
@[simp] theorem withPow_boot (f : Power → Power) : (s.withPow f).boot = s.boot := rfl
@[simp] theorem withPow_pow (f : Power → Power) : (s.withPow f).pow = f s.pow := rfl
@[simp] theorem withPow_damper (f : Power → Power) : (s.withPow f).damper = s.damper := rfl
@[simp] theorem withPow_host (f : Power → Power) : (s.withPow f).host = s.host := rfl
@[simp] theorem withPow_fns (f : Power → Power) : (s.withPow f).fns = s.fns := rfl
@[simp] theorem withPow_q (f : Power → Power) : (s.withPow f).q = s.q := rfl
@[simp] theorem withPow_insts (f : Power → Power) : (s.withPow f).insts = s.insts := rfl
@[simp] theorem withPow_stor (f : Power → Power) : (s.withPow f).stor = s.stor := rfl
@[simp] theorem withPow_kiln (f : Power → Power) : (s.withPow f).kiln = s.kiln := rfl
@[simp] theorem withPow_cipher (f : Power → Power) : (s.withPow f).cipher = s.cipher := rfl
@[simp] theorem withPow_pipe (f : Power → Power) : (s.withPow f).pipe = s.pipe := rfl
@[simp] theorem withPow_flow (f : Power → Power) : (s.withPow f).flow = s.flow := rfl
@[simp] theorem withPow_dbg (f : Power → Power) : (s.withPow f).dbg = s.dbg := rfl
@[simp] theorem withPow_svc (f : Power → Power) : (s.withPow f).svc = s.svc := rfl
@[simp] theorem withPow_dram (f : Power → Power) : (s.withPow f).dram = s.dram := rfl
@[simp] theorem withPow_free (f : Power → Power) : (s.withPow f).free = s.free := rfl
@[simp] theorem withPow_lastFire (f : Power → Power) : (s.withPow f).lastFire = s.lastFire := rfl
@[simp] theorem withPow_out (f : Power → Power) : (s.withPow f).out = s.out := rfl
@[simp] theorem withPow_pending (f : Power → Power) : (s.withPow f).pending = s.pending := rfl
@[simp] theorem withPow_dget (f : Power → Power) (i k : Nat) : (s.withPow f).dget i k = s.dget i k := rfl
@[simp] theorem withPow_dval (f : Power → Power) (i k : Nat) : (s.withPow f).dval i k = s.dval i k := rfl
@[simp] theorem withPow_fn (f : Power → Power) (n : Nat) : (s.withPow f).fn n = s.fn n := rfl
@[simp] theorem withPow_inst (f : Power → Power) (n : Nat) : (s.withPow f).inst n = s.inst n := rfl

/-! withDamper -/

@[simp] theorem withDamper_dict (f : Damper → Damper) : (s.withDamper f).dict = s.dict := rfl
@[simp] theorem withDamper_time (f : Damper → Damper) : (s.withDamper f).time = s.time := rfl
@[simp] theorem withDamper_eg (f : Damper → Damper) : (s.withDamper f).eg = s.eg := rfl
@[simp] theorem withDamper_ash (f : Damper → Damper) : (s.withDamper f).ash = s.ash := rfl
@[simp] theorem withDamper_peat (f : Damper → Damper) : (s.withDamper f).peat = s.peat := rfl
@[simp] theorem withDamper_sealStore (f : Damper → Damper) : (s.withDamper f).sealStore = s.sealStore := rfl
@[simp] theorem withDamper_boot (f : Damper → Damper) : (s.withDamper f).boot = s.boot := rfl
@[simp] theorem withDamper_pow (f : Damper → Damper) : (s.withDamper f).pow = s.pow := rfl
@[simp] theorem withDamper_damper (f : Damper → Damper) : (s.withDamper f).damper = f s.damper := rfl
@[simp] theorem withDamper_host (f : Damper → Damper) : (s.withDamper f).host = s.host := rfl
@[simp] theorem withDamper_fns (f : Damper → Damper) : (s.withDamper f).fns = s.fns := rfl
@[simp] theorem withDamper_q (f : Damper → Damper) : (s.withDamper f).q = s.q := rfl
@[simp] theorem withDamper_insts (f : Damper → Damper) : (s.withDamper f).insts = s.insts := rfl
@[simp] theorem withDamper_stor (f : Damper → Damper) : (s.withDamper f).stor = s.stor := rfl
@[simp] theorem withDamper_kiln (f : Damper → Damper) : (s.withDamper f).kiln = s.kiln := rfl
@[simp] theorem withDamper_cipher (f : Damper → Damper) : (s.withDamper f).cipher = s.cipher := rfl
@[simp] theorem withDamper_pipe (f : Damper → Damper) : (s.withDamper f).pipe = s.pipe := rfl
@[simp] theorem withDamper_flow (f : Damper → Damper) : (s.withDamper f).flow = s.flow := rfl
@[simp] theorem withDamper_dbg (f : Damper → Damper) : (s.withDamper f).dbg = s.dbg := rfl
@[simp] theorem withDamper_svc (f : Damper → Damper) : (s.withDamper f).svc = s.svc := rfl
@[simp] theorem withDamper_dram (f : Damper → Damper) : (s.withDamper f).dram = s.dram := rfl
@[simp] theorem withDamper_free (f : Damper → Damper) : (s.withDamper f).free = s.free := rfl
@[simp] theorem withDamper_lastFire (f : Damper → Damper) : (s.withDamper f).lastFire = s.lastFire := rfl
@[simp] theorem withDamper_out (f : Damper → Damper) : (s.withDamper f).out = s.out := rfl
@[simp] theorem withDamper_pending (f : Damper → Damper) : (s.withDamper f).pending = s.pending := rfl
@[simp] theorem withDamper_dget (f : Damper → Damper) (i k : Nat) : (s.withDamper f).dget i k = s.dget i k := rfl
@[simp] theorem withDamper_dval (f : Damper → Damper) (i k : Nat) : (s.withDamper f).dval i k = s.dval i k := rfl
@[simp] theorem withDamper_fn (f : Damper → Damper) (n : Nat) : (s.withDamper f).fn n = s.fn n := rfl
@[simp] theorem withDamper_inst (f : Damper → Damper) (n : Nat) : (s.withDamper f).inst n = s.inst n := rfl

/-! withHost -/

@[simp] theorem withHost_dict (f : HostLink → HostLink) : (s.withHost f).dict = s.dict := rfl
@[simp] theorem withHost_time (f : HostLink → HostLink) : (s.withHost f).time = s.time := rfl
@[simp] theorem withHost_eg (f : HostLink → HostLink) : (s.withHost f).eg = s.eg := rfl
@[simp] theorem withHost_ash (f : HostLink → HostLink) : (s.withHost f).ash = s.ash := rfl
@[simp] theorem withHost_peat (f : HostLink → HostLink) : (s.withHost f).peat = s.peat := rfl
@[simp] theorem withHost_sealStore (f : HostLink → HostLink) : (s.withHost f).sealStore = s.sealStore := rfl
@[simp] theorem withHost_boot (f : HostLink → HostLink) : (s.withHost f).boot = s.boot := rfl
@[simp] theorem withHost_pow (f : HostLink → HostLink) : (s.withHost f).pow = s.pow := rfl
@[simp] theorem withHost_damper (f : HostLink → HostLink) : (s.withHost f).damper = s.damper := rfl
@[simp] theorem withHost_host (f : HostLink → HostLink) : (s.withHost f).host = f s.host := rfl
@[simp] theorem withHost_fns (f : HostLink → HostLink) : (s.withHost f).fns = s.fns := rfl
@[simp] theorem withHost_q (f : HostLink → HostLink) : (s.withHost f).q = s.q := rfl
@[simp] theorem withHost_insts (f : HostLink → HostLink) : (s.withHost f).insts = s.insts := rfl
@[simp] theorem withHost_stor (f : HostLink → HostLink) : (s.withHost f).stor = s.stor := rfl
@[simp] theorem withHost_kiln (f : HostLink → HostLink) : (s.withHost f).kiln = s.kiln := rfl
@[simp] theorem withHost_cipher (f : HostLink → HostLink) : (s.withHost f).cipher = s.cipher := rfl
@[simp] theorem withHost_pipe (f : HostLink → HostLink) : (s.withHost f).pipe = s.pipe := rfl
@[simp] theorem withHost_flow (f : HostLink → HostLink) : (s.withHost f).flow = s.flow := rfl
@[simp] theorem withHost_dbg (f : HostLink → HostLink) : (s.withHost f).dbg = s.dbg := rfl
@[simp] theorem withHost_svc (f : HostLink → HostLink) : (s.withHost f).svc = s.svc := rfl
@[simp] theorem withHost_dram (f : HostLink → HostLink) : (s.withHost f).dram = s.dram := rfl
@[simp] theorem withHost_free (f : HostLink → HostLink) : (s.withHost f).free = s.free := rfl
@[simp] theorem withHost_lastFire (f : HostLink → HostLink) : (s.withHost f).lastFire = s.lastFire := rfl
@[simp] theorem withHost_out (f : HostLink → HostLink) : (s.withHost f).out = s.out := rfl
@[simp] theorem withHost_pending (f : HostLink → HostLink) : (s.withHost f).pending = s.pending := rfl
@[simp] theorem withHost_dget (f : HostLink → HostLink) (i k : Nat) : (s.withHost f).dget i k = s.dget i k := rfl
@[simp] theorem withHost_dval (f : HostLink → HostLink) (i k : Nat) : (s.withHost f).dval i k = s.dval i k := rfl
@[simp] theorem withHost_fn (f : HostLink → HostLink) (n : Nat) : (s.withHost f).fn n = s.fn n := rfl
@[simp] theorem withHost_inst (f : HostLink → HostLink) (n : Nat) : (s.withHost f).inst n = s.inst n := rfl

/-! withQ -/

@[simp] theorem withQ_dict (f : Queues → Queues) : (s.withQ f).dict = s.dict := rfl
@[simp] theorem withQ_time (f : Queues → Queues) : (s.withQ f).time = s.time := rfl
@[simp] theorem withQ_eg (f : Queues → Queues) : (s.withQ f).eg = s.eg := rfl
@[simp] theorem withQ_ash (f : Queues → Queues) : (s.withQ f).ash = s.ash := rfl
@[simp] theorem withQ_peat (f : Queues → Queues) : (s.withQ f).peat = s.peat := rfl
@[simp] theorem withQ_sealStore (f : Queues → Queues) : (s.withQ f).sealStore = s.sealStore := rfl
@[simp] theorem withQ_boot (f : Queues → Queues) : (s.withQ f).boot = s.boot := rfl
@[simp] theorem withQ_pow (f : Queues → Queues) : (s.withQ f).pow = s.pow := rfl
@[simp] theorem withQ_damper (f : Queues → Queues) : (s.withQ f).damper = s.damper := rfl
@[simp] theorem withQ_host (f : Queues → Queues) : (s.withQ f).host = s.host := rfl
@[simp] theorem withQ_fns (f : Queues → Queues) : (s.withQ f).fns = s.fns := rfl
@[simp] theorem withQ_q (f : Queues → Queues) : (s.withQ f).q = f s.q := rfl
@[simp] theorem withQ_insts (f : Queues → Queues) : (s.withQ f).insts = s.insts := rfl
@[simp] theorem withQ_stor (f : Queues → Queues) : (s.withQ f).stor = s.stor := rfl
@[simp] theorem withQ_kiln (f : Queues → Queues) : (s.withQ f).kiln = s.kiln := rfl
@[simp] theorem withQ_cipher (f : Queues → Queues) : (s.withQ f).cipher = s.cipher := rfl
@[simp] theorem withQ_pipe (f : Queues → Queues) : (s.withQ f).pipe = s.pipe := rfl
@[simp] theorem withQ_flow (f : Queues → Queues) : (s.withQ f).flow = s.flow := rfl
@[simp] theorem withQ_dbg (f : Queues → Queues) : (s.withQ f).dbg = s.dbg := rfl
@[simp] theorem withQ_svc (f : Queues → Queues) : (s.withQ f).svc = s.svc := rfl
@[simp] theorem withQ_dram (f : Queues → Queues) : (s.withQ f).dram = s.dram := rfl
@[simp] theorem withQ_free (f : Queues → Queues) : (s.withQ f).free = s.free := rfl
@[simp] theorem withQ_lastFire (f : Queues → Queues) : (s.withQ f).lastFire = s.lastFire := rfl
@[simp] theorem withQ_out (f : Queues → Queues) : (s.withQ f).out = s.out := rfl
@[simp] theorem withQ_pending (f : Queues → Queues) : (s.withQ f).pending = s.pending := rfl
@[simp] theorem withQ_dget (f : Queues → Queues) (i k : Nat) : (s.withQ f).dget i k = s.dget i k := rfl
@[simp] theorem withQ_dval (f : Queues → Queues) (i k : Nat) : (s.withQ f).dval i k = s.dval i k := rfl
@[simp] theorem withQ_fn (f : Queues → Queues) (n : Nat) : (s.withQ f).fn n = s.fn n := rfl
@[simp] theorem withQ_inst (f : Queues → Queues) (n : Nat) : (s.withQ f).inst n = s.inst n := rfl

/-! withStor -/

@[simp] theorem withStor_dict (f : Storage → Storage) : (s.withStor f).dict = s.dict := rfl
@[simp] theorem withStor_time (f : Storage → Storage) : (s.withStor f).time = s.time := rfl
@[simp] theorem withStor_eg (f : Storage → Storage) : (s.withStor f).eg = s.eg := rfl
@[simp] theorem withStor_ash (f : Storage → Storage) : (s.withStor f).ash = s.ash := rfl
@[simp] theorem withStor_peat (f : Storage → Storage) : (s.withStor f).peat = s.peat := rfl
@[simp] theorem withStor_sealStore (f : Storage → Storage) : (s.withStor f).sealStore = s.sealStore := rfl
@[simp] theorem withStor_boot (f : Storage → Storage) : (s.withStor f).boot = s.boot := rfl
@[simp] theorem withStor_pow (f : Storage → Storage) : (s.withStor f).pow = s.pow := rfl
@[simp] theorem withStor_damper (f : Storage → Storage) : (s.withStor f).damper = s.damper := rfl
@[simp] theorem withStor_host (f : Storage → Storage) : (s.withStor f).host = s.host := rfl
@[simp] theorem withStor_fns (f : Storage → Storage) : (s.withStor f).fns = s.fns := rfl
@[simp] theorem withStor_q (f : Storage → Storage) : (s.withStor f).q = s.q := rfl
@[simp] theorem withStor_insts (f : Storage → Storage) : (s.withStor f).insts = s.insts := rfl
@[simp] theorem withStor_stor (f : Storage → Storage) : (s.withStor f).stor = f s.stor := rfl
@[simp] theorem withStor_kiln (f : Storage → Storage) : (s.withStor f).kiln = s.kiln := rfl
@[simp] theorem withStor_cipher (f : Storage → Storage) : (s.withStor f).cipher = s.cipher := rfl
@[simp] theorem withStor_pipe (f : Storage → Storage) : (s.withStor f).pipe = s.pipe := rfl
@[simp] theorem withStor_flow (f : Storage → Storage) : (s.withStor f).flow = s.flow := rfl
@[simp] theorem withStor_dbg (f : Storage → Storage) : (s.withStor f).dbg = s.dbg := rfl
@[simp] theorem withStor_svc (f : Storage → Storage) : (s.withStor f).svc = s.svc := rfl
@[simp] theorem withStor_dram (f : Storage → Storage) : (s.withStor f).dram = s.dram := rfl
@[simp] theorem withStor_free (f : Storage → Storage) : (s.withStor f).free = s.free := rfl
@[simp] theorem withStor_lastFire (f : Storage → Storage) : (s.withStor f).lastFire = s.lastFire := rfl
@[simp] theorem withStor_out (f : Storage → Storage) : (s.withStor f).out = s.out := rfl
@[simp] theorem withStor_pending (f : Storage → Storage) : (s.withStor f).pending = s.pending := rfl
@[simp] theorem withStor_dget (f : Storage → Storage) (i k : Nat) : (s.withStor f).dget i k = s.dget i k := rfl
@[simp] theorem withStor_dval (f : Storage → Storage) (i k : Nat) : (s.withStor f).dval i k = s.dval i k := rfl
@[simp] theorem withStor_fn (f : Storage → Storage) (n : Nat) : (s.withStor f).fn n = s.fn n := rfl
@[simp] theorem withStor_inst (f : Storage → Storage) (n : Nat) : (s.withStor f).inst n = s.inst n := rfl

/-! withKiln -/

@[simp] theorem withKiln_dict (f : Kiln → Kiln) : (s.withKiln f).dict = s.dict := rfl
@[simp] theorem withKiln_time (f : Kiln → Kiln) : (s.withKiln f).time = s.time := rfl
@[simp] theorem withKiln_eg (f : Kiln → Kiln) : (s.withKiln f).eg = s.eg := rfl
@[simp] theorem withKiln_ash (f : Kiln → Kiln) : (s.withKiln f).ash = s.ash := rfl
@[simp] theorem withKiln_peat (f : Kiln → Kiln) : (s.withKiln f).peat = s.peat := rfl
@[simp] theorem withKiln_sealStore (f : Kiln → Kiln) : (s.withKiln f).sealStore = s.sealStore := rfl
@[simp] theorem withKiln_boot (f : Kiln → Kiln) : (s.withKiln f).boot = s.boot := rfl
@[simp] theorem withKiln_pow (f : Kiln → Kiln) : (s.withKiln f).pow = s.pow := rfl
@[simp] theorem withKiln_damper (f : Kiln → Kiln) : (s.withKiln f).damper = s.damper := rfl
@[simp] theorem withKiln_host (f : Kiln → Kiln) : (s.withKiln f).host = s.host := rfl
@[simp] theorem withKiln_fns (f : Kiln → Kiln) : (s.withKiln f).fns = s.fns := rfl
@[simp] theorem withKiln_q (f : Kiln → Kiln) : (s.withKiln f).q = s.q := rfl
@[simp] theorem withKiln_insts (f : Kiln → Kiln) : (s.withKiln f).insts = s.insts := rfl
@[simp] theorem withKiln_stor (f : Kiln → Kiln) : (s.withKiln f).stor = s.stor := rfl
@[simp] theorem withKiln_kiln (f : Kiln → Kiln) : (s.withKiln f).kiln = f s.kiln := rfl
@[simp] theorem withKiln_cipher (f : Kiln → Kiln) : (s.withKiln f).cipher = s.cipher := rfl
@[simp] theorem withKiln_pipe (f : Kiln → Kiln) : (s.withKiln f).pipe = s.pipe := rfl
@[simp] theorem withKiln_flow (f : Kiln → Kiln) : (s.withKiln f).flow = s.flow := rfl
@[simp] theorem withKiln_dbg (f : Kiln → Kiln) : (s.withKiln f).dbg = s.dbg := rfl
@[simp] theorem withKiln_svc (f : Kiln → Kiln) : (s.withKiln f).svc = s.svc := rfl
@[simp] theorem withKiln_dram (f : Kiln → Kiln) : (s.withKiln f).dram = s.dram := rfl
@[simp] theorem withKiln_free (f : Kiln → Kiln) : (s.withKiln f).free = s.free := rfl
@[simp] theorem withKiln_lastFire (f : Kiln → Kiln) : (s.withKiln f).lastFire = s.lastFire := rfl
@[simp] theorem withKiln_out (f : Kiln → Kiln) : (s.withKiln f).out = s.out := rfl
@[simp] theorem withKiln_pending (f : Kiln → Kiln) : (s.withKiln f).pending = s.pending := rfl
@[simp] theorem withKiln_dget (f : Kiln → Kiln) (i k : Nat) : (s.withKiln f).dget i k = s.dget i k := rfl
@[simp] theorem withKiln_dval (f : Kiln → Kiln) (i k : Nat) : (s.withKiln f).dval i k = s.dval i k := rfl
@[simp] theorem withKiln_fn (f : Kiln → Kiln) (n : Nat) : (s.withKiln f).fn n = s.fn n := rfl
@[simp] theorem withKiln_inst (f : Kiln → Kiln) (n : Nat) : (s.withKiln f).inst n = s.inst n := rfl

/-! withCipher -/

@[simp] theorem withCipher_dict (f : Cipher → Cipher) : (s.withCipher f).dict = s.dict := rfl
@[simp] theorem withCipher_time (f : Cipher → Cipher) : (s.withCipher f).time = s.time := rfl
@[simp] theorem withCipher_eg (f : Cipher → Cipher) : (s.withCipher f).eg = s.eg := rfl
@[simp] theorem withCipher_ash (f : Cipher → Cipher) : (s.withCipher f).ash = s.ash := rfl
@[simp] theorem withCipher_peat (f : Cipher → Cipher) : (s.withCipher f).peat = s.peat := rfl
@[simp] theorem withCipher_sealStore (f : Cipher → Cipher) : (s.withCipher f).sealStore = s.sealStore := rfl
@[simp] theorem withCipher_boot (f : Cipher → Cipher) : (s.withCipher f).boot = s.boot := rfl
@[simp] theorem withCipher_pow (f : Cipher → Cipher) : (s.withCipher f).pow = s.pow := rfl
@[simp] theorem withCipher_damper (f : Cipher → Cipher) : (s.withCipher f).damper = s.damper := rfl
@[simp] theorem withCipher_host (f : Cipher → Cipher) : (s.withCipher f).host = s.host := rfl
@[simp] theorem withCipher_fns (f : Cipher → Cipher) : (s.withCipher f).fns = s.fns := rfl
@[simp] theorem withCipher_q (f : Cipher → Cipher) : (s.withCipher f).q = s.q := rfl
@[simp] theorem withCipher_insts (f : Cipher → Cipher) : (s.withCipher f).insts = s.insts := rfl
@[simp] theorem withCipher_stor (f : Cipher → Cipher) : (s.withCipher f).stor = s.stor := rfl
@[simp] theorem withCipher_kiln (f : Cipher → Cipher) : (s.withCipher f).kiln = s.kiln := rfl
@[simp] theorem withCipher_cipher (f : Cipher → Cipher) : (s.withCipher f).cipher = f s.cipher := rfl
@[simp] theorem withCipher_pipe (f : Cipher → Cipher) : (s.withCipher f).pipe = s.pipe := rfl
@[simp] theorem withCipher_flow (f : Cipher → Cipher) : (s.withCipher f).flow = s.flow := rfl
@[simp] theorem withCipher_dbg (f : Cipher → Cipher) : (s.withCipher f).dbg = s.dbg := rfl
@[simp] theorem withCipher_svc (f : Cipher → Cipher) : (s.withCipher f).svc = s.svc := rfl
@[simp] theorem withCipher_dram (f : Cipher → Cipher) : (s.withCipher f).dram = s.dram := rfl
@[simp] theorem withCipher_free (f : Cipher → Cipher) : (s.withCipher f).free = s.free := rfl
@[simp] theorem withCipher_lastFire (f : Cipher → Cipher) : (s.withCipher f).lastFire = s.lastFire := rfl
@[simp] theorem withCipher_out (f : Cipher → Cipher) : (s.withCipher f).out = s.out := rfl
@[simp] theorem withCipher_pending (f : Cipher → Cipher) : (s.withCipher f).pending = s.pending := rfl
@[simp] theorem withCipher_dget (f : Cipher → Cipher) (i k : Nat) : (s.withCipher f).dget i k = s.dget i k := rfl
@[simp] theorem withCipher_dval (f : Cipher → Cipher) (i k : Nat) : (s.withCipher f).dval i k = s.dval i k := rfl
@[simp] theorem withCipher_fn (f : Cipher → Cipher) (n : Nat) : (s.withCipher f).fn n = s.fn n := rfl
@[simp] theorem withCipher_inst (f : Cipher → Cipher) (n : Nat) : (s.withCipher f).inst n = s.inst n := rfl

/-! withPipe -/

@[simp] theorem withPipe_dict (f : Pipe → Pipe) : (s.withPipe f).dict = s.dict := rfl
@[simp] theorem withPipe_time (f : Pipe → Pipe) : (s.withPipe f).time = s.time := rfl
@[simp] theorem withPipe_eg (f : Pipe → Pipe) : (s.withPipe f).eg = s.eg := rfl
@[simp] theorem withPipe_ash (f : Pipe → Pipe) : (s.withPipe f).ash = s.ash := rfl
@[simp] theorem withPipe_peat (f : Pipe → Pipe) : (s.withPipe f).peat = s.peat := rfl
@[simp] theorem withPipe_sealStore (f : Pipe → Pipe) : (s.withPipe f).sealStore = s.sealStore := rfl
@[simp] theorem withPipe_boot (f : Pipe → Pipe) : (s.withPipe f).boot = s.boot := rfl
@[simp] theorem withPipe_pow (f : Pipe → Pipe) : (s.withPipe f).pow = s.pow := rfl
@[simp] theorem withPipe_damper (f : Pipe → Pipe) : (s.withPipe f).damper = s.damper := rfl
@[simp] theorem withPipe_host (f : Pipe → Pipe) : (s.withPipe f).host = s.host := rfl
@[simp] theorem withPipe_fns (f : Pipe → Pipe) : (s.withPipe f).fns = s.fns := rfl
@[simp] theorem withPipe_q (f : Pipe → Pipe) : (s.withPipe f).q = s.q := rfl
@[simp] theorem withPipe_insts (f : Pipe → Pipe) : (s.withPipe f).insts = s.insts := rfl
@[simp] theorem withPipe_stor (f : Pipe → Pipe) : (s.withPipe f).stor = s.stor := rfl
@[simp] theorem withPipe_kiln (f : Pipe → Pipe) : (s.withPipe f).kiln = s.kiln := rfl
@[simp] theorem withPipe_cipher (f : Pipe → Pipe) : (s.withPipe f).cipher = s.cipher := rfl
@[simp] theorem withPipe_pipe (f : Pipe → Pipe) : (s.withPipe f).pipe = f s.pipe := rfl
@[simp] theorem withPipe_flow (f : Pipe → Pipe) : (s.withPipe f).flow = s.flow := rfl
@[simp] theorem withPipe_dbg (f : Pipe → Pipe) : (s.withPipe f).dbg = s.dbg := rfl
@[simp] theorem withPipe_svc (f : Pipe → Pipe) : (s.withPipe f).svc = s.svc := rfl
@[simp] theorem withPipe_dram (f : Pipe → Pipe) : (s.withPipe f).dram = s.dram := rfl
@[simp] theorem withPipe_free (f : Pipe → Pipe) : (s.withPipe f).free = s.free := rfl
@[simp] theorem withPipe_lastFire (f : Pipe → Pipe) : (s.withPipe f).lastFire = s.lastFire := rfl
@[simp] theorem withPipe_out (f : Pipe → Pipe) : (s.withPipe f).out = s.out := rfl
@[simp] theorem withPipe_pending (f : Pipe → Pipe) : (s.withPipe f).pending = s.pending := rfl
@[simp] theorem withPipe_dget (f : Pipe → Pipe) (i k : Nat) : (s.withPipe f).dget i k = s.dget i k := rfl
@[simp] theorem withPipe_dval (f : Pipe → Pipe) (i k : Nat) : (s.withPipe f).dval i k = s.dval i k := rfl
@[simp] theorem withPipe_fn (f : Pipe → Pipe) (n : Nat) : (s.withPipe f).fn n = s.fn n := rfl
@[simp] theorem withPipe_inst (f : Pipe → Pipe) (n : Nat) : (s.withPipe f).inst n = s.inst n := rfl

/-! withFlow -/

@[simp] theorem withFlow_dict (f : Flow → Flow) : (s.withFlow f).dict = s.dict := rfl
@[simp] theorem withFlow_time (f : Flow → Flow) : (s.withFlow f).time = s.time := rfl
@[simp] theorem withFlow_eg (f : Flow → Flow) : (s.withFlow f).eg = s.eg := rfl
@[simp] theorem withFlow_ash (f : Flow → Flow) : (s.withFlow f).ash = s.ash := rfl
@[simp] theorem withFlow_peat (f : Flow → Flow) : (s.withFlow f).peat = s.peat := rfl
@[simp] theorem withFlow_sealStore (f : Flow → Flow) : (s.withFlow f).sealStore = s.sealStore := rfl
@[simp] theorem withFlow_boot (f : Flow → Flow) : (s.withFlow f).boot = s.boot := rfl
@[simp] theorem withFlow_pow (f : Flow → Flow) : (s.withFlow f).pow = s.pow := rfl
@[simp] theorem withFlow_damper (f : Flow → Flow) : (s.withFlow f).damper = s.damper := rfl
@[simp] theorem withFlow_host (f : Flow → Flow) : (s.withFlow f).host = s.host := rfl
@[simp] theorem withFlow_fns (f : Flow → Flow) : (s.withFlow f).fns = s.fns := rfl
@[simp] theorem withFlow_q (f : Flow → Flow) : (s.withFlow f).q = s.q := rfl
@[simp] theorem withFlow_insts (f : Flow → Flow) : (s.withFlow f).insts = s.insts := rfl
@[simp] theorem withFlow_stor (f : Flow → Flow) : (s.withFlow f).stor = s.stor := rfl
@[simp] theorem withFlow_kiln (f : Flow → Flow) : (s.withFlow f).kiln = s.kiln := rfl
@[simp] theorem withFlow_cipher (f : Flow → Flow) : (s.withFlow f).cipher = s.cipher := rfl
@[simp] theorem withFlow_pipe (f : Flow → Flow) : (s.withFlow f).pipe = s.pipe := rfl
@[simp] theorem withFlow_flow (f : Flow → Flow) : (s.withFlow f).flow = f s.flow := rfl
@[simp] theorem withFlow_dbg (f : Flow → Flow) : (s.withFlow f).dbg = s.dbg := rfl
@[simp] theorem withFlow_svc (f : Flow → Flow) : (s.withFlow f).svc = s.svc := rfl
@[simp] theorem withFlow_dram (f : Flow → Flow) : (s.withFlow f).dram = s.dram := rfl
@[simp] theorem withFlow_free (f : Flow → Flow) : (s.withFlow f).free = s.free := rfl
@[simp] theorem withFlow_lastFire (f : Flow → Flow) : (s.withFlow f).lastFire = s.lastFire := rfl
@[simp] theorem withFlow_out (f : Flow → Flow) : (s.withFlow f).out = s.out := rfl
@[simp] theorem withFlow_pending (f : Flow → Flow) : (s.withFlow f).pending = s.pending := rfl
@[simp] theorem withFlow_dget (f : Flow → Flow) (i k : Nat) : (s.withFlow f).dget i k = s.dget i k := rfl
@[simp] theorem withFlow_dval (f : Flow → Flow) (i k : Nat) : (s.withFlow f).dval i k = s.dval i k := rfl
@[simp] theorem withFlow_fn (f : Flow → Flow) (n : Nat) : (s.withFlow f).fn n = s.fn n := rfl
@[simp] theorem withFlow_inst (f : Flow → Flow) (n : Nat) : (s.withFlow f).inst n = s.inst n := rfl

/-! withDbg -/

@[simp] theorem withDbg_dict (f : Dbg → Dbg) : (s.withDbg f).dict = s.dict := rfl
@[simp] theorem withDbg_time (f : Dbg → Dbg) : (s.withDbg f).time = s.time := rfl
@[simp] theorem withDbg_eg (f : Dbg → Dbg) : (s.withDbg f).eg = s.eg := rfl
@[simp] theorem withDbg_ash (f : Dbg → Dbg) : (s.withDbg f).ash = s.ash := rfl
@[simp] theorem withDbg_peat (f : Dbg → Dbg) : (s.withDbg f).peat = s.peat := rfl
@[simp] theorem withDbg_sealStore (f : Dbg → Dbg) : (s.withDbg f).sealStore = s.sealStore := rfl
@[simp] theorem withDbg_boot (f : Dbg → Dbg) : (s.withDbg f).boot = s.boot := rfl
@[simp] theorem withDbg_pow (f : Dbg → Dbg) : (s.withDbg f).pow = s.pow := rfl
@[simp] theorem withDbg_damper (f : Dbg → Dbg) : (s.withDbg f).damper = s.damper := rfl
@[simp] theorem withDbg_host (f : Dbg → Dbg) : (s.withDbg f).host = s.host := rfl
@[simp] theorem withDbg_fns (f : Dbg → Dbg) : (s.withDbg f).fns = s.fns := rfl
@[simp] theorem withDbg_q (f : Dbg → Dbg) : (s.withDbg f).q = s.q := rfl
@[simp] theorem withDbg_insts (f : Dbg → Dbg) : (s.withDbg f).insts = s.insts := rfl
@[simp] theorem withDbg_stor (f : Dbg → Dbg) : (s.withDbg f).stor = s.stor := rfl
@[simp] theorem withDbg_kiln (f : Dbg → Dbg) : (s.withDbg f).kiln = s.kiln := rfl
@[simp] theorem withDbg_cipher (f : Dbg → Dbg) : (s.withDbg f).cipher = s.cipher := rfl
@[simp] theorem withDbg_pipe (f : Dbg → Dbg) : (s.withDbg f).pipe = s.pipe := rfl
@[simp] theorem withDbg_flow (f : Dbg → Dbg) : (s.withDbg f).flow = s.flow := rfl
@[simp] theorem withDbg_dbg (f : Dbg → Dbg) : (s.withDbg f).dbg = f s.dbg := rfl
@[simp] theorem withDbg_svc (f : Dbg → Dbg) : (s.withDbg f).svc = s.svc := rfl
@[simp] theorem withDbg_dram (f : Dbg → Dbg) : (s.withDbg f).dram = s.dram := rfl
@[simp] theorem withDbg_free (f : Dbg → Dbg) : (s.withDbg f).free = s.free := rfl
@[simp] theorem withDbg_lastFire (f : Dbg → Dbg) : (s.withDbg f).lastFire = s.lastFire := rfl
@[simp] theorem withDbg_out (f : Dbg → Dbg) : (s.withDbg f).out = s.out := rfl
@[simp] theorem withDbg_pending (f : Dbg → Dbg) : (s.withDbg f).pending = s.pending := rfl
@[simp] theorem withDbg_dget (f : Dbg → Dbg) (i k : Nat) : (s.withDbg f).dget i k = s.dget i k := rfl
@[simp] theorem withDbg_dval (f : Dbg → Dbg) (i k : Nat) : (s.withDbg f).dval i k = s.dval i k := rfl
@[simp] theorem withDbg_fn (f : Dbg → Dbg) (n : Nat) : (s.withDbg f).fn n = s.fn n := rfl
@[simp] theorem withDbg_inst (f : Dbg → Dbg) (n : Nat) : (s.withDbg f).inst n = s.inst n := rfl

/-! withSvc -/

@[simp] theorem withSvc_dict (f : Svc → Svc) : (s.withSvc f).dict = s.dict := rfl
@[simp] theorem withSvc_time (f : Svc → Svc) : (s.withSvc f).time = s.time := rfl
@[simp] theorem withSvc_eg (f : Svc → Svc) : (s.withSvc f).eg = s.eg := rfl
@[simp] theorem withSvc_ash (f : Svc → Svc) : (s.withSvc f).ash = s.ash := rfl
@[simp] theorem withSvc_peat (f : Svc → Svc) : (s.withSvc f).peat = s.peat := rfl
@[simp] theorem withSvc_sealStore (f : Svc → Svc) : (s.withSvc f).sealStore = s.sealStore := rfl
@[simp] theorem withSvc_boot (f : Svc → Svc) : (s.withSvc f).boot = s.boot := rfl
@[simp] theorem withSvc_pow (f : Svc → Svc) : (s.withSvc f).pow = s.pow := rfl
@[simp] theorem withSvc_damper (f : Svc → Svc) : (s.withSvc f).damper = s.damper := rfl
@[simp] theorem withSvc_host (f : Svc → Svc) : (s.withSvc f).host = s.host := rfl
@[simp] theorem withSvc_fns (f : Svc → Svc) : (s.withSvc f).fns = s.fns := rfl
@[simp] theorem withSvc_q (f : Svc → Svc) : (s.withSvc f).q = s.q := rfl
@[simp] theorem withSvc_insts (f : Svc → Svc) : (s.withSvc f).insts = s.insts := rfl
@[simp] theorem withSvc_stor (f : Svc → Svc) : (s.withSvc f).stor = s.stor := rfl
@[simp] theorem withSvc_kiln (f : Svc → Svc) : (s.withSvc f).kiln = s.kiln := rfl
@[simp] theorem withSvc_cipher (f : Svc → Svc) : (s.withSvc f).cipher = s.cipher := rfl
@[simp] theorem withSvc_pipe (f : Svc → Svc) : (s.withSvc f).pipe = s.pipe := rfl
@[simp] theorem withSvc_flow (f : Svc → Svc) : (s.withSvc f).flow = s.flow := rfl
@[simp] theorem withSvc_dbg (f : Svc → Svc) : (s.withSvc f).dbg = s.dbg := rfl
@[simp] theorem withSvc_svc (f : Svc → Svc) : (s.withSvc f).svc = f s.svc := rfl
@[simp] theorem withSvc_dram (f : Svc → Svc) : (s.withSvc f).dram = s.dram := rfl
@[simp] theorem withSvc_free (f : Svc → Svc) : (s.withSvc f).free = s.free := rfl
@[simp] theorem withSvc_lastFire (f : Svc → Svc) : (s.withSvc f).lastFire = s.lastFire := rfl
@[simp] theorem withSvc_out (f : Svc → Svc) : (s.withSvc f).out = s.out := rfl
@[simp] theorem withSvc_pending (f : Svc → Svc) : (s.withSvc f).pending = s.pending := rfl
@[simp] theorem withSvc_dget (f : Svc → Svc) (i k : Nat) : (s.withSvc f).dget i k = s.dget i k := rfl
@[simp] theorem withSvc_dval (f : Svc → Svc) (i k : Nat) : (s.withSvc f).dval i k = s.dval i k := rfl
@[simp] theorem withSvc_fn (f : Svc → Svc) (n : Nat) : (s.withSvc f).fn n = s.fn n := rfl
@[simp] theorem withSvc_inst (f : Svc → Svc) (n : Nat) : (s.withSvc f).inst n = s.inst n := rfl

/-! withDram -/

@[simp] theorem withDram_dict (f : Mem → Mem) : (s.withDram f).dict = s.dict := rfl
@[simp] theorem withDram_time (f : Mem → Mem) : (s.withDram f).time = s.time := rfl
@[simp] theorem withDram_eg (f : Mem → Mem) : (s.withDram f).eg = s.eg := rfl
@[simp] theorem withDram_ash (f : Mem → Mem) : (s.withDram f).ash = s.ash := rfl
@[simp] theorem withDram_peat (f : Mem → Mem) : (s.withDram f).peat = s.peat := rfl
@[simp] theorem withDram_sealStore (f : Mem → Mem) : (s.withDram f).sealStore = s.sealStore := rfl
@[simp] theorem withDram_boot (f : Mem → Mem) : (s.withDram f).boot = s.boot := rfl
@[simp] theorem withDram_pow (f : Mem → Mem) : (s.withDram f).pow = s.pow := rfl
@[simp] theorem withDram_damper (f : Mem → Mem) : (s.withDram f).damper = s.damper := rfl
@[simp] theorem withDram_host (f : Mem → Mem) : (s.withDram f).host = s.host := rfl
@[simp] theorem withDram_fns (f : Mem → Mem) : (s.withDram f).fns = s.fns := rfl
@[simp] theorem withDram_q (f : Mem → Mem) : (s.withDram f).q = s.q := rfl
@[simp] theorem withDram_insts (f : Mem → Mem) : (s.withDram f).insts = s.insts := rfl
@[simp] theorem withDram_stor (f : Mem → Mem) : (s.withDram f).stor = s.stor := rfl
@[simp] theorem withDram_kiln (f : Mem → Mem) : (s.withDram f).kiln = s.kiln := rfl
@[simp] theorem withDram_cipher (f : Mem → Mem) : (s.withDram f).cipher = s.cipher := rfl
@[simp] theorem withDram_pipe (f : Mem → Mem) : (s.withDram f).pipe = s.pipe := rfl
@[simp] theorem withDram_flow (f : Mem → Mem) : (s.withDram f).flow = s.flow := rfl
@[simp] theorem withDram_dbg (f : Mem → Mem) : (s.withDram f).dbg = s.dbg := rfl
@[simp] theorem withDram_svc (f : Mem → Mem) : (s.withDram f).svc = s.svc := rfl
@[simp] theorem withDram_dram (f : Mem → Mem) : (s.withDram f).dram = f s.dram := rfl
@[simp] theorem withDram_free (f : Mem → Mem) : (s.withDram f).free = s.free := rfl
@[simp] theorem withDram_lastFire (f : Mem → Mem) : (s.withDram f).lastFire = s.lastFire := rfl
@[simp] theorem withDram_out (f : Mem → Mem) : (s.withDram f).out = s.out := rfl
@[simp] theorem withDram_pending (f : Mem → Mem) : (s.withDram f).pending = s.pending := rfl
@[simp] theorem withDram_dget (f : Mem → Mem) (i k : Nat) : (s.withDram f).dget i k = s.dget i k := rfl
@[simp] theorem withDram_dval (f : Mem → Mem) (i k : Nat) : (s.withDram f).dval i k = s.dval i k := rfl
@[simp] theorem withDram_fn (f : Mem → Mem) (n : Nat) : (s.withDram f).fn n = s.fn n := rfl
@[simp] theorem withDram_inst (f : Mem → Mem) (n : Nat) : (s.withDram f).inst n = s.inst n := rfl

/-! withFns -/

@[simp] theorem withFns_dict (f : SMap Fn → SMap Fn) : (s.withFns f).dict = s.dict := rfl
@[simp] theorem withFns_time (f : SMap Fn → SMap Fn) : (s.withFns f).time = s.time := rfl
@[simp] theorem withFns_eg (f : SMap Fn → SMap Fn) : (s.withFns f).eg = s.eg := rfl
@[simp] theorem withFns_ash (f : SMap Fn → SMap Fn) : (s.withFns f).ash = s.ash := rfl
@[simp] theorem withFns_peat (f : SMap Fn → SMap Fn) : (s.withFns f).peat = s.peat := rfl
@[simp] theorem withFns_sealStore (f : SMap Fn → SMap Fn) : (s.withFns f).sealStore = s.sealStore := rfl
@[simp] theorem withFns_boot (f : SMap Fn → SMap Fn) : (s.withFns f).boot = s.boot := rfl
@[simp] theorem withFns_pow (f : SMap Fn → SMap Fn) : (s.withFns f).pow = s.pow := rfl
@[simp] theorem withFns_damper (f : SMap Fn → SMap Fn) : (s.withFns f).damper = s.damper := rfl
@[simp] theorem withFns_host (f : SMap Fn → SMap Fn) : (s.withFns f).host = s.host := rfl
@[simp] theorem withFns_fns (f : SMap Fn → SMap Fn) : (s.withFns f).fns = f s.fns := rfl
@[simp] theorem withFns_q (f : SMap Fn → SMap Fn) : (s.withFns f).q = s.q := rfl
@[simp] theorem withFns_insts (f : SMap Fn → SMap Fn) : (s.withFns f).insts = s.insts := rfl
@[simp] theorem withFns_stor (f : SMap Fn → SMap Fn) : (s.withFns f).stor = s.stor := rfl
@[simp] theorem withFns_kiln (f : SMap Fn → SMap Fn) : (s.withFns f).kiln = s.kiln := rfl
@[simp] theorem withFns_cipher (f : SMap Fn → SMap Fn) : (s.withFns f).cipher = s.cipher := rfl
@[simp] theorem withFns_pipe (f : SMap Fn → SMap Fn) : (s.withFns f).pipe = s.pipe := rfl
@[simp] theorem withFns_flow (f : SMap Fn → SMap Fn) : (s.withFns f).flow = s.flow := rfl
@[simp] theorem withFns_dbg (f : SMap Fn → SMap Fn) : (s.withFns f).dbg = s.dbg := rfl
@[simp] theorem withFns_svc (f : SMap Fn → SMap Fn) : (s.withFns f).svc = s.svc := rfl
@[simp] theorem withFns_dram (f : SMap Fn → SMap Fn) : (s.withFns f).dram = s.dram := rfl
@[simp] theorem withFns_free (f : SMap Fn → SMap Fn) : (s.withFns f).free = s.free := rfl
@[simp] theorem withFns_lastFire (f : SMap Fn → SMap Fn) : (s.withFns f).lastFire = s.lastFire := rfl
@[simp] theorem withFns_out (f : SMap Fn → SMap Fn) : (s.withFns f).out = s.out := rfl
@[simp] theorem withFns_pending (f : SMap Fn → SMap Fn) : (s.withFns f).pending = s.pending := rfl
@[simp] theorem withFns_dget (f : SMap Fn → SMap Fn) (i k : Nat) : (s.withFns f).dget i k = s.dget i k := rfl
@[simp] theorem withFns_dval (f : SMap Fn → SMap Fn) (i k : Nat) : (s.withFns f).dval i k = s.dval i k := rfl
@[simp] theorem withFns_inst (f : SMap Fn → SMap Fn) (n : Nat) : (s.withFns f).inst n = s.inst n := rfl

/-! withInsts -/

@[simp] theorem withInsts_dict (f : SMap Inst → SMap Inst) : (s.withInsts f).dict = s.dict := rfl
@[simp] theorem withInsts_time (f : SMap Inst → SMap Inst) : (s.withInsts f).time = s.time := rfl
@[simp] theorem withInsts_eg (f : SMap Inst → SMap Inst) : (s.withInsts f).eg = s.eg := rfl
@[simp] theorem withInsts_ash (f : SMap Inst → SMap Inst) : (s.withInsts f).ash = s.ash := rfl
@[simp] theorem withInsts_peat (f : SMap Inst → SMap Inst) : (s.withInsts f).peat = s.peat := rfl
@[simp] theorem withInsts_sealStore (f : SMap Inst → SMap Inst) : (s.withInsts f).sealStore = s.sealStore := rfl
@[simp] theorem withInsts_boot (f : SMap Inst → SMap Inst) : (s.withInsts f).boot = s.boot := rfl
@[simp] theorem withInsts_pow (f : SMap Inst → SMap Inst) : (s.withInsts f).pow = s.pow := rfl
@[simp] theorem withInsts_damper (f : SMap Inst → SMap Inst) : (s.withInsts f).damper = s.damper := rfl
@[simp] theorem withInsts_host (f : SMap Inst → SMap Inst) : (s.withInsts f).host = s.host := rfl
@[simp] theorem withInsts_fns (f : SMap Inst → SMap Inst) : (s.withInsts f).fns = s.fns := rfl
@[simp] theorem withInsts_q (f : SMap Inst → SMap Inst) : (s.withInsts f).q = s.q := rfl
@[simp] theorem withInsts_insts (f : SMap Inst → SMap Inst) : (s.withInsts f).insts = f s.insts := rfl
@[simp] theorem withInsts_stor (f : SMap Inst → SMap Inst) : (s.withInsts f).stor = s.stor := rfl
@[simp] theorem withInsts_kiln (f : SMap Inst → SMap Inst) : (s.withInsts f).kiln = s.kiln := rfl
@[simp] theorem withInsts_cipher (f : SMap Inst → SMap Inst) : (s.withInsts f).cipher = s.cipher := rfl
@[simp] theorem withInsts_pipe (f : SMap Inst → SMap Inst) : (s.withInsts f).pipe = s.pipe := rfl
@[simp] theorem withInsts_flow (f : SMap Inst → SMap Inst) : (s.withInsts f).flow = s.flow := rfl
@[simp] theorem withInsts_dbg (f : SMap Inst → SMap Inst) : (s.withInsts f).dbg = s.dbg := rfl
@[simp] theorem withInsts_svc (f : SMap Inst → SMap Inst) : (s.withInsts f).svc = s.svc := rfl
@[simp] theorem withInsts_dram (f : SMap Inst → SMap Inst) : (s.withInsts f).dram = s.dram := rfl
@[simp] theorem withInsts_free (f : SMap Inst → SMap Inst) : (s.withInsts f).free = s.free := rfl
@[simp] theorem withInsts_lastFire (f : SMap Inst → SMap Inst) : (s.withInsts f).lastFire = s.lastFire := rfl
@[simp] theorem withInsts_out (f : SMap Inst → SMap Inst) : (s.withInsts f).out = s.out := rfl
@[simp] theorem withInsts_pending (f : SMap Inst → SMap Inst) : (s.withInsts f).pending = s.pending := rfl
@[simp] theorem withInsts_dget (f : SMap Inst → SMap Inst) (i k : Nat) : (s.withInsts f).dget i k = s.dget i k := rfl
@[simp] theorem withInsts_dval (f : SMap Inst → SMap Inst) (i k : Nat) : (s.withInsts f).dval i k = s.dval i k := rfl
@[simp] theorem withInsts_fn (f : SMap Inst → SMap Inst) (n : Nat) : (s.withInsts f).fn n = s.fn n := rfl

/-! withLastFire -/

@[simp] theorem withLastFire_dict (f : SMap Nat → SMap Nat) : (s.withLastFire f).dict = s.dict := rfl
@[simp] theorem withLastFire_time (f : SMap Nat → SMap Nat) : (s.withLastFire f).time = s.time := rfl
@[simp] theorem withLastFire_eg (f : SMap Nat → SMap Nat) : (s.withLastFire f).eg = s.eg := rfl
@[simp] theorem withLastFire_ash (f : SMap Nat → SMap Nat) : (s.withLastFire f).ash = s.ash := rfl
@[simp] theorem withLastFire_peat (f : SMap Nat → SMap Nat) : (s.withLastFire f).peat = s.peat := rfl
@[simp] theorem withLastFire_sealStore (f : SMap Nat → SMap Nat) : (s.withLastFire f).sealStore = s.sealStore := rfl
@[simp] theorem withLastFire_boot (f : SMap Nat → SMap Nat) : (s.withLastFire f).boot = s.boot := rfl
@[simp] theorem withLastFire_pow (f : SMap Nat → SMap Nat) : (s.withLastFire f).pow = s.pow := rfl
@[simp] theorem withLastFire_damper (f : SMap Nat → SMap Nat) : (s.withLastFire f).damper = s.damper := rfl
@[simp] theorem withLastFire_host (f : SMap Nat → SMap Nat) : (s.withLastFire f).host = s.host := rfl
@[simp] theorem withLastFire_fns (f : SMap Nat → SMap Nat) : (s.withLastFire f).fns = s.fns := rfl
@[simp] theorem withLastFire_q (f : SMap Nat → SMap Nat) : (s.withLastFire f).q = s.q := rfl
@[simp] theorem withLastFire_insts (f : SMap Nat → SMap Nat) : (s.withLastFire f).insts = s.insts := rfl
@[simp] theorem withLastFire_stor (f : SMap Nat → SMap Nat) : (s.withLastFire f).stor = s.stor := rfl
@[simp] theorem withLastFire_kiln (f : SMap Nat → SMap Nat) : (s.withLastFire f).kiln = s.kiln := rfl
@[simp] theorem withLastFire_cipher (f : SMap Nat → SMap Nat) : (s.withLastFire f).cipher = s.cipher := rfl
@[simp] theorem withLastFire_pipe (f : SMap Nat → SMap Nat) : (s.withLastFire f).pipe = s.pipe := rfl
@[simp] theorem withLastFire_flow (f : SMap Nat → SMap Nat) : (s.withLastFire f).flow = s.flow := rfl
@[simp] theorem withLastFire_dbg (f : SMap Nat → SMap Nat) : (s.withLastFire f).dbg = s.dbg := rfl
@[simp] theorem withLastFire_svc (f : SMap Nat → SMap Nat) : (s.withLastFire f).svc = s.svc := rfl
@[simp] theorem withLastFire_dram (f : SMap Nat → SMap Nat) : (s.withLastFire f).dram = s.dram := rfl
@[simp] theorem withLastFire_free (f : SMap Nat → SMap Nat) : (s.withLastFire f).free = s.free := rfl
@[simp] theorem withLastFire_lastFire (f : SMap Nat → SMap Nat) : (s.withLastFire f).lastFire = f s.lastFire := rfl
@[simp] theorem withLastFire_out (f : SMap Nat → SMap Nat) : (s.withLastFire f).out = s.out := rfl
@[simp] theorem withLastFire_pending (f : SMap Nat → SMap Nat) : (s.withLastFire f).pending = s.pending := rfl
@[simp] theorem withLastFire_dget (f : SMap Nat → SMap Nat) (i k : Nat) : (s.withLastFire f).dget i k = s.dget i k := rfl
@[simp] theorem withLastFire_dval (f : SMap Nat → SMap Nat) (i k : Nat) : (s.withLastFire f).dval i k = s.dval i k := rfl
@[simp] theorem withLastFire_fn (f : SMap Nat → SMap Nat) (n : Nat) : (s.withLastFire f).fn n = s.fn n := rfl
@[simp] theorem withLastFire_inst (f : SMap Nat → SMap Nat) (n : Nat) : (s.withLastFire f).inst n = s.inst n := rfl

/-! dsetv -/

@[simp] theorem dsetv_time (i k : Nat) (v : DVal) : (s.dsetv i k v).time = s.time := rfl
@[simp] theorem dsetv_eg (i k : Nat) (v : DVal) : (s.dsetv i k v).eg = s.eg := rfl
@[simp] theorem dsetv_ash (i k : Nat) (v : DVal) : (s.dsetv i k v).ash = s.ash := rfl
@[simp] theorem dsetv_peat (i k : Nat) (v : DVal) : (s.dsetv i k v).peat = s.peat := rfl
@[simp] theorem dsetv_sealStore (i k : Nat) (v : DVal) : (s.dsetv i k v).sealStore = s.sealStore := rfl
@[simp] theorem dsetv_boot (i k : Nat) (v : DVal) : (s.dsetv i k v).boot = s.boot := rfl
@[simp] theorem dsetv_pow (i k : Nat) (v : DVal) : (s.dsetv i k v).pow = s.pow := rfl
@[simp] theorem dsetv_damper (i k : Nat) (v : DVal) : (s.dsetv i k v).damper = s.damper := rfl
@[simp] theorem dsetv_host (i k : Nat) (v : DVal) : (s.dsetv i k v).host = s.host := rfl
@[simp] theorem dsetv_fns (i k : Nat) (v : DVal) : (s.dsetv i k v).fns = s.fns := rfl
@[simp] theorem dsetv_q (i k : Nat) (v : DVal) : (s.dsetv i k v).q = s.q := rfl
@[simp] theorem dsetv_insts (i k : Nat) (v : DVal) : (s.dsetv i k v).insts = s.insts := rfl
@[simp] theorem dsetv_stor (i k : Nat) (v : DVal) : (s.dsetv i k v).stor = s.stor := rfl
@[simp] theorem dsetv_kiln (i k : Nat) (v : DVal) : (s.dsetv i k v).kiln = s.kiln := rfl
@[simp] theorem dsetv_cipher (i k : Nat) (v : DVal) : (s.dsetv i k v).cipher = s.cipher := rfl
@[simp] theorem dsetv_pipe (i k : Nat) (v : DVal) : (s.dsetv i k v).pipe = s.pipe := rfl
@[simp] theorem dsetv_flow (i k : Nat) (v : DVal) : (s.dsetv i k v).flow = s.flow := rfl
@[simp] theorem dsetv_dbg (i k : Nat) (v : DVal) : (s.dsetv i k v).dbg = s.dbg := rfl
@[simp] theorem dsetv_svc (i k : Nat) (v : DVal) : (s.dsetv i k v).svc = s.svc := rfl
@[simp] theorem dsetv_dram (i k : Nat) (v : DVal) : (s.dsetv i k v).dram = s.dram := rfl
@[simp] theorem dsetv_free (i k : Nat) (v : DVal) : (s.dsetv i k v).free = s.free := rfl
@[simp] theorem dsetv_lastFire (i k : Nat) (v : DVal) : (s.dsetv i k v).lastFire = s.lastFire := rfl
@[simp] theorem dsetv_out (i k : Nat) (v : DVal) : (s.dsetv i k v).out = s.out := rfl
@[simp] theorem dsetv_pending (i k : Nat) (v : DVal) : (s.dsetv i k v).pending = s.pending := rfl
@[simp] theorem dsetv_fn (i k : Nat) (v : DVal) (j : Nat) : (s.dsetv i k v).fn j = s.fn j := rfl
@[simp] theorem dsetv_inst (i k : Nat) (v : DVal) (j : Nat) : (s.dsetv i k v).inst j = s.inst j := rfl

/-! dset -/

@[simp] theorem dset_time (i k n : Nat) : (s.dset i k n).time = s.time := rfl
@[simp] theorem dset_eg (i k n : Nat) : (s.dset i k n).eg = s.eg := rfl
@[simp] theorem dset_ash (i k n : Nat) : (s.dset i k n).ash = s.ash := rfl
@[simp] theorem dset_peat (i k n : Nat) : (s.dset i k n).peat = s.peat := rfl
@[simp] theorem dset_sealStore (i k n : Nat) : (s.dset i k n).sealStore = s.sealStore := rfl
@[simp] theorem dset_boot (i k n : Nat) : (s.dset i k n).boot = s.boot := rfl
@[simp] theorem dset_pow (i k n : Nat) : (s.dset i k n).pow = s.pow := rfl
@[simp] theorem dset_damper (i k n : Nat) : (s.dset i k n).damper = s.damper := rfl
@[simp] theorem dset_host (i k n : Nat) : (s.dset i k n).host = s.host := rfl
@[simp] theorem dset_fns (i k n : Nat) : (s.dset i k n).fns = s.fns := rfl
@[simp] theorem dset_q (i k n : Nat) : (s.dset i k n).q = s.q := rfl
@[simp] theorem dset_insts (i k n : Nat) : (s.dset i k n).insts = s.insts := rfl
@[simp] theorem dset_stor (i k n : Nat) : (s.dset i k n).stor = s.stor := rfl
@[simp] theorem dset_kiln (i k n : Nat) : (s.dset i k n).kiln = s.kiln := rfl
@[simp] theorem dset_cipher (i k n : Nat) : (s.dset i k n).cipher = s.cipher := rfl
@[simp] theorem dset_pipe (i k n : Nat) : (s.dset i k n).pipe = s.pipe := rfl
@[simp] theorem dset_flow (i k n : Nat) : (s.dset i k n).flow = s.flow := rfl
@[simp] theorem dset_dbg (i k n : Nat) : (s.dset i k n).dbg = s.dbg := rfl
@[simp] theorem dset_svc (i k n : Nat) : (s.dset i k n).svc = s.svc := rfl
@[simp] theorem dset_dram (i k n : Nat) : (s.dset i k n).dram = s.dram := rfl
@[simp] theorem dset_free (i k n : Nat) : (s.dset i k n).free = s.free := rfl
@[simp] theorem dset_lastFire (i k n : Nat) : (s.dset i k n).lastFire = s.lastFire := rfl
@[simp] theorem dset_out (i k n : Nat) : (s.dset i k n).out = s.out := rfl
@[simp] theorem dset_pending (i k n : Nat) : (s.dset i k n).pending = s.pending := rfl
@[simp] theorem dset_fn (i k n : Nat) (j : Nat) : (s.dset i k n).fn j = s.fn j := rfl
@[simp] theorem dset_inst (i k n : Nat) (j : Nat) : (s.dset i k n).inst j = s.inst j := rfl

/-! emit -/

@[simp] theorem emit_dict (o : Out) : (s.emit o).dict = s.dict := rfl
@[simp] theorem emit_time (o : Out) : (s.emit o).time = s.time := rfl
@[simp] theorem emit_eg (o : Out) : (s.emit o).eg = s.eg := rfl
@[simp] theorem emit_ash (o : Out) : (s.emit o).ash = s.ash := rfl
@[simp] theorem emit_peat (o : Out) : (s.emit o).peat = s.peat := rfl
@[simp] theorem emit_sealStore (o : Out) : (s.emit o).sealStore = s.sealStore := rfl
@[simp] theorem emit_boot (o : Out) : (s.emit o).boot = s.boot := rfl
@[simp] theorem emit_pow (o : Out) : (s.emit o).pow = s.pow := rfl
@[simp] theorem emit_damper (o : Out) : (s.emit o).damper = s.damper := rfl
@[simp] theorem emit_host (o : Out) : (s.emit o).host = s.host := rfl
@[simp] theorem emit_fns (o : Out) : (s.emit o).fns = s.fns := rfl
@[simp] theorem emit_q (o : Out) : (s.emit o).q = s.q := rfl
@[simp] theorem emit_insts (o : Out) : (s.emit o).insts = s.insts := rfl
@[simp] theorem emit_stor (o : Out) : (s.emit o).stor = s.stor := rfl
@[simp] theorem emit_kiln (o : Out) : (s.emit o).kiln = s.kiln := rfl
@[simp] theorem emit_cipher (o : Out) : (s.emit o).cipher = s.cipher := rfl
@[simp] theorem emit_pipe (o : Out) : (s.emit o).pipe = s.pipe := rfl
@[simp] theorem emit_flow (o : Out) : (s.emit o).flow = s.flow := rfl
@[simp] theorem emit_dbg (o : Out) : (s.emit o).dbg = s.dbg := rfl
@[simp] theorem emit_svc (o : Out) : (s.emit o).svc = s.svc := rfl
@[simp] theorem emit_dram (o : Out) : (s.emit o).dram = s.dram := rfl
@[simp] theorem emit_free (o : Out) : (s.emit o).free = s.free := rfl
@[simp] theorem emit_lastFire (o : Out) : (s.emit o).lastFire = s.lastFire := rfl
@[simp] theorem emit_out (o : Out) : (s.emit o).out = s.out ++ [o] := rfl
@[simp] theorem emit_pending (o : Out) : (s.emit o).pending = s.pending := rfl
@[simp] theorem emit_dget (o : Out) (i k : Nat) : (s.emit o).dget i k = s.dget i k := rfl
@[simp] theorem emit_dval (o : Out) (i k : Nat) : (s.emit o).dval i k = s.dval i k := rfl
@[simp] theorem emit_fn (o : Out) (j : Nat) : (s.emit o).fn j = s.fn j := rfl
@[simp] theorem emit_inst (o : Out) (j : Nat) : (s.emit o).inst j = s.inst j := rfl

/-! event -/

@[simp] theorem event_dict (n : Nat) : (s.event n).dict = s.dict := rfl
@[simp] theorem event_time (n : Nat) : (s.event n).time = s.time := rfl
@[simp] theorem event_ash (n : Nat) : (s.event n).ash = s.ash := rfl
@[simp] theorem event_peat (n : Nat) : (s.event n).peat = s.peat := rfl
@[simp] theorem event_sealStore (n : Nat) : (s.event n).sealStore = s.sealStore := rfl
@[simp] theorem event_boot (n : Nat) : (s.event n).boot = s.boot := rfl
@[simp] theorem event_pow (n : Nat) : (s.event n).pow = s.pow := rfl
@[simp] theorem event_damper (n : Nat) : (s.event n).damper = s.damper := rfl
@[simp] theorem event_host (n : Nat) : (s.event n).host = s.host := rfl
@[simp] theorem event_fns (n : Nat) : (s.event n).fns = s.fns := rfl
@[simp] theorem event_q (n : Nat) : (s.event n).q = s.q := rfl
@[simp] theorem event_insts (n : Nat) : (s.event n).insts = s.insts := rfl
@[simp] theorem event_stor (n : Nat) : (s.event n).stor = s.stor := rfl
@[simp] theorem event_kiln (n : Nat) : (s.event n).kiln = s.kiln := rfl
@[simp] theorem event_cipher (n : Nat) : (s.event n).cipher = s.cipher := rfl
@[simp] theorem event_pipe (n : Nat) : (s.event n).pipe = s.pipe := rfl
@[simp] theorem event_flow (n : Nat) : (s.event n).flow = s.flow := rfl
@[simp] theorem event_dbg (n : Nat) : (s.event n).dbg = s.dbg := rfl
@[simp] theorem event_svc (n : Nat) : (s.event n).svc = s.svc := rfl
@[simp] theorem event_dram (n : Nat) : (s.event n).dram = s.dram := rfl
@[simp] theorem event_free (n : Nat) : (s.event n).free = s.free := rfl
@[simp] theorem event_lastFire (n : Nat) : (s.event n).lastFire = s.lastFire := rfl
@[simp] theorem event_out (n : Nat) : (s.event n).out = s.out := rfl
@[simp] theorem event_pending (n : Nat) : (s.event n).pending = s.pending := rfl
@[simp] theorem event_dget (n : Nat) (i k : Nat) : (s.event n).dget i k = s.dget i k := rfl
@[simp] theorem event_dval (n : Nat) (i k : Nat) : (s.event n).dval i k = s.dval i k := rfl
@[simp] theorem event_fn (n : Nat) (j : Nat) : (s.event n).fn j = s.fn j := rfl
@[simp] theorem event_inst (n : Nat) (j : Nat) : (s.event n).inst j = s.inst j := rfl

/-! withFn -/

@[simp] theorem withFn_dict (n : Nat) (f : Fn → Fn) : (s.withFn n f).dict = s.dict := rfl
@[simp] theorem withFn_time (n : Nat) (f : Fn → Fn) : (s.withFn n f).time = s.time := rfl
@[simp] theorem withFn_eg (n : Nat) (f : Fn → Fn) : (s.withFn n f).eg = s.eg := rfl
@[simp] theorem withFn_ash (n : Nat) (f : Fn → Fn) : (s.withFn n f).ash = s.ash := rfl
@[simp] theorem withFn_peat (n : Nat) (f : Fn → Fn) : (s.withFn n f).peat = s.peat := rfl
@[simp] theorem withFn_sealStore (n : Nat) (f : Fn → Fn) : (s.withFn n f).sealStore = s.sealStore := rfl
@[simp] theorem withFn_boot (n : Nat) (f : Fn → Fn) : (s.withFn n f).boot = s.boot := rfl
@[simp] theorem withFn_pow (n : Nat) (f : Fn → Fn) : (s.withFn n f).pow = s.pow := rfl
@[simp] theorem withFn_damper (n : Nat) (f : Fn → Fn) : (s.withFn n f).damper = s.damper := rfl
@[simp] theorem withFn_host (n : Nat) (f : Fn → Fn) : (s.withFn n f).host = s.host := rfl
@[simp] theorem withFn_q (n : Nat) (f : Fn → Fn) : (s.withFn n f).q = s.q := rfl
@[simp] theorem withFn_insts (n : Nat) (f : Fn → Fn) : (s.withFn n f).insts = s.insts := rfl
@[simp] theorem withFn_stor (n : Nat) (f : Fn → Fn) : (s.withFn n f).stor = s.stor := rfl
@[simp] theorem withFn_kiln (n : Nat) (f : Fn → Fn) : (s.withFn n f).kiln = s.kiln := rfl
@[simp] theorem withFn_cipher (n : Nat) (f : Fn → Fn) : (s.withFn n f).cipher = s.cipher := rfl
@[simp] theorem withFn_pipe (n : Nat) (f : Fn → Fn) : (s.withFn n f).pipe = s.pipe := rfl
@[simp] theorem withFn_flow (n : Nat) (f : Fn → Fn) : (s.withFn n f).flow = s.flow := rfl
@[simp] theorem withFn_dbg (n : Nat) (f : Fn → Fn) : (s.withFn n f).dbg = s.dbg := rfl
@[simp] theorem withFn_svc (n : Nat) (f : Fn → Fn) : (s.withFn n f).svc = s.svc := rfl
@[simp] theorem withFn_dram (n : Nat) (f : Fn → Fn) : (s.withFn n f).dram = s.dram := rfl
@[simp] theorem withFn_free (n : Nat) (f : Fn → Fn) : (s.withFn n f).free = s.free := rfl
@[simp] theorem withFn_lastFire (n : Nat) (f : Fn → Fn) : (s.withFn n f).lastFire = s.lastFire := rfl
@[simp] theorem withFn_out (n : Nat) (f : Fn → Fn) : (s.withFn n f).out = s.out := rfl
@[simp] theorem withFn_pending (n : Nat) (f : Fn → Fn) : (s.withFn n f).pending = s.pending := rfl
@[simp] theorem withFn_dget (n : Nat) (f : Fn → Fn) (i k : Nat) : (s.withFn n f).dget i k = s.dget i k := rfl
@[simp] theorem withFn_dval (n : Nat) (f : Fn → Fn) (i k : Nat) : (s.withFn n f).dval i k = s.dval i k := rfl
@[simp] theorem withFn_inst (n : Nat) (f : Fn → Fn) (j : Nat) : (s.withFn n f).inst j = s.inst j := rfl

/-! withInst -/

@[simp] theorem withInst_dict (n : Nat) (f : Inst → Inst) : (s.withInst n f).dict = s.dict := rfl
@[simp] theorem withInst_time (n : Nat) (f : Inst → Inst) : (s.withInst n f).time = s.time := rfl
@[simp] theorem withInst_eg (n : Nat) (f : Inst → Inst) : (s.withInst n f).eg = s.eg := rfl
@[simp] theorem withInst_ash (n : Nat) (f : Inst → Inst) : (s.withInst n f).ash = s.ash := rfl
@[simp] theorem withInst_peat (n : Nat) (f : Inst → Inst) : (s.withInst n f).peat = s.peat := rfl
@[simp] theorem withInst_sealStore (n : Nat) (f : Inst → Inst) : (s.withInst n f).sealStore = s.sealStore := rfl
@[simp] theorem withInst_boot (n : Nat) (f : Inst → Inst) : (s.withInst n f).boot = s.boot := rfl
@[simp] theorem withInst_pow (n : Nat) (f : Inst → Inst) : (s.withInst n f).pow = s.pow := rfl
@[simp] theorem withInst_damper (n : Nat) (f : Inst → Inst) : (s.withInst n f).damper = s.damper := rfl
@[simp] theorem withInst_host (n : Nat) (f : Inst → Inst) : (s.withInst n f).host = s.host := rfl
@[simp] theorem withInst_fns (n : Nat) (f : Inst → Inst) : (s.withInst n f).fns = s.fns := rfl
@[simp] theorem withInst_q (n : Nat) (f : Inst → Inst) : (s.withInst n f).q = s.q := rfl
@[simp] theorem withInst_stor (n : Nat) (f : Inst → Inst) : (s.withInst n f).stor = s.stor := rfl
@[simp] theorem withInst_kiln (n : Nat) (f : Inst → Inst) : (s.withInst n f).kiln = s.kiln := rfl
@[simp] theorem withInst_cipher (n : Nat) (f : Inst → Inst) : (s.withInst n f).cipher = s.cipher := rfl
@[simp] theorem withInst_pipe (n : Nat) (f : Inst → Inst) : (s.withInst n f).pipe = s.pipe := rfl
@[simp] theorem withInst_flow (n : Nat) (f : Inst → Inst) : (s.withInst n f).flow = s.flow := rfl
@[simp] theorem withInst_dbg (n : Nat) (f : Inst → Inst) : (s.withInst n f).dbg = s.dbg := rfl
@[simp] theorem withInst_svc (n : Nat) (f : Inst → Inst) : (s.withInst n f).svc = s.svc := rfl
@[simp] theorem withInst_dram (n : Nat) (f : Inst → Inst) : (s.withInst n f).dram = s.dram := rfl
@[simp] theorem withInst_free (n : Nat) (f : Inst → Inst) : (s.withInst n f).free = s.free := rfl
@[simp] theorem withInst_lastFire (n : Nat) (f : Inst → Inst) : (s.withInst n f).lastFire = s.lastFire := rfl
@[simp] theorem withInst_out (n : Nat) (f : Inst → Inst) : (s.withInst n f).out = s.out := rfl
@[simp] theorem withInst_pending (n : Nat) (f : Inst → Inst) : (s.withInst n f).pending = s.pending := rfl
@[simp] theorem withInst_dget (n : Nat) (f : Inst → Inst) (i k : Nat) : (s.withInst n f).dget i k = s.dget i k := rfl
@[simp] theorem withInst_dval (n : Nat) (f : Inst → Inst) (i k : Nat) : (s.withInst n f).dval i k = s.dval i k := rfl
@[simp] theorem withInst_fn (n : Nat) (f : Inst → Inst) (j : Nat) : (s.withInst n f).fn j = s.fn j := rfl

/-! Reads after writes -/

theorem dkey_inj {i k j l : Nat} (hk : k < 256) (hl : l < 256) : dkey i k = dkey j l ↔ i = j ∧ k = l := by
  unfold dkey
  constructor
  · intro h; omega
  · rintro ⟨rfl, rfl⟩; rfl

@[simp] theorem dval_dsetv_same (i k : Nat) (v : DVal) : (s.dsetv i k v).dval i k = v := by
  unfold State.dval State.dsetv
  rw [get?_put_same]
  rfl

theorem dval_dsetv_other {i k j l : Nat} (v : DVal) (h : dkey j l ≠ dkey i k) : (s.dsetv i k v).dval j l = s.dval j l := by
  unfold State.dval State.dsetv
  rw [get?_put_other _ _ h]

@[simp] theorem dget_dset_same (i k n : Nat) : (s.dset i k n).dget i k = n := by
  unfold State.dget State.dset
  rw [dval_dsetv_same]
  rfl

theorem dget_dset_other {i k j l : Nat} (n : Nat) (h : dkey j l ≠ dkey i k) : (s.dset i k n).dget j l = s.dget j l := by
  unfold State.dget State.dset
  rw [dval_dsetv_other s _ h]

@[simp] theorem fn_withFn_same (n : Nat) (f : Fn → Fn) : (s.withFn n f).fn n = f (s.fn n) := by
  show ((s.fns.put n (f (s.fn n))).get? n).getD _ = _
  rw [get?_put_same]
  rfl

theorem fn_withFn_other {n j : Nat} (f : Fn → Fn) (h : j ≠ n) : (s.withFn n f).fn j = s.fn j := by
  show ((s.fns.put n (f (s.fn n))).get? j).getD _ = (s.fns.get? j).getD _
  rw [get?_put_other _ _ h]

@[simp] theorem inst_withInst_same (n : Nat) (f : Inst → Inst) : (s.withInst n f).inst n = f (s.inst n) := by
  show ((s.insts.put n (f (s.inst n))).get? n).getD _ = _
  rw [get?_put_same]
  rfl

theorem inst_withInst_other {n j : Nat} (f : Inst → Inst) (h : j ≠ n) : (s.withInst n f).inst j = s.inst j := by
  show ((s.insts.put n (f (s.inst n))).get? j).getD _ = (s.insts.get? j).getD _
  rw [get?_put_other _ _ h]

end Sys2Proof.Laws
end

