-- ==== Sys2Proof/Laws/Serve.lean ====
section
/-! SUPPORT. What the provers cite of the dictionary service, of commands in hand and of the blocks' pieces: a request that is taken is answered
as serveRequest says, a write that passes the checks answers with its effect, a piece changed reads as changed and leaves the other pieces. -/

namespace Sys2Proof.Laws
open Sys2Proof.Machine

theorem live_of_canServe {s : State} (h : s.canServe = true) : s.live = true := by
  simp [State.canServe, State.hearthRuns] at h; exact h.1.1.1

theorem ready_of_canServe {s : State} (h : s.canServe = true) : s.boot.ready = true := by
  have := live_of_canServe h
  simp [State.live] at this; exact this.1.1

/-- A plain request that the service takes as it comes, but an arming of the replay, is answered as serveRequest says. -/
theorem answers_of {c : Instr} {s : State} {r : DictReq} {st : Status} {data : Bytes} {t : State}
    (hr : r.route = .plain) (hc : exec c s = done (s.dictRequest r.who r.op r.index r.sub r.data)) (hA : s.Asks r)
    (hn : ¬ (r.op = .write ∧ r.index = 0x3B02 ∧ r.sub = 1 ∧ st = .ok))
    (hs : (s.taken r).serveRequest r = .answer st data t) : Answers c s r st data t := by
  obtain ⟨h1, h2, h3⟩ := hA
  unfold Answers
  rw [hc]
  unfold done State.settle
  rw [if_pos (live_of_canServe h2)]
  apply congrArg Host.Outcome.next
  unfold State.settleLive State.served
  rw [h3]
  unfold State.serveHeld
  rw [h1]
  simp only [List.length_cons, List.length_nil, State.serveN, h2, if_true, h1]
  have e : (s.dictRequest r.who r.op r.index r.sub r.data).withSvc (fun k => { k with held := [] }) = s.taken r := rfl
  rw [e]
  have : (s.taken r).serveOne r = t.answer r ((s.taken r).dget 0x1040 4) st data := by
    unfold State.serveOne
    simp only [hr]
    unfold State.servePlain
    simp only [hs, State.afterAnswer, hn, if_false]
  rw [this]

/-- The service is ready in the state in which it has taken a request. -/
theorem taken_ready {s : State} {r : DictReq} (hA : s.Asks r) : (s.taken r).boot.ready = true := ready_of_canServe hA.2.1

/-- A write that passes checks 3 to 9, of an entry of no group and not a commit entry, answers with its effect. -/
theorem serveWrite_ok {s t : State} {who : Requester} {idx sub : Nat} {data : Bytes} (hb : s.boot.ready = true)
    (h : s.Accepts ⟨who, .write, idx, sub, data, .plain⟩) (hw : entryAccess idx sub ≠ .rwc)
    (hg : (if sub = 1 then groupAt idx else none) = none) (he : s.entryWrite idx sub (DVal.dec (entryType idx sub) data) = (.ok, t)) :
    s.serveRequest ⟨who, .write, idx, sub, data, .plain⟩ = .answer .ok [] t := by
  obtain ⟨h1, h2⟩ := h
  simp only [] at h1 h2
  simp [State.serveRequest, hb, State.serveWrite, h1, h2, hw, hg, he]

/-- One that its own table refuses answers with that status and changes nothing. -/
theorem serveWrite_refused {s t : State} {who : Requester} {idx sub : Nat} {data : Bytes} {st : Status} (hb : s.boot.ready = true)
    (h : s.Accepts ⟨who, .write, idx, sub, data, .plain⟩) (hw : entryAccess idx sub ≠ .rwc)
    (hg : (if sub = 1 then groupAt idx else none) = none) (hst : st ≠ .ok)
    (he : s.entryWrite idx sub (DVal.dec (entryType idx sub) data) = (st, t)) :
    s.serveRequest ⟨who, .write, idx, sub, data, .plain⟩ = .answer st [] s := by
  obtain ⟨h1, h2⟩ := h
  simp only [] at h1 h2
  simp [State.serveRequest, hb, State.serveWrite, h1, h2, hw, hg, he, hst]

/-- A fold whose every step leaves the state leaves it. -/
theorem foldl_stays {α : Type} (f : State → α → State) (s : State) : ∀ l : List α, (∀ a ∈ l, f s a = s) → l.foldl f s = s
  | [], _ => rfl
  | a :: l, h => by
    rw [List.foldl_cons, h a (by simp)]
    exact foldl_stays f s l fun b hb => h b (List.mem_cons_of_mem _ hb)

theorem put_put {α : Type} (m : SMap α) (k : Nat) (a b : α) : (m.put k a).put k b = m.put k b := by
  induction m with
  | nil => simp [SMap.put]
  | cons x t ih =>
    simp only [SMap.put]
    split
    · simp [SMap.put]
    · split
      · simp [SMap.put]
      · rename_i h1 h2; simp [SMap.put, h1, h2]; exact ih

theorem keep_get? {α : Type} (m : SMap α) (p : Nat → Bool) (k : Nat) :
    SMap.get? (m.keep fun i _ => p i) k = if p k then m.get? k else none := by
  induction m with
  | nil => simp [SMap.keep, SMap.get?]
  | cons a t ih =>
    unfold SMap.keep at *
    simp only [List.filter]
    by_cases h : a.1 = k
    · subst h; cases hp : p a.1 <;> simp [SMap.get?, hp] at * ; assumption
    · cases hp : p a.1 <;> simp [SMap.get?, h] at * <;> assumption

theorem map_get? {α β : Type} (m : SMap α) (f : α → β) (k : Nat) :
    SMap.get? (List.map (fun kv : Nat × α => (kv.1, f kv.2)) m) k = (m.get? k).map f := by
  induction m with
  | nil => rfl
  | cons a t ih => simp only [List.map, SMap.get?]; split <;> simp_all

@[simp] theorem stream_withStream (s : State) (i : Nat) (f : Stream → Stream) : (s.withStream i f).stream i = f (s.stream i) := by
  simp [State.stream, State.withStream, State.withKiln, SMap.getD, get?_put_same]

theorem stream_withStream_other (s : State) {i j : Nat} (f : Stream → Stream) (h : j ≠ i) : (s.withStream i f).stream j = s.stream j := by
  simp [State.stream, State.withStream, State.withKiln, SMap.getD, get?_put_other _ _ h]

@[simp] theorem withStream_twice (s : State) (i : Nat) (f g : Stream → Stream) :
    (s.withStream i f).withStream i g = s.withStream i (fun x => g (f x)) := by
  unfold State.withStream
  simp only [State.withKiln, put_put]
  have := stream_withStream s i f
  simp only [State.withStream, State.withKiln] at this
  rw [this]

@[simp] theorem thread_withThread (s : State) (i : Nat) (f : Thread → Thread) : (s.withThread i f).thread i = f (s.thread i) := by
  simp [State.thread, State.withThread, State.withFlow, SMap.getD, get?_put_same]

theorem thread_withThread_other (s : State) {i j : Nat} (f : Thread → Thread) (h : j ≠ i) : (s.withThread i f).thread j = s.thread j := by
  simp [State.thread, State.withThread, State.withFlow, SMap.getD, get?_put_other _ _ h]

@[simp] theorem groupOf_withGroup (s : State) (i : Nat) (f : Group → Group) : (s.withGroup i f).groupOf i = f (s.groupOf i) := by
  simp [State.groupOf, State.withGroup, State.withFlow, SMap.getD, get?_put_same]

@[simp] theorem channel_withChannel (s : State) (i : Nat) (f : Channel → Channel) : (s.withChannel i f).channel i = f (s.channel i) := by
  simp [State.channel, State.withChannel, State.withFlow, SMap.getD, get?_put_same]

@[simp] theorem port_withPort (s : State) (i : Nat) (f : RootPort → RootPort) : (s.withPort i f).port i = f (s.port i) := by
  simp [State.port, State.withPort, State.withStor, SMap.getD, get?_put_same]

@[simp] theorem egPort_withEg (s : State) (i : Nat) (f : EgPort → EgPort) : (s.withEg i f).egPort i = f (s.egPort i) := by
  simp [State.egPort, State.withEg, State.withPipe, SMap.getD, get?_put_same]

@[simp] theorem target_setTarget (g : Gatherer) (t : Nat) (x : EgTarget) : (g.setTarget t x).target t = x := by
  simp [Gatherer.target, Gatherer.setTarget, SMap.getD, get?_put_same]

theorem target_setTarget_other (g : Gatherer) {t k : Nat} (x : EgTarget) (h : k ≠ t) : (g.setTarget t x).target k = g.target k := by
  simp [Gatherer.target, Gatherer.setTarget, SMap.getD, get?_put_other _ _ h]

end Sys2Proof.Laws
end

