-- ==== Sys2Proof/WellFormed.lean ====
section
/-! DEFINITION. Which commands are well formed: every operand within the range that the part gives it (functions 0–63,
queues and tags of 16 bits, ports 0–19, threads 0–255 and so on). A meaning never relies on it: an operand outside its
range names nothing the part has. -/

namespace Sys2Proof

/-- A requester the part has: 64 mailboxes, two CAN ports, Onsia triples (R37, R41, R45). -/
def Requester.wf : Requester → Bool
  | .mailbox fn => decide (fn < 64)
  | .can port => decide (port < 2)
  | .onsia addr port session => decide (addr < 2 ^ 32) && decide (port < 65536) && decide (session < 65536)

/-- A LIST descriptor lists whole descriptors of 16 bytes (R525). -/
def HostRead.wf : HostRead → Bool
  | .bytes lists _ => lists.all fun b => b.length % 16 == 0
  | .timeout => true
  | .error => true

/-- The tag fields of a Zelud control frame fit their widths (Table 12-9). -/
def ZeludSource.wf (z : ZeludSource) : Bool :=
  decide (z.device < 1024) && decide (z.domain < 65536) && decide (z.hops < 256) && decide (z.ttl < 256)

/-- A register write lies within BAR0 of the function, on a DWORD (Table 6-5). -/
def RegSpace.wf : RegSpace → Bool
  | .bar0 off => off % 4 == 0 && decide (off < 0x400000)
  | .cfg _ => true

/-- A DMI address is one of seven bits (R515). -/
def DmiOp.wf : DmiOp → Bool
  | .dtmcs v => decide (v < 2 ^ 32)
  | .read a => decide (a < 128)
  | .write a v => decide (a < 128) && decide (v < 2 ^ 32)

/-- An access to the boot window lies within its 16 MiB (R67). -/
def WindowAccess.wf : WindowAccess → Bool
  | .read off len => decide (off + len ≤ 0x1000000)
  | .write off b => decide (off + b.length ≤ 0x1000000)

/-- A tick carries fourteen domains, two SerDes, two ports and eight sensors (R118). -/
def TickInput.wf (t : TickInput) : Bool :=
  t.domainUj.length == 14 && t.serdesUj.length == 2 && t.kilnBytes.length == 2 && t.portBytes.length == 2
    && t.sensors.length == 8 && t.activity.all fun a => decide (a.inst < 64)

/-- A catalogue lists each namespace 1–128 once (R244). -/
def SsdIdentity.wf (d : SsdIdentity) : Bool :=
  match d.catalogue with
  | .valid _ l => l.all fun e => decide (1 ≤ e.number) && decide (e.number ≤ 128) && l.countP (fun x => x.number == e.number) == 1
  | _ => true

/-- A commit group: 1–47, or the block of an instance (R51). -/
def groupOk (g : Nat) : Bool := (decide (1 ≤ g) && decide (g ≤ 47)) || (decide (0x100 ≤ g) && decide (g < 0x140))

/-- A well-formed command. -/
def Instr.wf : Instr → Bool
  | .dictRead who index sub => who.wf && decide (index < 65536) && decide (sub < 256)
  | .dictWrite who index sub _ => who.wf && decide (index < 65536) && decide (sub < 256)
  | .dictInfo who index sub => who.wf && decide (index < 65536) && decide (sub < 256)
  | .dictNext who index sub => who.wf && decide (index < 65536) && decide (sub < 256)
  | .dictReadShadow who index sub => who.wf && decide (index < 65536) && decide (sub < 256)
  | .onsiaDatagram srcAddr srcPort dstAddr vlan _ => decide (srcAddr < 2 ^ 32) && decide (srcPort < 65536) && decide (dstAddr < 2 ^ 32) && decide (vlan < 4096)
  | .onsiaSessionTimeout addr port session => decide (addr < 2 ^ 32) && decide (port < 65536) && decide (session < 65536)
  | .usdoInitiateUpload port index sub => decide (port < 2) && decide (index < 65536) && decide (sub < 256)
  | .usdoInitiateDownload port index sub _ _ => decide (port < 2) && decide (index < 65536) && decide (sub < 256)
  | .usdoSegment port _ => decide (port < 2)
  | .usdoTransferTimeout port => decide (port < 2)
  | .groupCommit who group => who.wf && groupOk group
  | .groupDiscard who group => who.wf && groupOk group
  | .groupApply group => groupOk group
  | .shadowTimeout group => groupOk group
  | .writeMaskWrite who inst mask => who.wf && decide (inst < 64) && decide (mask < 2 ^ 64)
  | .aoPowerOn tinderStraps _ => decide (tinderStraps < 4)
  | .emberRestart who => who.wf
  | .hostLinkUp width speed => (width == 4 || width == 8) && decide (speed < 6)
  | .bootWindowAccess access => access.wf
  | .bootGo _ => true
  | .pllLockTimeout pll => decide (pll < 7)
  | .lpddr5TrainingDone _ => true
  | .emberFwWrite _ => true
  | .requestBlaze who => who.wf
  | .requestGlow who => who.wf
  | .requestBanked who => who.wf
  | .requestEmber who => who.wf
  | .ssdShutdownComplete port => decide (port < 2)
  | .wakeEdge pin => decide (pin < 4)
  | .tinderAddressMatch address _ => decide (address < 128)
  | .tinderTransferTaken _ => true
  | .tinderRegisterWrite _ => true
  | .managerVote who domain value => who.wf && decide (domain < 14) && decide (value < 2 ^ 32)
  | .domainPowerUpStart domain => decide (domain < 14)
  | .domainPowerGood domain _ => decide (domain < 14)
  | .domainPowerGoodTimeout domain => decide (domain < 14)
  | .hysteresisExpiry domain => decide (domain < 14)
  | .domainPowerDownDone domain => decide (domain < 14)
  | .damperTick input => input.wf
  | .capReleaseHoldExpiry inst => decide (inst < 64)
  | .shedPortSearch port _ => decide (port < 20)
  | .meterSampleTimeout domain => decide (domain < 14)
  | .forceStep who value => who.wf && decide (value < 2 ^ 32)
  | .snapshot who value => who.wf && decide (value < 2 ^ 32)
  | .vsenseSample _ => true
  | .busMasterEnableClear fn => decide (fn < 64)
  | .busMasterEnableSet fn => decide (fn < 64)
  | .functionLevelReset fn => decide (fn < 64)
  | .flrQuiesceComplete inst => decide (inst < 64)
  | .interruptModeEnable fn _ => decide (fn < 64)
  | .vectorUnmask fn vector => decide (fn < 64) && decide (vector < 2048)
  | .completionReceived fn tag _ => decide (fn < 64) && decide (tag < 1024)
  | .completionTimeout fn tag => decide (fn < 64) && decide (tag < 1024)
  | .quarantineWindowClose fn tag => decide (fn < 64) && decide (tag < 1024)
  | .hostBufferDoubleBitError fn queue tag => decide (fn < 64) && decide (queue < 65536) && decide (tag < 65536)
  | .registerWrite fn space value => decide (fn < 64) && space.wf && decide (value < 2 ^ 64)
  | .engineTake fn engine => decide (fn < 64) && decide (engine < 16)
  | .engineRelease fn engine => decide (fn < 64) && decide (engine < 16)
  | .sqTailDoorbell fn queue value => decide (fn < 64) && decide (queue < 65536) && decide (value < 2 ^ 32)
  | .cqHeadDoorbell fn queue value => decide (fn < 64) && decide (queue < 65536) && decide (value < 2 ^ 32)
  | .sqFetch fn queue _ => decide (fn < 64) && decide (queue < 65536)
  | .createCq fn tag => decide (fn < 64) && decide (tag < 65536)
  | .createSq fn tag => decide (fn < 64) && decide (tag < 65536)
  | .deleteSq fn tag => decide (fn < 64) && decide (tag < 65536)
  | .deleteCq fn tag => decide (fn < 64) && decide (tag < 65536)
  | .restartQueue fn tag => decide (fn < 64) && decide (tag < 65536)
  | .getErrorLog fn tag buf => decide (fn < 64) && decide (tag < 65536) && buf.wf
  | .abort fn tag => decide (fn < 64) && decide (tag < 65536)
  | .setModeration fn tag => decide (fn < 64) && decide (tag < 65536)
  | .getQueueStatus fn tag => decide (fn < 64) && decide (tag < 65536)
  | .adminEnable fn => decide (fn < 64)
  | .adminDisable fn => decide (fn < 64)
  | .adminRestart fn => decide (fn < 64)
  | .aggTimeExpiry fn queue => decide (fn < 64) && decide (queue < 65536)
  | .createInstance tag record => decide (tag < 65536) && record.wf
  | .modifyInstance tag record => decide (tag < 65536) && record.wf
  | .quiesceInstance tag => decide (tag < 65536)
  | .quiesceComplete inst => decide (inst < 64)
  | .quiesceTimeout inst => decide (inst < 64)
  | .resumeInstance tag => decide (tag < 65536)
  | .resetInstance tag => decide (tag < 65536)
  | .destroyInstance tag => decide (tag < 65536)
  | .rearmInstance tag => decide (tag < 65536)
  | .getInstance tag buf => decide (tag < 65536) && buf.wf
  | .nsCreate fn tag => decide (fn < 64) && decide (tag < 65536)
  | .nsDelete fn tag => decide (fn < 64) && decide (tag < 65536)
  | .nsIdentify fn tag buf => decide (fn < 64) && decide (tag < 65536) && buf.wf
  | .nsErase fn tag => decide (fn < 64) && decide (tag < 65536)
  | .evidenceRelease fn tag => decide (fn < 64) && decide (tag < 65536)
  | .ssdPrepare fn tag => decide (fn < 64) && decide (tag < 65536)
  | .ssdDetach fn tag => decide (fn < 64) && decide (tag < 65536)
  | .ssdAttach fn tag => decide (fn < 64) && decide (tag < 65536)
  | .read fn queue tag buf => decide (fn < 64) && decide (queue < 65536) && decide (tag < 65536) && buf.wf
  | .write fn queue tag data => decide (fn < 64) && decide (queue < 65536) && decide (tag < 65536) && data.wf
  | .flush fn queue tag => decide (fn < 64) && decide (queue < 65536) && decide (tag < 65536)
  | .deallocate fn queue tag => decide (fn < 64) && decide (queue < 65536) && decide (tag < 65536)
  | .writeZeroes fn queue tag => decide (fn < 64) && decide (queue < 65536) && decide (tag < 65536)
  | .verify fn queue tag => decide (fn < 64) && decide (queue < 65536) && decide (tag < 65536)
  | .evidenceAppend fn queue tag data => decide (fn < 64) && decide (queue < 65536) && decide (tag < 65536) && data.wf
  | .rootPortLinkUp port => decide (port < 2)
  | .rootPortLinkDown port => decide (port < 2)
  | .controllerReady port identity => decide (port < 2) && identity.wf
  | .controllerReadyTimeout port => decide (port < 2)
  | .backendCompletion port _ _ => decide (port < 2)
  | .backendTimeout port _ => decide (port < 2)
  | .ssdAsyncEvent port warning => decide (port < 2) && decide (warning < 256)
  | .catalogueCheckpoint ns => decide (1 ≤ ns) && decide (ns ≤ 128)
  | .kilnStreamCreate tag record => decide (tag < 65536) && record.wf
  | .kilnStreamOpen tag => decide (tag < 65536)
  | .kilnStreamClose tag => decide (tag < 65536)
  | .kilnStreamKeys tag list => decide (tag < 65536) && list.wf
  | .kilnStreamDelete tag => decide (tag < 65536)
  | .kilnStreamGet tag buf => decide (tag < 65536) && buf.wf
  | .kilnStreamIndex tag => decide (tag < 65536)
  | .kilnAdmission stream => decide (stream < 64)
  | .segmentAgeExpiry stream => decide (stream < 64)
  | .runAgeExpiry stream => decide (stream < 64)
  | .leaseWritten stream _ => decide (stream < 64)
  | .gcmEncrypt fn queue tag => decide (fn < 64) && decide (queue < 65536) && decide (tag < 65536)
  | .gcmDecrypt fn queue tag => decide (fn < 64) && decide (queue < 65536) && decide (tag < 65536)
  | .ccmEncrypt fn queue tag => decide (fn < 64) && decide (queue < 65536) && decide (tag < 65536)
  | .ccmDecrypt fn queue tag => decide (fn < 64) && decide (queue < 65536) && decide (tag < 65536)
  | .ctr fn queue tag => decide (fn < 64) && decide (queue < 65536) && decide (tag < 65536)
  | .cbcEncrypt fn queue tag => decide (fn < 64) && decide (queue < 65536) && decide (tag < 65536)
  | .cbcDecrypt fn queue tag => decide (fn < 64) && decide (queue < 65536) && decide (tag < 65536)
  | .xtsEncrypt fn queue tag => decide (fn < 64) && decide (queue < 65536) && decide (tag < 65536)
  | .xtsDecrypt fn queue tag => decide (fn < 64) && decide (queue < 65536) && decide (tag < 65536)
  | .chacha20Poly1305Encrypt fn queue tag => decide (fn < 64) && decide (queue < 65536) && decide (tag < 65536)
  | .chacha20Poly1305Decrypt fn queue tag => decide (fn < 64) && decide (queue < 65536) && decide (tag < 65536)
  | .cmacGenerate fn queue tag => decide (fn < 64) && decide (queue < 65536) && decide (tag < 65536)
  | .cmacVerify fn queue tag => decide (fn < 64) && decide (queue < 65536) && decide (tag < 65536)
  | .sha256 fn queue tag => decide (fn < 64) && decide (queue < 65536) && decide (tag < 65536)
  | .sha384 fn queue tag => decide (fn < 64) && decide (queue < 65536) && decide (tag < 65536)
  | .hmacGenerate fn queue tag => decide (fn < 64) && decide (queue < 65536) && decide (tag < 65536)
  | .hmacVerify fn queue tag => decide (fn < 64) && decide (queue < 65536) && decide (tag < 65536)
  | .cipherJobStart fn queue tag => decide (fn < 64) && decide (queue < 65536) && decide (tag < 65536)
  | .cipherJobDone engine => decide (engine < 16)
  | .keyGenerate fn queue tag => decide (fn < 64) && decide (queue < 65536) && decide (tag < 65536)
  | .keyImport fn queue tag blob => decide (fn < 64) && decide (queue < 65536) && decide (tag < 65536) && blob.wf
  | .keyExport fn queue tag buf => decide (fn < 64) && decide (queue < 65536) && decide (tag < 65536) && buf.wf
  | .keyClear fn queue tag => decide (fn < 64) && decide (queue < 65536) && decide (tag < 65536)
  | .keyInfo fn queue tag buf => decide (fn < 64) && decide (queue < 65536) && decide (tag < 65536) && buf.wf
  | .keySetLimit fn queue tag => decide (fn < 64) && decide (queue < 65536) && decide (tag < 65536)
  | .vaultWriteDone _ => true
  | .keyStoreDoubleBitError slot => decide (slot < 4096)
  | .checkCompute fn queue tag => decide (fn < 64) && decide (queue < 65536) && decide (tag < 65536)
  | .checkBlocks fn queue tag => decide (fn < 64) && decide (queue < 65536) && decide (tag < 65536)
  | .checkVerifyBlocks fn queue tag => decide (fn < 64) && decide (queue < 65536) && decide (tag < 65536)
  | .checkSliceDone unit payload array => decide (unit < 8) && payload.wf && array.wf
  | .frameReceived port _ _ _ => decide (port < 20)
  | .ageingSweep bucket => decide (bucket < 65537)
  | .tblInsert fn queue tag entry => decide (fn < 64) && decide (queue < 65536) && decide (tag < 65536) && entry.wf
  | .tblDelete fn queue tag key => decide (fn < 64) && decide (queue < 65536) && decide (tag < 65536) && key.wf
  | .tblLookup fn queue tag key => decide (fn < 64) && decide (queue < 65536) && decide (tag < 65536) && key.wf
  | .tblLock fn queue tag key => decide (fn < 64) && decide (queue < 65536) && decide (tag < 65536) && key.wf
  | .tblStage fn queue tag entry => decide (fn < 64) && decide (queue < 65536) && decide (tag < 65536) && entry.wf
  | .tblUnlock fn queue tag => decide (fn < 64) && decide (queue < 65536) && decide (tag < 65536)
  | .tblRead fn queue tag buf => decide (fn < 64) && decide (queue < 65536) && decide (tag < 65536) && buf.wf
  | .lockHoldExpiry handle => decide (handle < 256)
  | .tableDoubleBitError bucket => decide (bucket < 65537)
  | .vpSend fn queue tag frame => decide (fn < 64) && decide (queue < 65536) && decide (tag < 65536) && frame.wf
  | .vpRxBind fn queue tag area => decide (fn < 64) && decide (queue < 65536) && decide (tag < 65536) && area.wf
  | .vpRxReturn fn queue tag => decide (fn < 64) && decide (queue < 65536) && decide (tag < 65536)
  | .portLinkUp port _ => decide (port < 20)
  | .portLinkDown port => decide (port < 20)
  | .keepaliveTimer port => decide (port < 20)
  | .hello port src _ _ side _ _ _ _ _ => decide (port < 20) && src.wf && decide (side < 2)
  | .topology port src _ _ _ _ => decide (port < 20) && src.wf
  | .fault port src side => decide (port < 20) && src.wf && decide (side < 2)
  | .restore port src side => decide (port < 20) && src.wf && decide (side < 2)
  | .leave port src => decide (port < 20) && src.wf
  | .ringPortFail port => decide (port < 20)
  | .ringPortSilence port => decide (port < 20)
  | .steerHoldExpiry ring => decide (ring < 2)
  | .restoreHoldExpiry port => decide (port < 20)
  | .ptpMessage port _ => decide (port < 20)
  | .timeSet who value => who.wf && decide (value < 2 ^ 64)
  | .frameTransmitDone port => decide (port < 20)
  | .gateIntervalEnd port => decide (port < 20)
  | .gateListChange port => decide (port < 20)
  | .threadInstruction thread => decide (thread < 256)
  | .trWait thread rd rs1 => decide (thread < 256) && decide (rd < 32) && decide (rs1 < 32)
  | .trRxf thread rd rs1 rs2 => decide (thread < 256) && decide (rd < 32) && decide (rs1 < 32) && decide (rs2 < 32)
  | .trTxf thread rd rs1 => decide (thread < 256) && decide (rd < 32) && decide (rs1 < 32)
  | .trDma thread rd rs1 => decide (thread < 256) && decide (rd < 32) && decide (rs1 < 32)
  | .trClaim thread rd rs1 => decide (thread < 256) && decide (rd < 32) && decide (rs1 < 32)
  | .trPut thread rd rs1 rs2 => decide (thread < 256) && decide (rd < 32) && decide (rs1 < 32) && decide (rs2 < 32)
  | .trCommit thread rd rs1 => decide (thread < 256) && decide (rd < 32) && decide (rs1 < 32)
  | .trRecv thread rd rs1 => decide (thread < 256) && decide (rd < 32) && decide (rs1 < 32)
  | .trDrop thread rd rs1 => decide (thread < 256) && decide (rd < 32) && decide (rs1 < 32)
  | .ttimerWrite thread value => decide (thread < 256) && decide (value < 2 ^ 32)
  | .tpetWrite thread => decide (thread < 256)
  | .ttimerExpiry thread => decide (thread < 256)
  | .threadWatchdogExpiry thread => decide (thread < 256)
  | .receiveCopyDone thread => decide (thread < 256)
  | .dmaDone thread tag => decide (thread < 256) && decide (tag < 4)
  | .txfDone thread => decide (thread < 256)
  | .groupStart who group => who.wf && decide (group < 256)
  | .groupStop who group => who.wf && decide (group < 256)
  | .groupRestart who group => who.wf && decide (group < 256)
  | .groupDelete who group => who.wf && decide (group < 256)
  | .groupStopComplete group => decide (group < 256)
  | .restartGroup who inst group => who.wf && decide (inst < 64) && decide (group < 256)
  | .stallDetected group => decide (group < 256)
  | .threadFaultHandling thread => decide (thread < 256)
  | .sliceDoubleBitError thread => decide (thread < 256)
  | .coreFault core => decide (core < 32)
  | .coreReloadDone core _ => decide (core < 32)
  | .deliveryThreadWrite who core thread => who.wf && decide (core < 32) && decide (thread < 256)
  | .debugHalt thread => decide (thread < 256)
  | .debugResume thread => decide (thread < 256)
  | .claimRelease thread => decide (thread < 256)
  | .egClaim target => decide (target < 33)
  | .egEoi target source => decide (target < 33) && decide (source < 640)
  | .egTctrlClear target => decide (target < 33)
  | .clearTarget who target => who.wf && decide (target < 33)
  | .egPset k _ => decide (k < 20)
  | .egPclr k _ _ => decide (k < 20)
  | .egSrcWrite source _ => decide (source < 640)
  | .sourceMap who _ => who.wf
  | .admissionTokenGain cls => decide (cls < 16)
  | .logClear who => who.wf
  | .firstOfKindClear who => who.wf
  | .exportPull who => who.wf
  | .alarmAck who alarm => who.wf && decide (alarm < 128)
  | .ackAll who => who.wf
  | .alarmDefine who alarm sub value => who.wf && decide (alarm < 128) && decide (sub < 256) && decide (value < 2 ^ 32)
  | .alarmInhibitExpiry alarm => decide (alarm < 128)
  | .peatOff who => who.wf
  | .peatRing who => who.wf
  | .peatOneShot who => who.wf
  | .peatCheckpoint _ => true
  | .trigger who => who.wf
  | .peatWindowWrite who _ => who.wf
  | .replayArm who => who.wf
  | .dmiAccess op => op.wf
  | .emberStartComplete _ _ => true
  | .syncIntervalExpiry port => decide (port < 20)
  | .ppsOutEdge _ => true
  | .hostLinkError _ => true
  | .correctedInternalError fn => decide (fn < 64)
  | .heartbeat => true
  | .emberWatchdogExpiry => true
  | .mainPgRise => true
  | .mainPgTimeout => true
  | .mainEnRetryExpiry => true
  | .mainPgLoss => true
  | .perstNAssert => true
  | .perstNRelease => true
  | .hostLinkDown => true
  | .hotReset => true
  | .hearthWatchdogExpiry => true
  | .drainComplete => true
  | .drainTimeout => true
  | .ssdShutdownTimeout => true
  | .emberWakeHoldExpiry => true
  | .ignRise => true
  | .ignFall => true
  | .wakeAlarm => true
  | .tinderStretchLimit => true
  | .bankedMaxExpiry => true
  | .vsenseEmberHoldExpiry => true
  | .ignOffTimerExpiry => true
  | .ignOffRetryExpiry => true
  | .thermalTrip => true
  | .thermalTripShutdown => true
  | .descentHoldExpiry => true
  | .ignOffAllowanceReached => true
  | .pf0FunctionLevelReset => true
  | .vfEnableSet => true
  | .vfEnableClear => true
  | .powerStateD3hot => true
  | .powerStateD0 => true
  | .linkLossHoldExpiry => true
  | .l0sEntry => true
  | .l1IdleExpiry => true
  | .ltrIdleExpiry => true
  | .flushGatherExpiry => true
  | .pfail => true
  | .pfSequenceBoundExpiry => true
  | .pfailReleaseExpiry => true
  | .vaultRestore => true
  | .learnInsert => true
  | .helloTimer => true
  | .topologyTimer => true
  | .leaveWaitExpiry => true
  | .syncTimeout => true
  | .ppsInEdge => true
  | .ppsInTimeout => true
  | .shaperRefresh => true
  | .admissionSummary => true
  | .udpPush => true
  | .canExport => true
  | .peatFreeze => true
  | .debugSessionAttach => true
  | .debugSessionDetach => true
  | .resetReq => true
  | .peatTrigger => true
  | .egressDrainExpiry => true
  | .mainPgFall => true
  | .pfailRelease => true
  | .slowclk1024Cycles => true

end Sys2Proof
end

