-- ==== Sys2Proof/Tests/Slice0.lean ====
section
/-! SUPPORT. The model's own tests: ill-formed terms that WellFormed refuses, and for each statement with hypotheses concrete states and
operands that meet them (test_meets_<the statement>, with the part of it that is meant where it has several). The expected values are
those of the spec's tables. -/

namespace Sys2Proof.Tests
open Sys2Proof.Machine

set_option Elab.async false

/-- Reset leaves no command waiting. -/
theorem test_reset_pending : State.reset.pending = [] := by decide

/-- What a tick reads, every part as long as it must be. -/
def goodTick : TickInput := ⟨List.replicate 14 0, [0, 0], [0, 0], [0, 0], [], [], 0, 0, 0, 0, 0, List.replicate 8 0, 0⟩

/-- A requester, the source of a Zelud message, a tick and a catalogue are refused for each of their own parts alone, and taken without the fault. -/
theorem test_wf_refuses_parts :
    (([.mailbox 64, .can 2, .onsia (2 ^ 32) 0 0, .onsia 0 65536 0, .onsia 0 0 65536] : List Requester).all fun w => !w.wf) = true
    ∧ (([⟨1024, 0, 0, 0⟩, ⟨0, 65536, 0, 0⟩, ⟨0, 0, 256, 0⟩, ⟨0, 0, 0, 256⟩] : List ZeludSource).all fun z => !z.wf) = true
    ∧ (([{ goodTick with domainUj := [] }, { goodTick with serdesUj := [0] }, { goodTick with kilnBytes := [] }, { goodTick with portBytes := [] },
      { goodTick with sensors := [] }, { goodTick with activity := [{ (default : TickActivity) with inst := 64 }] }] : List TickInput).all fun t => !t.wf) = true
    ∧ (([[0], [129], [5, 5]] : List (List Nat)).all fun l =>
      !({ (default : SsdIdentity) with catalogue := .valid false (l.map fun n => { (default : CatalogueEntry) with number := n }) } : SsdIdentity).wf) = true := by
  decide
theorem test_wf_takes_parts :
    (([.mailbox 63, .can 1, .onsia (2 ^ 32 - 1) 65535 65535] : List Requester).all Requester.wf) = true ∧ (⟨1023, 65535, 255, 255⟩ : ZeludSource).wf = true
    ∧ goodTick.wf = true ∧ ({ (default : SsdIdentity) with
      catalogue := .valid false ([1, 128, 5].map fun n => { (default : CatalogueEntry) with number := n }) } : SsdIdentity).wf = true := by
  decide

/-- WellFormed refuses each operand out of its range in the commands of Ash, and takes each command without one. -/
theorem test_wf_refuses_ash : ([
    .admissionTokenGain 16, .alarmInhibitExpiry 128
  ] : List Instr).all (fun c => !c.wf) = true := by decide
theorem test_wf_takes_ash : ([
    .admissionTokenGain 0, .alarmInhibitExpiry 0
  ] : List Instr).all Instr.wf = true := by decide

/-- WellFormed refuses each operand out of its range in the commands of Boot, and takes each command without one. -/
theorem test_wf_refuses_boot : ([
    .bootWindowAccess (.read 0x1000000 1), .bootWindowAccess (.write 0x1000000 [0]), .pllLockTimeout 7
  ] : List Instr).all (fun c => !c.wf) = true := by decide
theorem test_wf_takes_boot : ([
    .bootWindowAccess default, .pllLockTimeout 0
  ] : List Instr).all Instr.wf = true := by decide

/-- WellFormed refuses each operand out of its range in the commands of Cipher, and takes each command without one. -/
theorem test_wf_refuses_cipher_1 : ([
    .engineTake 64 0, .engineTake 0 16, .engineRelease 64 0, .engineRelease 0 16, .gcmEncrypt 64 0 0, .gcmEncrypt 0 65536 0,
    .gcmEncrypt 0 0 65536, .gcmDecrypt 64 0 0, .gcmDecrypt 0 65536 0, .gcmDecrypt 0 0 65536, .ccmEncrypt 64 0 0, .ccmEncrypt 0 65536
    0, .ccmEncrypt 0 0 65536, .ccmDecrypt 64 0 0, .ccmDecrypt 0 65536 0, .ccmDecrypt 0 0 65536, .ctr 64 0 0, .ctr 0 65536 0, .ctr 0 0
    65536, .cbcEncrypt 64 0 0, .cbcEncrypt 0 65536 0, .cbcEncrypt 0 0 65536, .cbcDecrypt 64 0 0, .cbcDecrypt 0 65536 0, .cbcDecrypt 0
    0 65536, .xtsEncrypt 64 0 0, .xtsEncrypt 0 65536 0, .xtsEncrypt 0 0 65536, .xtsDecrypt 64 0 0, .xtsDecrypt 0 65536 0, .xtsDecrypt
    0 0 65536, .chacha20Poly1305Encrypt 64 0 0, .chacha20Poly1305Encrypt 0 65536 0, .chacha20Poly1305Encrypt 0 0 65536,
    .chacha20Poly1305Decrypt 64 0 0, .chacha20Poly1305Decrypt 0 65536 0, .chacha20Poly1305Decrypt 0 0 65536, .cmacGenerate 64 0 0,
    .cmacGenerate 0 65536 0, .cmacGenerate 0 0 65536, .cmacVerify 64 0 0, .cmacVerify 0 65536 0, .cmacVerify 0 0 65536, .sha256 64 0
    0, .sha256 0 65536 0, .sha256 0 0 65536, .sha384 64 0 0, .sha384 0 65536 0, .sha384 0 0 65536, .hmacGenerate 64 0 0, .hmacGenerate
    0 65536 0, .hmacGenerate 0 0 65536, .hmacVerify 64 0 0, .hmacVerify 0 65536 0, .hmacVerify 0 0 65536, .cipherJobStart 64 0 0,
    .cipherJobStart 0 65536 0, .cipherJobStart 0 0 65536, .cipherJobDone 16, .keyGenerate 64 0 0
  ] : List Instr).all (fun c => !c.wf) = true := by decide
/-- The same, further operands of Cipher. -/
theorem test_wf_refuses_cipher_2 : ([
    .keyGenerate 0 65536 0, .keyGenerate 0 0 65536, .keyImport 64 0 0 default, .keyImport 0 65536 0 default, .keyImport 0 0 65536
    default, .keyImport 0 0 0 (.bytes [[0]] []), .keyExport 64 0 0 default, .keyExport 0 65536 0 default, .keyExport 0 0 65536
    default, .keyExport 0 0 0 (.bytes [[0]] []), .keyClear 64 0 0, .keyClear 0 65536 0, .keyClear 0 0 65536, .keyInfo 64 0 0 default,
    .keyInfo 0 65536 0 default, .keyInfo 0 0 65536 default, .keyInfo 0 0 0 (.bytes [[0]] []), .keySetLimit 64 0 0, .keySetLimit 0
    65536 0, .keySetLimit 0 0 65536, .keyStoreDoubleBitError 4096, .checkCompute 64 0 0, .checkCompute 0 65536 0, .checkCompute 0 0
    65536, .checkBlocks 64 0 0, .checkBlocks 0 65536 0, .checkBlocks 0 0 65536, .checkVerifyBlocks 64 0 0, .checkVerifyBlocks 0 65536
    0, .checkVerifyBlocks 0 0 65536, .checkSliceDone 8 default default, .checkSliceDone 0 (.bytes [[0]] []) default, .checkSliceDone 0
    default (.bytes [[0]] [])
  ] : List Instr).all (fun c => !c.wf) = true := by decide
theorem test_wf_takes_cipher : ([
    .engineTake 0 0, .engineRelease 0 0, .gcmEncrypt 0 0 0, .gcmDecrypt 0 0 0, .ccmEncrypt 0 0 0, .ccmDecrypt 0 0 0, .ctr 0 0 0,
    .cbcEncrypt 0 0 0, .cbcDecrypt 0 0 0, .xtsEncrypt 0 0 0, .xtsDecrypt 0 0 0, .chacha20Poly1305Encrypt 0 0 0,
    .chacha20Poly1305Decrypt 0 0 0, .cmacGenerate 0 0 0, .cmacVerify 0 0 0, .sha256 0 0 0, .sha384 0 0 0, .hmacGenerate 0 0 0,
    .hmacVerify 0 0 0, .cipherJobStart 0 0 0, .cipherJobDone 0, .keyGenerate 0 0 0, .keyImport 0 0 0 default, .keyExport 0 0 0
    default, .keyClear 0 0 0, .keyInfo 0 0 0 default, .keySetLimit 0 0 0, .keyStoreDoubleBitError 0, .checkCompute 0 0 0, .checkBlocks
    0 0 0, .checkVerifyBlocks 0 0 0, .checkSliceDone 0 default default
  ] : List Instr).all Instr.wf = true := by decide

/-- WellFormed refuses each operand out of its range in the commands of Damper, and takes each command without one. -/
theorem test_wf_refuses_damper : ([
    .damperTick default, .capReleaseHoldExpiry 64, .shedPortSearch 20 false, .meterSampleTimeout 14
  ] : List Instr).all (fun c => !c.wf) = true := by decide
theorem test_wf_takes_damper : ([
    .damperTick goodTick, .capReleaseHoldExpiry 0, .shedPortSearch 0 false, .meterSampleTimeout 0
  ] : List Instr).all Instr.wf = true := by decide

/-- WellFormed refuses each operand out of its range in the commands of Debug, and takes each command without one. -/
theorem test_wf_refuses_debug : ([
    .dmiAccess (.read 128), .dmiAccess (.write 128 0), .dmiAccess (.dtmcs (2 ^ 32)), .dmiAccess (.write 0 (2 ^ 32))
  ] : List Instr).all (fun c => !c.wf) = true := by decide
theorem test_wf_takes_debug : ([
    .dmiAccess default
  ] : List Instr).all Instr.wf = true := by decide

/-- WellFormed refuses each operand out of its range in the commands of Dictionary, and takes each command without one. -/
theorem test_wf_refuses_dictionary_1 : ([
    .dictRead (.can 2) 0 0, .dictRead default 65536 0, .dictRead default 0 256, .dictWrite (.can 2) 0 0 [], .dictWrite default 65536 0
    [], .dictWrite default 0 256 [], .dictInfo (.can 2) 0 0, .dictInfo default 65536 0, .dictInfo default 0 256, .dictNext (.can 2) 0
    0, .dictNext default 65536 0, .dictNext default 0 256, .dictReadShadow (.can 2) 0 0, .dictReadShadow default 65536 0,
    .dictReadShadow default 0 256, .onsiaDatagram (2 ^ 32) 0 0 0 [], .onsiaDatagram 0 65536 0 0 [], .onsiaDatagram 0 0 (2 ^ 32) 0 [],
    .onsiaDatagram 0 0 0 4096 [], .onsiaSessionTimeout (2 ^ 32) 0 0, .onsiaSessionTimeout 0 65536 0, .onsiaSessionTimeout 0 0 65536,
    .usdoInitiateUpload 2 0 0, .usdoInitiateUpload 0 65536 0, .usdoInitiateUpload 0 0 256, .usdoInitiateDownload 2 0 0 0 [],
    .usdoInitiateDownload 0 65536 0 0 [], .usdoInitiateDownload 0 0 256 0 [], .usdoSegment 2 default, .usdoTransferTimeout 2,
    .groupCommit (.can 2) 1, .groupCommit default 0, .groupCommit default 48, .groupCommit default 0x140, .groupDiscard (.can 2) 1,
    .groupDiscard default 0, .groupDiscard default 48, .groupDiscard default 0x140, .groupApply 0, .groupApply 48, .groupApply 0x140,
    .shadowTimeout 0, .shadowTimeout 48, .shadowTimeout 0x140, .writeMaskWrite (.can 2) 0 0, .writeMaskWrite default 64 0,
    .writeMaskWrite default 0 (2 ^ 64), .emberRestart (.can 2), .requestBlaze (.can 2), .requestGlow (.can 2), .requestBanked (.can
    2), .requestEmber (.can 2), .managerVote (.can 2) 0 0, .managerVote default 14 0, .managerVote default 0 (2 ^ 32), .forceStep
    (.can 2) 0, .forceStep default (2 ^ 32), .snapshot (.can 2) 0, .snapshot default (2 ^ 32), .timeSet (.can 2) 0
  ] : List Instr).all (fun c => !c.wf) = true := by decide
/-- The same, further operands of Dictionary. -/
theorem test_wf_refuses_dictionary_2 : ([
    .timeSet default (2 ^ 64), .groupStart (.can 2) 0, .groupStart default 256, .groupStop (.can 2) 0, .groupStop default 256,
    .groupRestart (.can 2) 0, .groupRestart default 256, .groupDelete (.can 2) 0, .groupDelete default 256, .restartGroup (.can 2) 0
    0, .restartGroup default 64 0, .restartGroup default 0 256, .deliveryThreadWrite (.can 2) 0 0, .deliveryThreadWrite default 32 0,
    .deliveryThreadWrite default 0 256, .clearTarget (.can 2) 0, .clearTarget default 33, .sourceMap (.can 2) [], .logClear (.can 2),
    .firstOfKindClear (.can 2), .exportPull (.can 2), .alarmAck (.can 2) 0, .alarmAck default 128, .ackAll (.can 2), .alarmDefine
    (.can 2) 0 0 0, .alarmDefine default 128 0 0, .alarmDefine default 0 256 0, .alarmDefine default 0 0 (2 ^ 32), .peatOff (.can 2),
    .peatRing (.can 2), .peatOneShot (.can 2), .trigger (.can 2), .peatWindowWrite (.can 2) [], .replayArm (.can 2)
  ] : List Instr).all (fun c => !c.wf) = true := by decide
theorem test_wf_takes_dictionary : ([
    .dictRead default 0 0, .dictWrite default 0 0 [], .dictInfo default 0 0, .dictNext default 0 0, .dictReadShadow default 0 0,
    .onsiaDatagram 0 0 0 0 [], .onsiaSessionTimeout 0 0 0, .usdoInitiateUpload 0 0 0, .usdoInitiateDownload 0 0 0 0 [], .usdoSegment 0
    default, .usdoTransferTimeout 0, .groupCommit default 1, .groupDiscard default 1, .groupApply 1, .shadowTimeout 1, .writeMaskWrite
    default 0 0, .emberRestart default, .requestBlaze default, .requestGlow default, .requestBanked default, .requestEmber default,
    .managerVote default 0 0, .forceStep default 0, .snapshot default 0, .timeSet default 0, .groupStart default 0, .groupStop default
    0, .groupRestart default 0, .groupDelete default 0, .restartGroup default 0 0, .deliveryThreadWrite default 0 0, .clearTarget
    default 0, .sourceMap default [], .logClear default, .firstOfKindClear default, .exportPull default, .alarmAck default 0, .ackAll
    default, .alarmDefine default 0 0 0, .peatOff default, .peatRing default, .peatOneShot default, .trigger default, .peatWindowWrite
    default [], .replayArm default
  ] : List Instr).all Instr.wf = true := by decide

/-- WellFormed refuses each operand out of its range in the commands of Flow, and takes each command without one. -/
theorem test_wf_refuses_flow : ([
    .threadInstruction 256, .trWait 256 0 0, .trWait 0 32 0, .trWait 0 0 32, .trRxf 256 0 0 0, .trRxf 0 32 0 0, .trRxf 0 0 32 0,
    .trRxf 0 0 0 32, .trTxf 256 0 0, .trTxf 0 32 0, .trTxf 0 0 32, .trDma 256 0 0, .trDma 0 32 0, .trDma 0 0 32, .trClaim 256 0 0,
    .trClaim 0 32 0, .trClaim 0 0 32, .trPut 256 0 0 0, .trPut 0 32 0 0, .trPut 0 0 32 0, .trPut 0 0 0 32, .trCommit 256 0 0,
    .trCommit 0 32 0, .trCommit 0 0 32, .trRecv 256 0 0, .trRecv 0 32 0, .trRecv 0 0 32, .trDrop 256 0 0, .trDrop 0 32 0, .trDrop 0 0
    32, .ttimerWrite 256 0, .ttimerWrite 0 (2 ^ 32), .tpetWrite 256, .ttimerExpiry 256, .threadWatchdogExpiry 256, .receiveCopyDone
    256, .dmaDone 256 0, .dmaDone 0 4, .txfDone 256, .groupStopComplete 256, .stallDetected 256, .threadFaultHandling 256,
    .sliceDoubleBitError 256, .coreFault 32, .coreReloadDone 32 false, .debugHalt 256, .debugResume 256, .claimRelease 256
  ] : List Instr).all (fun c => !c.wf) = true := by decide
theorem test_wf_takes_flow : ([
    .threadInstruction 0, .trWait 0 0 0, .trRxf 0 0 0 0, .trTxf 0 0 0, .trDma 0 0 0, .trClaim 0 0 0, .trPut 0 0 0 0, .trCommit 0 0 0,
    .trRecv 0 0 0, .trDrop 0 0 0, .ttimerWrite 0 0, .tpetWrite 0, .ttimerExpiry 0, .threadWatchdogExpiry 0, .receiveCopyDone 0,
    .dmaDone 0 0, .txfDone 0, .groupStopComplete 0, .stallDetected 0, .threadFaultHandling 0, .sliceDoubleBitError 0, .coreFault 0,
    .coreReloadDone 0 false, .debugHalt 0, .debugResume 0, .claimRelease 0
  ] : List Instr).all Instr.wf = true := by decide

/-- WellFormed refuses each operand out of its range in the commands of Gatherer, and takes each command without one. -/
theorem test_wf_refuses_gatherer : ([
    .egClaim 33, .egEoi 33 0, .egEoi 0 640, .egTctrlClear 33, .egPset 20 default, .egPclr 20 default default, .egSrcWrite 640 default
  ] : List Instr).all (fun c => !c.wf) = true := by decide
theorem test_wf_takes_gatherer : ([
    .egClaim 0, .egEoi 0 0, .egTctrlClear 0, .egPset 0 default, .egPclr 0 default default, .egSrcWrite 0 default
  ] : List Instr).all Instr.wf = true := by decide

/-- WellFormed refuses each operand out of its range in the commands of Host, and takes each command without one. -/
theorem test_wf_refuses_host : ([
    .hostLinkUp 1 0, .hostLinkUp 4 6, .busMasterEnableClear 64, .busMasterEnableSet 64, .functionLevelReset 64, .flrQuiesceComplete
    64, .interruptModeEnable 64 false, .vectorUnmask 64 0, .vectorUnmask 0 2048, .completionReceived 64 0 default, .completionReceived
    0 1024 default, .completionTimeout 64 0, .completionTimeout 0 1024, .quarantineWindowClose 64 0, .quarantineWindowClose 0 1024,
    .hostBufferDoubleBitError 64 0 0, .hostBufferDoubleBitError 0 65536 0, .hostBufferDoubleBitError 0 0 65536,
    .correctedInternalError 64
  ] : List Instr).all (fun c => !c.wf) = true := by decide
theorem test_wf_takes_host : ([
    .hostLinkUp 4 0, .busMasterEnableClear 0, .busMasterEnableSet 0, .functionLevelReset 0, .flrQuiesceComplete 0,
    .interruptModeEnable 0 false, .vectorUnmask 0 0, .completionReceived 0 0 default, .completionTimeout 0 0, .quarantineWindowClose 0
    0, .hostBufferDoubleBitError 0 0 0, .correctedInternalError 0
  ] : List Instr).all Instr.wf = true := by decide

/-- WellFormed refuses each operand out of its range in the commands of Kiln, and takes each command without one. -/
theorem test_wf_refuses_kiln : ([
    .kilnStreamCreate 65536 default, .kilnStreamCreate 0 (.bytes [[0]] []), .kilnStreamOpen 65536, .kilnStreamClose 65536,
    .kilnStreamKeys 65536 default, .kilnStreamKeys 0 (.bytes [[0]] []), .kilnStreamDelete 65536, .kilnStreamGet 65536 default,
    .kilnStreamGet 0 (.bytes [[0]] []), .kilnStreamIndex 65536, .kilnAdmission 64, .segmentAgeExpiry 64, .runAgeExpiry 64,
    .leaseWritten 64 false
  ] : List Instr).all (fun c => !c.wf) = true := by decide
theorem test_wf_takes_kiln : ([
    .kilnStreamCreate 0 default, .kilnStreamOpen 0, .kilnStreamClose 0, .kilnStreamKeys 0 default, .kilnStreamDelete 0, .kilnStreamGet
    0 default, .kilnStreamIndex 0, .kilnAdmission 0, .segmentAgeExpiry 0, .runAgeExpiry 0, .leaseWritten 0 false
  ] : List Instr).all Instr.wf = true := by decide

/-- WellFormed refuses each operand out of its range in the commands of Pipeline, and takes each command without one. -/
theorem test_wf_refuses_pipeline_1 : ([
    .frameReceived 20 [] false 0, .ageingSweep 65537, .tblInsert 64 0 0 default, .tblInsert 0 65536 0 default, .tblInsert 0 0 65536
    default, .tblInsert 0 0 0 (.bytes [[0]] []), .tblDelete 64 0 0 default, .tblDelete 0 65536 0 default, .tblDelete 0 0 65536
    default, .tblDelete 0 0 0 (.bytes [[0]] []), .tblLookup 64 0 0 default, .tblLookup 0 65536 0 default, .tblLookup 0 0 65536
    default, .tblLookup 0 0 0 (.bytes [[0]] []), .tblLock 64 0 0 default, .tblLock 0 65536 0 default, .tblLock 0 0 65536 default,
    .tblLock 0 0 0 (.bytes [[0]] []), .tblStage 64 0 0 default, .tblStage 0 65536 0 default, .tblStage 0 0 65536 default, .tblStage 0
    0 0 (.bytes [[0]] []), .tblUnlock 64 0 0, .tblUnlock 0 65536 0, .tblUnlock 0 0 65536, .tblRead 64 0 0 default, .tblRead 0 65536 0
    default, .tblRead 0 0 65536 default, .tblRead 0 0 0 (.bytes [[0]] []), .lockHoldExpiry 256, .tableDoubleBitError 65537, .vpSend 64
    0 0 default, .vpSend 0 65536 0 default, .vpSend 0 0 65536 default, .vpSend 0 0 0 (.bytes [[0]] []), .vpRxBind 64 0 0 default,
    .vpRxBind 0 65536 0 default, .vpRxBind 0 0 65536 default, .vpRxBind 0 0 0 (.bytes [[0]] []), .vpRxReturn 64 0 0, .vpRxReturn 0
    65536 0, .vpRxReturn 0 0 65536, .portLinkUp 20 0, .portLinkDown 20, .keepaliveTimer 20, .hello 20 default 0 0 0 0 0 0 0 0, .hello
    0 ⟨1024, 0, 0, 0⟩ 0 0 0 0 0 0 0 0, .hello 0 default 0 0 2 0 0 0 0 0, .topology 20 default 0 0 0 default, .topology 0 ⟨1024, 0, 0,
    0⟩ 0 0 0 default, .fault 20 default 0, .fault 0 ⟨1024, 0, 0, 0⟩ 0, .fault 0 default 2, .restore 20 default 0, .restore 0 ⟨1024, 0,
    0, 0⟩ 0, .restore 0 default 2, .leave 20 default, .leave 0 ⟨1024, 0, 0, 0⟩, .ringPortFail 20, .ringPortSilence 20
  ] : List Instr).all (fun c => !c.wf) = true := by decide
/-- The same, further operands of Pipeline. -/
theorem test_wf_refuses_pipeline_2 : ([
    .steerHoldExpiry 2, .restoreHoldExpiry 20, .ptpMessage 20 default, .syncIntervalExpiry 20
  ] : List Instr).all (fun c => !c.wf) = true := by decide
theorem test_wf_takes_pipeline : ([
    .frameReceived 0 [] false 0, .ageingSweep 0, .tblInsert 0 0 0 default, .tblDelete 0 0 0 default, .tblLookup 0 0 0 default,
    .tblLock 0 0 0 default, .tblStage 0 0 0 default, .tblUnlock 0 0 0, .tblRead 0 0 0 default, .lockHoldExpiry 0, .tableDoubleBitError
    0, .vpSend 0 0 0 default, .vpRxBind 0 0 0 default, .vpRxReturn 0 0 0, .portLinkUp 0 0, .portLinkDown 0, .keepaliveTimer 0, .hello
    0 default 0 0 0 0 0 0 0 0, .topology 0 default 0 0 0 default, .fault 0 default 0, .restore 0 default 0, .leave 0 default,
    .ringPortFail 0, .ringPortSilence 0, .steerHoldExpiry 0, .restoreHoldExpiry 0, .ptpMessage 0 default, .syncIntervalExpiry 0
  ] : List Instr).all Instr.wf = true := by decide

/-- WellFormed refuses each operand out of its range in the commands of Power, and takes each command without one. -/
theorem test_wf_refuses_power : ([
    .aoPowerOn 4 false, .ssdShutdownComplete 2, .wakeEdge 4, .tinderAddressMatch 128 false, .domainPowerUpStart 14, .domainPowerGood
    14 default, .domainPowerGoodTimeout 14, .hysteresisExpiry 14, .domainPowerDownDone 14
  ] : List Instr).all (fun c => !c.wf) = true := by decide
theorem test_wf_takes_power : ([
    .aoPowerOn 0 false, .ssdShutdownComplete 0, .wakeEdge 0, .tinderAddressMatch 0 false, .domainPowerUpStart 0, .domainPowerGood 0
    default, .domainPowerGoodTimeout 0, .hysteresisExpiry 0, .domainPowerDownDone 0
  ] : List Instr).all Instr.wf = true := by decide

/-- WellFormed refuses each operand out of its range in the commands of Queues, and takes each command without one. -/
theorem test_wf_refuses_queues : ([
    .sqTailDoorbell 64 0 0, .sqTailDoorbell 0 65536 0, .sqTailDoorbell 0 0 (2 ^ 32), .cqHeadDoorbell 64 0 0, .cqHeadDoorbell 0 65536
    0, .cqHeadDoorbell 0 0 (2 ^ 32), .sqFetch 64 0 default, .sqFetch 0 65536 default, .createCq 64 0, .createCq 0 65536, .createSq 64
    0, .createSq 0 65536, .deleteSq 64 0, .deleteSq 0 65536, .deleteCq 64 0, .deleteCq 0 65536, .restartQueue 64 0, .restartQueue 0
    65536, .getErrorLog 64 0 default, .getErrorLog 0 65536 default, .getErrorLog 0 0 (.bytes [[0]] []), .abort 64 0, .abort 0 65536,
    .setModeration 64 0, .setModeration 0 65536, .getQueueStatus 64 0, .getQueueStatus 0 65536, .adminEnable 64, .adminDisable 64,
    .adminRestart 64, .aggTimeExpiry 64 0, .aggTimeExpiry 0 65536
  ] : List Instr).all (fun c => !c.wf) = true := by decide
theorem test_wf_takes_queues : ([
    .sqTailDoorbell 0 0 0, .cqHeadDoorbell 0 0 0, .sqFetch 0 0 default, .createCq 0 0, .createSq 0 0, .deleteSq 0 0, .deleteCq 0 0,
    .restartQueue 0 0, .getErrorLog 0 0 default, .abort 0 0, .setModeration 0 0, .getQueueStatus 0 0, .adminEnable 0, .adminDisable 0,
    .adminRestart 0, .aggTimeExpiry 0 0
  ] : List Instr).all Instr.wf = true := by decide

/-- WellFormed refuses each operand out of its range in the commands of Registers, and takes each command without one. -/
theorem test_wf_refuses_registers : ([
    .registerWrite 64 default 0, .registerWrite 0 (.bar0 2) 0, .registerWrite 0 (.bar0 0x400000) 0, .registerWrite 0 default (2 ^ 64)
  ] : List Instr).all (fun c => !c.wf) = true := by decide
theorem test_wf_takes_registers : ([
    .registerWrite 0 default 0
  ] : List Instr).all Instr.wf = true := by decide

/-- WellFormed refuses each operand out of its range in the commands of Sched, and takes each command without one. -/
theorem test_wf_refuses_sched : ([
    .frameTransmitDone 20, .gateIntervalEnd 20, .gateListChange 20
  ] : List Instr).all (fun c => !c.wf) = true := by decide
theorem test_wf_takes_sched : ([
    .frameTransmitDone 0, .gateIntervalEnd 0, .gateListChange 0
  ] : List Instr).all Instr.wf = true := by decide

/-- WellFormed refuses each operand out of its range in the commands of Storage, and takes each command without one. -/
theorem test_wf_refuses_storage : ([
    .nsCreate 64 0, .nsCreate 0 65536, .nsDelete 64 0, .nsDelete 0 65536, .nsIdentify 64 0 default, .nsIdentify 0 65536 default,
    .nsIdentify 0 0 (.bytes [[0]] []), .nsErase 64 0, .nsErase 0 65536, .evidenceRelease 64 0, .evidenceRelease 0 65536, .ssdPrepare
    64 0, .ssdPrepare 0 65536, .ssdDetach 64 0, .ssdDetach 0 65536, .ssdAttach 64 0, .ssdAttach 0 65536, .read 64 0 0 default, .read 0
    65536 0 default, .read 0 0 65536 default, .read 0 0 0 (.bytes [[0]] []), .write 64 0 0 default, .write 0 65536 0 default, .write 0
    0 65536 default, .write 0 0 0 (.bytes [[0]] []), .flush 64 0 0, .flush 0 65536 0, .flush 0 0 65536, .deallocate 64 0 0,
    .deallocate 0 65536 0, .deallocate 0 0 65536, .writeZeroes 64 0 0, .writeZeroes 0 65536 0, .writeZeroes 0 0 65536, .verify 64 0 0,
    .verify 0 65536 0, .verify 0 0 65536, .evidenceAppend 64 0 0 default, .evidenceAppend 0 65536 0 default, .evidenceAppend 0 0 65536
    default, .evidenceAppend 0 0 0 (.bytes [[0]] []), .rootPortLinkUp 2, .rootPortLinkDown 2, .controllerReady 2 default,
    .controllerReady 0 { (default : SsdIdentity) with catalogue := .valid false [{ (default : CatalogueEntry) with number := 129 }] },
    .controllerReadyTimeout 2, .backendCompletion 2 0 default, .backendTimeout 2 0, .ssdAsyncEvent 2 0, .ssdAsyncEvent 0 256,
    .catalogueCheckpoint 0, .catalogueCheckpoint 129
  ] : List Instr).all (fun c => !c.wf) = true := by decide
theorem test_wf_takes_storage : ([
    .nsCreate 0 0, .nsDelete 0 0, .nsIdentify 0 0 default, .nsErase 0 0, .evidenceRelease 0 0, .ssdPrepare 0 0, .ssdDetach 0 0,
    .ssdAttach 0 0, .read 0 0 0 default, .write 0 0 0 default, .flush 0 0 0, .deallocate 0 0 0, .writeZeroes 0 0 0, .verify 0 0 0,
    .evidenceAppend 0 0 0 default, .rootPortLinkUp 0, .rootPortLinkDown 0, .controllerReady 0 default, .controllerReadyTimeout 0,
    .backendCompletion 0 0 default, .backendTimeout 0 0, .ssdAsyncEvent 0 0, .catalogueCheckpoint 1
  ] : List Instr).all Instr.wf = true := by decide

/-- WellFormed refuses each operand out of its range in the commands of Tenants, and takes each command without one. -/
theorem test_wf_refuses_tenants : ([
    .createInstance 65536 default, .createInstance 0 (.bytes [[0]] []), .modifyInstance 65536 default, .modifyInstance 0 (.bytes [[0]]
    []), .quiesceInstance 65536, .quiesceComplete 64, .quiesceTimeout 64, .resumeInstance 65536, .resetInstance 65536,
    .destroyInstance 65536, .rearmInstance 65536, .getInstance 65536 default, .getInstance 0 (.bytes [[0]] [])
  ] : List Instr).all (fun c => !c.wf) = true := by decide
theorem test_wf_takes_tenants : ([
    .createInstance 0 default, .modifyInstance 0 default, .quiesceInstance 0, .quiesceComplete 0, .quiesceTimeout 0, .resumeInstance
    0, .resetInstance 0, .destroyInstance 0, .rearmInstance 0, .getInstance 0 default
  ] : List Instr).all Instr.wf = true := by decide

/-- The machine at reset with a seal store of known bytes. -/
def plain : State := { State.reset with sealStore := ⟨[(0, zeros 48)], 0, 0, 1⟩ }

/-- The record of an instance: 16 SQs and CQs, a reserve of 256, 64 contexts, 64 key slots, every engine, 64 namespaces. -/
def rec0 : Bytes := padTo 128 (leBytes 2 16 ++ leBytes 2 16 ++ leBytes 4 256 ++ leBytes 2 64 ++ leBytes 2 0 ++ leBytes 2 64 ++ [16, 64])

/-- A device that serves, in a power state, with the host's link up and instance 0 ACTIVE; its domains are off but the fixed ones. -/
def dev (st : Pw) : State := { plain with
  boot := { Boot.reset with ready := true, phase := 7 }
  pow := { Power.reset with
    st := st, mainEn := true, mainPg := true, mainReset := false, emberRun := true, emberSlot := 0
    domains := (List.range 14).map fun d => (d, ⟨0, 0, false⟩) }
  host := { HostLink.reset with up := true, width := 8, speed := 5 }
  fns := [(0, { Fn.reset with bme := true, cfg := [(cfgKey .memorySpaceEnable, 1)] })]
  insts := [(0, ⟨.active, rec0, none, false, false⟩)] }

/-- The same with every domain on. -/
def devOn (st : Pw) : State := (dev st).withPow fun p => { p with domains := [] }

/-- The mailbox of instance 0. -/
def box0 : Requester := .mailbox 0

/-- The service takes the request as it comes, and a write passes its checks. -/
def meets (s : State) (r : DictReq) : Bool :=
  let d := s.dictRequest r.who r.op r.index r.sub r.data
  decide (d.svc.held = [r]) && d.canServe && decide (d.workSettle = d) && (r.op != .write
    || (decide (placeCheck r.who r.index r.sub = .ok) && decide ((s.taken r).writeCheck r.who r.index r.sub r.data = .ok)))

theorem meets_asks {s : State} {r : DictReq} (h : meets s r = true) : s.Asks r ∧ (r.op = .write → (s.taken r).Accepts r) := by
  simp only [meets, Bool.and_eq_true, decide_eq_true_eq, Bool.or_eq_true, bne_iff_ne, ne_eq] at h
  exact ⟨⟨h.1.1.1, h.1.1.2, h.1.2⟩, fun e => (h.2.resolve_left (fun k => k e))⟩

/-- A command fetched from a queue: its opcode, function, SQ, tag, and the DWORDs of its entry from the second on. -/
def fetched (s : State) (op n q tag : Nat) (ws : List Nat) : State := s.withQ fun k => { k with
  ctxs := k.ctxs ++ [⟨n, q, tag, padTo 64 ((((op + tag * 65536) :: ws).map (leBytes 4)).flatten), false⟩] }

/-- The entry of that command. -/
def ent (op tag : Nat) (ws : List Nat) : Bytes := padTo 64 ((((op + tag * 65536) :: ws).map (leBytes 4)).flatten)

/-- The command of a row starts. -/
def starts (s : State) (op n q tag : Nat) : Bool := (s.starting? op n q tag).isSome

/-- A reader's request that writes a value. -/
def w0 (idx sub v : Nat) : DictReq := writeOf box0 idx sub v

/-- A release of the main reset after a cold start, and after a wake that drives HOST_WAKE_N low. -/
theorem test_meets_Starts_ResetReleaseStarts : plain.pow.nextCause ≠ 3 ∧ plain.pow.nextCause ≠ 4
    ∧ (plain.emberWake 2).pow.nextCause = 2 ∧ (plain.emberWake 2).pow.hostWake = true := by decide +kernel

/-- The supply rises, is late twice and a third time, is retried, is lost. -/
theorem test_meets_Supplies_SuppliesCome :
    let up := plain.withPow fun p => { p with mainEn := true }
    up.pow.mainPg = false ∧ up.pow.perst = false ∧ (up.withPow fun p => { p with perst := true }).pow.perst = true ∧ up.pow.mainTries ≠ 2
    ∧ (up.withPow fun p => { p with mainTries := 2, mainRetry := true }).pow.mainTries = 2 ∧ up.pow.mainRetry = false
    ∧ plain.pow.mainEn = false ∧ (dev .blaze).pow.mainEn = true ∧ (dev .blaze).pow.mainPg = true := by decide +kernel

/-- A reset at once, one held while power fails, the link's coming and going. -/
theorem test_meets_ResetsAndLink :
    let pf := (dev .blaze).withKiln fun k => { k with stopped := true, pf := some default }
    let down := (dev .blaze).withHost fun h => { h with up := false }
    (dev .blaze).pow.mainPg = true ∧ (dev .blaze).pow.mainReset = false ∧ (dev .blaze).pfRuns = false ∧ pf.pfRuns = true
    ∧ { (dev .blaze) with sealStore := ⟨[], 0, 0, 0⟩ }.debugPermitted = true ∧ ((dev .blaze).mainResetStart 1).pow.mainReset = true
    ∧ (dev .blaze).debugPermitted = false ∧ down.host.up = false ∧ down.pow.st ≠ .off ∧ down.pow.st ≠ .ember
    ∧ (dev .blaze).host.up = true ∧ plain.boot.ready = false := by decide +kernel

/-- PERST_N low and high. -/
theorem test_meets_Starts_MainResetStarts : ((dev .blaze).withPow fun p => { p with perst := true }).pow.perst = true
    ∧ (dev .blaze).pow.perst = false := by decide +kernel

def slotOf (n : Nat) : EmberSlot := ⟨true, true, zeros 48, true, n⟩

/-- Slots of equal and of different SEQUENCE, at the ends of its range; a start in hand. -/
theorem test_meets_EmberController_EmberStarts :
    plain.emberSlotValid (slotOf 1) = true ∧ plain.emberSlotValid (slotOf 0) = false ∧ plain.emberSlotValid (slotOf 0xFFFFFFFE) = true
    ∧ plain.emberSlotValid (slotOf 0xFFFFFFFF) = false ∧ (dev .blaze).pow.emberRun = true ∧ (dev .blaze).pow.emberBusy = false
    ∧ ((dev .blaze).withPow fun p => { p with emberBusy := true }).pow.emberBusy = true ∧ plain.pow.emberRun = false := by decide +kernel

/-- A firmware image that waits to be written, with each slot running. -/
theorem test_meets_EmberController_EmberFirmwareWritten :
    let s := (dev .blaze).withBoot fun b => { b with emberFw := some [1, 2, 3] }
    s.hearthRuns = true ∧ s.cipher.writes = [] ∧ s.boot.emberFw = some [1, 2, 3] ∧ s.pow.emberSlot = 0
    ∧ (s.withPow fun p => { p with emberSlot := 1 }).pow.emberSlot = 1 := by decide +kernel

/-- Host-wait: the window open, and as it is after READY; a bundle that is too short is refused by the ROM. -/
theorem test_meets_BundleTaken_HostWait :
    let s := (dev .starting).withBoot fun b => { b with ready := false, phase := 2, windowOpen := true }
    s.hostActivity.decodes 0 = true ∧ s.boot.windowOpen = true ∧ s.boot.phase = 2 ∧ (dev .blaze).boot.windowOpen = false
    ∧ (dev .blaze).hostActivity.decodes 0 = true ∧ (0x960B0001#32).toNat / 0x10000 = 0x960B ∧ bit (0x960B0001#32).toNat 0 = true
    ∧ bit (0x960B0002#32).toNat 0 = false ∧ romCheck s (zeros 8) = .error (.lengthMismatch, 0) := by decide +kernel

/-- An image manifest of a boot code, a flow image for every core and a hearth section, as the tests build it. -/
def entryOf (t mask off len dest : Nat) (h : Bytes) : Bytes :=
  leBytes 4 t ++ leBytes 4 mask ++ leBytes 4 off ++ leBytes 4 len ++ leBytes 4 dest ++ zeros 12 ++ h

def manifestOf (h0 h1 h2 : Bytes) : Bytes :=
  zeros 18 ++ leBytes 2 3 ++ zeros 4 ++ leBytes 4 256 ++ leBytes 4 0x1500 ++ zeros 224 ++ zeros 4 ++ leBytes 2 3 ++ zeros 10
    ++ entryOf 1 0 512 0x1000 0 h0 ++ entryOf 3 0xFFFFFFFF 0x1200 16 0 h1 ++ entryOf 5 0 0x1300 16 0x2000 h2 ++ zeros (0x1500 - 512)

/-- SHA-384 of 4,096 zero bytes, and of 16. -/
def hashLong : Bytes := leBytes 48 0x74d7a82acfae1e4a35566fa1f709685864fc4eef4f7c735f51ff96429445c7abac2f4336fb2854c7b5d3fb3f3e9ae5c0

def hashShort : Bytes := leBytes 48 0x6a04ccee8b819ee6c86b8734c308ca0249d29994ecf86ddde1bb2dd3833b47826a41365e4b47dfc8de3c19a19d6540ae

/-- A manifest of no entry; one of zero hashes, which no section has; one in which every hash agrees. -/
theorem test_meets_BundleTaken_KindlingChecks :
    let b := manifestOf hashLong hashShort hashShort
    manifestCheck (zeros 300) = some 0xFF ∧ manifestCheck (manifestOf (zeros 48) (zeros 48) (zeros 48)) = none ∧ manifestCheck b = none
    ∧ sha384Hash (sub b 512 0x1000) = hashLong ∧ (manifestEntry b 0).hash = hashLong
    ∧ (manifestEntry b 0).len = 0x1000 ∧ (manifestEntry b 0).offset = 512
    ∧ [1, 2].all (fun i => let e := manifestEntry b i
        sha384Hash (sub b e.offset e.len) == e.hash) = true := by decide +kernel

def info0 : BundleInfo := ⟨true, 3, 0, [], [], none, none, []⟩

/-- The same with a seal-store section that raises the minimum version to 3. -/
def info1 : BundleInfo := { info0 with sealCmd := some (padTo 64 (leBytes 1 3 ++ leBytes 1 3)) }

/-- A start at the training of LPDDR5, with a bundle; the hearth's watchdog in a start, in host-wait, in Blaze. -/
theorem test_meets_StartEnds :
    let s := (dev .starting).withBoot fun b => { b with ready := false, phase := 5, bundle := some info0 }
    s.boot.phase = 5 ∧ s.boot.bundle = some info0 ∧ 3 ≤ s.boot.phase ∧ s.pow.st = .starting ∧ s.dbg.hearthHalted = false
    ∧ (dev .blaze).awake = true ∧ 3 ≤ (dev .blaze).boot.phase ∧ plain.boot.phase < 3 ∧ plain.boot.phase ≠ 4 ∧ plain.boot.phase ≠ 5
    ∧ ((dev .ember).awake = false ∧ (dev .ember).pow.st ≠ .starting) := by decide +kernel

/-- A section that raises the minimum version to the bundle's own passes, one above it fails; a key is programmed and revoked. -/
theorem test_meets_StartEnds_SealCommandsApplied :
    let cmd (c a : Nat) (h : Bytes) : Bytes := padTo 64 (leBytes 1 c ++ leBytes 1 a ++ zeros 14 ++ h)
    sealFirstBad info0 plain.sealStore 0 (chunksOf 64 (cmd 3 3 [])) = none
    ∧ sealFirstBad info0 plain.sealStore 0 (chunksOf 64 (cmd 3 3 [] ++ cmd 3 4 [])) = some 1
    ∧ sealFirstBad info0 plain.sealStore 0 (chunksOf 64 (cmd 1 1 (zeros 48) ++ cmd 2 1 [])) = none
    ∧ sealFirstBad info0 plain.sealStore 0 (chunksOf 64 (cmd 2 0 [])) = some 0 := by decide +kernel

/-- The end of a start with a bundle whose section raises the minimum version: the seal store moves. -/
theorem test_meets_SealStoreGuarded :
    let s := (dev .starting).withBoot fun b => { b with ready := false, phase := 5, bundle := some info1 }
    s.boot.phase = 5 ∧ s.boot.bundle = some info1 ∧ info1.sealArm = true ∧ info1.sealCmd.isSome = true
    ∧ sealFirstBad info1 s.sealStore 0 (chunksOf 64 (info1.sealCmd.getD [])) = none ∧ (s.sealCommands info1).sealStore.minVersion = 3
    ∧ s.sealStore.minVersion = 0 := by decide +kernel

/-- Every command but one answers a next state, so the statements about a next state are about every command. -/
theorem test_meets_next (s : State) : ∃ t, exec .pfailRelease s = .next t := ⟨_, rfl⟩

/-- The four requests are taken in Blaze and Glow, and Banked is refused while an evidence queue holds a command. -/
theorem test_meets_PowerRequests_StateRequests :
    let s := ((dev .blaze).setSq 0 1 ⟨0, 16, 1, 1, 1, 1, 0, true, 1, 1, false, none, none, 0⟩).withPow fun p => { p with emberRun := false }
    (List.range 4).all (fun v => meets (dev .blaze) (w0 0x2000 2 v)) = true
    ∧ (List.range 4).all (fun v => ((dev .blaze).taken (w0 0x2000 2 v)).requestCheck v == .ok) = true ∧ (dev .glow).pow.st = .glow
    ∧ s.evidenceBusy = true ∧ meets s (w0 0x2000 2 2) = true ∧ s.requestCheck 2 ≠ .ok ∧ s.pow.emberRun = false := by decide +kernel

/-- The stages of a drain, an SSD to shut down, a wake kept and none. -/
theorem test_meets_SleepStates_EntryToSleep :
    let s := ((dev .glow).withPow fun p => { p with trans := 1, stage := 1, egressDraining := true }).withHost fun h => { h with up := false }
    let sd := (dev .glow).withPow fun p => { p with trans := 2, stage := 2, ssdWait := [1] }
    let e := (dev .ember).withPow fun p => { p with stage := 4, mainEn := false, wakeKept := true }
    s.pow.stage = 1 ∧ s.commandsInFlight = false ∧ s.l12Possible = true ∧ s.pow.trans = 1 ∧ s.pow.egressDraining = true
    ∧ (s.withPow fun p => { p with trans := 2 }).pow.trans ≠ 1 ∧ (fetched s 0x40 0 1 0 []).commandsInFlight = true
    ∧ ((dev .glow).withPow fun p => { p with stage := 1 }).l12Possible = false ∧ sd.pow.stage = 2 ∧ 1 ∈ sd.pow.ssdWait ∧ 0 ∉ sd.pow.ssdWait
    ∧ e.pow.st = .ember ∧ e.pow.stage = 4 ∧ e.pow.wakeKept = true ∧ e.pow.mainEn = false
    ∧ (e.withPow fun p => { p with wakeKept := false }).pow.wakeKept = false ∧ (dev .glow).pow.stage ≠ 1 := by decide +kernel

/-- SleepStates has no hypothesis but a name for the slow ticks' time: at 64 of them 1,953,125 ns have passed. -/
theorem test_meets_SleepStates :
    let s := ((dev .glow).withTime fun t => { t with slow := 64, stopSlow := 0 })
    1953125 = (s.time.slow - s.time.stopSlow) * 1953125 / 64 ∧ s.bankedWake.pow.st = .glow := by decide +kernel

/-- A wake source in each power state, enabled and not, and the wake's own commands. -/
theorem test_meets_WakeSources :
    let on (s : State) := s.dset 0x2003 1 0xFF
    let e := ((dev .ember).withPow fun p => { p with mainEn := false, emberCopies := SMap.put [] (dkey 0x2003 1) (.num 0xFF) })
    (dev .glow).pow.emberBusy = false ∧ plain.pow.st = .off ∧ (dev .starting).pow.st = .starting ∧ (dev .blaze).pow.stage = 0
    ∧ ((on (dev .glow)).withPow fun p => { p with stage := 1 }).pow.stage = 1 ∧ bit ((on (dev .glow)).aoGet 0x2003 1) 5 = true
    ∧ bit (((dev .glow).dset 0x2003 1 0).aoGet 0x2003 1) 7 = false ∧ bit (e.aoGet 0x2003 1) 5 = true ∧ e.pow.mainEn = false ∧ e.pow.stage = 0
    ∧ bit (e.aoGet 0x2003 1) 8 = false ∧ ((dev .glow).dset 0x2003 4 1).aoGet 0x2003 4 ≠ 0 ∧ (dev .glow).aoGet 0x2003 4 = 0
    ∧ 0x58 + (dev .glow).pow.straps = 0x58 := by decide +kernel

/-- IGN_OFF_ACTION set and clear, the timer and the retry running, the allowance reached at its value and short of it, a request that is taken, one
refused, one that waits. -/
theorem test_meets_PowerRequests_IgnitionOff :
    let s := (dev .glow).dset 0x2001 1 2
    let al := (((dev .glow).dset 0x2106 2 3).dset 0x2106 1 3000000).withDamper fun d => { d with ignCounting := true }
    ((dev .glow).dset 0x2001 1 0).dget 0x2001 1 = 0 ∧ s.dget 0x2001 1 = 2 ∧ (s.withPow fun p => { p with ignTimer := true, ignRetry := true }).pow.ignTimer = true
    ∧ al.awake = true ∧ al.dget 0x2106 2 ≠ 0 ∧ al.dget 0x2106 2 * 1000000 ≤ al.dget 0x2106 1 ∧ al.damper.ignReached = false
    ∧ (al.dset 0x2106 1 2999999).dget 0x2106 1 < al.dget 0x2106 2 * 1000000 ∧ s.live = true ∧ s.pow.trans = 0 ∧ s.requestCheck 2 = .ok
    ∧ ((dev .glow).dset 0x2001 1 3).dget 0x2001 1 = 3 ∧ (((dev .glow).dset 0x2001 1 3).withPow fun p => { p with emberRun := false }).requestCheck 3 ≠ .ok
    ∧ (s.withPow fun p => { p with trans := 1 }).pow.trans ≠ 0 := by decide +kernel

/-- A held read and a held write, the ember firmware running. -/
theorem test_meets_TinderTransfers :
    ((dev .glow).withPow fun p => { p with tinderHeld := some true }).pow.tinderHeld = some true ∧ (dev .glow).pow.tinderHeld = none
    ∧ (dev .glow).pow.emberRun = true ∧ (dev .glow).pow.emberBusy = false ∧ (dev .glow).pow.tinderRefused = false := by decide +kernel

/-- A domain that waits for power, one in each state, and a vote. -/
theorem test_meets_DomainsMove :
    let v := (dev .glow).dset (0x2010 + domPIPE) 2 1
    let at_ (k : Nat) := v.setDom domPIPE ⟨k, 0, false⟩
    v.nextPowerUp = some domPIPE ∧ (dev .glow).nextPowerUp = none ∧ ((at_ 1).dom domPIPE).st = 1 ∧ ((at_ 3).dom domPIPE).st = 3
    ∧ ((at_ 4).dom domPIPE).st = 4 ∧ domPIPE ≠ domKILN ∧ (dev .glow).stagingEmpty = true
    ∧ ((dev .glow).withKiln fun k => { k with streams := k.streams.put 0 { Stream.none_ with
        segs := [⟨0, 0, 0, 0, 0, [], false, false, true, [], [0], 0, 0, 0, none, 0, [], 0, false, 0, false, false⟩] } }).stagingEmpty = false
    ∧ [2, 13].all (fun d => meets (dev .blaze) (w0 (0x2010 + d) 2 1)) = true := by decide +kernel

/-- A domain in each state, with a vote and without one. -/
theorem test_meets_DomainsMove_DomainsFollowVotes :
    let v := (dev .glow).dset (0x2010 + domPIPE) 2 1
    v.votes domPIPE ≠ 0 ∧ (dev .glow).votes domPIPE = 0 ∧ ((v.setDom domPIPE ⟨2, 0, false⟩).dom domPIPE).st = 2
    ∧ (((dev .glow).setDom domPIPE ⟨3, 9, false⟩).dom domPIPE).st = 3 ∧ ((v.setDom domPIPE ⟨4, 0, false⟩).dom domPIPE).failed = false
    ∧ (dev .blaze).pow.st ≠ .glow := by decide +kernel

/-- Banked with its limits set, the supply low, and Ember refused. -/
theorem test_meets_Supplies_SupplyWatch :
    let s := (((dev .banked).dset 0x2001 3 5).dset 0x2002 1 9000).withPow fun p => { p with vsenseLow := true }
    s.pow.st = .banked ∧ s.pow.emberRun = true ∧ s.dget 0x2001 3 ≠ 0 ∧ s.dget 0x2002 1 ≠ 0 ∧ s.pow.vsenseLow = true
    ∧ ((dev .banked).dset 0x2001 3 0).dget 0x2001 3 = 0 ∧ s.bankedWake.requestCheck 3 = .ok
    ∧ (s.withPow fun p => { p with emberRun := false }).bankedWake.requestCheck 3 ≠ .ok := by decide +kernel

/-- A tick in Blaze; a temperature at the lower threshold, and at the upper one, where the limits meet. -/
theorem test_meets_Damper_DamperTick :
    let s := dev .blaze
    let lo : Int := s.dget 0x2103 1 * 1000
    let hi : Int := s.dget 0x2103 2 * 1000
    s.awake = true ∧ s.boot.ready = true ∧ plain.awake = false ∧ lo < hi ∧ s.thermalLimit lo = s.dget 0x2100 1
    ∧ s.thermalLimit hi = s.dget 0x2101 1 + s.dget 0x2101 2 ∧ s.thermalLimit (hi + 1) = s.dget 0x2101 1 + s.dget 0x2101 2 := by decide +kernel

/-- Each clause of the ladder: forced, steps 0, 6, 7 and 8, ready and not, the evidence draw at its floor and past it. -/
theorem test_meets_Damper_LadderMoves :
    let at_ (k : Nat) := ((dev .blaze).dset 0x2100 5 k).withDamper fun d => { d with level := -1, negative := true, since := 10 }
    let past (s : State) := s.withDamper fun d => { d with evidence := [s.dget 0x2101 1 + 1] }
    let just (s : State) := s.withDamper fun d => { d with evidence := [s.dget 0x2101 1] }
    let ready (s : State) := decide (s.damper.level * 4 < (s.dget 0x2100 2 * 100 : Int)) && s.damper.negative
      && decide (stepResponse s.ladder ≤ s.damper.since + (if s.ladder = 0 then 1 else 0))
    ((at_ 0).dset 0x2100 0x0B 3).dget 0x2100 0x0B ≠ 0 ∧ (at_ 0).dget 0x2100 0x0B = 0 ∧ (at_ 8).ladder = 8 ∧ (at_ 7).ladder = 7
    ∧ (just (at_ 8)).evidenceDraw = (at_ 8).dget 0x2101 1 ∧ (at_ 8).dget 0x2101 1 < (past (at_ 8)).evidenceDraw ∧ (at_ 6).ladder < 7
    ∧ ready (at_ 0) = true ∧ ready (at_ 6) = true ∧ ready (past (at_ 7)) = true
    ∧ ready ((at_ 6).withDamper fun d => { d with negative := false }) = false := by decide +kernel

/-- A hold, a cap that acts below its bound, a port searched at the second step, a silent meter, a forced step and a snapshot. -/
theorem test_meets_Damper_DamperCommands :
    let s := ((dev .blaze).dset 0x2100 5 2).withDamper fun d => { d with holding := true, caps := [(3, ⟨[], true, true⟩)] }
    s.awake = true ∧ s.damper.holding = true ∧ 0 < s.ladder ∧ s.ladder < 8 ∧ s.dget 0x2100 0x0B = 0 ∧ s.dbg.hearthHalted = false
    ∧ s.damper.caps.get? 3 = some ⟨[], true, true⟩ ∧ (s.damper.caps.getD 4 ⟨[], false, false⟩).acting = false ∧ 2 ≤ s.ladder
    ∧ (dev .blaze).ladder < 2 ∧ s.damper.lost.get? 0 = none ∧ ((s.withDamper fun d => { d with lost := [(0, ())] }).damper.lost.get? 0).isSome = true
    ∧ meets (dev .blaze) (w0 0x2100 0x0B 0) = true ∧ meets (dev .blaze) (w0 0x2100 0x0B 8) = true
    ∧ meets (dev .blaze) (w0 0x2105 5 1) = true := by decide +kernel

/-- A trip, its end, a power fail in Blaze and in the sequence, the bound, the release. -/
theorem test_meets_PowerFail :
    let pf := (dev .blaze).withKiln fun k => { k with stopped := true, pf := some (0, 0) }
    let ended := (dev .blaze).withKiln fun k => { k with stopped := true }
    (dev .blaze).pow.st ≠ .off ∧ plain.pow.st = .off ∧ ((dev .blaze).withPow fun p => { p with thermalTrip := true }).pow.thermalTrip = true
    ∧ (dev .blaze).kiln.stopped = false ∧ (dev .blaze).boot.ready = true ∧ (dev .blaze).awake = true ∧ pf.kiln.pf.isSome = true
    ∧ pf.kiln.pfBound = false ∧ ended.kiln.stopped = true ∧ ended.kiln.pf = none ∧ ended.kiln.pfail = false ∧ ended.awake = true := by
  decide +kernel

/-- Bus mastering set, cleared, and a queue that keeps its completion for a function that may not master. -/
theorem test_meets_BusMasteringAndResets_BusMastering :
    let off := (dev .blaze).withFn 0 fun x => { x with bme := false }
    let q := off.setCq 0 1 ⟨0x1000, 16, true, 0, 0, 0, 1, 0, true, 0, 0, false, false, [], [], 0⟩
    ((dev .blaze).fn 0).bme = true ∧ (off.fn 0).bme = false ∧ off.host.up = true ∧ off.fnPresent 0 = true ∧ off.fnPresent 64 = false
    ∧ (dev .blaze).canMaster 0 = true ∧ q.canMaster 0 = false ∧ (q.cq? 0 1).map (fun c => (c.held, decide (c.share.length < c.reserve)))
      = some ([], true) := by decide +kernel

/-- A device with 63 virtual functions, instance 63 ACTIVE. -/
def vfs : State :=
  ((((dev .blaze).cfgPut 0 .numVfs 63).withHost fun h => { h with vfEnable := true }).withInst 63 fun x => { x with st := .active }).cfgPut
    0 .vfMemorySpaceEnable 1

/-- A function-level reset of the last virtual function, its quiesce's end, PF0's, and VF Enable in both directions. -/
theorem test_meets_BusMasteringAndResets_FunctionResets :
    let f := vfs.withFn 63 fun x => { x with flr := some 1 }
    let z := (dev .blaze).withFn 0 fun x => { x with flr := some 4 }
    vfs.fnPresent 63 = true ∧ vfs.fnPresent 64 = false ∧ vfs.host.vfEnable = true ∧ (dev .blaze).host.up = true
    ∧ (dev .blaze).host.vfEnable = false ∧ (vfs.inst 63).st ≠ .absent ∧ (vfs.inst 63).st ≠ .fenced ∧ (vfs.fn 63).flr = none
    ∧ (f.fn 63).flr = some 1 ∧ (z.fn 0).flr = some 4 ∧ z.hearthRuns = true ∧ (vfs.inst 0).st ≠ .absent
    ∧ ((((f.withFn 63 fun x => { x with flr := none }).quiesceGroups 63).locksRelease 63).inst 63).st ≠ .absent
    ∧ ((vfs.withInst 63 fun x => { x with st := .fenced }).inst 63).st = .fenced := by decide +kernel

/-- D3hot and D0, the idle times with their enables, a hold of instance 0. -/
theorem test_meets_LinkStatesAndVectors_LinkStates :
    let s := (((dev .blaze).cfgPut 0 .aspmL0sEnable 1).cfgPut 0 .aspmL1Enable 1).cfgPut 0 .ltrEnable 1
    let h := (dev .blaze).withFn 0 fun x => { x with hold := true }
    s.host.d3hot = false ∧ (s.withHost fun h => { h with d3hot := true }).host.d3hot = true ∧ s.host.aspm = .l0 ∧ s.cfg 0 .aspmL0sEnable = 1
    ∧ s.cfg 0 .aspmL1Enable = 1 ∧ s.trackerUse = 0 ∧ s.cfg 0 .ltrEnable = 1 ∧ s.host.ltrClear = false ∧ (dev .blaze).cfg 0 .ltrEnable ≠ 1
    ∧ (s.withHost fun h => { h with aspm := .l1 }).host.aspm ≠ .l0
    ∧ (List.range 64).filter (fun n => (h.fn n).hold) = [0] ∧ (List.range 64).filter (fun n => (s.fn n).hold) = [] := by decide +kernel

/-- MSI-X and MSI, the last vector of PF0 and the first past it, masked and not. -/
theorem test_meets_LinkStatesAndVectors_VectorsSent :
    let x := (dev .blaze).withFn 0 fun x => { x with msixEn := true, msix := x.msix.put 8191 0 }
    let m := (dev .blaze).withFn 0 fun x => { x with msiEn := true }
    x.host.up = true ∧ x.fnPresent 0 = true ∧ vfs.fnPresent 63 = true ∧ x.intMode 0 ≠ 1 ∧ m.intMode 0 = 1 ∧ x.canMaster 0 = true
    ∧ x.masked 0 2047 = false ∧ x.masked 0 0 = true ∧ (x.withFn 0 fun y => { y with bme := false }).canMaster 0 = false := by decide +kernel

/-- A tracked read, one in quarantine, one timed out, none. -/
theorem test_meets_HostCompletions :
    let t (q o : Bool) := (dev .blaze).withFn 0 fun x => { x with tags := [(1023, ⟨.nobody, q, o⟩)] }
    ((dev .blaze).hostActivity.fn 0).tags.get? 0 = none ∧ ((t false false).hostActivity.fn 0).tags.get? 1023 = some ⟨.nobody, false, false⟩
    ∧ ((t true false).hostActivity.fn 0).tags.get? 1023 = some ⟨.nobody, true, false⟩ ∧ ((t true true).fn 0).tags.get? 1023
      = some ⟨.nobody, true, true⟩ := by decide +kernel

/-- An uncorrectable error and a correctable one. -/
theorem test_meets_HostCompletions_EndpointErrors : (aerUncorrectableBit .malformedTlp).isSome = true ∧ (aerCorrectableBit .badTlp).isSome = true := by
  decide +kernel

/-- SQ 1 and CQ 1 of instance 0 with an empty ring of 16. -/
def queued (tail : Nat) (frozen : Bool) : State :=
  ((dev .blaze).setSq 0 1 ⟨0x1000, 16, 1, 0, 1, 4, 0, true, tail, tail, frozen, none, none, 0⟩).setCq 0 1
    ⟨0x2000, 16, true, 0, 0, 0, 1, 4, true, 0, 0, frozen, false, [], [], 0⟩

/-- Doorbells at the ends of their arcs: the last tail of a ring of 16 and one past it, the CQ's tail and one past it; a frozen queue; no queue. -/
theorem test_meets_Doorbells :
    let a := (queued 0 false).hostActivity
    a.decodes 0 = true ∧ a.adminWritable 0 = true ∧ (vfs.withHost fun h => { h with d3hot := true }).hostActivity.decodes 0 = false
    ∧ ((dev .blaze).withInst 0 fun x => { x with st := .fenced }).hostActivity.adminWritable 0 = false ∧ a.sq? 0 2 = none
    ∧ (a.sq? 0 1).isSome = true ∧ (a.cq? 0 1).isSome = true ∧ 1 < doorbellQueues 0 ∧ onArc 16 0 15 15 = true ∧ onArc 16 0 15 16 = false
    ∧ onArc 16 0 4 4 = true ∧ onArc 16 0 4 5 = false ∧ ((queued 0 true).sq? 0 1).map (·.frozen) = some true := by decide +kernel

/-- A fetch with its turn; entries whose phase is right, wrong, PAD, of an opcode that the class does not take; a CQ with entries unsignalled. -/
theorem test_meets_FetchAndComplete_SqFetch :
    let s := queued 1 false
    let e (op : Nat) := padTo 32 (leBytes 4 (op + 0x800))
    let g := s.setCq 0 1 ⟨0x2000, 16, true, 0, 4, 9, 1, 4, true, 0, 0, false, false, [], [], 2⟩
    s.fetchable 0 1 = true ∧ (s.freeTag 0).isSome = true ∧ s.nextTurn = some 0 ∧ s.wrrAllows 0 1 = true ∧ (dev .blaze).fetchable 0 1 = false
    ∧ (e 0x40).length = 32 ∧ bit (leAt (e 0x40) 0 4) 11 = true ∧ entryUnits (e 0x40) = 1 ∧ (1 + 16 - 0) % 16 ≠ 0
    ∧ opcodeAllowed 0 1 0 0x40 = true ∧ opcodeAllowed 0 1 0 0x01 = false ∧ bits (leAt (e 0) 0 4) 0 8 = 0
    ∧ bit (leAt (padTo (32 * entryUnits (padTo 32 (zeros 32))) (zeros 32)) 0 4) 11 ≠ true
    ∧ (g.cq? 0 1).map (fun c => (c.irqEn, c.aggTime != 0, c.unsignalled != 0)) = some (true, true, true) := by decide +kernel

/-- A command in flight that may start, its queue, and a CQ that can be written. -/
theorem test_meets_FetchAndComplete_CommandsComplete :
    let s := fetched (queued 1 false) 0x40 0 1 7 []
    (s.ctx? 0 1 7).isSome = true ∧ (s.sq? 0 1).isSome = true ∧ s.ctx? 0 1 8 = none ∧ starts s 0x40 0 1 7 = true ∧ starts s 0x41 0 1 7 = false
    ∧ s.cqWritable 0 1 = true ∧ (s.cq? 0 1).map (fun c => (c.share, c.held)) = some ([], []) := by decide +kernel

/-- The entries of good CREATE_CQ and CREATE_SQ at the least depth, bad ones, and a deletion of a queue that is bound and of one that is not. -/
theorem test_meets_QueuesMade :
    let s := queued 0 false
    let free := s.setCq 0 2 ⟨0x3000, 16, true, 0, 0, 0, 1, 0, true, 0, 0, false, false, [], [], 0⟩
    let cq := [2 + 15 * 65536, 0x4000, 0, 0, 0x10000]
    let sq := [2 + 15 * 65536, 0x4000, 0, 0x1000001, 1]
    starts (fetched s 1 0 0 7 cq) 1 0 0 7 = true ∧ s.createCqCheck 0 (ent 1 7 cq) = .ok ∧ s.createCqCheck 0 (ent 1 7 []) ≠ .ok
    ∧ starts (fetched s 2 0 0 7 sq) 2 0 0 7 = true ∧ s.createSqCheck 0 (ent 2 7 sq) = .ok ∧ s.createSqCheck 0 (ent 2 7 []) ≠ .ok
    ∧ starts (fetched s 3 0 0 7 [1]) 3 0 0 7 = true ∧ s.sq? 0 9 = none ∧ (s.sq? 0 1).map (·.deleting) = some none
    ∧ ((s.setSq 0 1 ⟨0, 16, 1, 0, 1, 4, 0, true, 0, 0, false, some (3, 0), none, 0⟩).sq? 0 1).map (fun x => x.deleting.isSome) = some true
    ∧ starts (fetched s 4 0 0 7 [1]) 4 0 0 7 = true ∧ (s.sqsOf 0).any (fun y => y.2.cqid == 1) = true
    ∧ (free.sqsOf 0).any (fun y => y.2.cqid == 2) = false ∧ free.cqNamed 0 2 = false ∧ bits (dw (ent 4 7 [0x10000]) 1) 0 16 = 0 := by decide +kernel

/-- A restart of a frozen queue at its last head, a log read of one record and of 16, aborts of a command not started, started, unknown and itself,
a moderation, a status of an SQ and of a CQ. -/
theorem test_meets_QueuesManaged :
    let f := queued 0 true
    let s := queued 0 false
    let log (k len : Nat) := [k, 0x5000, 0, len]
    let two (q t : Nat) := fetched (fetched s 0x40 0 1 9 []) 7 0 0 7 [q + 65536 * t]
    starts (fetched f 5 0 0 7 [1, 15]) 5 0 0 7 = true ∧ (f.sq? 0 1).map (fun x => (x.frozen, decide (15 < x.depth))) = some (true, true)
    ∧ (s.sq? 0 1).map (·.frozen) = some false ∧ s.sq? 0 2 = none ∧ starts (fetched s 6 0 0 7 (log 16 1024)) 6 0 0 7 = true
    ∧ bits (dw (ent 6 7 (log 16 1024)) 1) 0 5 = 16 ∧ s.descOwn 0 (descAt (ent 6 7 (log 16 1024)) 8) = true
    ∧ (descAt (ent 6 7 (log 16 1024)) 8).len = 1024 ∧ (s.scatter 0 (descAt (ent 6 7 (log 16 1024)) 8) 0 default []).2 = none
    ∧ s.descOwn 0 (descAt (ent 6 7 [1, 0, 0x80000000, 64]) 8) = false
    ∧ starts (two 1 9) 7 0 0 7 = true ∧ ((two 1 9).ctx? 0 1 9).map (·.started) = some false ∧ (two 1 8).ctx? 0 1 8 = none
    ∧ starts (fetched s 8 0 0 7 [1, 0x80000002, 3]) 8 0 0 7 = true ∧ s.vectorOk 0 0 = true ∧ s.vectorOk 0 2048 = false
    ∧ starts (fetched s 9 0 0 7 [1]) 9 0 0 7 = true ∧ bits (dw (ent 9 7 [0x10001]) 1) 16 1 = 1 ∧ s.cq? 0 2 = none := by decide +kernel

/-- A pair to make with both depths at 16, one a place short, one to end, one with queues, one frozen to restart at its last head. -/
theorem test_meets_QueuesMade_AdminPair :
    let a := (dev .blaze).hostActivity
    let t (d : Nat) := (a.withTq 0 fun t => { t with asqb := 0x1000, acqb := 0x2000, aqs := d * 0x10000 + d, arest := 15 })
    let good (s : State) := (s.sq? 0 0).isNone && (s.fn 0).tq.asqb != 0 && (s.fn 0).tq.acqb != 0 && decide (15 ≤ bits (s.fn 0).tq.aqs 0 12)
      && decide (15 ≤ bits (s.fn 0).tq.aqs 16 12)
    let on (f : Bool) := (t 15).setSq 0 0 ⟨0x1000, 16, 1, 0, 0, 16, 0, true, 0, 0, f, none, none, 0⟩
    a.decodes 0 = true ∧ a.adminWritable 0 = true ∧ good (t 15) = true ∧ good (t 14) = false ∧ (ioOnly (a.sqsOf 0)).isEmpty = true
    ∧ (ioOnly ((queued 0 false).hostActivity.sqsOf 0)).isEmpty = false ∧ ((on false).sq? 0 0).isSome = true ∧ a.sq? 0 0 = none
    ∧ ((on true).sq? 0 0).map (fun x => (x.frozen, decide (bits ((on true).fn 0).tq.arest 0 16 < x.depth))) = some (true, true)
    ∧ bits ((on true).fn 0).tq.arest 16 1 = 0 ∧ ((on false).sq? 0 0).map (·.frozen) = some false := by decide +kernel

/-- A record for a further instance: an SQ and a CQ with its place, two contexts, four key slots past those of instance 0. -/
def rec1 : Bytes := padTo 128 (leBytes 2 1 ++ leBytes 2 1 ++ leBytes 4 1 ++ leBytes 2 2 ++ leBytes 2 64 ++ leBytes 2 4 ++ [0, 1])

/-- A device with instance 5 in a state, under that record. -/
def with5 (st : InstState) : State := (dev .blaze).withInst 5 fun _ => ⟨st, if st = .absent then zeros 128 else rec1, none, false, false⟩

/-- The words of a tenant command for instance 5 with a buffer of 128 bytes. -/
def ten5 : List Nat := [5, 0x5000, 0, 128]

/-- A good record for an absent instance; with an engine too many, a reserved byte, a range of instance 0's, SQs out of range; a change in force and in the
states that refuse it. -/
theorem test_meets_InstancesMade :
    let s := with5 .absent
    let c (op : Nat) : Ctx := ⟨0, 0, 7, ent op 7 ten5, false⟩
    let q := with5 .quiesced
    starts (fetched s 0x10 0 0 7 ten5) 0x10 0 0 7 = true ∧ (c 0x10).target = 5 ∧ s.recordOf (c 0x10) (.bytes [] rec1) = .ok rec1
    ∧ s.recordOf (c 0x10) .timeout = .error .hostReadTimeout ∧ s.recordOutOfRange 5 rec1 = false
    ∧ s.recordOutOfRange 5 (overlay rec1 14 [17]) = true ∧ s.recordOutOfRange 5 (overlay rec1 14 [16]) = false
    ∧ s.nsAttached 5 ≤ byteAt rec1 15 ∧ recordReservedOk rec1 = true ∧ recordReservedOk (overlay rec1 65 [1]) = false
    ∧ s.recordOverlaps 5 rec1 = false ∧ s.recordOverlaps 5 (overlay rec1 10 (leBytes 2 63)) = true ∧ (s.inst 5).st = .absent
    ∧ s.poolsExceeded 5 rec1 = false ∧ s.poolsExceeded 5 (overlay rec1 14 [1]) = true
    ∧ starts (fetched q 0x11 0 0 7 ten5) 0x11 0 0 7 = true ∧ (q.inst 5).st = .quiesced ∧ ((with5 .active).inst 5).st = .active
    ∧ q.lowersBelowUse 5 rec1 = false ∧ q.removesGrouped 5 rec1 = false ∧ q.contextsOf 5 ≤ leAt rec1 8 2
    ∧ (q.setSq 5 1 ⟨0, 16, 1, 0, 1, 1, 0, true, 0, 0, false, none, none, 0⟩).lowersBelowUse 5 (overlay rec1 0 (leBytes 2 0)) = true
    ∧ (q.enginesHeld 5).length ≤ byteAt rec1 14 ∧ rangeMinus (recKeys rec1) (recKeys rec1) = [] ∧ (with5 .fenced).poolsExceeded 5 rec1 = false := by
  decide +kernel

/-- A change of state, and none. -/
theorem test_meets_InstancesMade_InstanceStates : ((dev .blaze).inst 0).st = .active ∧ ((dev .blaze).inst 0).st ≠ .quiescing := by decide +kernel

/-- A quiesce at both ends of its time, forced and not, of instances in each state; its completion, its time-out; a resume. -/
theorem test_meets_InstancesEnd_QuiesceAndResume :
    let s := with5 .active
    let q := (with5 .quiescing).withInst 5 fun x => { x with quiesceTag := some 9 }
    starts (fetched s 0x12 0 0 7 [5, 1]) 0x12 0 0 7 = true ∧ bits (dw (ent 0x12 7 [5, 10000]) 2) 0 14 = 10000
    ∧ bits (dw (ent 0x12 7 [5, 10001]) 2) 0 14 = 10001 ∧ bit (dw (ent 0x12 7 [5, 0x80000001]) 2) 31 = true ∧ (s.inst 5).st = .active
    ∧ (q.inst 5).st = .quiescing ∧ q.quiet 5 = true ∧ (q.fn 5).flr = none ∧ q.hearthRuns = true ∧ (q.inst 5).forced = false
    ∧ (fetched q 0x40 5 1 7 []).quiet 5 = false ∧ ((with5 .quiesced).inst 5).st = .quiesced
    ∧ starts (fetched (with5 .quiesced) 0x13 0 0 7 [5]) 0x13 0 0 7 = true := by decide +kernel

/-- A reset, a destruction and a re-arming of instances quiet and not, named by a kiln stream and not; a buffer that holds a record and one too short. -/
theorem test_meets_InstancesEnd :
    let q := with5 .quiesced
    let k := q.withStream 3 fun x => { x with bind := 1, bindFn := 5 }
    starts (fetched q 0x14 0 0 7 [5]) 0x14 0 0 7 = true ∧ starts (fetched q 0x15 0 0 7 [5]) 0x15 0 0 7 = true
    ∧ starts (fetched (with5 .fenced) 0x16 0 0 7 [5]) 0x16 0 0 7 = true ∧ starts (fetched q 0x17 0 0 7 ten5) 0x17 0 0 7 = true
    ∧ q.quiet 5 = true ∧ q.threadsRun 5 = false ∧ q.kilnNames 5 = none ∧ k.kilnNames 5 = some 3 ∧ (fetched q 0x40 5 1 7 []).quiet 5 = false
    ∧ q.descOwn 0 (descAt (ent 0x17 7 ten5) 8) = true ∧ (descAt (ent 0x17 7 ten5) 8).len = 128
    ∧ q.descOwn 0 (descAt (ent 0x17 7 [5, 0, 0x80000000, 128]) 8) = false := by decide +kernel

/-- Two SSDs attached, an Ns of each kind on port 0. -/
def stored : State := (dev .blaze).withStor fun x => { x with
  ports := [(0, { RootPort.reset with st := 2, linkUp := true, ident := some { (default : SsdIdentity) with namespaceCount := 32, capacityBlocks := 100000 } })
    , (1, { RootPort.reset with st := 7 })]
  ns := [(1, ⟨false, 0, none, 0, 16, 0, 0, 0, false, 0, 0, 0, [], [], 0, false⟩),
    (2, ⟨true, 0, none, 0, 1024, 4, 8, 8, false, 0, 0, 0, [], [], 0, false⟩)] }

/-- A job that takes a lock with the table a place short of full and a job that takes none. -/
theorem test_meets_StorageChecks_StorageStarts : (Job.new (.command 0 0 7) 0x20 3 0 3 0 1 1).locks = false ∧ stored.stor.lockers.length < 4096
    ∧ (stored.withStor fun x => { x with lockFull := true }).stor.lockFull = true := by decide +kernel

/-- Namespaces made, deleted, identified, erased and released: good ones and what refuses each. -/
theorem test_meets_NamespaceAdmin :
    let s := stored
    let bound := s.withStream 0 fun x => { x with st := .opened, record := overlay x.record 4 [2] }
    let off := s.withPort 0 fun x => { x with st := 7 }
    let c := [3, 0, 16, 0]
    starts (fetched s 0x20 0 0 7 c) 0x20 0 0 7 = true ∧ s.nsCreateCheck (ent 0x20 7 c) 3 = .ok ∧ s.nsCreateCheck (ent 0x20 7 [0, 0, 16, 0]) 0 = .outOfRange
    ∧ s.nsCreateCheck (ent 0x20 7 c) 128 = .ok ∧ s.nsCreateCheck (ent 0x20 7 c) 129 = .outOfRange
    ∧ starts (fetched s 0x21 0 0 7 [1]) 0x21 0 0 7 = true ∧ s.nsRefused 0 1 false = none ∧ (s.nsNamed 1).map (·.evidence) = some false
    ∧ (s.nsNamed 2).map (fun x => (x.evidence, decide (x.rp ≠ x.ap))) = some (true, true) ∧ s.nsRefused 0 3 false = some .fieldInvalid
    ∧ s.portUsable 0 = true ∧ off.portUsable 0 = false ∧ bound.nsBound 2 = true ∧ s.nsBound 2 = false
    ∧ starts (fetched s 0x22 0 0 7 [1, 0x5000, 0, 64]) 0x22 0 0 7 = true ∧ s.nsRefused 0 1 true = none
    ∧ s.descOwn 0 (descAt (ent 0x22 7 [1, 0x5000, 0, 64]) 8) = true ∧ (descAt (ent 0x22 7 [1, 0x5000, 0, 64]) 8).len = 64
    ∧ starts (fetched s 0x23 0 0 7 [1]) 0x23 0 0 7 = true ∧ starts (fetched s 0x24 0 0 7 [2, 8]) 0x24 0 0 7 = true
    ∧ (s.nsNamed 2).map (fun x => (decide (x.rp ≤ 4), decide (8 ≤ x.cp))) = some (true, true) := by decide +kernel

/-- A prepare with its word on ports of each kind, a detach free, bound and in hand, an attach of a detached port. -/
theorem test_meets_NamespaceAdmin_SsdAdmin :
    let s := stored
    let p (k : Nat) := s.withPort 1 fun x => { x with st := k }
    starts (fetched s 0x25 0 0 7 [1, 0x960D0000]) 0x25 0 0 7 = true ∧ bits (dw (ent 0x25 7 [1, 0x960D0000]) 2) 16 16 = 0x960D
    ∧ ((p 3).port 1).st = 3 ∧ ((p 2).port 1).st = 2 ∧ (p 2).nsOn 1 = [] ∧ s.nsOn 0 ≠ [] ∧ (s.port 1).st ≠ 3
    ∧ starts (fetched s 0x26 0 0 7 [0]) 0x26 0 0 7 = true ∧ (s.nsOn 0).any (fun kv => s.nsBound kv.1) = false
    ∧ ((s.withStream 0 fun x => { x with st := .opened, record := overlay x.record 4 [2] }).nsOn 0).any
        (fun kv => (s.withStream 0 fun x => { x with st := .opened, record := overlay x.record 4 [2] }).nsBound kv.1) = true
    ∧ (s.port 0).detach = none ∧ starts (fetched s 0x27 0 0 7 [1]) 0x27 0 0 7 = true ∧ (s.port 1).st = 7 ∧ (s.port 0).st = 2 := by decide +kernel

/-- A buffer descriptor of one block at 0x5000. -/
def oneBlock (ns first : Nat) : List Nat := [ns, first, 0, 0x5000, 0, 4096]

/-- Each storage command on its kind of namespace: at the last block, past it, without room, on a port that is off, on another instance's number. -/
theorem test_meets_StorageCommands :
    let s := stored.setSq 0 1 ⟨0x1000, 16, 1, 0, 1, 4, 0, true, 1, 1, false, none, none, 0⟩
    let e (op ns first : Nat) := ent op 7 (oneBlock ns first)
    [0x40, 0x41, 0x42, 0x43, 0x44, 0x45, 0x48].all (fun op => starts (fetched s op 0 1 7 (oneBlock 1 15)) op 0 1 7) = true
    ∧ (match s.ioNs 0 1 true with
       | .ok x => decide (s.ioCheck x 15 1 false true true true = .ok) && decide (s.ioCheck x 16 1 false true true true = .outOfRange)
           && decide (s.ioCheck x 0 0 false false true false = .ok) && decide (s.ioCheck x 15 1 false true true false = .ok)
       | .error _ => false) = true
    ∧ (match s.ioNs 0 2 true with
       | .ok x => decide (s.ioCheck x 7 1 false true true true = .ok) && decide (s.ioCheck x 3 1 false true true true = .outOfRange) && x.evidence
           && x.room 1020 && !x.room 1021 && !s.nsBound 2
       | .error _ => false) = true
    ∧ s.descOwn 0 (descAt (e 0x40 1 15) 16) = true ∧ s.bufLen 0 (descAt (e 0x40 1 15) 16) 0 default = .ok 4096 ∧ storageLengthOk 4096 = true
    ∧ storageLengthOk 4095 = false ∧ storageLengthOk 0x1000000 = true ∧ storageLengthOk 0x1001000 = false
    ∧ (match s.writeData 0 (descAt (e 0x41 1 15) 16) (.bytes [] [7]) 4096 with
       | .ok b => b.length == 4096
       | .error _ => false) = true
    ∧ s.writeData 0 (descAt (e 0x41 1 15) 16) .error 4096 = .error .hostReadError ∧ s.ioNs 0 3 true = .error .fieldInvalid
    ∧ s.ioNs 5 1 false = .error .notYourInstance ∧ (stored.withPort 0 fun x => { x with st := 7 }).portUsable 0 = false := by decide +kernel

/-- A block of the block's length, and one that cannot be read. -/
theorem test_meets_StorageChecks : (zeros 4096).length = 4096 ∧ (⟨false, [], []⟩ : BlockRead).readable = false := by decide +kernel

/-- A root port in each state that a clause names, its link up and down, a back-end command new and issued again, a namespace of each kind. -/
theorem test_meets_RootPorts :
    let p (k : Nat) (up : Bool) := stored.withPort 0 fun x => { x with st := k, linkUp := up, cmds := [⟨4, 1, 2, 0, 1, 0, 1, [], false⟩, ⟨5, 1, 2, 0, 1, 0, 1, [], true⟩] }
    ((p 2 true).port 0).linkUp = true ∧ ((p 2 false).port 0).linkUp = false ∧ ((p 1 false).port 0).st = 1 ∧ ((p 5 true).port 0).st = 5
    ∧ ((p 7 true).port 0).st = 7 ∧ ((p 0 true).port 0).st = 0 ∧ ((p 1 true).port 0).recovering = false
    ∧ (((p 2 true).port 0).cmds.find? (fun b => b.id == 4)).map (·.reissued) = some false
    ∧ (((p 2 true).port 0).cmds.find? (fun b => b.id == 5)).map (·.reissued) = some true
    ∧ ((p 2 true).port 0).cmds.find? (fun b => b.id == 6) = none ∧ (stored.ns? 2).map (·.evidence) = some true
    ∧ (stored.ns? 1).map (·.evidence) = some false ∧ stored.ns? 3 = none ∧ 256 % 256 = 0 ∧ 255 % 256 ≠ 0 := by decide +kernel

/-- A key slot of instance 0 fit for a kiln stream, and a stream record on evidence namespace 2 that names it. -/
def kilnRec : Bytes := padTo 64 (leBytes 4 9 ++ [2, 4, 0, 0] ++ leBytes 2 10 ++ leBytes 2 1 ++ [0, 0] ++ leBytes 2 2 ++ leBytes 2 64 ++ leBytes 2 1
  ++ leBytes 2 3 ++ List.replicate 14 0xFF)

def kilnKey : KeySlot := ⟨false, 3, 1, 0x40, zeros 32, 0, 100, 0, false, 0⟩

/-- A device with the SSD, that key in slot 3, CQ 1 and stream 0 under the record, in a state. -/
def kilned (st : StreamState) : State :=
  (((stored.setCq 0 1 ⟨0x2000, 16, true, 0, 0, 0, 1, 0, true, 0, 0, false, false, [], [], 0⟩).setSlot 3 kilnKey)).withStream 0 fun x => { x with
    st := st, record := if st = .unused then x.record else kilnRec }

/-- A record good, out of range, reserved; keys good, of another instance, absent; an OPEN good and refused for each reason; a delete. -/
theorem test_meets_KilnStreamsMade :
    let s := kilned .unused
    let k := kilned .closed
    let w := [0, 0x5000, 0, 64]
    let c : Ctx := ⟨0, 0, 7, ent 0x28 7 w, false⟩
    starts (fetched s 0x28 0 0 7 w) 0x28 0 0 7 = true ∧ s.kilnBuffer c 64 (.bytes [] kilnRec) = .ok kilnRec
    ∧ s.kilnBuffer c 64 .timeout = .error .hostReadTimeout ∧ kilnRecordOut kilnRec = false ∧ kilnRecordZero kilnRec = true
    ∧ kilnRecordOut (overlay kilnRec 5 [3]) = true ∧ kilnRecordOut (overlay kilnRec 5 [9]) = false ∧ kilnRecordOut (overlay kilnRec 5 [10]) = true
    ∧ kilnRecordZero (overlay kilnRec 13 [1]) = false ∧ s.kilnKeysBad (keyList (sub kilnRec 20 16)) 9 = none
    ∧ s.kilnKeysBad [4] 9 = some .fieldInvalid ∧ s.kilnKeysBad [64] 9 = some .notYourInstance
    ∧ s.evidenceNs 2 = true ∧ s.evidenceNs 1 = false ∧ s.indexCqOk 0 1 = true ∧ s.indexCqOk 0 2 = false ∧ (s.stream 0).st = .unused
    ∧ s.nsTaken 0 2 = false ∧ starts (fetched k 0x29 0 0 7 [0]) 0x29 0 0 7 = true ∧ (k.stream 0).st = .closed
    ∧ k.kilnKeysBad ((k.stream 0).keys.drop ((k.stream 0).cur.getD 0)) (k.stream 0).sid = none ∧ (k.nsNamed (k.stream 0).ns).map (·.streamId) = some 0
    ∧ (k.port 0).st = 2 ∧ k.kilnTotalsBad 0 = false ∧ (k.usableKey (k.stream 0)).isSome = true
    ∧ ((k.setSlot 3 { kilnKey with count := 100 }).usableKey (k.stream 0)) = none
    ∧ (k.withStream 0 fun x => { x with record := overlay x.record 14 (leBytes 2 1025) }).kilnTotalsBad 0 = true
    ∧ starts (fetched k 0x2C 0 0 7 [0]) 0x2C 0 0 7 = true ∧ (k.stream 0).openTag = none := by decide +kernel

def seg0 : Segment := ⟨0, 8, 0, 3, 1, zeros 32, false, false, true, zeros 16, [1, 2], 1, 0, 0, none, 0, [], 0, false, 0, false, false⟩

/-- A stream OPEN with a segment and without, PAUSED, CLOSING; lists of keys in range and past it; a buffer that holds the record; a CQ to bind. -/
theorem test_meets_KilnStreamsManaged :
    let s := kilned .opened
    let g := s.withStream 0 fun x => { x with segs := [seg0], cur := some 0 }
    let w := [0, 0x5000, 0, 64]
    let c : Ctx := ⟨0, 0, 7, ent 0x2B 7 [0, 0x5000, 0, 16], false⟩
    let list : Bytes := leBytes 2 3 ++ List.replicate 14 0xFF
    starts (fetched s 0x2A 0 0 7 [0]) 0x2A 0 0 7 = true ∧ (s.stream 0).openSeg = none ∧ (g.stream 0).openSeg.isSome = true
    ∧ ((kilned .paused).stream 0).st = .paused ∧ ((kilned .closing).stream 0).st = .closing
    ∧ starts (fetched s 0x2B 0 0 7 [0, 0x5000, 0, 16]) 0x2B 0 0 7 = true ∧ s.kilnBuffer c 16 (.bytes [] list) = .ok list ∧ keyList list = [3]
    ∧ keyList (leBytes 2 4096 ++ List.replicate 14 0xFF) = [4096] ∧ s.kilnKeysBad [3] (s.stream 0).sid = none
    ∧ s.kilnKeysBad [5] (s.stream 0).sid = some .fieldInvalid ∧ starts (fetched s 0x2D 0 0 7 w) 0x2D 0 0 7 = true
    ∧ s.descOwn 0 (descAt (ent 0x2D 7 w) 8) = true ∧ (descAt (ent 0x2D 7 w) 8).list = false ∧ (descAt (ent 0x2D 7 w) 8).len = 64
    ∧ starts (fetched s 0x2E 0 0 7 [0, 1]) 0x2E 0 0 7 = true ∧ (s.cq? 0 1).isSome = true ∧ s.cq? 0 2 = none := by decide +kernel

/-- A lease that is written for a stream that opens, and for one that is OPEN. -/
theorem test_meets_KilnFrames_KilnLeases :
    let o := (kilned .closed).withStream 0 fun x => { x with leaseWrite := some 0x100000, openTag := some 7, engine := some 0 }
    let r := (kilned .opened).withStream 0 fun x => { x with leaseWrite := some 0x100000 }
    (o.stream 0).leaseWrite = some 0x100000 ∧ (o.stream 0).openTag = some 7 ∧ (o.ns? (o.stream 0).ns).map (·.port) = some 0 ∧ o.kiln.pf = none
    ∧ o.streamPort (o.stream 0) = 0 ∧ (o.port 0).st = 2 ∧ o.kiln.stopped = false ∧ (o.stream 0).st ≠ .opened
    ∧ (r.stream 0).openTag = none ∧ (r.stream 0).bound = true ∧ ((kilned .closed).stream 0).leaseWrite = none := by decide +kernel

/-- A frame that just fits the queue of 64 KiB and one a byte too long; an open segment. -/
theorem test_meets_KilnFrames :
    let s := (kilned .opened).withStream 0 fun x => { x with segs := [seg0], queue := [⟨0, 0, 0, zeros 60000⟩] }
    (s.stream 0).st = .opened ∧ s.kiln.stopped = false ∧ (s.stream 0).queued + 5536 = (s.stream 0).queueKib * 1024 ∧ (s.stream 0).openSeg = some seg0
    ∧ ((kilned .paused).stream 0).st = .paused ∧ ((kilned .paused).stream 0).cause ≠ Status.evidenceFull.code ∧ (dev .glow).domOn domKILN = false
    ∧ ((kilned .opened).stream 0).queue = [] ∧ ((kilned .closed).stream 0).st ≠ .opened ∧ ((kilned .opened).stream 0).openSeg = none := by
  decide +kernel

/-- The words of a cipher job of 512 bytes that names the slot of its mode's number and any engine. -/
def jobWords (op : Nat) : List Nat :=
  let k := cipherKind op
  [0x1F0000 + k.mode, ((k.ivLen.head?).map (·.1)).getD 0 + ((k.tagLen.getLast?).map (·.2)).getD 0 * 256 + (if k.mode = 5 then 0x90000 else 0)
    , 0, 0x5000, 0, 512, 0, 0x8000, 0, 1024]

/-- A device with a key in slots 0 to 8, slot k for MODE k with every use. -/
def keyed : State := (List.range 9).foldl (fun (s : State) m =>
  s.setSlot m ⟨false, if m = 8 then 8 else 3, m, 0x8F, zeros 32, 0, 100, 0, false, 0⟩) (dev .blaze)

def job0 : CJob := ⟨0, 1, 7, none, none, 1, [], 0, 0, []⟩

/-- A GCM job that waits, and one with all its input on engine 0. -/
def ciphering : State :=
  (fetched (keyed.withPow fun p => { p with domains := [] }) 0x60 0 1 7 (jobWords 0x60)).withCipher fun c => { c with jobs := [job0] }

/-- Each of the 17 commands starts and passes its checks; a reserved field, a foreign slot and an empty one fail them. A waiting job has its engine and its slot,
one done its input. -/
theorem test_meets_CipherJobs :
    let d := ciphering.withCipher fun c => { c with jobs := [{ job0 with on := some 15, phase := 1 }] }
    (List.range 17).all (fun i => starts (fetched keyed (0x60 + i) 0 1 7 (jobWords (0x60 + i))) (0x60 + i) 0 1 7
      && cipherZeroOk (0x60 + i) (ent (0x60 + i) 7 (jobWords (0x60 + i)))
      && decide (keyed.cipherCheck 0 (0x60 + i) (ent (0x60 + i) 7 (jobWords (0x60 + i))) = none)) = true
    ∧ cipherZeroOk 0x60 (ent 0x60 7 [0x1F0001, 0x1100C]) = false ∧ keyed.cipherCheck 0 0x60 (ent 0x60 7 [0x1F0040]) = some .notYourInstance
    ∧ keyed.engineOwner 0 = none ∧ ((keyed.withCipher fun c => { c with locks := [(0, 5)] }).engineOwner 0) = some 5
    ∧ keyed.slot? 9 = none ∧ (keyed.slot? 1).isSome = true ∧ (cipherKind 0x60).mode ≠ 0
    ∧ ciphering.cjob? 0 1 7 = some job0 ∧ (ciphering.ctx? 0 1 7).isSome = true ∧ ciphering.domOn domCIPHER = true ∧ ciphering.kiln.stopped = false
    ∧ ciphering.engineFor job0 = some 0 ∧ ciphering.slotWaits 0x60 1 = false ∧ ciphering.slotRefusal 0x60 1 = none
    ∧ (ciphering.slot? 1).map (fun x => (x.restoring, x.leaseHolds)) = some (false, false) ∧ ciphering.slotRefusal 0x60 9 = some .keyEmpty
    ∧ d.engineJob 15 = some { job0 with on := some 15, phase := 1 } ∧ ({ job0 with phase := 1 } : CJob).readsDone = true ∧ ciphering.engineJob 0 = none := by
  decide +kernel

def gcmEntry : Bytes := padTo 144 (ent 0x60 7 (jobWords 0x60))

/-- An encryption of each kind answers data with its tag, and the entry of a decryption that carries the tag. -/
theorem test_meets_CipherInverse :
    (match cipherCompute 0x60 3 gcmEntry (zeros 32) [1, 2] [] with
     | .ok out => out.length == 18 && decide (cjIv (overlay gcmEntry 96 (out.drop 2)) = cjIv gcmEntry)
         && decide (sub (overlay gcmEntry 96 (out.drop 2)) 96 (cjTagLen gcmEntry) = out.drop 2) && decide (sub gcmEntry 96 16 ≠ out.drop 2)
     | .error _ => false) = true
    ∧ (match cipherCompute 0x6B 3 (padTo 144 (ent 0x6B 7 (jobWords 0x6B))) (zeros 32) [1, 2] [] with
     | .ok out => out.length == 16
     | .error _ => false) = true := by decide +kernel

def keyCmd (op : Nat) (ws : List Nat) : State := fetched (keyed.withPow fun p => { p with domains := [] }) op 0 1 7 ws

/-- Each key command on a slot of its own, with the words of a good one, and those that its clauses refuse. -/
theorem test_meets_KeyCommands :
    let k := keyed.withPow fun p => { p with domains := [] }
    let gen := [9, 0x010103, 0]
    let e := ent 0x78 7 gen
    starts (keyCmd 0x78 gen) 0x78 0 1 7 = true ∧ k.domOn domCIPHER = true ∧ (dev .glow).domOn domCIPHER = false
    ∧ k.ownsSlot 0 63 = true ∧ k.ownsSlot 0 64 = false ∧ attrsOutOfRange (byteAt e 8) (byteAt e 9) (leAt e 10 2) = false
    ∧ attrsOutOfRange 9 1 1 = true ∧ attrsOutOfRange 8 9 0x1FF = false ∧ leAt e 16 8 ≤ limitCap 1 1 ∧ k.slot? 9 = none
    ∧ attrsAgree 3 1 1 (typeLen 3) = true ∧ byteAt e 12 = 0 ∧ bit (leAt e 10 2) 8 = false
    ∧ starts (keyCmd 0x79 [9, 0x1FF0000, 0, 0x5000, 0, 128]) 0x79 0 1 7 = true
    ∧ starts (keyCmd 0x7A [1, 2, 0, 0x5000, 0, 128]) 0x7A 0 1 7 = true ∧ (k.slot? 1).map (fun x => (bit x.usage 7, x.restoring)) = some (true, false)
    ∧ k.sealStore.lifecycle ≠ 2 ∧ starts (keyCmd 0x7B [1]) 0x7B 0 1 7 = true ∧ k.slotListed 1 = false ∧ k.cipher.vault.get? 1 = none
    ∧ starts (keyCmd 0x7C [1, 0, 0, 0x5000, 0, 48]) 0x7C 0 1 7 = true ∧ starts (keyCmd 0x7D [1, 50]) 0x7D 0 1 7 = true
    ∧ (k.slot? 1).map (fun x => (decide (50 ≤ x.limit), decide (x.count < 50), decide (x.limit < 101))) = some (true, true, true)
    ∧ ((kilned .opened).slotListed 3) = true ∧ (k.scatter 0 (descAt (ent 0x7C 7 [1, 0, 0, 0x5000, 0, 48]) 16) 0 default (zeros 48)).2 = none
    ∧ k.gather 0 (descAt (ent 0x79 7 [9, 0x1FF0000, 0, 0x5000, 0, 128]) 16) 128 0 (.bytes [] (zeros 128)) = .ok (zeros 128)
    ∧ blobShaped (zeros 128) 0 = false := by decide +kernel

/-- A blob of form 0 with its fixed fields, and the slot it describes. -/
def blob0 : Bytes := padTo 128 (leBytes 4 0x4B594C42 ++ [1, 0, 3, 1] ++ leBytes 2 1 ++ [32])

theorem test_meets_KeyCommands_import : blobShaped blob0 0 = true
    ∧ (match keyed.blobCheck 0 (blobSlot blob0 (sub blob0 48 64)) 0x1FF with
       | .ok x => x.type == 3 && x.mode == 1
       | .error _ => false) = true ∧ bit (leAt blob0 8 2 &&& 0x1FF) 8 = false ∧ (dev .blaze).dget 0x2845 1 = 0 := by decide +kernel

/-- Check jobs of one block, of none, of an array too short; a slice in hand; a vault write new, tried again, of an entry and of a removal; a restore. -/
theorem test_meets_ChecksAndVault :
    let k := keyed.withPow fun p => { p with domains := [] }
    let w := [0, 0, 0, 0x5000, 0, 4096, 0, 0, 0, 0, 0, 0x9000, 0, 4]
    let s (r : Bool) (x : Option KeySlot) := k.withCipher fun c => { c with writes := [⟨1, x, r, none, none⟩] }
    let u := (fetched k 0x80 0 1 7 w).withCipher fun c => { c with checks := [⟨0, 1, 7, some 7, 0, 0, 0, none⟩] }
    [0x80, 0x81, 0x82].all (fun op => starts (fetched k op 0 1 7 w) op 0 1 7) = true ∧ k.descOwn 0 (kjSrc (ent 0x81 7 w)) = true
    ∧ k.descOwn 0 (kjArray (ent 0x81 7 w)) = true ∧ (kjSrc (ent 0x81 7 w)).list = false ∧ checkLenOut 0x81 4096 = false ∧ checkLenOut 0x81 4095 = true
    ∧ checkLenOut 0x80 0 = false ∧ (kjArray (ent 0x81 7 w)).len = 4096 / 4096 * 4
    ∧ (u.cipher.checks.find? fun j => j.unit == some 7).isSome = true ∧ (u.ctx? 0 1 7).isSome = true ∧ u.domOn domCIPHER = true
    ∧ (s false none).cipher.writes = [⟨1, none, false, none, none⟩] ∧ (s true none).cipher.writes = [⟨1, none, true, none, none⟩]
    ∧ ((s true (some kilnKey)).cipher.writes.head?.bind (·.entry)).isSome = true ∧ k.cipher.writes = []
    ∧ (k.withCipher fun c => { c with restore := true }).cipher.restore = true ∧ k.cipher.restore = false ∧ k.sealStore.lifecycle ≠ 2
    ∧ k.waitingJobs = [] := by decide +kernel

/-- A free engine for instance 0, one that it holds, one of another's, none left to take, the device before READY. -/
theorem test_meets_CipherJobs_EngineLocks :
    let h := (dev .blaze).hostActivity
    let l := (dev .blaze).withCipher fun c => { c with locks := [(3, 0), (4, 5)] }
    (dev .blaze).decodes 0 = true ∧ h.engineOwner 15 = none ∧ (h.inst 0).st = .active ∧ (h.enginesHeld 0).length < h.limit 0 14 1
    ∧ l.hostActivity.engineOwner 3 = some 0 ∧ l.hostActivity.engineOwner 4 = some 5
    ∧ ((dev .blaze).withBoot fun b => { b with ready := false }).decodes 0 = true := by decide +kernel

/-- A port 4 that receives, port 0 on a ring. -/
def linked : State := ((((devOn .blaze).dset (pIdx 4 0) 1 1).dset (pIdx 0 0) 1 1).withEg 4 fun x => { x with up := true }).withEg 0 fun x => { x with up := true }

def ringed : State := linked.withRing 0 fun x => { x with on := true, east := 0, west := 1 }

def frame0 (et : Nat) (n : Nat) : Bytes := padTo n ([2, 0, 0, 0, 0, 1, 2, 0, 0, 0, 0, 2] ++ beBytes 2 et)

/-- A port that receives and one that does not exist; frames at both ends of the length, of each EtherType that is told apart, while the device drains. -/
theorem test_meets_FramesTaken :
    let s := linked
    s.receives 4 = true ∧ (dev .blaze).receives 4 = false ∧ s.draining = false ∧ (s.withPow fun p => { p with stage := 1 }).draining = true
    ∧ (frame0 0x0800 60).length + 4 = 64 ∧ (frame0 0x0800 59).length + 4 < 64 ∧ 64 ≤ s.dget (pIdx 4 0) 4 ∧ beAt (frame0 0x8808 60) 12 2 = 0x8808
    ∧ beAt (frame0 0x88B5 60) 12 2 = 0x88B5 ∧ ringed.receives 0 = true ∧ ringed.ringOf 0 = some (0, true) ∧ ringed.ringOf 1 = some (0, false)
    ∧ (parseFrame (frame0 0x0800 60)).tagged = false ∧ inVlan (zeros 512) 1 = false := by decide +kernel

/-- A table entry of instance 0: MAC key, physical port 4. -/
def entry0 : Bytes := overlay (overlay (zeros 64) 0 [1]) 48 [1]

/-- An entry that is inserted under its key; each command with its buffer, PIPE on and off; handles held, full and absent. -/
theorem test_meets_ForwardingTable :
    let s := (devOn .blaze).withInst 0 fun x => { x with record := overlay x.record 56 (leBytes 4 16) }
    let w (len : Nat) := [0, 0, 0, 0x5000, 0, len]
    let d := descAt (ent 0xA0 7 (w 64)) 16
    let r := s.tblInsert 0 entry0 false
    let h (n : Nat) := s.withTable fun t => { t with handles := [(0, ⟨0, 1, 2, List.replicate n (0, entry0)⟩)] }
    r.1 = .done .ok ((r.2.pipe.table.lookup (entry0.take 48)).map (·.1) |>.getD 0) ∧ (r.2.pipe.table.lookup (entry0.take 48)).isSome = true
    ∧ s.pipe.table.lookup (entry0.take 48) = none ∧ (dev .glow).domOn domPIPE = false ∧ s.domOn domPIPE = true
    ∧ [0xA0, 0xA1, 0xA2, 0xA3, 0xA4].all (fun op => starts (fetched s op 0 1 7 (w 64)) op 0 1 7) = true ∧ s.descOwn 0 d = true ∧ d.list = false
    ∧ d.len = 64 ∧ (descAt (ent 0xA1 7 (w 47)) 16).len < 48 ∧ s.gather 0 d 64 0 (.bytes [] entry0) = .ok entry0
    ∧ s.gather 0 d 64 0 .error = .error .hostReadError ∧ (h 7).handle? 0 0 = some ⟨0, 1, 2, List.replicate 7 (0, entry0)⟩
    ∧ ((h 8).handle? 0 0).map (fun x => decide (8 ≤ x.ops.length)) = some true ∧ s.handle? 0 0 = none
    ∧ starts (fetched s 0xA5 0 1 7 []) 0xA5 0 1 7 = true ∧ (descAt (ent 0xA5 7 []) 16).len = 0 ∧ bit (dw (ent 0xA5 7 [0x100]) 1) 8 = true
    ∧ starts (fetched s 0xA6 0 1 7 [0, 65535, 65536, 0x5000, 0, 64]) 0xA6 0 1 7 = true
    ∧ leAt (ent 0xA6 7 [0, 65535, 65536, 0x5000, 0, 64]) 8 4 = 65535 ∧ (h 0).pipe.table.handles.get? 1 = none := by decide +kernel

/-- A FIFO with a request and full, at the limit of instance 0 and below it; entries static, hit, old and young; a locked bucket. -/
theorem test_meets_LearningAndAgeing :
    let s := devOn .blaze
    let r : LearnReq := ⟨zeros 48, 1, 4⟩
    let q := s.withTable fun t => { t with fifo := [r], learnStop := true }
    let e (f : Nat) := withFlags entry0 f
    s.pipeOn = true ∧ (dev .glow).pipeOn = false ∧ s.pipe.table.fifo = [] ∧ q.pipe.table.fifo = [r] ∧ q.pipe.table.lookup r.key = none
    ∧ q.limit 0 56 4 ≤ q.pipe.table.owned 0 ∧ q.pipe.table.learnStop = true ∧ bit (byteAt [1, 0, 0, 0, 0, 0] 0) 0 = true
    ∧ (List.replicate 4096 r).length = 4096 ∧ r.key.length = 48 ∧ (e 1).length = 64 ∧ bit (entryFlags (e 1)) 0 = true
    ∧ bit (entryFlags (e 4)) 0 = false ∧ bit (entryFlags (e 4)) 2 = true ∧ bit (entryFlags (e 8)) 3 = true ∧ bit (entryFlags (e 8)) 2 = false
    ∧ (s.withTable fun t => { t with handles := [(0, ⟨0, 65535, 2, []⟩)] }).pipe.table.locked 65535 none = true := by decide +kernel

/-- A frame of 60 bytes and of 9,596 sent, one of 59; an area of the least size bound; buffers that come back in order, and past what is out. -/
theorem test_meets_PacketCommands :
    let s := (devOn .blaze).setCq 0 1 ⟨0x2000, 16, true, 0, 0, 0, 1, 0, true, 0, 0, false, false, [], [], 0⟩
    let w (len : Nat) := [0, 0, 0, 0x5000, 0, len]
    let b := s.withPipe fun p => { p with binds := [(0, ⟨1, [(false, 0x5000, 32768)], 16, 2048, 3, 14⟩)] }
    let bd := [1, 16 + 8 * 65536, 0, 0x5000, 0, 32768]
    starts (fetched s 0x90 0 1 7 (w 60)) 0x90 0 1 7 = true ∧ s.bufLen 0 (descAt (ent 0x90 7 (w 60)) 16) 0 default = .ok 60
    ∧ s.bufLen 0 (descAt (ent 0x90 7 (w 9596)) 16) 0 default = .ok 9596 ∧ s.bufLen 0 (descAt (ent 0x90 7 (w 9597)) 16) 0 default = .ok 9597
    ∧ (match s.gather 0 (descAt (ent 0x90 7 (w 60)) 16) 60 0 (.bytes [] []) with
       | .ok x => x.length == 60
       | .error _ => false) = true
    ∧ starts (fetched s 0x91 0 1 7 bd) 0x91 0 1 7 = true ∧ bits (dw (ent 0x91 7 bd) 1) 0 16 = 1 ∧ leAt (ent 0x91 7 bd) 8 2 = 16
    ∧ leAt (ent 0x91 7 bd) 10 2 = 8 ∧ (s.cq? 0 1).isSome = true ∧ s.areaOf 0 (descAt (ent 0x91 7 bd) 16) default = .ok [(false, 0x5000, 32768)]
    ∧ starts (fetched b 0x92 0 1 7 [1, 2]) 0x92 0 1 7 = true ∧ (b.vpBind? 0).map (fun x => ((x.next + x.free) % x.count, x.count - x.free)) = some (1, 2)
    ∧ s.vpBind? 0 = none ∧ (descAt (ent 0x92 7 [1, 2]) 16).len = 0 := by decide +kernel

/-- A port whose link may come up, one up with and without a ring, control frames of a foreign domain, of this device's own ID and of another member. -/
theorem test_meets_LinksAndRings :
    let up := (devOn .blaze).dset (pIdx 4 0) 1 1
    let src (d m : Nat) : ZeludSource := ⟨d, m, 1, 63⟩
    (up.egPort 4).up = false ∧ up.dget (pIdx 4 0) 1 ≠ 0 ∧ up.domOn (portDomain 4) = true ∧ up.kiln.stopped = false ∧ up.live = true
    ∧ (modeRates (up.dget (pIdx 4 0) 2)).isEmpty = false ∧ up.portShed 4 = false ∧ (linked.egPort 4).up = true ∧ linked.ringOf 4 = none
    ∧ (dev .blaze).receives 4 = false ∧ ringed.receives 0 = true ∧ linked.receives 0 = true ∧ ringed.ringOf 0 = some (0, true)
    ∧ (src 0 (ringed.domainId + 1)).domain ≠ ringed.domainId ∧ (src 0 ringed.domainId).domain = ringed.domainId
    ∧ (src ringed.deviceId 0).device = ringed.deviceId ∧ (src (ringed.deviceId + 1) 0).device ≠ ringed.deviceId
    ∧ ((ringed.ring 0).port true).failed = false ∧ ringed.pipeOn = true ∧ (ringed.ring 0).blocked = false ∧ ((ringed.ring 0).port true).out = false
    ∧ (ringed.ring 0).held = [] ∧ (ringed.ring 0).leaving = false ∧ (dev .glow).pipeOn = false := by decide +kernel

/-- A port with a PTP profile in each role, offsets on both sides of 10 µs, PPS in and out, a gate list in force at an entry and at its end, one pending. -/
theorem test_meets_TimeAndGates :
    let s := (devOn .blaze).dset (pIdx 4 4) 1 1
    let slave := s.dset (pIdx 4 4) 4 2
    let g := ((devOn .blaze).dset (sIdx 4 6) 1 1).dset (sIdx 4 6) 4 2
    s.hearthRuns = true ∧ s.ptpProfile 4 ≠ 0 ∧ s.ptpProfile 5 = 0 ∧ slave.ptpRole 4 = 2 ∧ (s.dset (pIdx 4 4) 4 1).ptpRole 4 = 1 ∧ s.ptpRole 4 ≠ 2
    ∧ s.dget 0x3180 2 ≠ 1 ∧ (s.dset 0x3180 2 1).dget 0x3180 2 = 1 ∧ s.dget 0x3180 0x0A ≠ 1 ∧ (s.dset 0x3180 0x0A 1).dget 0x3180 0x0A = 1
    ∧ 10000 ≤ (-10000 : Int).natAbs ∧ (9999 : Int).natAbs < 10000 ∧ s.dget 0x3180 0x0B = 0 ∧ (s.dset 0x3180 0x0B 1).dget 0x3180 0x0B = 1
    ∧ s.pipe.timeSet = none ∧ (s.dset 0x3180 0x0D 5).dget 0x3180 0x0D ≠ 0 ∧ s.pipe.ppsOut = false ∧ (s.egPort 4).busy = false
    ∧ ((linked.withEg 4 fun x => { x with busy := true, control := [.frame [1]] }).egPort 4).busy = true
    ∧ ((linked.withEg 4 fun x => { x with control := [.frame [1]] }).egPort 4).control = [.frame [1]] ∧ s.pipeOn = true ∧ s.gated 4 = false
    ∧ g.gated 4 = true ∧ g.dget (sIdx 4 6) 7 + 1 < (g.operList 4).length
    ∧ (g.operList 4).length ≤ (g.dset (sIdx 4 6) 7 1).dget (sIdx 4 6) 7 + 1 ∧ (g.egPort 4).realign = false ∧ (g.egPort 4).pendingList = none := by
  decide +kernel

/-- Words of the RISC-V encoding and of Table 14-4, the operands written out, and the instruction that each one is. -/
theorem test_decode32 : ([(0x123450B7, .lui 1 0x12345000), (0x00001117, .auipc 2 0x1000), (0x008000EF, .jal 1 8), (0xFFDFF06F, .jal 0 (-4)),
    (0x000080E7, .jalr 1 1 0), (0x00208463, .branch .eq 1 2 8), (0xFE20EEE3, .branch .ltu 1 2 (-4)), (0x00412083, .load 4 true 1 2 4),
    (0x00014083, .load 1 false 1 2 0), (0x00112223, .store 4 2 1 4), (0x00500093, .aluImm .add 1 0 5), (0x402081B3, .alu .sub 3 1 2),
    (0x0220C1B3, .alu .div 3 1 2), (0x00000073, .ecall), (0x00100073, .ebreak), (0x0000000F, .nop), (0xC0102573, .csr 2 0xC01 10 0),
    (0x00012081 % 4, .illegal), (0x0000808B, .tr .wait 1 1 0), (0x0020908B, .tr .rxf 1 1 2), (0x0000A08B, .tr .txf 1 1 0), (0x0000B08B, .tr .dma 1 1 0),
    (0x000080AB, .tr .claim 1 1 0), (0x002090AB, .tr .put 1 1 2), (0x0000A0AB, .tr .commit 1 1 0), (0x0000B0AB, .tr .recv 1 1 0),
    (0x0000C0AB, .tr .drop 1 1 0)] : List (Nat × RvOp)).all (fun p => decide (decode32 p.1 = p.2)) = true := by decide +kernel

/-- Core 0 up with a thread 0 that runs the word at address 0, its registers as given. -/
def threaded (w : Nat) (regs : SMap Nat) : State := ((devOn .blaze).withThread 0 fun x => { x with run := .running, regs := regs }).withFlow fun f =>
  { f with cores := [(0, ⟨1, Mem.writeN [] 0 (leBytes 4 w)⟩)] }

/-- A thread that issues each kind of instruction, at the ends of its slice and one past them; frames, messages, claims and transfers in hand and none. -/
theorem test_meets_ThreadsRun :
    let s := threaded 0x00500093 [(1, sliceBase), (2, 0x7FFF)]
    let x := s.thread 0
    let f : RxFrame := ⟨0, 4, none, 0, zeros 60⟩
    let txd (len : Nat) := s.withThread 0 fun y => y.sliceWrite sliceBase (leBytes 2 len)
    let dma (len : Nat) := s.withThread 0 fun y => y.sliceWrite sliceBase (leBytes 8 0 ++ leBytes 4 sliceBase ++ leBytes 3 len)
    let c (k m : Nat) := s.withChannel 256 fun _ => ⟨List.replicate m (0, [1]), some 0, List.replicate k 9⟩
    s.threadIssues 0 = true ∧ s.peat.replay = false ∧ s.threadFetch 0 = some (.aluImm .add 1 0 5, 4) ∧ (devOn .blaze).threadIssues 0 = false
    ∧ (s.withThread 0 fun y => { y with pc := 0xFFFF }).threadFetch 0 = none ∧ inSlice (sliceBase + 0x7FFC) 4 = true
    ∧ inSlice (sliceBase + 0x7FFD) 4 = false ∧ touches x.filling sliceBase 4 = false ∧ x.reg 1 = sliceBase
    ∧ touches ({ x with copy := some (0, [1]) } : Thread).filling sliceBase 4 = true ∧ s.csrAccess 0 0x300 = none
    ∧ touches ({ x with dmas := [⟨0, 0, 0, 4, true⟩] } : Thread).draining sliceBase 4 = true
    ∧ x.copy = none ∧ x.rxq = [] ∧ (s.withThread 0 fun y => { y with rxq := [f] }).waitPending 0 = 1 ∧ s.waitPending 0 = 0
    ∧ s.deliveryThread 0 = 0 ∧ s.deliveryThread (1 / 8) ≠ 1 ∧ x.reg 2 ≥ 16 + f.data.length ∧ inSlice (x.reg 1) (16 + f.data.length) = true
    ∧ leAt (((txd 60).thread 0).sliceRead sliceBase 8) 0 2 = 60 ∧ leAt (((txd 9596).thread 0).sliceRead sliceBase 8) 0 2 = 9596
    ∧ allZero (sub (((txd 60).thread 0).sliceRead sliceBase 8) 3 5) = true ∧ 60 + 4 ≤ s.bufferFree ∧ s.domOn domPIPE = true
    ∧ leAt (((dma 0x8000).thread 0).sliceRead sliceBase 16) 12 3 = 0x8000 ∧ inSlice (leAt (((dma 0x8000).thread 0).sliceRead sliceBase 16) 8 4) 0x8000 = true
    ∧ x.freeTag = some 0 ∧ (s.dramRegion (s.threadInst 0)).2 < 0 + 1 ∧ s.threadInst 0 = 0 ∧ s.claimOf 0 = none ∧ (s.channel 256).claimant = none
    ∧ (c 15 7).holds 0 256 = true ∧ ((c 15 7).channel 256).staged.length < 16 ∧ 16 ≤ ((c 16 7).channel 256).staged.length
    ∧ ((c 15 7).channel 256).msgs.length < 8 ∧ 8 ≤ ((c 15 8).channel 256).msgs.length ∧ s.holds 0 256 = false ∧ (s.channel 0).msgs = []
    ∧ (s.withThread 0 fun y => { y with timer := some 5 }).fclkOn = true ∧ (s.thread 0).txf = none := by decide +kernel

/-- Group 3 with thread 0 of core 0, in a state. -/
def grouped (st : Nat) : State := (threaded 0x00500093 []).withGroup 3 fun g => { g with st := st, core := 0, threads := 1, watchdog := 5 }

/-- Each command of a group in the state that takes it and in one that does not; quiet, stalled, faulted, halted; a core that reloads. -/
theorem test_meets_GroupsRun :
    let w := (grouped 2).withThread 0 fun x => { x with run := .waiting, wait := some (8, 1) }
    let d := ({ (grouped 2) with sealStore := ⟨[], 0, 0, 0⟩ }).dset 0x3C10 2 1
    let h := (d.withThread 0 fun x => { x with halted := true }).withChannel 9 fun _ => ⟨[], some 0, []⟩
    [0x103, 0x203, 0x303, 0x403].all (fun v => meets (dev .blaze) (w0 0x3802 1 v)) = true ∧ ((grouped 1).groupOf 3).st = 1
    ∧ ((grouped 1).inst ((grouped 1).groupOf 3).inst).st = .active ∧ ((grouped 2).groupOf 3).st = 2
    ∧ meets (with5 .active) (w0 (blk 5 0x2D) 1 3) = true ∧ meets (dev .blaze) (w0 (0x3840 + 31) 0x0A 7) = true
    ∧ ((grouped 3).groupOf 3).st = 3 ∧ (grouped 3).groupQuiet 3 = true ∧ ((grouped 3).groupOf 3).after = .stay
    ∧ ((grouped 3).withThread 0 fun x => { x with copy := some (0, []) }).groupQuiet 3 = false
    ∧ w.groupStalls 3 = true ∧ w.hearthRuns = true ∧ (grouped 2).groupStalls 3 = false ∧ (dev .blaze).groupStalls 3 = false
    ∧ (grouped 2).watched 0 = true ∧ (grouped 1).watched 0 = false ∧ (grouped 2).coreUp 0 = true ∧ ((grouped 2).thread 0).run ≠ .faulted
    ∧ (((grouped 2).threadFault 0 8).thread 0).handling = true ∧ (((grouped 2).threadFault 0 8).thread 0).run = .faulted
    ∧ d.debugger = true ∧ (grouped 2).debugger = false ∧ (h.thread 0).halted = true ∧ (h.claimOf 0).isSome = true ∧ d.claimOf 0 = none
    ∧ (((grouped 2).coreFault 0).fcore 0).st = 2 ∧ ((grouped 2).fcore 0).st ≠ 2 ∧ (steeringOf [1]).length = 64 := by decide +kernel

/-- A target whose stack holds source 5, the last number, one frozen, an empty one; target 32 of core 31. -/
theorem test_meets_StackFaults :
    let s (x : EgTarget) := (dev .blaze).withGatherer fun g => { g with targets := [(32, x)] }
    (s ⟨3, [(1023, 16)], false⟩).eg.target 32 = ⟨3, [(1023, 16)], false⟩ ∧ ((s ⟨16, [], true⟩).eg.target 32).frozen = true ∧ 1 + 248 / 8 = 32
    ∧ ((dev .blaze).eg.target 32).stack = [] ∧ (dev .blaze).hearthRuns = true ∧ plain.hearthRuns = false := by decide +kernel

/-- A target with a source to claim whose stack is in order, and claims at the first priority and at the last. -/
theorem test_meets_ClaimsNest :
    let g (p : Nat) : Gatherer := ⟨[(300, ⟨p, 7⟩)], [(300, ())], [(7, ⟨16, [], false⟩)]⟩
    (g 0).claimable 7 = none ∧ (g 1).claimable 7 = some 300 ∧ (g 15).claimable 7 = some 300
    ∧ ((g 15).target 7).frozen = false ∧ ((g 15).route 300).priority < ((g 15).target 7).running := by decide +kernel

theorem test_meets_ClaimsNest_nested : ((Gatherer.mk [] [] [(7, ⟨16, [], false⟩)]).target 7).Nested ∧ (⟨3, [(1, 5), (2, 16)], false⟩ : EgTarget).Nested := by
  constructor <;> simp [EgTarget.Nested, Gatherer.target, SMap.getD, SMap.get?]

/-- Pairs of priority 1 and target 0. -/
def mapPairs : Nat → Bytes
  | 0 => []
  | n + 1 => 1 :: 0 :: mapPairs n
/-- A SOURCE_MAP whose sources but 0 have priority 1 and target 0. -/
def mapOf (n : Nat) : Bytes := 0 :: 0 :: mapPairs n

theorem byteAt_mapPairs (n k : Nat) (h : k < n) : byteAt (mapPairs n) (2 * k) = 1 ∧ byteAt (mapPairs n) (2 * k + 1) = 0 := by
  induction n generalizing k with
  | zero => omega
  | succ n ih =>
    cases k with
    | zero => exact ⟨rfl, rfl⟩
    | succ k => exact ih k (by omega)
theorem mapPairs_length (n : Nat) : (mapPairs n).length = 2 * n := by
  induction n with
  | zero => rfl
  | succ n ih => simp only [mapPairs, List.length_cons, ih]; omega

theorem mapOf_length (m : Nat) : (mapOf m).length = 2 * m + 2 := by
  unfold mapOf; rw [List.length_cons, List.length_cons, mapPairs_length]

theorem byteAt_mapOf (m n : Nat) (h : n < m + 1) : byteAt (mapOf m) (2 * n) = (if n = 0 then 0 else 1) ∧ byteAt (mapOf m) (2 * n + 1) = 0 := by
  cases n with
  | zero => exact ⟨rfl, rfl⟩
  | succ n => exact byteAt_mapPairs m n (by omega)

theorem map_checks (b : Bytes) (l : b.length = 1280)
    (k : ∀ n, n < 640 → byteAt b (2 * n) = (if n = 0 then 0 else 1) ∧ byteAt b (2 * n + 1) = 0) : sourceMapCheck b = .ok := by
  unfold sourceMapCheck
  rw [if_neg (by simp [l]), if_neg, if_neg]
  · simp only [List.any_eq_true, List.mem_range, not_exists, not_and, Bool.and_eq_true, bne_iff_ne, ne_eq]
    intro n h _
    simp [(k n h).2]
  · simp only [List.any_eq_true, List.mem_range, not_exists, not_and]
    intro n h
    have a := k n h
    have c := k 0 (by omega)
    by_cases n = 0 <;> simp_all

theorem mapOf_checks : sourceMapCheck (mapOf 639) = .ok :=
  map_checks _ (mapOf_length 639) (fun n h => byteAt_mapOf 639 n h)

theorem test_meets_GathererRegisters_map : meets ((dev .blaze).dset 0x1040 1 9 |>.dset 0x1041 2 2) ⟨.onsia 1 2 7, .write, 0x3901, 1, (mapOf 639), .plain⟩ = true
    ∧ sourceMapCheck (mapOf 639) = .ok ∧ meets (dev .blaze) ⟨box0, .write, 0x3901, 1, zeros 1280, .plain⟩ = true ∧ sourceMapCheck (zeros 1280) ≠ .ok :=
  ⟨by decide +kernel, mapOf_checks, by decide +kernel, by decide +kernel⟩

/-- A target asked for by a source, source 0 waiting at target 0, a frozen target; routes that R453 takes and does not; a clear and a map written. -/
theorem test_meets_GathererRegisters :
    let g : Gatherer := ⟨[(639, ⟨15, 32⟩)], [(639, ())], []⟩
    let z : Gatherer := ⟨[], [(0, ())], [(0, ⟨16, [], true⟩)]⟩
    let s := (dev .blaze).withGatherer fun _ => g
    (g.target 32).frozen = false ∧ g.request 32 = true ∧ g.claimable 32 = some 639 ∧ s.hearthRuns = true ∧ s.eg.claimable 0 ≠ some 0
    ∧ s.eg.request 31 = false ∧ (s.eg.claim 0).1 % 1024 ≠ 0 ∧ (z.target 0).frozen = true ∧ z.isPending 0 = true
    ∧ ((⟨[], [(0, ())], []⟩ : Gatherer).claimable 0) = some 0 ∧ Gatherer.acceptsRoute 639 0 32 = true ∧ Gatherer.acceptsRoute 32 0 0 = false
    ∧ Gatherer.acceptsRoute 32 1 0 = true ∧ Gatherer.acceptsRoute 32 1 1 = false ∧ Gatherer.acceptsRoute 0 1 0 = false ∧ Gatherer.acceptsRoute 639 0 33 = false
    ∧ meets (dev .blaze) (w0 0x3900 8 32) = true := by decide +kernel

/-- An entry that its class filters, a token gained by the last class, summaries with and without refusals, exports with their addresses, the alarms' clauses. -/
theorem test_meets_AshLog :
    let e : AshEntry := ⟨0, 0, 7, 1, 0, 0, 0, []⟩
    let s := dev .blaze
    let x := ((s.dset 0x1040 1 9).dset 0x3A21 9 7).withAsh fun a => { a with back1 := [1] }
    let c := (s.dset 0x3A22 9 5).withAsh fun a => { a with back2 := [1] }
    let al := (s.dset (0x3A40 + 127) 10 1).withAsh fun a => { a with alarms := [(127, ⟨0, 4, true⟩)] }
    s.dget 0x3A03 (e.cls + 1) < e.severity ∧ s.awake = true ∧ plain.awake = false ∧ s.ash.interval.get? 15 = none ∧ s.ash.interval = []
    ∧ meets s (w0 0x3A00 3 1) = true ∧ meets s (w0 0x3A00 3 2) = true ∧ s.ash.log = [] ∧ s.ash.nextSeq = 1
    ∧ meets s ⟨box0, .read, 0x3A20, 9, [], .plain⟩ = true ∧ visible box0 0x3A20 = true
    ∧ (x.withPow fun p => { p with domains := [] }).domOn domPIPE = true ∧ x.dget 0x1040 1 ≠ 0 ∧ x.dget 0x3A21 9 ≠ 0 ∧ x.ash.back1 ≠ [] ∧ x.kiln.pf = none
    ∧ x.hearthRuns = true ∧ c.dget 0x3A22 9 ≠ 0 ∧ c.ash.back2 ≠ [] ∧ s.dget 0x3A22 9 = 0 ∧ meets s (w0 (0x3A40 + 127) 8 1) = true
    ∧ meets s (w0 0x3A30 3 1) = true ∧ (List.range 4).all (fun q => meets s (w0 (0x3A40 + 127) (q + 1) 0)) = true
    ∧ al.dget (0x3A40 + 127) 10 = 1 ∧ (al.ash.alarms.getD 127 ⟨0, 0, false⟩).inhibit = true
    ∧ al.dget (0x3A40 + 127) 5 ≠ (al.ash.alarms.getD 127 ⟨0, 0, false⟩).sentCount
    ∧ ((al.withAsh fun a => { a with alarms := [(127, ⟨0, 0, true⟩)] }).ash.alarms.getD 127 ⟨0, 0, false⟩).sentCount = al.dget (0x3A40 + 127) 5
    ∧ (s.ash.alarms.getD 127 ⟨0, 0, false⟩).inhibit = false := by decide +kernel

theorem crcBits_lt (k c : Nat) (h : c < 2 ^ 32) : crcBits 0x82F63B78 k c < 2 ^ 32 := by
  induction k generalizing c with
  | zero => exact h
  | succ k ih =>
    apply ih
    split
    · exact Nat.xor_lt_two_pow (by omega) (by decide)
    · omega

theorem crc32c_lt (b : Bytes) : crc32c b < 2 ^ 32 := by
  refine Nat.xor_lt_two_pow ?_ (by decide)
  have : ∀ (b : Bytes) (c : Nat), c < 2 ^ 32 → crcRun c b < 2 ^ 32 := by
    intro b
    induction b with
    | nil => intro c h; exact h
    | cons x t ih =>
      intro c h
      exact ih _ (crcBits_lt 8 _ (Nat.xor_lt_two_pow h (by have := x.isLt; omega)))
  exact this b _ (by decide)

theorem leNat_leBytes4 (n : Nat) (h : n < 2 ^ 32) : leNat (leBytes 4 n) = n := by
  simp only [leBytes, leNat, BitVec.toNat_ofNat]; omega

/-- The first 4,092 bytes of a peat header: magic, version and a measurement of zeros. -/
def peatBody : Bytes := leBytes 4 0x54414550 ++ leBytes 2 1 ++ zeros 4086
/-- That header with its check value. -/
def peatImage : Bytes := peatBody ++ leBytes 4 (crc32c peatBody)

theorem peatBody_length : peatBody.length = 4092 := by
  unfold peatBody zeros
  rw [List.length_append, List.length_append, List.length_replicate]; decide

theorem peatImage_length : peatImage.length = 4096 := by
  unfold peatImage
  rw [List.length_append, peatBody_length]; rfl

theorem peatImage_sub (o l : Nat) (h : o + l ≤ 4092) : sub peatImage o l = sub peatBody o l := by
  unfold peatImage sub
  rw [List.drop_append_of_le_length (by rw [peatBody_length]; omega), List.take_append_of_le_length (by rw [List.length_drop, peatBody_length]; omega)]

theorem peatImage_take : peatImage.take 4092 = peatBody := by
  unfold peatImage
  rw [List.take_append_of_le_length (by rw [peatBody_length])]
  exact List.take_of_length_le (by rw [peatBody_length])

theorem peatImage_tail : leAt peatImage 4092 4 = crc32c peatBody := by
  have : sub peatImage 4092 4 = leBytes 4 (crc32c peatBody) := by
    unfold peatImage sub
    rw [List.drop_append_of_le_length (by rw [peatBody_length]), List.drop_of_length_le (by rw [peatBody_length])]
    rfl
  rw [leAt, this, leNat_leBytes4 _ (crc32c_lt _)]

theorem peatBody_good : leAt peatBody 0 4 = 0x54414550 ∧ leAt peatBody 4 2 = 1 ∧ sub peatBody 16 48 = zeros 48 := by decide +kernel

theorem peatImage_good : leAt peatImage 0 4 = 0x54414550 ∧ leAt peatImage 4 2 = 1 ∧ leAt peatImage 4092 4 = crc32c (peatImage.take 4092)
    ∧ sub peatImage 16 48 = zeros 48 := by
  obtain ⟨a, b, c⟩ := peatBody_good
  refine ⟨?_, ?_, ?_, ?_⟩
  · rw [leAt, peatImage_sub 0 4 (by decide)]; exact a
  · rw [leAt, peatImage_sub 4 2 (by decide)]; exact b
  · rw [peatImage_take, peatImage_tail]
  · rw [peatImage_sub 16 48 (by decide)]; exact c

theorem image_checks (s : State) (b : Bytes) (hl : b.length = 4096) (hm : padTo 48 (s.dbytes 0x2200 7) = zeros 48)
    (h : leAt b 0 4 = 0x54414550 ∧ leAt b 4 2 = 1 ∧ leAt b 4092 4 = crc32c (b.take 4092) ∧ sub b 16 48 = zeros 48) :
    (s.withDram fun m => m.writeN s.peatBase b).imageCheck = .ok := by
  have r : (s.withDram fun m => m.writeN s.peatBase b).dram.readN s.peatBase 4096 = b := by
    have := Sys2Proof.Laws.readN_writeN s.dram s.peatBase b
    rwa [hl] at this
  have e : (s.withDram fun m => m.writeN s.peatBase b).peatBase = s.peatBase := rfl
  have f : (s.withDram fun m => m.writeN s.peatBase b).dbytes 0x2200 7 = s.dbytes 0x2200 7 := rfl
  obtain ⟨h1, h2, h3, h4⟩ := h
  simp only [State.imageCheck, e, f, r, h1, h2, ← h3, h4, hm, ne_eq, not_true_eq_false, or_self, if_false]

/-- A region whose image passes its check. -/
theorem test_meets_PeatRecorder_image :
    ((dev .blaze).withDram fun m => m.writeN (dev .blaze).peatBase peatImage).imageCheck = .ok :=
  image_checks _ _ peatImage_length (by decide +kernel) peatImage_good

set_option maxRecDepth 20000 in
/-- Each mode written, a trigger while recording and not, a freeze, a checkpoint, a window write at the region's last page, an arming. -/
theorem test_meets_PeatRecorder :
    let s := dev .blaze
    let r (k : Nat) := s.dset 0x3B00 3 k
    [0, 1, 2].all (fun m => meets s (w0 0x3B00 1 m)) = true ∧ meets s (w0 0x3B01 1 1) = true ∧ (r 1).dget 0x3B00 3 = 1 ∧ s.dget 0x3B00 3 ≠ 1
    ∧ { s with sealStore := ⟨[], 0, 0, 0⟩ }.debugPermitted = true ∧ (r 2).dget 0x3B00 3 = 2 ∧ ((r 1).dset 0x3B00 1 2).dget 0x3B00 1 = 2
    ∧ s.awake = true ∧ s.peatOn = false ∧ (r 1).peatOn = true ∧ meets s ⟨box0, .write, 0x3B10, 2, zeros 4096, .plain⟩ = true
    ∧ s.dget 0x3B10 1 + 4096 ≤ s.peatSize ∧ s.dget 0x3B00 1 = 0 ∧ (s.dset 0x3B10 1 s.peatSize).peatSize < (s.dset 0x3B10 1 s.peatSize).dget 0x3B10 1 + 4096
    ∧ meets s (w0 0x3B02 1 1) = true ∧ s.boundStreams = [] ∧ s.evidenceBusy = false := by decide +kernel

/-- The five operations from a mailbox on entries of each access, on an index and a subindex that do not exist, on one that the mailbox does not see; the mailbox
BUSY and before READY; write masks; an ember restart; a time. -/
theorem test_meets_DictionaryRows :
    let s := dev .blaze
    let ops : List DictOp := [.read, .info, .readShadow, .next]
    ops.all (fun op => meets s ⟨box0, op, 0x2100, 1, [], .plain⟩) = true ∧ meets s ⟨box0, .write, 0x2100, 0x0B, [0], .plain⟩ = true
    ∧ visible box0 0x2100 = true ∧ indexExists 0x2100 = true ∧ subExists 0x2100 0x0B = true ∧ subExists 0x2100 0xFF = false ∧ indexExists 0x0FFF = false
    ∧ visible (.mailbox 5) 0x2100 = false ∧ entryAccess 0x2100 1 = .rwc ∧ entryAccess 0x2105 5 ≠ .ro ∧ measured 0x2100 1 = false
    ∧ s.writeCheck box0 0x2100 0x0B [9] = .outOfRange ∧ s.writeCheck box0 0x2100 0x0B [] = .lengthMismatch ∧ s.writeCheck box0 0x2100 5 [0] = .readOnly
    ∧ s.writeCheck box0 0x2100 0x0B [8] = .ok ∧ s.host.up = true ∧ s.fnPresent 0 = true ∧ (s.fn 0).box.busy = false ∧ (s.fn 0).box.irq = 0
    ∧ ((s.withBox 0 fun b => { b with busy := true }).fn 0).box.busy = true ∧ plain.boot.ready = false ∧ blk 63 0x3F ≤ 0x6FFF
    ∧ bit ((s.dset (0x1FC0 + 63) 1 (2 ^ 63)).dget (0x1FC0 + 63) 1) (blk 63 0x3F - blk 63 0) = true ∧ bit (s.dget (0x1FC0 + 63) 1) 0 = false
    ∧ meets s (w0 (0x1FC0 + 63) 1 0xFFFF) = true ∧ meets s (w0 0x2203 6 1) = true ∧ s.dget 0x2203 4 ≠ 1 ∧ (s.dset 0x2203 4 1).dget 0x2203 4 = 1
    ∧ meets s (w0 0x3180 0x0E 0) = true := by decide +kernel

def datagram0 (len : Nat) : Bytes :=
  let h := leBytes 2 0xD960 ++ [1, 1] ++ leBytes 2 7 ++ leBytes 2 3 ++ leBytes 2 0x2100 ++ [1, 0] ++ zeros 2 ++ leBytes 2 len ++ zeros 4 ++ zeros len
  h ++ leBytes 4 (crc32c h)

/-- A good datagram with no data and with one byte, a short one; the path off; sessions known, new and full; a transfer in each direction, its segments. -/
theorem test_meets_DictionaryPaths :
    let s := (dev .blaze).dset 0x1040 1 9
    let b := datagram0 1
    let good (b : Bytes) := decide (leAt b 0 2 = 0xD960) && decide (byteAt b 2 = 1) && decide (leAt b 14 2 ≤ 1024) && decide (b.length = 24 + leAt b 14 2)
      && decide (leAt b (20 + leAt b 14 2) 4 = crc32c (b.take (20 + leAt b 14 2)))
    let n (k : Nat) := s.withSvc fun v => { v with sessions := (List.range k).map fun i => ⟨1, 2, 7 + i, some 3, [5], none, none⟩ }
    let t (up tg : Bool) (d : Bytes) := s.withSvc fun v => { v with transfers := [(1, ⟨up, 0x2100, 1, 100, d, tg⟩)] }
    s.live = true ∧ s.dget 0x1040 1 = 9 ∧ good b = true ∧ good (datagram0 0) = true ∧ good (b.take 20) = false ∧ s.dget 0x1041 2 ≠ 0
    ∧ (s.dset 0x1041 2 0).dget 0x1041 2 = 0 ∧ leAt b 4 2 = 7 ∧ leAt b 6 2 = 3 ∧ ((n 1).session? 1 2 7).map (fun x => (x.seq, x.answer)) = some (some 3, [5])
    ∧ s.session? 1 2 7 = none ∧ (n 15).svc.sessions.length < 16 ∧ (n 16).svc.sessions.length = 16 ∧ (n 16).session? 9 9 9 = none
    ∧ s.usdoServed 1 = true ∧ s.usdoServed 2 = false ∧ s.svc.transfers.get? 1 = none ∧ usdoFrameBytes < 100
    ∧ ((t true false (zeros 57)).svc.transfers.get? 1).map (fun x => (x.upload, decide (usdoFrameBytes < x.data.length))) = some (true, true)
    ∧ ((t true true (zeros 56)).svc.transfers.get? 1).map (fun x => decide (x.data.length ≤ usdoFrameBytes)) = some true
    ∧ ((t false false (zeros 56)).svc.transfers.get? 1).map (fun x => (x.upload, decide ((x.data ++ zeros 44).length = x.size))) = some (false, true)
    ∧ s.hearthRuns = true ∧ (s.dset 0x1017 0 5).dget 0x1017 0 ≠ 0 ∧ (s.dset 0x1017 0 0).dget 0x1017 0 = 0 := by decide +kernel

/-- A commit and a discard of the first and last groups, with a shadow and without; one that its check refuses; one that waits for its apply. -/
theorem test_meets_CommitGroups :
    let s := dev .blaze
    let sh (g : Nat) (v : SMap DVal) := s.withSvc fun k => { k with shadows := [(g, ⟨box0, false, v⟩)] }
    let bad := sh 1 [(dkey 0x1010 2, .num 5), (dkey 0x1010 3, .num 1)]
    let r := w0 (groupIdx 1) 1 1
    let wait := (sh 1 []).withSvc fun k => { k with commit := some (1, r) }
    [1, 47, 0x100, 0x13F].all (fun g => decide (groupAt (groupIdx g) = some g)) = true ∧ meets s r = true ∧ meets s (w0 (groupIdx 0x105) 1 2) = true
    ∧ s.svc.shadows.get? 1 = none ∧ ((sh 1 []).groupCheck 1).min? = none ∧ ((sh 1 []).svc.shadows.get? 1).isSome = true
    ∧ ((bad.groupCheck 1).min?).isSome = true ∧ meets bad r = true ∧ wait.svc.commit = some (1, r) ∧ s.svc.commit = none ∧ s.hearthRuns = true
    ∧ bad.heldByOther (.can 0) 1 = true ∧ bad.heldByOther box0 1 = false := by decide +kernel

/-- A function that decodes and one that does not; the admin pair enabled and not; a mailbox free and BUSY; a VF's own field; debug access permitted and not. -/
theorem test_meets_RegistersAndDebug :
    let s := dev .blaze
    let a := s.hostActivity
    let d := { s with sealStore := ⟨[], 0, 0, 0⟩ }
    a.decodes 0 = true ∧ (s.withHost fun h => { h with d3hot := true }).hostActivity.decodes 0 = false ∧ a.boot.ready = true ∧ a.adminWritable 0 = true
    ∧ a.adminEnabled 0 = false ∧ (a.setSq 0 0 ⟨0x1000, 16, 1, 0, 0, 16, 0, true, 0, 0, false, none, none, 0⟩).adminEnabled 0 = true
    ∧ ((s.withInst 0 fun x => { x with st := .fenced }).hostActivity.adminWritable 0) = false ∧ (a.fn 0).box.busy = false
    ∧ ((a.withBox 0 fun b => { b with busy := true }).fn 0).box.busy = true ∧ vfs.hostActivity.decodes 63 = true ∧ s.host.up = true ∧ vfs.fnPresent 63 = true
    ∧ vfField .msixEnable = true ∧ vfField .powerState = false ∧ s.debugPermitted = false ∧ d.debugPermitted = true ∧ d.dget 0x3C10 2 ≠ 1
    ∧ (d.dset 0x3C10 2 1).dget 0x3C10 2 = 1 := by decide +kernel

/-- The queue empty, in a device that runs and in one that is unpowered; a slow tick that comes and one that does not. -/
theorem test_meets_IdleTicks :
    (dev .blaze).pending = [] ∧ (dev .blaze).pow.st ≠ .off ∧ plain.pow.st = .off ∧ (dev .blaze).time.slowFrac + 64 < 1953125
    ∧ 1953125 ≤ ((dev .blaze).withTime fun t => { t with slowFrac := 1953061 }).time.slowFrac + 64 ∧ (dev .blaze).clocksOn = true
    ∧ plain.clocksOn = false ∧ (dev .blaze).time.ppb = 0 ∧ (dev .blaze).time.slew = 0 ∧ (dev .blaze).fclkOn = true := by decide +kernel

/-- A device with no work that waits; it holds the invariant, and so does the state after a step of it. -/
theorem test_meets_QuietSettles : (dev .glow).Quiet ∧ plain.live = false :=
  ⟨⟨by decide, by decide, by decide, by decide, by decide, by decide, by decide, by decide, by decide +kernel, by decide, by decide +kernel, by decide,
    by decide⟩, by decide⟩

theorem test_meets_StepKeepsInv : (dev .glow).Inv ∧ ∃ t, step (dev .glow) = .next t := ⟨by unfold State.Inv; decide +kernel, ⟨_, rfl⟩⟩

/-- A byte inside a string written and the bytes on both sides of it. -/
theorem test_meets_MemoryFrame : Mem.wf ([] : Mem) = true ∧ (Mem.writeN [] 5 [1, 2]).read 4 = 0 ∧ (Mem.writeN [] 5 [1, 2]).read 6 = 2
    ∧ (Mem.writeN [] 5 [1, 2]).read 7 = 0 := by decide +kernel

end Sys2Proof.Tests
end

section
/-! PROOFS. The step at the front of the queue; what a write to a function's registers, to its mailbox and to its configuration space does,
register by register; the debug port. One equation per register and case, from which the statement on registers is assembled. -/

namespace Sys2Proof.Laws

open Sys2Proof.Machine

/-! The commands of this family, by their effects -/

/-- A 32-bit value written to BAR0 reaches the function as it stands. -/
theorem does_bar0Write {s u : State} {n off v : Nat} (hv : v < 2 ^ 32) (h : s.bar0Write n off v = u) :
    Does (.registerWrite n (.bar0 off) v) s u := by
  have e : exec (.registerWrite n (.bar0 off) v) s = done (s.bar0Write n off (v % 2 ^ 32)) := rfl
  rw [Does, e, Nat.mod_eq_of_lt hv, h, done]

theorem does_cfgWrite {s u : State} {n v : Nat} {f : CfgField} (h : s.cfgWrite n f v = u) : Does (.registerWrite n (.cfg f) v) s u :=
  h ▸ rfl

theorem does_dmiAccess {s u : State} {op : DmiOp} (h : s.dmiAccess op = u) : Does (.dmiAccess op) s u := h ▸ rfl

theorem does_debugSessionDetach {s u : State} (h : (s.withDbg fun d => { d with active := false }).debugDetach = u) :
    Does .debugSessionDetach s u := h ▸ rfl

/-! Where a BAR0 write lands (Table 6-5) -/

/-- The offset of a function's mailbox in its BAR0 (Table 6-5). -/
def mailboxBase (n : Nat) : Nat := if n = 0 then 0x300000 else 0xC000

theorem eq_mailboxBase {n box : Nat} (h : (n = 0 ∧ box = 0x300000) ∨ (n ≠ 0 ∧ box = 0xC000)) : box = mailboxBase n := by
  obtain ⟨hn, rfl⟩ | ⟨hn, rfl⟩ := h <;> simp [mailboxBase, hn]

theorem mailboxBase_aligned (n : Nat) : mailboxBase n % 4 = 0 := by
  unfold mailboxBase
  split <;> rfl

section Bar0

variable {s : State} {n off v : Nat}

theorem bar0Write_undecoded (hd : s.hostActivity.decodes n = false) :
    s.bar0Write n off v = s.hostActivity.unsupportedRequest n false := by
  simp [State.bar0Write, hd]

theorem bar0Write_misaligned (hd : s.hostActivity.decodes n = true) (hoff : off % 4 ≠ 0) : s.bar0Write n off v = s.hostActivity := by
  simp [State.bar0Write, hd, hoff]

/-- PF0 takes writes to its function registers from the start, a VF from READY on (log entry 34). -/
theorem bar0Write_functionReg (hd : s.hostActivity.decodes n = true) (hn : n = 0 ∨ s.hostActivity.boot.ready = true)
    (h4 : off % 4 = 0) (hoff : off < 0x4000) : s.bar0Write n off v = s.hostActivity.functionRegWrite n off v := by
  by_cases h0 : n = 0
  · subst h0
    have : off < 0x100000 := by omega
    simp [State.bar0Write, hd, h4, this]
  · have hr := hn.resolve_left h0
    simp [State.bar0Write, hd, h4, h0, hoff, hr]

/-- The function registers' write, its outcome given: the form the statement on registers uses for each of them. -/
theorem does_functionReg {u : State} (hv : v < 2 ^ 32) (hd : s.hostActivity.decodes n = true)
    (hn : n = 0 ∨ s.hostActivity.boot.ready = true) (h4 : off % 4 = 0) (hoff : off < 0x4000)
    (h : s.hostActivity.functionRegWrite n off v = u) : Does (.registerWrite n (.bar0 off) v) s u :=
  does_bar0Write hv ((bar0Write_functionReg hd hn h4 hoff).trans h)

theorem bar0Write_mailbox {r : Nat} (hd : s.hostActivity.decodes n = true) (hr : r < 0x2000) (h4 : r % 4 = 0) :
    s.bar0Write n (mailboxBase n + r) v = s.hostActivity.mailboxWrite n r v := by
  by_cases h0 : n = 0
  · subst h0
    have h4' : (0x300000 + r) % 4 = 0 := by omega
    have hreg : ¬ 0x300000 + r < 0x100000 := by omega
    have hbell : ¬ 0x300000 + r < 0x200000 := by omega
    have hmsix : ¬ 0x300000 + r < 0x208000 := by omega
    have hbox : 0x300000 + r < 0x302000 := by omega
    simp [State.bar0Write, mailboxBase, hd, h4', hreg, hbell, hmsix, hbox]
  · have h4' : (0xC000 + r) % 4 = 0 := by omega
    have hreg : ¬ 0xC000 + r < 0x4000 := by omega
    have hbell : ¬ 0xC000 + r < 0x8000 := by omega
    have hmsix : ¬ 0xC000 + r < 0x8400 := by omega
    have hbox : 0xC000 + r < 0xE000 := by omega
    simp [State.bar0Write, mailboxBase, hd, h0, h4', hreg, hbell, hmsix, hbox]

/-- The mailbox registers' write, its outcome given. -/
theorem does_mailbox {u : State} (r : Nat) (hv : v < 2 ^ 32) (hd : s.hostActivity.decodes n = true) (hoff : off = mailboxBase n + r)
    (hr : r < 0x2000) (h4 : r % 4 = 0) (h : s.hostActivity.mailboxWrite n r v = u) : Does (.registerWrite n (.bar0 off) v) s u :=
  does_bar0Write hv (hoff ▸ (bar0Write_mailbox hd hr h4).trans h)

end Bar0

/-! The function registers (Tables 3-5, 3-6, 6-7, 7-8 to 7-12, 11-3) -/

section FunctionRegs

variable (s : State) (n v : Nat)

theorem functionRegWrite_epstat :
    s.functionRegWrite n 0x8 v = s.withFn n fun x => { x with epstat := x.epstat - Nat.land x.epstat v } := by
  simp [State.functionRegWrite]

theorem functionRegWrite_bootLen : s.functionRegWrite 0 0x18 v = s.withBoot fun b => { b with bootLen := v % 0x2000000 } := by
  simp [State.functionRegWrite]

theorem functionRegWrite_bootLen_vf (hn : n ≠ 0) : s.functionRegWrite n 0x18 v = s := by
  simp [State.functionRegWrite, hn]

variable {s n v}

theorem functionRegWrite_tq {off : Nat} (hlo : 0x104 ≤ off) (hhi : off ≤ 0x120) (hw : s.adminWritable n = true) :
    s.functionRegWrite n off v = s.tqWrite n off v := by
  have h8 : off ≠ 0x8 := by omega
  have h14 : off ≠ 0x14 := by omega
  have h18 : off ≠ 0x18 := by omega
  simp [State.functionRegWrite, h8, h14, h18, hlo, hhi, hw]

theorem functionRegWrite_tq_unwritable {off : Nat} (hlo : 0x104 ≤ off) (hhi : off ≤ 0x120) (hw : s.adminWritable n = false) :
    s.functionRegWrite n off v = s := by
  have h8 : off ≠ 0x8 := by omega
  have h14 : off ≠ 0x14 := by omega
  have h18 : off ≠ 0x18 := by omega
  simp [State.functionRegWrite, h8, h14, h18, hlo, hhi, hw]

theorem functionRegWrite_elock {e : Nat} (he : e < 16) :
    s.functionRegWrite n (0x200 + 4 * e) v = if s.boot.ready then s.elockWrite n e v else s := by
  have h8 : 0x200 + 4 * e ≠ 0x8 := by omega
  have h14 : 0x200 + 4 * e ≠ 0x14 := by omega
  have h18 : 0x200 + 4 * e ≠ 0x18 := by omega
  have htq : ¬ 0x200 + 4 * e ≤ 0x120 := by omega
  have hhi : 0x200 + 4 * e < 0x240 := by omega
  simp [State.functionRegWrite, h8, h14, h18, htq, hhi]

/-! TQ_ACTRL and TQ_AQS (Tables 7-8, 7-9): RESET before ENABLE; AQS only while the pair is not enabled. -/

theorem tqWrite_actrl_restart (h1 : bit v 1 = true) : s.tqWrite n 0x104 v = s.adminRestart n := by
  simp [State.tqWrite, h1]

theorem tqWrite_actrl_enable (h1 : bit v 1 = false) (h0 : bit v 0 = true) : s.tqWrite n 0x104 v = s.adminEnable n := by
  simp [State.tqWrite, h1, h0]

theorem tqWrite_actrl_disable (h1 : bit v 1 = false) (h0 : bit v 0 = false) : s.tqWrite n 0x104 v = s.adminDisable n := by
  simp [State.tqWrite, h1, h0]

theorem tqWrite_aqs_enabled (he : s.adminEnabled n = true) : s.tqWrite n 0x118 v = s := by
  simp [State.tqWrite, State.adminSet, he]

theorem tqWrite_aqs_disabled (he : s.adminEnabled n = false) :
    s.tqWrite n 0x118 v = s.withTq n fun t => { t with aqs := bits v 16 12 * 0x10000 + bits v 0 12 } := by
  simp [State.tqWrite, State.adminSet, he]

/-! HST_ELOCKe (Table 11-3) -/

theorem elockWrite_release {e : Nat} (ho : v % 128 = 0) : s.elockWrite n e v = s.engineRelease n e := by
  simp [State.elockWrite, ho]

theorem elockWrite_take {e : Nat} (ho : v % 128 = n + 1) : s.elockWrite n e v = s.engineTake n e := by
  simp [State.elockWrite, ho]

theorem elockWrite_other {e : Nat} (h0 : v % 128 ≠ 0) (ho : v % 128 ≠ n + 1) : s.elockWrite n e v = s := by
  simp [State.elockWrite, h0, ho]

end FunctionRegs

/-! The mailbox (R37, R38, Tables 2-4 and 2-5) -/

section MailboxRegs

variable {s : State} {n v : Nat}

theorem mailboxWrite_status_clear (hb : bit v 17 = true) : s.mailboxWrite n 0x8 v = s.withBox n fun m => { m with done := false } := by
  simp [State.mailboxWrite, hb]

theorem mailboxWrite_status_keep (hb : bit v 17 = false) : s.mailboxWrite n 0x8 v = s := by
  simp [State.mailboxWrite, hb]

/-- While BUSY, only the status and the interrupt register take a write. -/
theorem mailboxWrite_busy {r : Nat} (h : (s.fn n).box.busy = true) (h8 : r ≠ 0x8) (h10 : r ≠ 0x10) : s.mailboxWrite n r v = s := by
  simp [State.mailboxWrite, h, h8, h10]

variable (h : (s.fn n).box.busy = false)
include h

theorem mailboxWrite_len : s.mailboxWrite n 0x4 v = s.withBox n fun m => { m with len := v % 0x2000 } := by
  simp [State.mailboxWrite, h]

theorem mailboxWrite_cmd (hb : bit v 31 = false) : s.mailboxWrite n 0x0 v = s.withBox n fun m => { m with cmd := v % 0x8000000 } := by
  simp [State.mailboxWrite, h, hb]

theorem mailboxWrite_go (hb : bit v 31 = true) : s.mailboxWrite n 0x0 v
    = (s.withBox n fun m => { m with cmd := v % 0x8000000 }).mailboxGo n ((s.fn n).box.request n v) := by
  simp [State.mailboxWrite, h, hb]

theorem mailboxWrite_data {r : Nat} (hlo : 0x1000 ≤ r) (hhi : r < 0x2000) :
    s.mailboxWrite n r v = s.withBox n fun m => { m with data := m.data.writeN (r - 0x1000) (leBytes 4 v) } := by
  have h8 : r ≠ 0x8 := by omega
  have h10 : r ≠ 0x10 := by omega
  have h0 : r ≠ 0x0 := by omega
  have h4 : r ≠ 0x4 := by omega
  simp [State.mailboxWrite, h, h8, h10, h0, h4, hlo, hhi]

end MailboxRegs

/-! Configuration space (R141, R143, R149, R152, R153) -/

/-- A configuration write reaches a field: the link is up, the function is on the bus, and the field is one that it has. -/
def CfgReaches (s : State) (n : Nat) (f : CfgField) : Prop :=
  s.host.up = true ∧ s.fnPresent n = true ∧ (n = 0 ∨ vfField f = true)

theorem cfgWrite_unreached {s : State} {n v : Nat} {f : CfgField}
    (h : s.host.up = false ∨ s.fnPresent n = false ∨ (n ≠ 0 ∧ vfField f = false)) : s.cfgWrite n f v = s := by
  have hc : !s.host.up ∨ !s.fnPresent n ∨ (n ≠ 0 ∧ !vfField f) := by simpa using h
  exact if_pos hc

theorem CfgReaches.not_refused {s : State} {n : Nat} {f : CfgField} (h : CfgReaches s n f) :
    ¬ (!s.host.up ∨ !s.fnPresent n ∨ (n ≠ 0 ∧ !vfField f)) := by
  obtain ⟨hup, hp, hf⟩ := h
  simp only [hup, hp, Bool.not_true, Bool.false_eq_true, false_or, not_and_or, not_not]
  exact hf.imp id (by simp +contextual)

section CfgFields

variable {s : State} {n v : Nat}

theorem cfgWrite_readOnly {o : Nat} (h : CfgReaches s n (.readOnly o)) : s.cfgWrite n (.readOnly o) v = s :=
  if_neg h.not_refused

theorem cfgWrite_msixEnable_set (h : CfgReaches s n .msixEnable) (hv : v % 2 = 1) : s.cfgWrite n .msixEnable v = s.modeEnable n true :=
  (if_neg h.not_refused).trans (if_pos hv)

theorem cfgWrite_msixEnable_clear (h : CfgReaches s n .msixEnable) (hv : v % 2 = 0) :
    s.cfgWrite n .msixEnable v = (s.withFn n fun x => { x with msixEn := false }).sendPending n :=
  (if_neg h.not_refused).trans (if_neg (by omega))

theorem cfgWrite_powerState_d3 (h : CfgReaches s n .powerState) (hv : v % 4 = 3) : s.cfgWrite n .powerState v = s.enterD3 :=
  (if_neg h.not_refused).trans ((if_neg (by omega)).trans (if_pos hv))

theorem cfgWrite_powerState_d0 (h : CfgReaches s n .powerState) (hv : v % 4 = 0) : s.cfgWrite n .powerState v = s.enterD0 :=
  (if_neg h.not_refused).trans (if_pos hv)

/-- Of the power states, a write of one that is neither D0 nor D3hot is ignored. -/
theorem cfgWrite_powerState_other (h : CfgReaches s n .powerState) (hv : v % 4 = 1 ∨ v % 4 = 2) : s.cfgWrite n .powerState v = s :=
  (if_neg h.not_refused).trans ((if_neg (by omega)).trans (if_neg (by omega)))

/-- NumVFs takes no write while VF Enable is set (R152), and none above the 63 VFs there are (log entry 33). -/
theorem cfgWrite_numVfs_refused (h : CfgReaches s n .numVfs) (hv : s.host.vfEnable = true ∨ 63 < v % 65536) :
    s.cfgWrite n .numVfs v = s :=
  (if_neg h.not_refused).trans (if_pos hv)

/-- The fields that are cleared by a 1. -/
theorem cfgWrite_clearByOne {f : CfgField} (h : CfgReaches s n f)
    (hf : f = .aerUncorrectableStatus ∨ f = .aerCorrectableStatus ∨ f = .statusErrorBits) :
    s.cfgWrite n f v = s.cfgPut n f (s.cfg n f - Nat.land (s.cfg n f) v) := by
  obtain rfl | rfl | rfl := hf <;> exact if_neg h.not_refused

/-- Fields that take what is written. -/
theorem cfgWrite_plain {f : CfgField} (h : CfgReaches s n f) (hf : f = .memorySpaceEnable ∨ f = .maxPayloadSize
    ∨ f = .maxReadRequestSize ∨ f = .aspmL1Enable ∨ f = .ltrEnable) : s.cfgWrite n f v = s.cfgPut n f v := by
  obtain rfl | rfl | rfl | rfl | rfl := hf <;> exact if_neg h.not_refused

end CfgFields

/-! The debug port (R514–R516) -/

section DebugPort

variable {s : State}

theorem dmiAccess_forbidden (op : DmiOp) (h : s.debugPermitted = false) : s.dmiAccess op = s.emit (.dmi false 0) := by
  simp [State.dmiAccess, h]

/-- DTMCS reads as in RISC-V External Debug Support 0.13.2 (log entry 126). -/
theorem dmiAccess_dtmcs (v : Nat) (h : s.debugPermitted = true) : s.dmiAccess (.dtmcs v) = s.emit (.dmi true 0x71) := by
  simp [State.dmiAccess, h, dtmcsValue]

theorem dmiAccess_read (a : Nat) (h : s.debugPermitted = true) :
    s.dmiAccess (.read a) = s.emit (.dmi true (s.dmiRead s.votes (a % 128))) := by
  simp [State.dmiAccess, h]

theorem dmiAccess_write (a v : Nat) (h : s.debugPermitted = true) :
    s.dmiAccess (.write a v) = (s.dmiWrite (a % 128) v).emit (.dmi true 0) := by
  simp [State.dmiAccess, h]

theorem dmiWrite_forceRelease {v : Nat} (hv : v < 256) : s.dmiWrite 0x70 v = s.forceRelease v := by
  simp [State.dmiWrite, hv]

/-- An attach without permission, or with a session attached, does nothing. -/
theorem does_debugSessionAttach_idle (h : s.debugPermitted = false ∨ s.dget 0x3C10 2 = 1) : Does .debugSessionAttach s s := by
  have e : exec .debugSessionAttach s = if s.debugPermitted then done s.debugAttach else done s := rfl
  rw [Does, e]
  by_cases hp : s.debugPermitted = true
  · have ha : s.dget 0x3C10 2 = 1 := h.resolve_left (by simp [hp])
    simp [hp, State.debugAttach, ha, done]
  · simp [hp, done]

theorem does_debugSessionAttach (hp : s.debugPermitted = true) (ha : s.dget 0x3C10 2 ≠ 1) : Does .debugSessionAttach s
    ((((s.withDbg fun d => { d with active := true }).dset 0x3C10 2 1).dinc 0x3C10 3).event 555) := by
  have e : exec .debugSessionAttach s = if s.debugPermitted then done s.debugAttach else done s := rfl
  rw [Does, e, if_pos hp, State.debugAttach, if_neg ha, done]

theorem debugDetach_attached (h : s.dget 0x3C10 2 = 1) : s.debugDetach = (s.dset 0x3C10 2 0).event 555 := if_pos h

theorem debugDetach_detached (h : s.dget 0x3C10 2 ≠ 1) : s.debugDetach = s := if_neg h

end DebugPort

/-- Settles O1: taking the front command off leaves the queue's rest, which is the state's own queue. -/
theorem stepRunsFront : Obligations.StepRunsFront := fun _ _ => rfl

/-- Settles O59, register by register from the equations above. -/
theorem registersAndDebug : Obligations.RegistersAndDebug := by
  refine ⟨fun s n off v hv => ⟨fun hd => does_bar0Write hv (bar0Write_undecoded hd),
      fun hd h4 => does_bar0Write hv (bar0Write_misaligned hd h4), fun hd hn => ?functionRegs, fun box hd hbox => ?mailbox⟩,
    fun s n v f => ⟨fun h => does_cfgWrite (cfgWrite_unreached h), fun hup hp hf => ?config⟩, fun s a v => ?debug⟩
  case functionRegs =>
    have reg {o : Nat} {u : State} (h4 : o % 4 = 0) (ho : o < 0x4000) := does_functionReg (off := o) (u := u) hv hd hn h4 ho
    refine ⟨?epstat, ?bootLen, ?bootLenVf, ?restart, ?enable, ?disable, ?aqsEnabled, ?aqs, ?tqUnwritable, ?release, ?take,
      ?noOwner⟩
    case epstat =>
      rintro rfl
      exact reg (by decide) (by decide) (functionRegWrite_epstat _ n v)
    case bootLen =>
      rintro rfl rfl
      exact reg (by decide) (by decide) (functionRegWrite_bootLen _ v)
    case bootLenVf =>
      rintro rfl h0
      exact reg (by decide) (by decide) (functionRegWrite_bootLen_vf _ n v h0)
    case restart =>
      rintro rfl hw h1
      exact reg (by decide) (by decide) ((functionRegWrite_tq (by decide) (by decide) hw).trans (tqWrite_actrl_restart h1))
    case enable =>
      rintro rfl hw h1 h0
      exact reg (by decide) (by decide) ((functionRegWrite_tq (by decide) (by decide) hw).trans (tqWrite_actrl_enable h1 h0))
    case disable =>
      rintro rfl hw h1 h0
      exact reg (by decide) (by decide) ((functionRegWrite_tq (by decide) (by decide) hw).trans (tqWrite_actrl_disable h1 h0))
    case aqsEnabled =>
      rintro rfl hw he
      exact reg (by decide) (by decide) ((functionRegWrite_tq (by decide) (by decide) hw).trans (tqWrite_aqs_enabled he))
    case aqs =>
      rintro rfl hw he
      exact reg (by decide) (by decide) ((functionRegWrite_tq (by decide) (by decide) hw).trans (tqWrite_aqs_disabled he))
    case tqUnwritable =>
      intro hlo hhi h4 hw
      exact reg h4 (by omega) (functionRegWrite_tq_unwritable hlo hhi hw)
    case release =>
      rintro e he rfl hr ho
      exact reg (by omega) (by omega) ((functionRegWrite_elock he).trans ((if_pos hr).trans (elockWrite_release ho)))
    case take =>
      rintro e he rfl hr ho
      exact reg (by omega) (by omega) ((functionRegWrite_elock he).trans ((if_pos hr).trans (elockWrite_take ho)))
    case noOwner =>
      rintro e he rfl h0 ho
      exact reg (by omega) (by omega) ((functionRegWrite_elock he).trans (by rw [elockWrite_other h0 ho, ite_self]))
  case mailbox =>
    obtain rfl := eq_mailboxBase hbox
    have reg {u : State} (r : Nat) (ho : off = mailboxBase n + r) (hr : r < 0x2000) (h4 : r % 4 = 0) :=
      does_mailbox (u := u) r hv hd ho hr h4
    refine ⟨?statusClear, ?statusKeep, ?busy, ?len, ?data, ?cmd, ?go⟩
    case statusClear =>
      exact fun ho hb => reg 0x8 ho (by decide) (by decide) (mailboxWrite_status_clear hb)
    case statusKeep =>
      exact fun ho hb => reg 0x8 ho (by decide) (by decide) (mailboxWrite_status_keep hb)
    case busy =>
      rintro hb (ho | ho | ⟨hlo, hhi, h4⟩)
      · exact reg 0x0 ho (by decide) (by decide) (mailboxWrite_busy hb (by decide) (by decide))
      · exact reg 0x4 ho (by decide) (by decide) (mailboxWrite_busy hb (by decide) (by decide))
      · have hm : mailboxBase n % 4 = 0 := mailboxBase_aligned n
        exact reg (off - mailboxBase n) (by omega) (by omega) (by omega) (mailboxWrite_busy hb (by omega) (by omega))
    case len =>
      exact fun hb ho => reg 0x4 ho (by decide) (by decide) (mailboxWrite_len hb)
    case data =>
      intro hb hlo hhi h4
      have hm : mailboxBase n % 4 = 0 := mailboxBase_aligned n
      exact reg (off - mailboxBase n) (by omega) (by omega) (by omega) (mailboxWrite_data hb (by omega) (by omega))
    case cmd =>
      exact fun hb ho hgo => reg 0x0 ho (by decide) (by decide) (mailboxWrite_cmd hb hgo)
    case go =>
      exact fun hb ho hgo => reg 0x0 ho (by decide) (by decide) (mailboxWrite_go hb hgo)
  case config =>
    have hc : CfgReaches s n f := ⟨hup, hp, hf⟩
    refine ⟨?readOnly, ?msixSet, ?msixClear, ?d3, ?d0, ?noPowerState, ?numVfs, ?clearByOne, ?plain⟩
    case readOnly =>
      rintro o rfl
      exact does_cfgWrite (cfgWrite_readOnly hc)
    case msixSet =>
      rintro rfl h
      exact does_cfgWrite (cfgWrite_msixEnable_set hc h)
    case msixClear =>
      rintro rfl h
      exact does_cfgWrite (cfgWrite_msixEnable_clear hc h)
    case d3 =>
      rintro rfl h
      exact does_cfgWrite (cfgWrite_powerState_d3 hc h)
    case d0 =>
      rintro rfl h
      exact does_cfgWrite (cfgWrite_powerState_d0 hc h)
    case noPowerState =>
      rintro rfl h
      exact does_cfgWrite (cfgWrite_powerState_other hc h)
    case numVfs =>
      rintro rfl h
      exact does_cfgWrite (cfgWrite_numVfs_refused hc h)
    case clearByOne =>
      exact fun h => does_cfgWrite (cfgWrite_clearByOne hc h)
    case plain =>
      exact fun h => does_cfgWrite (cfgWrite_plain hc h)
  case debug =>
    refine ⟨fun h op => does_dmiAccess (dmiAccess_forbidden op h), fun h => ⟨does_dmiAccess (dmiAccess_dtmcs v h),
        does_dmiAccess (dmiAccess_read a h), does_dmiAccess (dmiAccess_write a v h)⟩, dmiWrite_forceRelease,
      does_debugSessionAttach_idle, does_debugSessionAttach, fun h => ?ended, fun h => ?none⟩
    case ended => exact does_debugSessionDetach (debugDetach_attached (by simpa using h))
    case none => exact does_debugSessionDetach (debugDetach_detached (by simpa using h))

end Sys2Proof.Laws
end

section
/-! PROOFS. What follows a command where no work waits (log entry 5): each piece of it leaves the state as it is. -/

namespace Sys2Proof.Laws

open Sys2Proof.Machine

section Quiet

variable {s : State}

/-! Storage (R263, R264, R258, Table 10-11) -/

theorem grants_stays (hj : s.stor.jobs = []) (hl : s.stor.lockFull = false) : s.grants = s := by
  have hstor : { s.stor with jobs := [], lockFull := false } = s.stor := by rw [← hj, ← hl]
  simp [State.grants, State.withStor, Storage.lockers, hj, ungather, grantJobs, hstor]

theorem pump_stays (hj : s.stor.jobs = []) : s.pump = s := by
  simp [State.pump, State.pumpN, State.nextIssue, hj]

theorem storeRun_stays (hj : s.stor.jobs = []) (hl : s.stor.lockFull = false) : ∀ f, s.storeRun f = s
  | 0 => rfl
  | f + 1 => by simp [State.storeRun, grants_stays hj hl, pump_stays hj, hj]

theorem recoverySettle_stays {p : Nat} (h : (s.port p).recovering = false) : s.recoverySettle p = s := by
  simp [State.recoverySettle, h]

theorem detachSettle_stays {p : Nat} (h : (s.port p).detach = none) : s.detachSettle p = s := by
  simp [State.detachSettle, h]

theorem pfSettle_stays (h : s.kiln.pf = none) : s.pfSettle = s := by
  simp [State.pfSettle, h]

theorem storageSettle_stays (h : s.Quiet) : s.storageSettle = s := by
  obtain ⟨hr0, hd0⟩ := h.ports 0 (by decide)
  obtain ⟨hr1, hd1⟩ := h.ports 1 (by decide)
  simp [State.storageSettle, storeRun_stays h.jobs h.locks, recoverySettle_stays hr0, recoverySettle_stays hr1,
    detachSettle_stays hd0, detachSettle_stays hd1, pfSettle_stays h.powerFail]

/-! The other blocks -/

theorem cipherSettle_stays (h : s.cipher.jobs = []) : s.cipherSettle = s := by
  simp [State.cipherSettle, h]

theorem indexSettle_stays (h : ∀ kv ∈ s.kiln.streams, kv.2.bind ≠ 1) : s.indexSettle = s := by
  have hnone : (s.kiln.streams.filter fun kv => kv.2.bind == 1) = [] := by simpa using h
  rw [State.indexSettle, hnone, List.foldl_nil]

theorem keyWaitsSettle_stays (h : s.cipher.keyWaits = []) : s.keyWaitsSettle = s := by
  simp [State.keyWaitsSettle, h]

theorem vpSends_stays (h : s.pipe.sends = []) : s.vpSends = s := by
  simp [State.vpSends, State.vpSendsN, h]

theorem tblRetry_stays (h : s.pipe.table.waits = []) : s.tblRetry = s := by
  simp [State.tblRetry, State.tblRetryN, h]

theorem flowSettle_stays (h : ∀ kv ∈ s.flow.threads, kv.2.wait = none) : s.flowSettle = s := by
  have hnone : (s.flow.threads.filter fun kv => kv.2.wait.isSome) = [] := by simpa using h
  rw [State.flowSettle, hnone, List.foldl_nil]

theorem portsCheck_stays (h : ∀ p, p < 20 → (s.egPort p).up = true →
    s.dget (pIdx p 0) 1 ≠ 0 ∧ s.portShed p = false ∧ s.domOn (portDomain p) = true) : s.portsCheck = s := by
  refine foldl_stays _ s _ fun p hp => if_neg ?_
  rintro ⟨hup, hdown⟩
  obtain ⟨hen, hshed, hon⟩ := h p (List.mem_range.mp hp) hup
  simp [hen, hshed, hon] at hdown

theorem deletionsSettle_stays (h : ∀ kv ∈ s.q.sqs, kv.2.deleting = none ∧
    (kv.1 % 65536 = 0 → (s.fn (kv.1 / 65536)).tq.disabling = false)) : s.deletionsSettle = s := by
  refine foldl_stays _ s _ fun kv hkv => ?_
  obtain ⟨hdel, hadmin⟩ := h kv hkv
  simp only [hdel]
  refine if_neg ?_
  rintro ⟨hq, hdis, -⟩
  rw [hadmin hq] at hdis
  cases hdis

theorem domainsSettle_stays (h : s.pow.st = .glow → ∀ d, d ∈ [2, 3, 4, 5, 6, 7, 8, 9, 11, 12, 13] → s.domainSettle d = s) :
    s.domainsSettle = s := by
  unfold State.domainsSettle
  split
  · next hg => exact foldl_stays _ s _ (h hg)
  · rfl

theorem serveHeld_stays (h : s.svc.held = []) : s.serveHeld = s := by
  rw [State.serveHeld, h, List.length_nil, State.serveN]

theorem waitingRequest_stays (h : s.pow.ignWaiting = false) : s.waitingRequest = s := by
  simp [State.waitingRequest, h]

theorem heldStartSettle_stays (h : s.pow.heldStart = none) : s.heldStartSettle = s := by
  simp [State.heldStartSettle, h]

theorem workSettle_stays (h : s.Quiet) : s.workSettle = s := by
  rw [State.workSettle, storageSettle_stays h, cipherSettle_stays h.cipher.1, indexSettle_stays h.streams,
    keyWaitsSettle_stays h.cipher.2, vpSends_stays h.packets.1, tblRetry_stays h.packets.2, flowSettle_stays h.threads,
    portsCheck_stays h.links, deletionsSettle_stays h.queues, domainsSettle_stays h.domains]

theorem settleLive_stays (h : s.Quiet) : s.settleLive = s := by
  rw [State.settleLive, workSettle_stays h, serveHeld_stays h.service, waitingRequest_stays h.power.1, workSettle_stays h,
    heldStartSettle_stays h.power.2]

theorem settle_of_not_live (h : s.live = false) : s.settle = s := by
  rw [State.settle, h, if_neg Bool.false_ne_true]

theorem settle_of_quiet (h : s.Quiet) : s.settle = s := by
  rw [State.settle, settleLive_stays h, ite_self]

end Quiet

/-- Settles O6: each piece of the settling stays where nothing waits. -/
theorem quietSettles : Obligations.QuietSettles := by
  intro s
  refine ⟨settle_of_not_live, settle_of_quiet, fun c hc h => ?_⟩
  have hs : s.settle = s := h.elim settle_of_quiet settle_of_not_live
  rw [Does, hs] at hc
  exact hc

end Sys2Proof.Laws
end

section
/-! PROOFS. The frame of the commands that store nothing: one equation per operation, that it leaves what holds data between commands. -/

namespace Sys2Proof.Laws

open Sys2Proof.Machine

/-- What holds data between commands: LPDDR5, the keys and the cipher's jobs, the kiln's streams, the instances, the queues, the seal
store, storage, the start. -/
structure Stores where
  dram : Mem
  cipher : Cipher
  kiln : Kiln
  insts : SMap Inst
  q : Queues
  sealStore : Seal
  stor : Storage
  boot : Boot

/-- The stores of a state. -/
def storesOf (s : State) : Stores := ⟨s.dram, s.cipher, s.kiln, s.insts, s.q, s.sealStore, s.stor, s.boot⟩

/-- A command leaves the stores as they are, before the work that waits goes on. -/
def StoresNothing (c : Instr) (s : State) : Prop := ∃ u, Does c s u ∧ storesOf u = storesOf s

/-- A fold leaves the stores where its every step does. -/
theorem storesOf_foldl {α : Type} {f : State → α → State} (hf : ∀ u x, storesOf (f u x) = storesOf u) (l : List α) (s : State) :
    storesOf (l.foldl f s) = storesOf s := by
  induction l generalizing s with
  | nil => rfl
  | cons x l ih => rw [List.foldl_cons, ih, hf]

section Frame

variable (s : State)

/-! Updates of other parts -/

@[simp] theorem storesOf_withGatherer (f : Gatherer → Gatherer) : storesOf (s.withGatherer f) = storesOf s := rfl
@[simp] theorem storesOf_withAsh (f : Ash → Ash) : storesOf (s.withAsh f) = storesOf s := rfl
@[simp] theorem storesOf_withPipe (f : Pipe → Pipe) : storesOf (s.withPipe f) = storesOf s := rfl
@[simp] theorem storesOf_withDbg (f : Dbg → Dbg) : storesOf (s.withDbg f) = storesOf s := rfl
@[simp] theorem storesOf_withSvc (f : Svc → Svc) : storesOf (s.withSvc f) = storesOf s := rfl
@[simp] theorem storesOf_withLastFire (f : SMap Nat → SMap Nat) : storesOf (s.withLastFire f) = storesOf s := rfl
@[simp] theorem storesOf_withThread (t : Nat) (f : Thread → Thread) : storesOf (s.withThread t f) = storesOf s := rfl
@[simp] theorem storesOf_withEg (p : Nat) (f : EgPort → EgPort) : storesOf (s.withEg p f) = storesOf s := rfl
@[simp] theorem storesOf_withTable (f : FwdTable → FwdTable) : storesOf (s.withTable f) = storesOf s := rfl
@[simp] theorem storesOf_dset (i k n : Nat) : storesOf (s.dset i k n) = storesOf s := rfl
@[simp] theorem storesOf_dadd (i k n : Nat) : storesOf (s.dadd i k n) = storesOf s := rfl
@[simp] theorem storesOf_dinc (i k : Nat) : storesOf (s.dinc i k) = storesOf s := rfl
@[simp] theorem storesOf_emit (o : Out) : storesOf (s.emit o) = storesOf s := rfl
@[simp] theorem storesOf_event (n : Nat) : storesOf (s.event n) = storesOf s := rfl

@[simp] theorem storesOf_eventLimited (n k : Nat) : storesOf (s.eventLimited n k) = storesOf s := by
  unfold State.eventLimited
  split
  · split <;> simp
  · simp

/-! The dictionary's paths -/

@[simp] theorem storesOf_heartbeatSend : storesOf s.heartbeatSend = storesOf s := by
  unfold State.heartbeatSend
  split <;> simp

@[simp] theorem storesOf_usdoTimeout (p : Nat) : storesOf (s.usdoTimeout p) = storesOf s := by
  unfold State.usdoTimeout
  split <;> simp [State.usdoDrop, State.usdoAbort]

/-! The logs, the threads, the debug port, the clock output -/

@[simp] theorem storesOf_canExport : storesOf s.canExport = storesOf s := by
  unfold State.canExport
  split <;> simp [State.backlogTake]

@[simp] theorem storesOf_udpPush : storesOf s.udpPush = storesOf s := by
  unfold State.udpPush
  split <;> simp [State.backlogTake]

@[simp] theorem storesOf_debugHalt (t : Nat) : storesOf (s.debugHalt t) = storesOf s := by
  unfold State.debugHalt
  split <;> simp

@[simp] theorem storesOf_debugResume (t : Nat) : storesOf (s.debugResume t) = storesOf s := by
  unfold State.debugResume
  split <;> simp

@[simp] theorem storesOf_debugAttach : storesOf s.debugAttach = storesOf s := by
  unfold State.debugAttach
  split <;> simp

@[simp] theorem storesOf_debugDetach : storesOf s.debugDetach = storesOf s := by
  unfold State.debugDetach
  split <;> simp

@[simp] theorem storesOf_ppsOutput (b : Bool) : storesOf (s.ppsOutput b) = storesOf s := by
  simp only [State.ppsOutput]
  split <;> simp [State.pin]

/-! A port's transmitter (R392, R393) -/

@[simp] theorem storesOf_frameStart (p : Nat) (b : Bytes) : storesOf (s.frameStart p b) = storesOf s := rfl

@[simp] theorem storesOf_shaperPay (p q w : Nat) : storesOf (s.shaperPay p q w) = storesOf s := by
  unfold State.shaperPay
  split <;> simp

@[simp] theorem storesOf_gateDropN (p q : Nat) : ∀ (f : Nat) (s : State), storesOf (s.gateDropN p q f) = storesOf s
  | 0, _ => rfl
  | f + 1, s => by
    unfold State.gateDropN
    split
    · split
      · rw [storesOf_gateDropN p q f]; simp
      · rfl
    · rfl

@[simp] theorem storesOf_sendQueue (p q : Nat) (d : Option (SMap Nat)) : storesOf (s.sendQueue p q d) = storesOf s := by
  unfold State.sendQueue
  split
  · rfl
  · cases d
    · dsimp only; split <;> simp
    · simp

@[simp] theorem storesOf_portServe (p : Nat) : storesOf (s.portServe p) = storesOf s := by
  have hdrop : storesOf ((List.range 8).foldl (fun s q => s.gateDropN p q ((s.egPort p).queue q).length) s) = storesOf s :=
    storesOf_foldl (fun u q => storesOf_gateDropN p q _ u) _ s
  simp only [State.portServe]
  split
  · rfl
  · split
    · simp
    · simp
    · split <;> simp [hdrop]

@[simp] theorem storesOf_portUp (p r : Nat) : storesOf (s.portUp p r) = storesOf s := by
  unfold State.portUp
  split
  · rfl
  · split <;> simp

/-! The rings' timers (R370, R375) -/

@[simp] theorem storesOf_ringControl (r : Nat) (east : Bool) (k hops : Nat) (b : Bytes) :
    storesOf (s.ringControl r east k hops b) = storesOf s := by
  simp only [State.ringControl, State.control]
  split <;> simp

@[simp] theorem storesOf_keepaliveSend (p : Nat) : storesOf (s.keepaliveSend p) = storesOf s := by
  unfold State.keepaliveSend
  split
  · split <;> simp
  · rfl

@[simp] theorem storesOf_helloSend : storesOf s.helloSend = storesOf s := by
  refine storesOf_foldl (fun u r => ?_) _ s
  split
  · exact storesOf_foldl (fun v e => storesOf_ringControl v r e _ _ _) _ u
  · rfl

@[simp] theorem storesOf_topologySend : storesOf s.topologySend = storesOf s := by
  refine storesOf_foldl (fun u r => ?_) _ s
  dsimp only
  split <;> simp

/-! The forwarding table (R354, R356–R359, R362) -/

@[simp] theorem storesOf_stashNote : storesOf s.stashNote = storesOf s := by
  simp only [State.stashNote]
  split <;> simp

@[simp] theorem storesOf_tablePut (i m : Nat) (e : Bytes) : storesOf (s.tablePut i m e) = storesOf s := by
  simp [State.tablePut]

@[simp] theorem storesOf_tableFull (n : Nat) : storesOf (s.tableFull n) = storesOf s := by
  simp [State.tableFull]

@[simp] theorem storesOf_rehome : storesOf s.rehome = storesOf s := by
  refine storesOf_foldl (fun u i => ?_) _ s
  split
  · rfl
  · split <;> simp

@[simp] theorem storesOf_tableDel (i : Nat) : storesOf (s.tableDel i) = storesOf s := by
  simp only [State.tableDel]
  split <;> simp

@[simp] theorem storesOf_sweepEntry (i : Nat) : storesOf (s.sweepEntry i) = storesOf s := by
  unfold State.sweepEntry
  split
  · rfl
  · split <;> simp

@[simp] theorem storesOf_sweepBucket (b : Nat) : storesOf (s.sweepBucket b) = storesOf s := by
  have hsweep (l : List Nat) : storesOf (l.foldl State.sweepEntry s) = storesOf s := storesOf_foldl storesOf_sweepEntry l s
  unfold State.sweepBucket
  split
  · split <;> simp [hsweep]
  · exact hsweep _

@[simp] theorem storesOf_learnHead : storesOf s.learnHead = storesOf s := by
  simp only [State.learnHead]
  split
  · rfl
  · split
    · split
      · rfl
      · split
        · simp
        · split <;> simp
    · split
      · split <;> simp
      · split <;> simp

end Frame

/-! The commands -/

theorem storesNothing_of {c : Instr} {s u : State} (hc : exec c s = done u) (hu : storesOf u = storesOf s) : StoresNothing c s :=
  ⟨u, hc, hu⟩

/-- A command that acts under a condition and does nothing else. -/
theorem storesNothing_of_ite {c : Instr} {s u : State} {P : Prop} [Decidable P] (hc : exec c s = if P then done u else done s)
    (hu : storesOf u = storesOf s) : StoresNothing c s := by
  by_cases h : P
  · exact storesNothing_of (hc.trans (if_pos h)) hu
  · exact storesNothing_of (hc.trans (if_neg h)) rfl

theorem storesNothing_egPset (s : State) (k : Nat) (m : Word) : StoresNothing (.egPset k m) s :=
  storesNothing_of_ite rfl (storesOf_foldl storesOf_event _ s)

theorem storesNothing_egPclr (s : State) (k : Nat) (m : Word) (l : List Nat) : StoresNothing (.egPclr k m l) s :=
  storesNothing_of_ite rfl ((storesOf_foldl storesOf_event _ _).trans (storesOf_foldl (fun u _ => storesOf_withGatherer u _) _ s))

theorem storesNothing_frameTransmitDone (s : State) (p : Nat) : StoresNothing (.frameTransmitDone p) s :=
  storesNothing_of_ite rfl (by simp)

/-- The gatherer's, the logs', the paths', the threads' and the network's commands of R44, R375, R398, R427, R451, R460, R463, R472, R481
and R515. -/
theorem storesNothing_of_mem (s : State) (n k p r : Nat) (m v : Word) (l : List Nat) (b : Bool) :
    ∀ c ∈ [Instr.heartbeat, .admissionTokenGain n, .egTctrlClear n, .egPset k m, .egPclr k m l, .egSrcWrite n v, .ttimerExpiry n,
      .debugHalt n, .debugResume n, .onsiaSessionTimeout n p r, .usdoTransferTimeout p, .ppsOutEdge b, .portLinkUp p r, .canExport,
      .udpPush, .syncTimeout, .ppsInTimeout, .frameTransmitDone p, .keepaliveTimer p, .helloTimer, .topologyTimer, .learnInsert,
      .ageingSweep n, .debugSessionAttach, .debugSessionDetach], StoresNothing c s := by
  simp only [List.forall_mem_cons]
  exact ⟨storesNothing_of rfl (storesOf_heartbeatSend s),
    storesNothing_of_ite rfl (storesOf_withAsh s _),
    storesNothing_of_ite rfl (storesOf_withGatherer s _),
    storesNothing_egPset s k m,
    storesNothing_egPclr s k m l,
    storesNothing_of_ite rfl (storesOf_withGatherer s _),
    storesNothing_of_ite rfl (storesOf_withThread s _ _),
    storesNothing_of_ite rfl (storesOf_debugHalt s n),
    storesNothing_of_ite rfl (storesOf_debugResume s n),
    storesNothing_of rfl (storesOf_withSvc s _),
    storesNothing_of rfl (storesOf_usdoTimeout s p),
    storesNothing_of rfl (storesOf_ppsOutput s b),
    storesNothing_of_ite rfl (storesOf_portUp s p r),
    storesNothing_of_ite rfl (storesOf_canExport s),
    storesNothing_of_ite rfl (storesOf_udpPush s),
    storesNothing_of_ite rfl (by simp : storesOf ((s.dset 0x3180 2 2).event 331) = storesOf s),
    storesNothing_of_ite rfl (storesOf_event s _),
    storesNothing_frameTransmitDone s p,
    storesNothing_of_ite rfl (storesOf_keepaliveSend s p),
    storesNothing_of_ite rfl (storesOf_helloSend s),
    storesNothing_of_ite rfl (storesOf_topologySend s),
    storesNothing_of_ite rfl (storesOf_learnHead s),
    storesNothing_of_ite rfl (storesOf_sweepBucket s n),
    storesNothing_of_ite rfl (storesOf_debugAttach s),
    storesNothing_of rfl (storesOf_debugDetach _),
    List.forall_mem_nil _⟩

/-- Settles O8: the commands' frame, and the laws of memory of Laws/Map. -/
theorem memoryFrame : Obligations.MemoryFrame := by
  refine ⟨fun s n k p r m v l b c hc => ?_, fun m a k b => ⟨fun hlo hhi => ?_, read_writeN_outside m a b, wf_writeN a b, by simp [Mem.readN]⟩⟩
  · obtain ⟨u, hd, hu⟩ := storesNothing_of_mem s n k p r m v l b c hc
    simp only [storesOf, Stores.mk.injEq] at hu
    obtain ⟨hdram, hcipher, hkiln, hinsts, hq, hseal, hstor, hboot⟩ := hu
    exact ⟨u, hd, fun a => by rw [hdram], hdram, hcipher, hkiln, hinsts, hq, hseal, hstor, hboot⟩
  · have hi : k - a < b.length := by omega
    have hread := read_writeN_inside m a b hi
    rw [Nat.add_sub_cancel' hlo] at hread
    rw [hread, List.getElem?_eq_getElem hi]

end Sys2Proof.Laws
end

section
/-! PROOFS. The CAN and Onsia paths (R41–R47): what a datagram, a USDO frame, a time that runs out and the heartbeat do, case by case. -/

namespace Sys2Proof.Laws

open Sys2Proof.Machine

/-! Onsia (R43–R46) -/

/-- A datagram comes to a device that serves, at its management address and VLAN. -/
structure OnsiaReaches (s : State) (dst vlan : Nat) : Prop where
  live : s.live = true
  managed : s.dget 0x1040 1 ≠ 0
  addr : dst = s.dget 0x1040 1
  vlan : vlan = s.dget 0x1040 4

/-- The magic, version, length and CRC of a datagram are right (R43, R44). -/
def OnsiaSound (b : Bytes) : Prop :=
  leAt b 0 2 = 0xD960 ∧ byteAt b 2 = 1 ∧ leAt b 14 2 ≤ 1024 ∧ b.length = 24 + leAt b 14 2
    ∧ leAt b (20 + leAt b 14 2) 4 = crc32c (b.take (20 + leAt b 14 2))

/-- The request that a datagram carries (Table 2-9). -/
def onsiaRequest (a p : Nat) (b : Bytes) : DictReq :=
  ⟨.onsia a p (leAt b 4 2), State.onsiaTake.dictOp (byteAt b 3), leAt b 8 2, byteAt b 10, Machine.sub b 20 (leAt b 14 2),
    .onsia (byteAt b 3) (leAt b 6 2) (byteAt b 11) (leAt b 16 4)⟩

section Onsia

variable {s : State} {a p dst vlan : Nat} {b : Bytes}

theorem onsiaTake_elsewhere (h : s.live = false ∨ s.dget 0x1040 1 = 0 ∨ dst ≠ s.dget 0x1040 1 ∨ vlan ≠ s.dget 0x1040 4) :
    s.onsiaTake a p dst vlan b = s :=
  if_pos (by simpa using h)

theorem OnsiaReaches.not_elsewhere (h : OnsiaReaches s dst vlan) :
    ¬ (!s.live ∨ s.dget 0x1040 1 = 0 ∨ dst ≠ s.dget 0x1040 1 ∨ vlan ≠ s.dget 0x1040 4) := by
  simp [h.live, h.managed, h.addr, h.vlan]

/-- The check that counts a datagram is the negation of its being sound. -/
theorem not_onsiaSound_iff : ¬ OnsiaSound b ↔
    (leAt b 0 2 ≠ 0xD960 ∨ byteAt b 2 ≠ 1 ∨ 1024 < leAt b 14 2 ∨ b.length ≠ 24 + leAt b 14 2
      ∨ leAt b (20 + leAt b 14 2) 4 ≠ crc32c (b.take (20 + leAt b 14 2))) := by
  simp only [OnsiaSound, not_and_or, not_le, ne_eq]

theorem onsiaTake_unsound (h : OnsiaReaches s dst vlan) (hb : ¬ OnsiaSound b) : s.onsiaTake a p dst vlan b = s.dinc 0x1041 6 :=
  (if_neg h.not_elsewhere).trans (if_pos (not_onsiaSound_iff.mp hb))

theorem onsiaTake_closed (h : OnsiaReaches s dst vlan) (hb : OnsiaSound b) (hr : s.dget 0x1041 2 = 0) :
    s.onsiaTake a p dst vlan b = s :=
  (if_neg h.not_elsewhere).trans ((if_neg fun hn => not_onsiaSound_iff.mpr hn hb).trans (if_pos hr))

/-- The Onsia path takes a request while the device serves at a management address and the path's rights are not 0 (R47). -/
theorem request_onsia {r : DictReq} {k : Nat} (hw : r.who = .onsia a p k) (hl : s.live = true) (hm : s.dget 0x1040 1 ≠ 0)
    (hr : s.dget 0x1041 2 ≠ 0) : s.request r = s.enqueue r := by
  simp [State.request, hw, hl, hm, State.pathRights, hr]

variable (h : OnsiaReaches s dst vlan) (hb : OnsiaSound b) (hr : s.dget 0x1041 2 ≠ 0)
include h hb hr

/-- A session that is known: its last SEQ again, or a new one. -/
theorem onsiaTake_known {x : OnsiaSession} (hx : s.session? a p (leAt b 4 2) = some x) : s.onsiaTake a p dst vlan b =
    if x.seq = some (leAt b 6 2) then (if x.answer.isEmpty then s else s.emit (.datagram a p vlan x.answer))
    else (s.withSession a p (leAt b 4 2) fun y => { y with seq := some (leAt b 6 2), answer := [] }).enqueue (onsiaRequest a p b) := by
  have hlive : State.live (s.withSession a p (leAt b 4 2) fun y => { y with seq := some (leAt b 6 2), answer := [] }) = true := h.live
  rw [← request_onsia rfl hlive h.managed hr]
  refine (if_neg h.not_elsewhere).trans ((if_neg fun hn => not_onsiaSound_iff.mpr hn hb).trans ((if_neg hr).trans ?_))
  simp only [hx, onsiaRequest]

/-- A session that is not known: a new one, or a refusal where 16 are open (log entry 121). -/
theorem onsiaTake_unknown (hx : s.session? a p (leAt b 4 2) = none) : s.onsiaTake a p dst vlan b =
    if 16 ≤ s.svc.sessions.length then s.answer (onsiaRequest a p b) vlan .poolExhausted []
    else (s.withSvc fun v => { v with
      sessions := v.sessions ++ [⟨a, p, leAt b 4 2, some (leAt b 6 2), [], none, none⟩] }).enqueue (onsiaRequest a p b) := by
  have hlive : State.live (s.withSvc fun v => { v with
      sessions := v.sessions ++ [⟨a, p, leAt b 4 2, some (leAt b 6 2), [], none, none⟩] }) = true := h.live
  rw [← request_onsia rfl hlive h.managed hr]
  refine (if_neg h.not_elsewhere).trans ((if_neg fun hn => not_onsiaSound_iff.mpr hn hb).trans ((if_neg hr).trans ?_))
  simp only [hx, onsiaRequest]

end Onsia

/-- The refusal of a 17th session sends one answer and opens nothing. -/
theorem answer_onsiaRequest_refused (s : State) (a p vlan : Nat) (b : Bytes) :
    let u := s.answer (onsiaRequest a p b) vlan .poolExhausted []
    u.svc.sessions.length = s.svc.sessions.length ∧ u.svc.held = s.svc.held ∧ u.out.length = s.out.length + 1 := by
  simp [State.answer, onsiaRequest, State.onsiaSend, State.withSession, State.dinc, State.dadd]

theorem does_onsiaDatagram {s u : State} {a p dst vlan : Nat} {b : Bytes} (h : s.onsiaTake a p dst vlan b = u) :
    Does (.onsiaDatagram a p dst vlan b) s u := h ▸ rfl

/-! USDO on CAN (R41, R42) -/

section Usdo

variable {s : State} {p idx q size : Nat} {b : Bytes} {f : UsdoFrame}

theorem does_usdoInitiateUpload {u : State} (h : s.usdoInitiate p idx q none = u) : Does (.usdoInitiateUpload p idx q) s u := h ▸ rfl

theorem does_usdoInitiateDownload {u : State} (h : s.usdoInitiate p idx q (some (size, b)) = u) :
    Does (.usdoInitiateDownload p idx q size b) s u := h ▸ rfl

theorem does_usdoSegment {u : State} (h : s.usdoSegment p f = u) : Does (.usdoSegment p f) s u := h ▸ rfl

theorem does_usdoTransferTimeout {u : State} (h : s.usdoTimeout p = u) : Does (.usdoTransferTimeout p) s u := h ▸ rfl

theorem usdoInitiate_unserved (h : s.usdoServed p = false) (w : Option (Nat × Bytes)) : s.usdoInitiate p idx q w = s := by
  simp [State.usdoInitiate, h]

theorem usdoSegment_unserved (h : s.usdoServed p = false) : s.usdoSegment p f = s := by
  simp [State.usdoSegment, h]

theorem usdoTimeout_none (h : s.svc.transfers.get? p = none) : s.usdoTimeout p = s := by
  simp [State.usdoTimeout, h]

theorem usdoTimeout_some (h : (s.svc.transfers.get? p).isSome = true) :
    s.usdoTimeout p = (s.usdoDrop p).usdoAbort p .transferTimeout := by
  obtain ⟨x, hx⟩ := Option.isSome_iff_exists.mp h
  simp [State.usdoTimeout, hx]

variable (h : s.usdoServed p = true)
include h

/-- A port that serves the path takes its requests. -/
theorem request_can {r : DictReq} (hw : r.who = .can p) : s.request r = s.enqueue r := by
  have hserves : s.live ∧ p < 2 ∧ s.pathRights (.can p) ≠ 0 := by simpa [State.usdoServed, and_assoc] using h
  simp only [State.request, hw]
  exact if_pos hserves

theorem usdoInitiate_second (ht : (s.svc.transfers.get? p).isSome = true) (w : Option (Nat × Bytes)) :
    s.usdoInitiate p idx q w = s.usdoAbort p .poolExhausted := by
  simp [State.usdoInitiate, h, ht]

section Idle

variable (ht : s.svc.transfers.get? p = none)
include ht

theorem usdoInitiate_upload : s.usdoInitiate p idx q none = s.enqueue ⟨.can p, .read, idx, q, [], .usdo true⟩ := by
  simp [State.usdoInitiate, h, ht, request_can h]

theorem usdoInitiate_whole (hs : b.length = size) :
    s.usdoInitiate p idx q (some (size, b)) = s.enqueue ⟨.can p, .write, idx, q, b, .usdo false⟩ := by
  simp [State.usdoInitiate, h, ht, hs, request_can h]

theorem usdoInitiate_badLength (hs : size < b.length ∨ (size ≤ usdoFrameBytes ∧ b.length ≠ size)) :
    s.usdoInitiate p idx q (some (size, b)) = s.usdoAbort p .protocolError := by
  simp [State.usdoInitiate, h, ht, hs]

theorem usdoInitiate_segmented (hs : b.length < size) (hf : usdoFrameBytes < size) : s.usdoInitiate p idx q (some (size, b)) =
    (s.withSvc fun v => { v with transfers := v.transfers.put p ⟨false, idx, q, size, b, false⟩ }).emit (.usdo p false []) := by
  have hlen : ¬ size < b.length := by omega
  have hfit : ¬ size ≤ usdoFrameBytes := by omega
  have hne : b.length ≠ size := by omega
  simp [State.usdoInitiate, h, ht, hlen, hfit, hne]

/-- A segment without a transfer ends in an abort (log entry 122). -/
theorem usdoSegment_stray : s.usdoSegment p f = (s.usdoDrop p).usdoAbort p .protocolError := by
  simp [State.usdoSegment, h, ht]

end Idle

section Running

variable {x : UsdoTransfer} {toggle last : Bool} {d : Bytes} (hx : s.svc.transfers.get? p = some x)
include hx

theorem usdoSegment_outOfOrder (hf : f = .undefined ∨ (f = .segment toggle last d ∧ toggle ≠ x.toggle)) :
    s.usdoSegment p f = (s.usdoDrop p).usdoAbort p .protocolError := by
  obtain rfl | ⟨rfl, hne⟩ := hf
  · simp [State.usdoSegment, h]
  · simp [State.usdoSegment, h, hx, hne]

theorem usdoSegment_uploadEnds (hu : x.upload = true) (hd : x.data.length ≤ usdoFrameBytes) :
    s.usdoSegment p (.segment x.toggle last d) = (s.emit (.usdo p false (x.data.take usdoFrameBytes))).usdoDrop p := by
  simp [State.usdoSegment, h, hx, hu, hd]

theorem usdoSegment_uploadGoesOn (hu : x.upload = true) (hd : usdoFrameBytes < x.data.length) :
    s.usdoSegment p (.segment x.toggle last d) = (s.emit (.usdo p false (x.data.take usdoFrameBytes))).withSvc fun v =>
      { v with transfers := v.transfers.put p { x with data := x.data.drop usdoFrameBytes, toggle := !x.toggle } } := by
  simp [State.usdoSegment, h, hx, hu, not_le.mpr hd]

/-- A frame of a download in its order: the bytes so far are checked, written whole, or wait for more. -/
theorem usdoSegment_download (hu : x.upload = false) : s.usdoSegment p (.segment x.toggle last d) =
    if x.size < (x.data ++ d).length ∨ (last = true ∧ (x.data ++ d).length ≠ x.size) then (s.usdoDrop p).usdoAbort p .protocolError
    else if last then (s.usdoDrop p).enqueue ⟨.can p, .write, x.index, x.sub, x.data ++ d, .usdo false⟩
    else (s.withSvc fun v =>
      { v with transfers := v.transfers.put p { x with data := x.data ++ d, toggle := !x.toggle } }).emit (.usdo p false []) := by
  have hreq := request_can (s := s.usdoDrop p) (r := ⟨.can p, .write, x.index, x.sub, x.data ++ d, .usdo false⟩) h rfl
  simp only [State.usdoSegment, h, hx, hu, hreq, Bool.not_true, Bool.false_eq_true, if_false, ne_eq, not_true_eq_false]

theorem usdoSegment_badLength (hu : x.upload = false)
    (hs : x.size < (x.data ++ d).length ∨ (last = true ∧ (x.data ++ d).length ≠ x.size)) :
    s.usdoSegment p (.segment x.toggle last d) = (s.usdoDrop p).usdoAbort p .protocolError :=
  (usdoSegment_download h hx hu).trans (if_pos hs)

theorem usdoSegment_downloadEnds (hu : x.upload = false) (hs : (x.data ++ d).length = x.size) :
    s.usdoSegment p (.segment x.toggle true d) =
      (s.usdoDrop p).enqueue ⟨.can p, .write, x.index, x.sub, x.data ++ d, .usdo false⟩ :=
  (usdoSegment_download h hx hu).trans ((if_neg (by omega)).trans (if_pos rfl))

theorem usdoSegment_downloadGoesOn (hu : x.upload = false) (hs : (x.data ++ d).length ≤ x.size) :
    s.usdoSegment p (.segment x.toggle false d) = (s.withSvc fun v =>
      { v with transfers := v.transfers.put p { x with data := x.data ++ d, toggle := !x.toggle } }).emit (.usdo p false []) :=
  (usdoSegment_download h hx hu).trans ((if_neg (by simpa using hs)).trans (if_neg Bool.false_ne_true))

end Running

end Usdo

/-! The heartbeat (log entry 106) -/

theorem does_heartbeat_silent {s : State} (h : s.hearthRuns = false ∨ s.dget 0x1017 0 = 0) : Does .heartbeat s s := by
  have hno : ¬ (s.hearthRuns ∧ s.dget 0x1017 0 ≠ 0) := by
    rintro ⟨hruns, hperiod⟩
    exact h.elim (by simp [hruns]) hperiod
  have hs : s.heartbeatSend = s := if_neg hno
  exact congrArg done hs

theorem does_heartbeat {s : State} (h : s.hearthRuns = true) (hp : s.dget 0x1017 0 ≠ 0) : Does .heartbeat s
    ((s.emit (.canFrame 0 (0x700 + s.dget 0x1010 1) [5])).emit (.canFrame 1 (0x700 + s.dget 0x1011 1) [5])) := by
  have hs : s.heartbeatSend =
      (s.emit (.canFrame 0 (0x700 + s.dget 0x1010 1) [5])).emit (.canFrame 1 (0x700 + s.dget 0x1011 1) [5]) := if_pos ⟨h, hp⟩
  exact congrArg done hs

/-- Settles O57: each clause is one of the cases above. -/
theorem dictionaryPaths : Obligations.DictionaryPaths := by
  refine ⟨fun s a p dst vlan b => ⟨fun h => does_onsiaDatagram (onsiaTake_elsewhere h), fun hl hm ha hv => ?onsia⟩,
    fun _ _ _ _ => rfl,
    fun s p idx q size b f => ⟨fun h => ?unserved, fun h => ⟨fun ht => ?second, fun ht => ?idle, fun x toggle last d hx => ?running⟩,
      fun ht => does_usdoTransferTimeout (usdoTimeout_none ht), fun ht => does_usdoTransferTimeout (usdoTimeout_some ht)⟩,
    fun s => ⟨does_heartbeat_silent, does_heartbeat⟩⟩
  case onsia =>
    have h : OnsiaReaches s dst vlan := ⟨hl, hm, ha, hv⟩
    refine ⟨fun hb => does_onsiaDatagram (onsiaTake_unsound h hb), fun hb hr => does_onsiaDatagram (onsiaTake_closed h hb hr),
      fun hb hr => ?_⟩
    refine ⟨fun x hx hseq hans => ?again, fun x hx hseq hans => ?answered, fun x hx hseq => ?new, fun hx hlt => ?session,
      fun hx hle => ?full⟩
    case again =>
      exact does_onsiaDatagram ((onsiaTake_known h hb hr hx).trans (by simp [hseq, hans]))
    case answered =>
      exact does_onsiaDatagram ((onsiaTake_known h hb hr hx).trans (by simp [hseq, hans]))
    case new =>
      exact ⟨onsiaRequest a p b, rfl, rfl, rfl, rfl, rfl, does_onsiaDatagram ((onsiaTake_known h hb hr hx).trans (if_neg hseq))⟩
    case session =>
      exact ⟨onsiaRequest a p b, rfl, rfl, rfl, rfl, does_onsiaDatagram ((onsiaTake_unknown h hb hr hx).trans (if_neg (by omega)))⟩
    case full =>
      exact ⟨_, does_onsiaDatagram ((onsiaTake_unknown h hb hr hx).trans (if_pos hle)), answer_onsiaRequest_refused s a p vlan b⟩
  case unserved =>
    exact ⟨does_usdoInitiateUpload (usdoInitiate_unserved h _), does_usdoInitiateDownload (usdoInitiate_unserved h _),
      does_usdoSegment (usdoSegment_unserved h)⟩
  case second =>
    exact ⟨does_usdoInitiateUpload (usdoInitiate_second h ht _), does_usdoInitiateDownload (usdoInitiate_second h ht _)⟩
  case idle =>
    exact ⟨does_usdoInitiateUpload (usdoInitiate_upload h ht), fun hs => does_usdoInitiateDownload (usdoInitiate_whole h ht hs),
      fun hs => does_usdoInitiateDownload (usdoInitiate_badLength h ht hs),
      fun hs hf => does_usdoInitiateDownload (usdoInitiate_segmented h ht hs hf), does_usdoSegment (usdoSegment_stray h ht)⟩
  case running =>
    refine ⟨fun hf => does_usdoSegment (usdoSegment_outOfOrder h hx hf), ?_, ?_, ?_, ?_, ?_⟩
    · rintro rfl hu hd
      exact does_usdoSegment (usdoSegment_uploadEnds h hx hu hd)
    · rintro rfl hu hd
      exact does_usdoSegment (usdoSegment_uploadGoesOn h hx hu hd)
    · rintro rfl hu hs
      exact does_usdoSegment (usdoSegment_badLength h hx hu hs)
    · rintro rfl hu hs
      exact does_usdoSegment (usdoSegment_downloadEnds h hx hu hs)
    · rintro rfl hu hs
      exact does_usdoSegment (usdoSegment_downloadGoesOn h hx hu hs)

end Sys2Proof.Laws
end

section
/-! PROOFS. The operations of the dictionary (Tables 2-3, 2-10, 2-13): how each request is answered; NEXT and INFO; the mailbox that is BUSY
or asked before READY; the write mask; the writes that act. -/

namespace Sys2Proof.Laws

open Sys2Proof.Machine

/-! Numbers and their bytes -/

theorem leNat_leBytes (k n : Nat) : leNat (leBytes k n) = n % 256 ^ k := by
  induction k generalizing n with
  | zero => simp [leBytes, leNat, Nat.mod_one]
  | succ k ih =>
    rw [leBytes, leNat, ih, BitVec.toNat_ofNat, pow_succ' 256 k, Nat.mod_mul]

@[simp] theorem leBytes_length (k n : Nat) : (leBytes k n).length = k := by
  induction k generalizing n with
  | zero => rfl
  | succ k ih => rw [leBytes, List.length_cons, ih]

/-- A U64 entry takes the number that was written. -/
theorem dec_u64 {v : Nat} (h : v < 2 ^ 64) : DVal.dec .u64 (leBytes 8 v) = .num v := by
  have hv : leNat (leBytes 8 v) = v := (leNat_leBytes 8 v).trans (Nat.mod_eq_of_lt (by omega))
  exact congrArg DVal.num hv

/-! Requests through the checks of Table 2-13 (R58) -/

/-- An operation on an entry: all but NEXT. -/
def OnEntry (op : DictOp) : Prop := op = .read ∨ op = .info ∨ op = .readShadow ∨ op = .write

section Place

variable {who : Requester} {idx q : Nat}

theorem placeCheck_invisible (h : visible who idx = false) : placeCheck who idx q = .notYourInstance := by
  simp [placeCheck, h]

theorem placeCheck_noIndex (h : visible who idx = true) (hi : indexExists idx = false) :
    placeCheck who idx q = .unknownIndexOrOpcode := by
  simp [placeCheck, h, hi]

theorem placeCheck_noSub (h : visible who idx = true) (hi : indexExists idx = true) (hq : subExists idx q = false) :
    placeCheck who idx q = .unknownSubindex := by
  simp [placeCheck, h, hi, hq]

theorem placeCheck_ok (h : visible who idx = true) (hi : indexExists idx = true) (hq : subExists idx q = true) :
    placeCheck who idx q = .ok := by
  simp [placeCheck, h, hi, hq]

end Place

section Requests

variable {c : Instr} {s : State} {who : Requester} {idx q : Nat} {b : Bytes}

theorem serveRequest_misplaced {op : DictOp} {st : Status} (hb : s.boot.ready = true) (hop : OnEntry op) (hp : placeCheck who idx q = st)
    (hst : st ≠ .ok) : s.serveRequest ⟨who, op, idx, q, b, .plain⟩ = .answer st [] s := by
  obtain rfl | rfl | rfl | rfl := hop <;> simp [State.serveRequest, State.serveWrite, hb, hp]

/-- A write of a number that passes the checks and acts as its own table gives. -/
theorem answers_write {t : State} {v : Nat} (hc : exec c s = done (s.writeRequest who idx q v)) (hA : s.Asks (writeOf who idx q v))
    (hok : (s.taken (writeOf who idx q v)).Accepts (writeOf who idx q v)) (hw : entryAccess idx q ≠ .rwc)
    (hg : (if q = 1 then groupAt idx else none) = none) (hn : ¬ (idx = 0x3B02 ∧ q = 1))
    (he : (s.taken (writeOf who idx q v)).entryWrite idx q (DVal.dec (entryType idx q) (leBytes (entryType idx q).len v)) = (.ok, t)) :
    Answers c s (writeOf who idx q v) .ok [] t :=
  answers_of rfl hc hA (fun h => hn ⟨h.2.1, h.2.2.1⟩) (serveWrite_ok (taken_ready hA) hok hw hg he)

/-- A write of a number that passes the checks and that its own table refuses. -/
theorem answers_write_refused {t : State} {v : Nat} {st : Status} (hc : exec c s = done (s.writeRequest who idx q v))
    (hA : s.Asks (writeOf who idx q v)) (hok : (s.taken (writeOf who idx q v)).Accepts (writeOf who idx q v))
    (hw : entryAccess idx q ≠ .rwc) (hg : (if q = 1 then groupAt idx else none) = none) (hst : st ≠ .ok)
    (he : (s.taken (writeOf who idx q v)).entryWrite idx q (DVal.dec (entryType idx q) (leBytes (entryType idx q).len v)) = (st, t)) :
    Answers c s (writeOf who idx q v) st [] (s.taken (writeOf who idx q v)) :=
  answers_of rfl hc hA (fun h => hst h.2.2.2) (serveWrite_refused (taken_ready hA) hok hw hg hst he)

end Requests

/-! The five operations by themselves. In DictionaryRows the clauses on them stand, by the precedence of → under ∧, as hypotheses of
the clause on what a READ leaves; that clause needs none of them, and each of them holds. -/

section Operations

variable {c : Instr} {s : State} {who : Requester} {idx q : Nat} {b : Bytes}

theorem answers_misplaced {op : DictOp} {st : Status} (hop : OnEntry op) (hc : exec c s = done (s.dictRequest who op idx q b))
    (hA : s.Asks ⟨who, op, idx, q, b, .plain⟩) (hp : placeCheck who idx q = st) (hst : st ≠ .ok) :
    Answers c s ⟨who, op, idx, q, b, .plain⟩ st [] (s.taken ⟨who, op, idx, q, b, .plain⟩) :=
  answers_of rfl hc hA (fun h => hst h.2.2.2) (serveRequest_misplaced (taken_ready hA) hop hp hst)

/-- An operation on an entry fails with the first of checks 3 to 5 that does not hold (R58). -/
theorem answers_firstFailing {op : DictOp} (hop : OnEntry op) (hc : exec c s = done (s.dictRequest who op idx q b))
    (hA : s.Asks ⟨who, op, idx, q, b, .plain⟩) :
    let u := s.taken ⟨who, op, idx, q, b, .plain⟩
    (visible who idx = false → Answers c s ⟨who, op, idx, q, b, .plain⟩ .notYourInstance [] u)
    ∧ (visible who idx = true → indexExists idx = false → Answers c s ⟨who, op, idx, q, b, .plain⟩ .unknownIndexOrOpcode [] u)
    ∧ (visible who idx = true → indexExists idx = true → subExists idx q = false →
        Answers c s ⟨who, op, idx, q, b, .plain⟩ .unknownSubindex [] u) :=
  ⟨fun h => answers_misplaced hop hc hA (placeCheck_invisible h) (by decide),
    fun h hi => answers_misplaced hop hc hA (placeCheck_noIndex h hi) (by decide),
    fun h hi hq => answers_misplaced hop hc hA (placeCheck_noSub h hi hq) (by decide)⟩

theorem answers_dictNext (hA : s.Asks ⟨who, .next, idx, q, [], .plain⟩) :
    Answers (.dictNext who idx q) s ⟨who, .next, idx, q, [], .plain⟩ .ok
      (leBytes 2 (nextEntry who idx q).1 ++ leBytes 1 (nextEntry who idx q).2 ++ zeros 1) (s.taken ⟨who, .next, idx, q, [], .plain⟩) :=
  answers_of rfl rfl hA (fun h => nomatch h.1) (by simp [State.serveRequest, taken_ready hA])

section Placed

variable (hv : visible who idx = true) (hi : indexExists idx = true) (hq : subExists idx q = true)
include hv hi hq

theorem answers_dictInfo (hA : s.Asks ⟨who, .info, idx, q, [], .plain⟩) :
    Answers (.dictInfo who idx q) s ⟨who, .info, idx, q, [], .plain⟩ .ok
      ((s.taken ⟨who, .info, idx, q, [], .plain⟩).infoBytes who idx q) (s.taken ⟨who, .info, idx, q, [], .plain⟩) :=
  answers_of rfl rfl hA (fun h => nomatch h.1) (by simp [State.serveRequest, taken_ready hA, placeCheck_ok hv hi hq])

theorem answers_dictRead_writeOnly (hA : s.Asks ⟨who, .read, idx, q, [], .plain⟩) (hw : entryAccess idx q = .wo) :
    Answers (.dictRead who idx q) s ⟨who, .read, idx, q, [], .plain⟩ .writeOnly [] (s.taken ⟨who, .read, idx, q, [], .plain⟩) :=
  answers_of rfl rfl hA (fun h => nomatch h.1) (by simp [State.serveRequest, taken_ready hA, placeCheck_ok hv hi hq, hw])

theorem answers_dictRead (hA : s.Asks ⟨who, .read, idx, q, [], .plain⟩) (hw : entryAccess idx q ≠ .wo) :
    Answers (.dictRead who idx q) s ⟨who, .read, idx, q, [], .plain⟩ .ok
      ((s.taken ⟨who, .read, idx, q, [], .plain⟩).dictRead idx q).1 ((s.taken ⟨who, .read, idx, q, [], .plain⟩).dictRead idx q).2 :=
  answers_of rfl rfl hA (fun h => nomatch h.1) (by simp [State.serveRequest, taken_ready hA, placeCheck_ok hv hi hq, hw])

theorem answers_dictReadShadow_writeOnly (hA : s.Asks ⟨who, .readShadow, idx, q, [], .plain⟩) (hw : entryAccess idx q = .wo) :
    Answers (.dictReadShadow who idx q) s ⟨who, .readShadow, idx, q, [], .plain⟩ .writeOnly []
      (s.taken ⟨who, .readShadow, idx, q, [], .plain⟩) :=
  answers_of rfl rfl hA (fun h => nomatch h.1) (by simp [State.serveRequest, taken_ready hA, placeCheck_ok hv hi hq, hw])

/-- READ_SHADOW of an entry of a group gives its value in the shadow. -/
theorem answers_dictReadShadow_group (hA : s.Asks ⟨who, .readShadow, idx, q, [], .plain⟩) (hw : entryAccess idx q = .rwc) :
    Answers (.dictReadShadow who idx q) s ⟨who, .readShadow, idx, q, [], .plain⟩ .ok
      (((s.taken ⟨who, .readShadow, idx, q, [], .plain⟩).shadowVal (entryGroup idx q) idx q).enc (entryType idx q))
      (s.taken ⟨who, .readShadow, idx, q, [], .plain⟩) :=
  answers_of rfl rfl hA (fun h => nomatch h.1) (by simp [State.serveRequest, taken_ready hA, placeCheck_ok hv hi hq, hw])

/-- READ_SHADOW of any other entry is a READ. -/
theorem answers_dictReadShadow_plain (hA : s.Asks ⟨who, .readShadow, idx, q, [], .plain⟩) (hwo : entryAccess idx q ≠ .wo)
    (hw : entryAccess idx q ≠ .rwc) :
    Answers (.dictReadShadow who idx q) s ⟨who, .readShadow, idx, q, [], .plain⟩ .ok
      ((s.taken ⟨who, .readShadow, idx, q, [], .plain⟩).dictRead idx q).1
      ((s.taken ⟨who, .readShadow, idx, q, [], .plain⟩).dictRead idx q).2 :=
  answers_of rfl rfl hA (fun h => nomatch h.1) (by simp [State.serveRequest, taken_ready hA, placeCheck_ok hv hi hq, hwo, hw])

section Write

variable (hA : s.Asks ⟨who, .write, idx, q, b, .plain⟩)
include hA

/-- A WRITE fails with the first of checks 6 to 9 that does not hold. -/
theorem answers_dictWrite_refused {st : Status} (hst : (s.taken ⟨who, .write, idx, q, b, .plain⟩).writeCheck who idx q b = st)
    (hok : st ≠ .ok) (hro : st ≠ .readOnly) : Answers (.dictWrite who idx q b) s ⟨who, .write, idx, q, b, .plain⟩ st []
      (s.taken ⟨who, .write, idx, q, b, .plain⟩) :=
  answers_of rfl rfl hA (fun h => hok h.2.2.2) (by simp [State.serveRequest, State.serveWrite, taken_ready hA, placeCheck_ok hv hi hq, hst])

/-- One that may not be made is READ_ONLY, and counted where the write mask denies it (R50). -/
theorem answers_dictWrite_readOnly (hst : (s.taken ⟨who, .write, idx, q, b, .plain⟩).writeCheck who idx q b = .readOnly) :
    Answers (.dictWrite who idx q b) s ⟨who, .write, idx, q, b, .plain⟩ .readOnly []
      ((s.taken ⟨who, .write, idx, q, b, .plain⟩).denied who idx) :=
  answers_of rfl rfl hA (fun h => nomatch h.2.2.2) (by simp [State.serveRequest, State.serveWrite, taken_ready hA, placeCheck_ok hv hi hq, hst])

variable (hst : (s.taken ⟨who, .write, idx, q, b, .plain⟩).writeCheck who idx q b = .ok)
include hst

/-- A WRITE to an entry of a group goes to its shadow (R52). -/
theorem answers_dictWrite_shadow (hw : entryAccess idx q = .rwc) :
    Answers (.dictWrite who idx q b) s ⟨who, .write, idx, q, b, .plain⟩ .ok []
      ((s.taken ⟨who, .write, idx, q, b, .plain⟩).shadowWrite (entryGroup idx q) who idx q (DVal.dec (entryType idx q) b)) := by
  refine answers_of rfl rfl hA ?_ (by simp [State.serveRequest, State.serveWrite, taken_ready hA, placeCheck_ok hv hi hq, hst, hw])
  rintro ⟨-, rfl, rfl, -⟩
  exact absurd hw (by decide +kernel)

variable (hw : entryAccess idx q ≠ .rwc) (hg : q = 1 → groupAt idx = none)
include hw hg

/-- Another WRITE has the effect that its table gives. -/
theorem answers_dictWrite (hn : ¬ (idx = 0x3B02 ∧ q = 1))
    (he : ((s.taken ⟨who, .write, idx, q, b, .plain⟩).entryWrite idx q (DVal.dec (entryType idx q) b)).1 = .ok) :
    Answers (.dictWrite who idx q b) s ⟨who, .write, idx, q, b, .plain⟩ .ok []
      ((s.taken ⟨who, .write, idx, q, b, .plain⟩).entryWrite idx q (DVal.dec (entryType idx q) b)).2 :=
  answers_of rfl rfl hA (fun h => hn ⟨h.2.1, h.2.2.1⟩)
    (serveWrite_ok (taken_ready hA) ⟨placeCheck_ok hv hi hq, hst⟩ hw (by simpa using hg) (Prod.ext he rfl))

/-- One that its table refuses changes nothing. -/
theorem answers_dictWrite_tableRefused
    (he : ((s.taken ⟨who, .write, idx, q, b, .plain⟩).entryWrite idx q (DVal.dec (entryType idx q) b)).1 ≠ .ok) :
    Answers (.dictWrite who idx q b) s ⟨who, .write, idx, q, b, .plain⟩
      ((s.taken ⟨who, .write, idx, q, b, .plain⟩).entryWrite idx q (DVal.dec (entryType idx q) b)).1 []
      (s.taken ⟨who, .write, idx, q, b, .plain⟩) :=
  answers_of rfl rfl hA (fun h => he h.2.2.2)
    (serveWrite_refused (taken_ready hA) ⟨placeCheck_ok hv hi hq, hst⟩ hw (by simpa using hg) he rfl)

end Write

end Placed

end Operations

/-! READ, NEXT and INFO (Table 2-3) -/

/-- A READ changes the state only where it pulls from the log or where the entry is measured. -/
theorem dictRead_stays {s : State} {idx q : Nat} (hpull : ¬ (idx = 0x3A20 ∧ q = 9)) (hm : measured idx q = false) :
    (s.dictRead idx q).2 = s := by
  unfold State.dictRead
  split
  · rfl
  · simp [hpull, hm]

/-- NEXT gives an entry that the requester sees and that stands after the one named, or 0. -/
theorem nextEntry_later {who : Requester} {idx q i k : Nat} (h : nextEntry who idx q = (i, k)) (hne : (i, k) ≠ (0, 0)) :
    visible who i = true ∧ (idx < i ∨ (idx = i ∧ q < k)) := by
  simp only [nextEntry] at h
  split at h
  next j hj =>
    obtain ⟨rfl, rfl⟩ := Prod.mk.inj h
    split at hj
    · next hv =>
      have hmem := List.min?_mem hj
      obtain ⟨r, -, hr⟩ := List.mem_filterMap.mp hmem
      have hq : max r.lo (q + 1) = j := by simpa using (Option.ite_none_right_eq_some.mp hr).2
      exact ⟨hv, .inr ⟨rfl, by omega⟩⟩
    · cases hj
  next =>
    split at h
    next j hj =>
      obtain ⟨rfl, rfl⟩ := Prod.mk.inj h
      obtain ⟨l, hl, hmem⟩ := List.mem_flatten.mp (List.min?_mem hj)
      obtain ⟨r, -, rfl⟩ := List.mem_map.mp hl
      have hj' := (List.mem_filter.mp hmem).2
      simp only [Bool.and_eq_true, decide_eq_true_eq] at hj'
      exact ⟨hj'.2, .inl hj'.1⟩
    next => exact absurd h.symm hne

theorem infoBytes_length (s : State) (who : Requester) (idx q : Nat) : (s.infoBytes who idx q).length = 8 := by
  simp [State.infoBytes, zeros]

/-! The mailbox that takes nothing (R38, R39) -/

section Mailbox

variable {s : State} {n : Nat} {op : DictOp} {idx q : Nat} {d : Bytes}

theorem dictRequest_mailbox_busy (hb : (s.fn n).box.busy = true) : s.dictRequest (.mailbox n) op idx q d = s := by
  simp [State.dictRequest, State.request, State.mailboxGo, hb]

/-- A function is on the bus whatever its mailbox holds. -/
theorem fnPresent_withBox (s : State) (n m : Nat) (f : Mailbox → Mailbox) : (s.withBox n f).fnPresent m = s.fnPresent m := by
  have hcfg : ((s.withBox n f).fn 0).cfg = (s.fn 0).cfg := by
    by_cases h : n = 0
    · subst h
      simp [State.withBox]
    · rw [State.withBox, fn_withFn_other s _ (Ne.symm h)]
  simp only [State.fnPresent, State.numVfs, State.cfg, hcfg]
  rfl

/-- A row's request on a mailbox that is not BUSY: the registers hold it, and GO is written. -/
theorem dictRequest_mailbox (hup : s.host.up = true) (hp : s.fnPresent n = true) (hb : (s.fn n).box.busy = false) :
    ∃ f : Mailbox → Mailbox, (∀ b, (f b).busy = b.busy ∧ (f b).irq = b.irq) ∧
      s.dictRequest (.mailbox n) op idx q d = (s.withBox n f).mailboxGo n ⟨.mailbox n, op, idx, q, d, .plain⟩ := by
  refine ⟨fun b => { b with
      cmd := _
      len := if op == DictOp.write then d.length else b.len
      data := if op == DictOp.write then Mem.writeN b.data 0 d else b.data }, fun b => ⟨rfl, rfl⟩,
    congrArg (State.mailboxGo · n ⟨.mailbox n, op, idx, q, d, .plain⟩) (if_neg ?_)⟩
  simp [hup, hp, hb]

/-- A GO before READY is done at once, without a message where none is asked for (R39). -/
theorem mailboxGo_early {r : DictReq} (hup : s.host.up = true) (hp : s.fnPresent n = true) (hb : (s.fn n).box.busy = false)
    (hr : s.boot.ready = false) (hirq : (s.fn n).box.irq = 0) : s.mailboxGo n r =
      (s.withBox n fun b => { b with done := true, code := Status.notInThisState.code, rlen := 0 }).emit
        (.mailbox n Status.notInThisState.code []) := by
  simp [State.mailboxGo, State.withBox, hup, hp, hb, hr, hirq, bit]

/-- Before READY a mailbox answers at once, and nobody is asked. -/
theorem dictRequest_mailbox_early (hup : s.host.up = true) (hp : s.fnPresent n = true) (hb : (s.fn n).box.busy = false)
    (hr : s.boot.ready = false) (hirq : (s.fn n).box.irq = 0) :
    let u := s.dictRequest (.mailbox n) op idx q d
    (u.fn n).box.done = true ∧ (u.fn n).box.busy = false ∧ (u.fn n).box.code = Status.notInThisState.code ∧ (u.fn n).box.rlen = 0
      ∧ u.svc = s.svc ∧ u.dict = s.dict ∧ u.out = s.out ++ [.mailbox n Status.notInThisState.code []] := by
  obtain ⟨f, hf, hreq⟩ := dictRequest_mailbox (op := op) (idx := idx) (q := q) (d := d) hup hp hb
  have hbox : ((s.withBox n f).fn n).box = f (s.fn n).box := by simp [State.withBox]
  have hbusy : (f (s.fn n).box).busy = false := (hf _).1.trans hb
  have hgo := mailboxGo_early (s := s.withBox n f) (r := ⟨.mailbox n, op, idx, q, d, .plain⟩) hup
    ((fnPresent_withBox s n n f).trans hp) (hbox ▸ hbusy) hr (hbox ▸ (hf _).2.trans hirq)
  rw [hreq.trans hgo]
  simp [State.withBox, hbusy]

/-- The rows of the five operations are requests on the mailbox's path. -/
theorem exec_dictRows (b : Bytes) : ∀ c ∈ [Instr.dictRead (.mailbox n) idx q, .dictInfo (.mailbox n) idx q, .dictNext (.mailbox n) idx q,
      .dictReadShadow (.mailbox n) idx q, .dictWrite (.mailbox n) idx q b],
    ∃ op d, ∀ s : State, exec c s = done (s.dictRequest (.mailbox n) op idx q d) := by
  simp only [List.forall_mem_cons]
  exact ⟨⟨.read, [], fun _ => rfl⟩, ⟨.info, [], fun _ => rfl⟩, ⟨.next, [], fun _ => rfl⟩, ⟨.readShadow, [], fun _ => rfl⟩,
    ⟨.write, b, fun _ => rfl⟩, List.forall_mem_nil _⟩

end Mailbox

/-! The write mask (R50, R51) -/

section Mask

variable {s : State} {n idx : Nat} (hn : n ≠ 0) (hlo : blk n 0 ≤ idx) (hhi : idx ≤ blk n 0x3F)
include hn hlo hhi

theorem denied_masked (hm : bit (s.dget (0x1FC0 + n) 1) (idx - blk n 0) = false) :
    s.denied (.mailbox n) idx = s.dinc (0x1FC0 + n) 2 := by
  obtain ⟨m, rfl⟩ := Nat.exists_eq_succ_of_ne_zero hn
  simp [State.denied, hlo, hhi, hm]

theorem denied_unmasked (hm : bit (s.dget (0x1FC0 + n) 1) (idx - blk n 0) = true) : s.denied (.mailbox n) idx = s := by
  obtain ⟨m, rfl⟩ := Nat.exists_eq_succ_of_ne_zero hn
  simp [State.denied, hm]

/-- In the block of its own number a VF may write where its mask bit is set. -/
theorem mayWrite_own (q : Nat) : s.mayWrite (.mailbox n) idx q = bit (s.dget (0x1FC0 + n) 1) (idx - blk n 0) := by
  obtain ⟨m, rfl⟩ := Nat.exists_eq_succ_of_ne_zero hn
  simp [State.mayWrite, hlo, hhi]

end Mask

theorem entry_writeMask : ∀ n < 64, 1 ≤ n → entryType (0x1FC0 + n) 1 = .u64 ∧ entryAccess (0x1FC0 + n) 1 = .rw := by decide +kernel

theorem groupAt_writeMask {n : Nat} (hlo : 1 ≤ n) (hhi : n ≤ 63) : groupAt (0x1FC0 + n) = none := by
  have hgroup : ¬ 0x1FC0 + n ≤ 0x1F2F := by omega
  have hblock : ¬ 0x6000 ≤ 0x1FC0 + n := by omega
  simp [groupAt, hgroup, hblock]

theorem entryWrite_writeMask (s : State) {n : Nat} (v : DVal) (hlo : 1 ≤ n) (hhi : n ≤ 63) :
    s.entryWrite (0x1FC0 + n) 1 v = (.ok, s.maskWrite n v.nat) := by
  have hpower : s.powerWrite (0x1FC0 + n) 1 v = none := by
    unfold State.powerWrite
    split
    case h_5 => rfl
    all_goals omega
  have hblock : s.blockWrite (0x1FC0 + n) 1 v = none := by
    unfold State.blockWrite
    split
    case h_5 => rw [if_neg (by omega), if_neg (by omega)]
    all_goals omega
  have hwatch : s.watchWrite (0x1FC0 + n) 1 v = none := by
    unfold State.watchWrite
    split
    case h_10 => rw [if_neg (by omega)]
    all_goals omega
  rw [State.entryWrite, hpower, hblock, hwatch]
  dsimp only
  rw [if_pos (by omega), Nat.add_sub_cancel_left]

theorem dget_maskWrite (s : State) (n v : Nat) :
    (s.maskWrite n v).dget (0x1FC0 + n) 1 = setBit (v / 0x10000 * 0x10000) 63 true :=
  dget_dset_same s _ _ _

/-- A bit that is set is set. -/
theorem bit_setBit_same (x k : Nat) : bit (setBit x k true) k = true := by
  unfold setBit
  split
  · next h => simpa using h
  · next h => simpa [bit, Nat.add_comm x, Nat.testBit_two_pow_add_eq] using h

/-- Setting a bit leaves the lower ones. -/
theorem bit_setBit_lower (x : Nat) {j k : Nat} (h : j < k) : bit (setBit x k true) j = bit x j := by
  unfold setBit
  split
  · rfl
  · simp [bit, Nat.add_comm x, Nat.testBit_two_pow_add_gt h]

/-- The write mask keeps bit 63 set and bits 0 to 15 clear (R50, R51). -/
theorem maskWrite_fixed (s : State) (n v : Nat) : bit ((s.maskWrite n v).dget (0x1FC0 + n) 1) 63 = true
    ∧ ∀ k, k < 16 → bit ((s.maskWrite n v).dget (0x1FC0 + n) 1) k = false := by
  rw [dget_maskWrite]
  refine ⟨bit_setBit_same _ 63, fun k hk => ?_⟩
  rw [bit_setBit_lower _ (by omega), bit, show (0x10000 : Nat) = 2 ^ 16 from rfl, Nat.testBit_mul_two_pow]
  simp [hk]

/-- Settles O56: the operations by the lemmas above, the writes that act by their own tables. -/
theorem dictionaryRows : Obligations.DictionaryRows := by
  refine ⟨?read, fun who idx q i k => nextEntry_later, infoBytes_length, ?mailbox, ?denied, ?mask, ?ember, ?timeSet⟩
  case read =>
    rintro who s idx q b r rows ⟨-, -, -, hpull, hm⟩
    exact dictRead_stays hpull hm
  case mailbox =>
    intro s n idx q b hup hp
    refine ⟨fun hb c hc => ?busy, fun hb hr hirq c hc => ?early⟩
    case busy =>
      obtain ⟨op, d, he⟩ := exec_dictRows b c hc
      rw [Does, he, dictRequest_mailbox_busy hb, done]
    case early =>
      obtain ⟨op, d, he⟩ := exec_dictRows b c hc
      exact ⟨_, he s, dictRequest_mailbox_early hup hp hb hr hirq⟩
  case denied =>
    exact fun s n idx hn hlo hhi => ⟨fun hm => ⟨denied_masked hn hlo hhi hm, fun q => (mayWrite_own hn hlo hhi q).trans hm⟩,
      fun hm => ⟨denied_unmasked hn hlo hhi hm, fun q => (mayWrite_own hn hlo hhi q).trans hm⟩⟩
  case mask =>
    intro who s n v hlo hhi hv r u hA hok
    obtain ⟨hty, hacc⟩ := entry_writeMask n (by omega) hlo
    refine ⟨answers_write rfl hA hok (by simp [hacc]) (by simp [groupAt_writeMask hlo hhi]) (by omega) ?_, maskWrite_fixed u n v⟩
    rw [hty, DTy.len, dec_u64 hv, entryWrite_writeMask _ _ hlo hhi]
    rfl
  case ember =>
    intro who s r u hA hok
    have hwo : entryAccess 0x2203 6 ≠ .rwc := by decide +kernel
    refine ⟨fun h => answers_write_refused (t := u) rfl hA hok hwo rfl (by decide) ?_, fun h => answers_write rfl hA hok hwo rfl (by decide) ?_⟩
    · exact if_pos h
    · exact if_neg h
  case timeSet =>
    intro who s v hv r u hA hok
    have hty : entryType 0x3180 0x0E = .u64 := by decide +kernel
    refine answers_write rfl hA hok (by decide +kernel) rfl (by decide) ?_
    rw [hty, DTy.len, dec_u64 hv]
    rfl

end Sys2Proof.Laws
end

section
/-! PROOFS. What every command keeps (R79): each command's own rule of Laws/Later*, gathered over the arms of exec, and
LPDDR5_TRAINING_DONE, the one command that may move the seal store. -/

namespace Sys2Proof.Laws

open Sys2Proof.Machine

/-- Every command but LPDDR5_TRAINING_DONE leaves the seal store, and what else Later names: one arm for each arm of exec. -/
theorem later_exec {s t : State} (h : Later s t) : ∀ c : Instr, (∀ f, c ≠ .lpddr5TrainingDone f) → OutLater s (exec c t)
  | .dictRead .., _ => later_execDictRead _ _ _ h
  | .dictWrite .., _ => later_execDictWrite _ _ _ _ h
  | .dictInfo .., _ => later_execDictInfo _ _ _ h
  | .dictNext .., _ => later_execDictNext _ _ _ h
  | .dictReadShadow .., _ => later_execDictReadShadow _ _ _ h
  | .onsiaDatagram .., _ => later_execOnsiaDatagram _ _ _ _ _ h
  | .onsiaSessionTimeout .., _ => later_execOnsiaSessionTimeout _ _ _ h
  | .usdoInitiateUpload .., _ => later_execUsdoInitiateUpload _ _ _ h
  | .usdoInitiateDownload .., _ => later_execUsdoInitiateDownload _ _ _ _ _ h
  | .usdoSegment .., _ => later_execUsdoSegment _ _ h
  | .usdoTransferTimeout .., _ => later_execUsdoTransferTimeout _ h
  | .groupCommit .., _ => later_execGroupCommit _ _ h
  | .groupDiscard .., _ => later_execGroupDiscard _ _ h
  | .groupApply .., _ => later_execGroupApply _ h
  | .shadowTimeout .., _ => later_execShadowTimeout _ h
  | .writeMaskWrite .., _ => later_execWriteMaskWrite _ _ _ h
  | .aoPowerOn .., _ => later_execAoPowerOn _ _ h
  | .emberRestart .., _ => later_execEmberRestart _ h
  | .hostLinkUp .., _ => later_execHostLinkUp _ _ h
  | .bootWindowAccess .., _ => later_execBootWindowAccess _ h
  | .bootGo .., _ => later_execBootGo _ h
  | .pllLockTimeout .., _ => later_execPllLockTimeout _ h
  | .lpddr5TrainingDone f, hc => absurd rfl (hc f)
  | .emberFwWrite .., _ => later_execEmberFwWrite _ h
  | .requestBlaze .., _ => later_execRequestBlaze _ h
  | .requestGlow .., _ => later_execRequestGlow _ h
  | .requestBanked .., _ => later_execRequestBanked _ h
  | .requestEmber .., _ => later_execRequestEmber _ h
  | .ssdShutdownComplete .., _ => later_execSsdShutdownComplete _ h
  | .wakeEdge .., _ => later_execWakeEdge _ h
  | .tinderAddressMatch .., _ => later_execTinderAddressMatch _ _ h
  | .tinderTransferTaken .., _ => later_execTinderTransferTaken _ h
  | .tinderRegisterWrite .., _ => later_execTinderRegisterWrite _ h
  | .managerVote .., _ => later_execManagerVote _ _ _ h
  | .domainPowerUpStart .., _ => later_execDomainPowerUpStart _ h
  | .domainPowerGood .., _ => later_execDomainPowerGood _ _ h
  | .domainPowerGoodTimeout .., _ => later_execDomainPowerGoodTimeout _ h
  | .hysteresisExpiry .., _ => later_execHysteresisExpiry _ h
  | .domainPowerDownDone .., _ => later_execDomainPowerDownDone _ h
  | .damperTick .., _ => later_execDamperTick _ h
  | .capReleaseHoldExpiry .., _ => later_execCapReleaseHoldExpiry _ h
  | .shedPortSearch .., _ => later_execShedPortSearch _ _ h
  | .meterSampleTimeout .., _ => later_execMeterSampleTimeout _ h
  | .forceStep .., _ => later_execForceStep _ _ h
  | .snapshot .., _ => later_execSnapshot _ _ h
  | .vsenseSample .., _ => later_execVsenseSample _ h
  | .busMasterEnableClear .., _ => later_execBusMasterEnableClear _ h
  | .busMasterEnableSet .., _ => later_execBusMasterEnableSet _ h
  | .functionLevelReset .., _ => later_execFunctionLevelReset _ h
  | .flrQuiesceComplete .., _ => later_execFlrQuiesceComplete _ h
  | .interruptModeEnable .., _ => later_execInterruptModeEnable _ _ h
  | .vectorUnmask .., _ => later_execVectorUnmask _ _ h
  | .completionReceived .., _ => later_execCompletionReceived _ _ _ h
  | .completionTimeout .., _ => later_execCompletionTimeout _ _ h
  | .quarantineWindowClose .., _ => later_execQuarantineWindowClose _ _ h
  | .hostBufferDoubleBitError .., _ => later_execHostBufferDoubleBitError _ _ _ h
  | .registerWrite .., _ => later_execRegisterWrite _ _ _ h
  | .engineTake .., _ => later_execEngineTake _ _ h
  | .engineRelease .., _ => later_execEngineRelease _ _ h
  | .sqTailDoorbell .., _ => later_execSqTailDoorbell _ _ _ h
  | .cqHeadDoorbell .., _ => later_execCqHeadDoorbell _ _ _ h
  | .sqFetch .., _ => later_execSqFetch _ _ _ h
  | .createCq .., _ => later_execCreateCq _ _ h
  | .createSq .., _ => later_execCreateSq _ _ h
  | .deleteSq .., _ => later_execDeleteSq _ _ h
  | .deleteCq .., _ => later_execDeleteCq _ _ h
  | .restartQueue .., _ => later_execRestartQueue _ _ h
  | .getErrorLog .., _ => later_execGetErrorLog _ _ _ h
  | .abort .., _ => later_execAbort _ _ h
  | .setModeration .., _ => later_execSetModeration _ _ h
  | .getQueueStatus .., _ => later_execGetQueueStatus _ _ h
  | .adminEnable .., _ => later_execAdminEnable _ h
  | .adminDisable .., _ => later_execAdminDisable _ h
  | .adminRestart .., _ => later_execAdminRestart _ h
  | .aggTimeExpiry .., _ => later_execAggTimeExpiry _ _ h
  | .createInstance .., _ => later_execCreateInstance _ _ h
  | .modifyInstance .., _ => later_execModifyInstance _ _ h
  | .quiesceInstance .., _ => later_execQuiesceInstance _ h
  | .quiesceComplete .., _ => later_execQuiesceComplete _ h
  | .quiesceTimeout .., _ => later_execQuiesceTimeout _ h
  | .resumeInstance .., _ => later_execResumeInstance _ h
  | .resetInstance .., _ => later_execResetInstance _ h
  | .destroyInstance .., _ => later_execDestroyInstance _ h
  | .rearmInstance .., _ => later_execRearmInstance _ h
  | .getInstance .., _ => later_execGetInstance _ _ h
  | .nsCreate .., _ => later_execNsCreate _ _ h
  | .nsDelete .., _ => later_execNsDelete _ _ h
  | .nsIdentify .., _ => later_execNsIdentify _ _ _ h
  | .nsErase .., _ => later_execNsErase _ _ h
  | .evidenceRelease .., _ => later_execEvidenceRelease _ _ h
  | .ssdPrepare .., _ => later_execSsdPrepare _ _ h
  | .ssdDetach .., _ => later_execSsdDetach _ _ h
  | .ssdAttach .., _ => later_execSsdAttach _ _ h
  | .read .., _ => later_execRead _ _ _ _ h
  | .write .., _ => later_execWrite _ _ _ _ h
  | .flush .., _ => later_execFlush _ _ _ h
  | .deallocate .., _ => later_execDeallocate _ _ _ h
  | .writeZeroes .., _ => later_execWriteZeroes _ _ _ h
  | .verify .., _ => later_execVerify _ _ _ h
  | .evidenceAppend .., _ => later_execEvidenceAppend _ _ _ _ h
  | .rootPortLinkUp .., _ => later_execRootPortLinkUp _ h
  | .rootPortLinkDown .., _ => later_execRootPortLinkDown _ h
  | .controllerReady .., _ => later_execControllerReady _ _ h
  | .controllerReadyTimeout .., _ => later_execControllerReadyTimeout _ h
  | .backendCompletion .., _ => later_execBackendCompletion _ _ _ h
  | .backendTimeout .., _ => later_execBackendTimeout _ _ h
  | .ssdAsyncEvent .., _ => later_execSsdAsyncEvent _ _ h
  | .catalogueCheckpoint .., _ => later_execCatalogueCheckpoint _ h
  | .kilnStreamCreate .., _ => later_execKilnStreamCreate _ _ h
  | .kilnStreamOpen .., _ => later_execKilnStreamOpen _ h
  | .kilnStreamClose .., _ => later_execKilnStreamClose _ h
  | .kilnStreamKeys .., _ => later_execKilnStreamKeys _ _ h
  | .kilnStreamDelete .., _ => later_execKilnStreamDelete _ h
  | .kilnStreamGet .., _ => later_execKilnStreamGet _ _ h
  | .kilnStreamIndex .., _ => later_execKilnStreamIndex _ h
  | .kilnAdmission .., _ => later_execKilnAdmission _ h
  | .segmentAgeExpiry .., _ => later_execSegmentAgeExpiry _ h
  | .runAgeExpiry .., _ => later_execRunAgeExpiry _ h
  | .leaseWritten .., _ => later_execLeaseWritten _ _ h
  | .gcmEncrypt .., _ => later_execGcmEncrypt _ _ _ h
  | .gcmDecrypt .., _ => later_execGcmDecrypt _ _ _ h
  | .ccmEncrypt .., _ => later_execCcmEncrypt _ _ _ h
  | .ccmDecrypt .., _ => later_execCcmDecrypt _ _ _ h
  | .ctr .., _ => later_execCtr _ _ _ h
  | .cbcEncrypt .., _ => later_execCbcEncrypt _ _ _ h
  | .cbcDecrypt .., _ => later_execCbcDecrypt _ _ _ h
  | .xtsEncrypt .., _ => later_execXtsEncrypt _ _ _ h
  | .xtsDecrypt .., _ => later_execXtsDecrypt _ _ _ h
  | .chacha20Poly1305Encrypt .., _ => later_execChacha20Poly1305Encrypt _ _ _ h
  | .chacha20Poly1305Decrypt .., _ => later_execChacha20Poly1305Decrypt _ _ _ h
  | .cmacGenerate .., _ => later_execCmacGenerate _ _ _ h
  | .cmacVerify .., _ => later_execCmacVerify _ _ _ h
  | .sha256 .., _ => later_execSha256 _ _ _ h
  | .sha384 .., _ => later_execSha384 _ _ _ h
  | .hmacGenerate .., _ => later_execHmacGenerate _ _ _ h
  | .hmacVerify .., _ => later_execHmacVerify _ _ _ h
  | .cipherJobStart .., _ => later_execCipherJobStart _ _ _ h
  | .cipherJobDone .., _ => later_execCipherJobDone _ h
  | .keyGenerate .., _ => later_execKeyGenerate _ _ _ h
  | .keyImport .., _ => later_execKeyImport _ _ _ _ h
  | .keyExport .., _ => later_execKeyExport _ _ _ _ h
  | .keyClear .., _ => later_execKeyClear _ _ _ h
  | .keyInfo .., _ => later_execKeyInfo _ _ _ _ h
  | .keySetLimit .., _ => later_execKeySetLimit _ _ _ h
  | .vaultWriteDone .., _ => later_execVaultWriteDone _ h
  | .keyStoreDoubleBitError .., _ => later_execKeyStoreDoubleBitError _ h
  | .checkCompute .., _ => later_execCheckCompute _ _ _ h
  | .checkBlocks .., _ => later_execCheckBlocks _ _ _ h
  | .checkVerifyBlocks .., _ => later_execCheckVerifyBlocks _ _ _ h
  | .checkSliceDone .., _ => later_execCheckSliceDone _ _ _ h
  | .frameReceived .., _ => later_execFrameReceived _ _ _ _ h
  | .ageingSweep .., _ => later_execAgeingSweep _ h
  | .tblInsert .., _ => later_execTblInsert _ _ _ _ h
  | .tblDelete .., _ => later_execTblDelete _ _ _ _ h
  | .tblLookup .., _ => later_execTblLookup _ _ _ _ h
  | .tblLock .., _ => later_execTblLock _ _ _ _ h
  | .tblStage .., _ => later_execTblStage _ _ _ _ h
  | .tblUnlock .., _ => later_execTblUnlock _ _ _ h
  | .tblRead .., _ => later_execTblRead _ _ _ _ h
  | .lockHoldExpiry .., _ => later_execLockHoldExpiry _ h
  | .tableDoubleBitError .., _ => later_execTableDoubleBitError _ h
  | .vpSend .., _ => later_execVpSend _ _ _ _ h
  | .vpRxBind .., _ => later_execVpRxBind _ _ _ _ h
  | .vpRxReturn .., _ => later_execVpRxReturn _ _ _ h
  | .portLinkUp .., _ => later_execPortLinkUp _ _ h
  | .portLinkDown .., _ => later_execPortLinkDown _ h
  | .keepaliveTimer .., _ => later_execKeepaliveTimer _ h
  | .hello _ _ _ ring side .., _ => later_execHello _ _ _ ring side _ _ _ _ _ h
  | .topology .., _ => later_execTopology _ _ _ _ _ _ h
  | .fault .., _ => later_execFault _ _ _ h
  | .restore .., _ => later_execRestore _ _ _ h
  | .leave .., _ => later_execLeave _ _ h
  | .ringPortFail .., _ => later_execRingPortFail _ h
  | .ringPortSilence .., _ => later_execRingPortSilence _ h
  | .steerHoldExpiry .., _ => later_execSteerHoldExpiry _ h
  | .restoreHoldExpiry .., _ => later_execRestoreHoldExpiry _ h
  | .ptpMessage .., _ => later_execPtpMessage _ _ h
  | .timeSet .., _ => later_execTimeSet _ _ h
  | .frameTransmitDone .., _ => later_execFrameTransmitDone _ h
  | .gateIntervalEnd .., _ => later_execGateIntervalEnd _ h
  | .gateListChange .., _ => later_execGateListChange _ h
  | .threadInstruction .., _ => later_execThreadInstruction _ h
  | .trWait .., _ => later_execTrWait _ _ _ h
  | .trRxf .., _ => later_execTrRxf _ _ _ _ h
  | .trTxf .., _ => later_execTrTxf _ _ _ h
  | .trDma .., _ => later_execTrDma _ _ _ h
  | .trClaim .., _ => later_execTrClaim _ _ _ h
  | .trPut .., _ => later_execTrPut _ _ _ _ h
  | .trCommit .., _ => later_execTrCommit _ _ _ h
  | .trRecv .., _ => later_execTrRecv _ _ _ h
  | .trDrop .., _ => later_execTrDrop _ _ _ h
  | .ttimerWrite .., _ => later_execTtimerWrite _ _ h
  | .tpetWrite .., _ => later_execTpetWrite _ h
  | .ttimerExpiry .., _ => later_execTtimerExpiry _ h
  | .threadWatchdogExpiry .., _ => later_execThreadWatchdogExpiry _ h
  | .receiveCopyDone .., _ => later_execReceiveCopyDone _ h
  | .dmaDone .., _ => later_execDmaDone _ _ h
  | .txfDone .., _ => later_execTxfDone _ h
  | .groupStart .., _ => later_execGroupStart _ _ h
  | .groupStop .., _ => later_execGroupStop _ _ h
  | .groupRestart .., _ => later_execGroupRestart _ _ h
  | .groupDelete .., _ => later_execGroupDelete _ _ h
  | .groupStopComplete .., _ => later_execGroupStopComplete _ h
  | .restartGroup .., _ => later_execRestartGroup _ _ _ h
  | .stallDetected .., _ => later_execStallDetected _ h
  | .threadFaultHandling .., _ => later_execThreadFaultHandling _ h
  | .sliceDoubleBitError .., _ => later_execSliceDoubleBitError _ h
  | .coreFault .., _ => later_execCoreFault _ h
  | .coreReloadDone .., _ => later_execCoreReloadDone _ _ h
  | .deliveryThreadWrite .., _ => later_execDeliveryThreadWrite _ _ _ h
  | .debugHalt .., _ => later_execDebugHalt _ h
  | .debugResume .., _ => later_execDebugResume _ h
  | .claimRelease .., _ => later_execClaimRelease _ h
  | .egClaim .., _ => later_execEgClaim _ h
  | .egEoi .., _ => later_execEgEoi _ _ h
  | .egTctrlClear .., _ => later_execEgTctrlClear _ h
  | .clearTarget .., _ => later_execClearTarget _ _ h
  | .egPset .., _ => later_execEgPset _ _ h
  | .egPclr .., _ => later_execEgPclr _ _ _ h
  | .egSrcWrite .., _ => later_execEgSrcWrite _ _ h
  | .sourceMap .., _ => later_execSourceMap _ _ h
  | .admissionTokenGain .., _ => later_execAdmissionTokenGain _ h
  | .logClear .., _ => later_execLogClear _ h
  | .firstOfKindClear .., _ => later_execFirstOfKindClear _ h
  | .exportPull .., _ => later_execExportPull _ h
  | .alarmAck .., _ => later_execAlarmAck _ _ h
  | .ackAll .., _ => later_execAckAll _ h
  | .alarmDefine .., _ => later_execAlarmDefine _ _ _ _ h
  | .alarmInhibitExpiry .., _ => later_execAlarmInhibitExpiry _ h
  | .peatOff .., _ => later_execPeatOff _ h
  | .peatRing .., _ => later_execPeatRing _ h
  | .peatOneShot .., _ => later_execPeatOneShot _ h
  | .peatCheckpoint .., _ => later_execPeatCheckpoint _ h
  | .trigger .., _ => later_execTrigger _ h
  | .peatWindowWrite .., _ => later_execPeatWindowWrite _ _ h
  | .replayArm .., _ => later_execReplayArm _ h
  | .dmiAccess .., _ => later_execDmiAccess _ h
  | .emberStartComplete .., _ => later_execEmberStartComplete _ _ h
  | .syncIntervalExpiry .., _ => later_execSyncIntervalExpiry _ h
  | .ppsOutEdge .., _ => later_execPpsOutEdge _ h
  | .hostLinkError .., _ => later_execHostLinkError _ h
  | .correctedInternalError .., _ => later_execCorrectedInternalError _ h
  | .heartbeat, _ => later_execHeartbeat h
  | .emberWatchdogExpiry, _ => later_execEmberWatchdogExpiry h
  | .mainPgRise, _ => later_execMainPgRise h
  | .mainPgTimeout, _ => later_execMainPgTimeout h
  | .mainEnRetryExpiry, _ => later_execMainEnRetryExpiry h
  | .mainPgLoss, _ => later_execMainPgLoss h
  | .perstNAssert, _ => later_execPerstNAssert h
  | .perstNRelease, _ => later_execPerstNRelease h
  | .hostLinkDown, _ => later_execHostLinkDown h
  | .hotReset, _ => later_execHotReset h
  | .hearthWatchdogExpiry, _ => later_execHearthWatchdogExpiry h
  | .drainComplete, _ => later_execDrainComplete h
  | .drainTimeout, _ => later_execDrainTimeout h
  | .ssdShutdownTimeout, _ => later_execSsdShutdownTimeout h
  | .emberWakeHoldExpiry, _ => later_execEmberWakeHoldExpiry h
  | .ignRise, _ => later_execIgnRise h
  | .ignFall, _ => later_execIgnFall h
  | .wakeAlarm, _ => later_execWakeAlarm h
  | .tinderStretchLimit, _ => later_execTinderStretchLimit h
  | .bankedMaxExpiry, _ => later_execBankedMaxExpiry h
  | .vsenseEmberHoldExpiry, _ => later_execVsenseEmberHoldExpiry h
  | .ignOffTimerExpiry, _ => later_execIgnOffTimerExpiry h
  | .ignOffRetryExpiry, _ => later_execIgnOffRetryExpiry h
  | .thermalTrip, _ => later_execThermalTrip h
  | .thermalTripShutdown, _ => later_execThermalTripShutdown h
  | .descentHoldExpiry, _ => later_execDescentHoldExpiry h
  | .ignOffAllowanceReached, _ => later_execIgnOffAllowanceReached h
  | .pf0FunctionLevelReset, _ => later_execPf0FunctionLevelReset h
  | .vfEnableSet, _ => later_execVfEnableSet h
  | .vfEnableClear, _ => later_execVfEnableClear h
  | .powerStateD3hot, _ => later_execPowerStateD3hot h
  | .powerStateD0, _ => later_execPowerStateD0 h
  | .linkLossHoldExpiry, _ => later_execLinkLossHoldExpiry h
  | .l0sEntry, _ => later_execL0sEntry h
  | .l1IdleExpiry, _ => later_execL1IdleExpiry h
  | .ltrIdleExpiry, _ => later_execLtrIdleExpiry h
  | .flushGatherExpiry, _ => later_execFlushGatherExpiry h
  | .pfail, _ => later_execPfail h
  | .pfSequenceBoundExpiry, _ => later_execPfSequenceBoundExpiry h
  | .pfailReleaseExpiry, _ => later_execPfailReleaseExpiry h
  | .vaultRestore, _ => later_execVaultRestore h
  | .learnInsert, _ => later_execLearnInsert h
  | .helloTimer, _ => later_execHelloTimer h
  | .topologyTimer, _ => later_execTopologyTimer h
  | .leaveWaitExpiry, _ => later_execLeaveWaitExpiry h
  | .syncTimeout, _ => later_execSyncTimeout h
  | .ppsInEdge, _ => later_execPpsInEdge h
  | .ppsInTimeout, _ => later_execPpsInTimeout h
  | .shaperRefresh, _ => later_execShaperRefresh h
  | .admissionSummary, _ => later_execAdmissionSummary h
  | .udpPush, _ => later_execUdpPush h
  | .canExport, _ => later_execCanExport h
  | .peatFreeze, _ => later_execPeatFreeze h
  | .debugSessionAttach, _ => later_execDebugSessionAttach h
  | .debugSessionDetach, _ => later_execDebugSessionDetach h
  | .resetReq, _ => later_execResetReq h
  | .peatTrigger, _ => later_execPeatTrigger h
  | .egressDrainExpiry, _ => later_execEgressDrainExpiry h
  | .mainPgFall, _ => later_execMainPgFall h
  | .pfailRelease, _ => later_execPfailRelease h
  | .slowclk1024Cycles, _ => later_execSlowclk1024Cycles h

theorem kept_exec {c : Instr} {s t : State} (e : exec c s = .next t) : Kept s t := by
  by_cases hc : ∃ f, c = .lpddr5TrainingDone f
  · obtain ⟨f, rfl⟩ := hc
    exact kept_lpddr5TrainingDone e
  · exact later_kept ((later_exec (later_rfl s) c (not_exists.mp hc)).next t e)

/-- Settles O4: what each command keeps by its arm. -/
theorem commandsKeep : Obligations.CommandsKeep := fun _ _ _ => kept_exec

/-- The seal-store commands of a bundle leave the seal store, or are all accepted and applied in their order (R81, R82). -/
theorem sealStore_sealCommands (s : State) (info : BundleInfo) :
    (s.sealCommands info).sealStore = s.sealStore ∨ ∃ b, info.sealCmd = some b ∧ info.sealArm = true
      ∧ (s.sealCommands info).sealStore = (chunksOf 64 b).foldl Seal.apply s.sealStore := by
  unfold State.sealCommands
  split
  case h_1 => exact .inl rfl
  case h_2 b hcmd =>
    split
    case isTrue => exact .inl rfl
    case isFalse harm =>
      dsimp only
      split
      case h_1 => exact .inl rfl
      case h_2 => exact .inr ⟨b, hcmd, by simpa using harm, rfl⟩

/-- LPDDR5_TRAINING_DONE changes the seal store by the commands of the bundle of a start whose memory trained, and by nothing else. -/
theorem sealStore_lpddr5TrainingDone {s t : State} {f : Option Nat} (e : execLpddr5TrainingDone f s = .next t) :
    t.sealStore = s.sealStore ∨ ∃ info b, f = none ∧ s.boot.phase = 5 ∧ s.boot.bundle = some info
      ∧ info.sealCmd = some b ∧ info.sealArm = true ∧ t.sealStore = (chunksOf 64 b).foldl Seal.apply s.sealStore := by
  unfold execLpddr5TrainingDone at e
  split at e
  case h_1 =>
    cases e
    exact .inl (later_settle (later_imageRefusal _ _ (later_coreReset _ (later_rfl s)))).store
  case h_2 info hphase hbundle =>
    cases e
    have hload : s.loadCores.sealStore = s.sealStore := (later_loadCores (later_rfl s)).store
    have hready : (s.loadCores.becomeReady info).settle.sealStore = (s.loadCores.sealCommands info).sealStore :=
      (later_settle (later_enterReady info (later_rfl _))).store
    rw [hready, ← hload]
    obtain hsame | ⟨b, hcmd, harm, happly⟩ := sealStore_sealCommands s.loadCores info
    · exact .inl hsame
    · exact .inr ⟨info, b, rfl, hphase, hbundle, hcmd, harm, happly⟩
  case h_3 =>
    cases e
    exact .inl (later_settle (later_rfl s)).store

/-- Settles O15: the arms of exec leave the seal store; the training's end moves it by the bundle's accepted commands. -/
theorem sealStoreGuarded : Obligations.SealStoreGuarded := by
  intro c s t e
  have hforward : Seal.Forward s.sealStore t.sealStore := (kept_exec e).store
  have hother (hc : ∀ f, c ≠ .lpddr5TrainingDone f) : t.sealStore = s.sealStore := ((later_exec (later_rfl s) c hc).next t e).store
  refine ⟨hother, hforward, ?_⟩
  by_cases hc : ∃ f, c = .lpddr5TrainingDone f
  · obtain ⟨f, rfl⟩ := hc
    obtain hsame | ⟨info, b, rfl, hrest⟩ := sealStore_lpddr5TrainingDone e
    · exact .inl hsame
    · exact .inr ⟨info, b, rfl, hrest⟩
  · exact .inl (hother (not_exists.mp hc))

end Sys2Proof.Laws
end

section
/-! PROOFS. Resets asked from outside and the host link (R64, R144, R176, R506, R514): each command under its own guard, and what a loss of
the link leaves before READY. -/

namespace Sys2Proof.Laws

open Sys2Proof.Machine

/-! A command that acts under a guard -/

section Guarded

variable {c : Instr} {s u v : State} {P : Prop} [Decidable P]

theorem does_of_guard (hc : exec c s = if P then done u else done v) (h : P) : Does c s u := hc.trans (if_pos h)

theorem does_of_not_guard (hc : exec c s = if P then done u else done v) (h : ¬ P) : Does c s v := hc.trans (if_neg h)

end Guarded

section Resets

variable {s : State}

/-! A start that meets the power-fail sequence (R506) -/

theorem startOrHold_free {cause : Nat} (h : s.pfRuns = false) : s.startOrHold cause = s.mainResetStart cause := by
  simp [State.startOrHold, h]

theorem startOrHold_held {cause : Nat} (h : s.pfRuns = true) :
    s.startOrHold cause = (s.dinc 0x3C11 2).withPow fun p => { p with heldStart := some cause } := by
  simp [State.startOrHold, h]

/-- The count of a held start and the pin's level do not meet. -/
theorem startOrHold_perst_held (h : s.pfRuns = true) : (s.withPow fun p => { p with perst := true }).startOrHold 1
    = (s.dinc 0x3C11 2).withPow fun p => { p with perst := true, heldStart := some 1 } :=
  startOrHold_held (s := s.withPow _) h

/-! PERST_N and the JTAG request -/

theorem does_perstNAssert (hpg : s.pow.mainPg = true) (hrun : s.pow.mainReset = false) :
    Does .perstNAssert s ((s.withPow fun p => { p with perst := true }).startOrHold 1) :=
  does_of_guard rfl (by simp [hpg, hrun])

theorem does_perstNAssert_pinOnly (h : s.pow.mainPg = false ∨ s.pow.mainReset = true) :
    Does .perstNAssert s (s.withPow fun p => { p with perst := true }) :=
  does_of_not_guard rfl (by simpa [imp_iff_not_or] using h)

theorem does_resetReq (hdbg : s.debugPermitted = true) (hpg : s.pow.mainPg = true) (hrun : s.pow.mainReset = false) :
    Does .resetReq s (s.startOrHold 5) :=
  does_of_guard rfl (by simp [hdbg, hpg, hrun])

theorem does_resetReq_refused (h : s.debugPermitted = false ∨ s.pow.mainPg = false ∨ s.pow.mainReset = true) : Does .resetReq s s :=
  does_of_not_guard rfl (by simpa [imp_iff_not_or] using h)

/-! The link (R144, R176) -/

theorem does_hostLinkUp {width speed : Nat} (hdown : s.host.up = false) (hwidth : width = 4 ∨ width = 8) (hlo : 1 ≤ speed)
    (hhi : speed ≤ 5) (hrun : s.pow.mainReset = false) (hoff : s.pow.st ≠ .off) (hember : s.pow.st ≠ .ember) :
    Does (.hostLinkUp width speed) s
      ((s.withHost fun h => { h with up := true, width := width, speed := speed, aspm := .l0 }).event 32).enterHostWait :=
  does_of_guard rfl (by simp [hdown, hwidth, hlo, hhi, hrun, hoff, hember])

theorem does_hostLinkUp_ignored {width speed : Nat} (h : s.host.up = true ∨ (width ≠ 4 ∧ width ≠ 8) ∨ speed = 0 ∨ 5 < speed
    ∨ s.pow.mainReset = true ∨ s.pow.st = .off ∨ s.pow.st = .ember) : Does (.hostLinkUp width speed) s s := by
  refine does_of_not_guard rfl ?_
  rintro ⟨hdown, hwidth, hlo, hhi, hrun, hoff, hember⟩
  obtain h | h | h | h | h | h | h := h
  · simp [h] at hdown
  · omega
  · omega
  · omega
  · simp [h] at hrun
  · exact hoff h
  · exact hember h

theorem does_hostLinkDown (hup : s.host.up = true) :
    Does .hostLinkDown s ((((s.dinc 0x2300 3).event 32).withHost fun h => { h with up := false }).linkLoss) :=
  does_of_guard rfl hup

theorem does_hotReset (hup : s.host.up = true) : Does .hotReset s (s.dinc 0x2300 5).linkLoss := does_of_guard rfl hup

/-- Before READY nothing holds: a loss of the link leaves configuration space at its reset values and nothing more. -/
theorem linkLoss_beforeReady (h : s.boot.ready = false) :
    s.linkLoss = (s.withHost fun k => { k with
      vfEnable := false, d3hot := false, prevVfs := s.numVfs, aspm := .l0, ltrClear := false }).withFns
        fun m => m.map fun kv => (kv.1, kv.2.cfgCleared) :=
  if_pos (by simp [h])

theorem fn_withFns_cfgCleared (n : Nat) :
    let x := (s.withFns fun m => m.map fun kv => (kv.1, kv.2.cfgCleared)).fn n
    x.bme = false ∧ x.msixEn = false ∧ x.msiEn = false := by
  have hget : (s.withFns fun m => m.map fun kv => (kv.1, kv.2.cfgCleared)).fn n
      = ((s.fns.get? n).map Fn.cfgCleared).getD Fn.reset := congrArg (·.getD Fn.reset) (map_get? s.fns Fn.cfgCleared n)
  intro x
  rw [show x = _ from hget]
  cases s.fns.get? n with
  | none => exact ⟨rfl, rfl, rfl⟩
  | some y => exact ⟨rfl, rfl, rfl⟩

end Resets

/-- Settles O11, command by command from the cases above. -/
theorem resetsAndLink : Obligations.ResetsAndLink := by
  intro s
  refine ⟨?perst, ?perstHeld, does_perstNAssert_pinOnly, ?release, ?releasePin, ?jtag, ?jtagHeld, does_resetReq_refused,
    fun _ _ => does_hostLinkUp, fun _ _ => does_hostLinkUp_ignored, does_hostLinkDown, does_hotReset, ?linkOff, ?loss⟩
  case perst =>
    intro hpg hrun hpf
    exact startOrHold_free (s := s.withPow _) hpf ▸ does_perstNAssert hpg hrun
  case perstHeld =>
    intro hpg hrun hpf
    exact startOrHold_perst_held hpf ▸ does_perstNAssert hpg hrun
  case release =>
    intro hpg hreset
    exact does_of_guard rfl ⟨hreset, hpg⟩
  case releasePin =>
    intro h
    exact does_of_not_guard rfl (by simpa [imp_iff_not_or] using h.symm)
  case jtag =>
    intro hdbg hpg hrun hpf
    exact startOrHold_free hpf ▸ does_resetReq hdbg hpg hrun
  case jtagHeld =>
    intro hdbg hpg hrun hpf
    exact startOrHold_held hpf ▸ does_resetReq hdbg hpg hrun
  case linkOff =>
    intro hdown
    exact ⟨does_of_not_guard rfl (by simp [hdown]), does_of_not_guard rfl (by simp [hdown])⟩
  case loss =>
    intro hready
    have hloss := linkLoss_beforeReady hready
    refine ⟨s.linkLoss, rfl, ?_⟩
    rw [hloss]
    exact ⟨rfl, rfl, fn_withFns_cfgCleared, rfl, rfl, rfl, rfl⟩

end Sys2Proof.Laws
end

section
/-! PROOFS. Host-wait, BOOT_GO and the kindling (R67, R68, R70, R73, R74, R76, R77): the boot window open and closed, the ROM's verdict, and
the three ways in which a kindling ends. -/

namespace Sys2Proof.Laws

open Sys2Proof.Machine

/-- The first section of a bundle, EMBER_FW aside, whose measure fails (R74). -/
def firstMismeasured (b : Bytes) : Option Nat :=
  (List.range (leAt b 18 2)).find? fun i =>
    let e := ((List.range (leAt b 18 2)).map (manifestEntry b)).getD i default
    e.type != 7 && sha384Hash (Machine.sub b e.offset e.len) != e.hash

/-- The state in which the ROM checks the bundle of a BOOT_GO. -/
def romChecking (s : State) : State := s.withBoot fun x => { x with phase := 3, windowOpen := false, goAt := s.time.elapsed }

/-- The bundle that lies in the boot window. -/
def windowBundle (s : State) : Bytes := s.boot.window.readN 0 s.boot.bootLen

/-- The state in which the kindling checks the manifest. -/
def kindlingStart (s : State) : State := (s.withBoot fun x => { x with phase := 4, code := 0, detail := 0 }).clockSwitch

section Bundle

variable {s : State}

/-! The boot window (R67, R68) -/

@[simp] theorem hostActivity_boot (s : State) : s.hostActivity.boot = s.boot := by
  unfold State.hostActivity
  dsimp only
  split <;> split <;> rfl

@[simp] theorem hostActivity_elapsed (s : State) : s.hostActivity.time.elapsed = s.time.elapsed := by
  unfold State.hostActivity
  dsimp only
  split <;> split <;> rfl

theorem windowOpen_of_open (hopen : s.boot.windowOpen = true) (hphase : s.boot.phase = 2) :
    (s.boot.windowOpen && s.boot.phase == 2) = true := by
  simp [hopen, hphase]

theorem windowOpen_of_closed (h : s.boot.windowOpen = false ∨ s.boot.phase ≠ 2) : (s.boot.windowOpen && s.boot.phase == 2) = false := by
  simpa [imp_iff_not_or] using h

section Decoded

variable (hd : s.hostActivity.decodes 0 = true)

include hd

theorem exec_bootWindow_read (off len : Nat) : exec (.bootWindowAccess (.read off len)) s = done (s.hostActivity.emit (.pcieCompletion true
    (if s.boot.windowOpen && s.boot.phase == 2 then s.hostActivity.boot.window.readN off len else zeros len))) :=
  if_neg (by simp [hd])

theorem exec_bootWindow_write (off : Nat) (b : Bytes) : exec (.bootWindowAccess (.write off b)) s =
    if s.boot.windowOpen && s.boot.phase == 2 then done (s.hostActivity.withBoot fun x =>
      { x with window := x.window.writeN off (b.take (0x1000000 - off)) }) else done s.hostActivity :=
  if_neg (by simp [hd])

theorem does_bootGo (v : Word) : Does (.bootGo v) s (s.hostActivity.bootGo v.toNat) := does_of_guard rfl hd

end Decoded

/-! BOOT_GO (R70, R76, R77) -/

theorem bootGo_ignored {v : Nat} (h : v / 0x10000 ≠ 0x960B ∨ bit v 0 = false ∨ s.boot.phase ≠ 2) : s.bootGo v = s :=
  if_neg (by simpa [imp_iff_not_or] using h)

section Taken

variable {v : Nat} (hkey : v / 0x10000 = 0x960B) (hgo : bit v 0 = true) (hphase : s.boot.phase = 2)

include hkey hgo hphase

theorem bootGo_refused {st : Status} {d : Nat} (hrom : romCheck (romChecking s) (windowBundle s) = .error (st, d)) :
    s.bootGo v = (romChecking s).imageRefusal st d := by
  unfold romChecking windowBundle at hrom
  simp only [State.bootGo, hkey, hgo, hphase, and_self, if_true, hrom]
  rfl

theorem bootGo_passed {k : Nat} (hrom : romCheck (romChecking s) (windowBundle s) = .ok k) :
    s.bootGo v = (romChecking s).kindle (windowBundle s) k (bit v 1) := by
  unfold romChecking windowBundle at hrom
  simp only [State.bootGo, hkey, hgo, hphase, and_self, if_true, hrom]
  rfl

end Taken

/-! The kindling (R73, R74) -/

variable {b : Bytes} {slot : Nat} {arm : Bool}

theorem kindle_breach {d : Nat} (h : manifestCheck b = some d) :
    s.kindle b slot arm = ((kindlingStart s).coreReset 3).imageRefusal .fieldInvalid d := by
  simp only [State.kindle, h]
  rfl

theorem kindle_mismeasured {i : Nat} (hm : manifestCheck b = none) (h : firstMismeasured b = some i) :
    s.kindle b slot arm = ((kindlingStart s).coreReset 3).imageRefusal .measureMismatch i := by
  unfold firstMismeasured at h
  simp only [State.kindle, hm, h]
  rfl

/-- A bundle that passes is kept for the rest of the start; the kindling touches the start's own registers and the clocks alone. -/
theorem kindle_passed (hm : manifestCheck b = none) (h : firstMismeasured b = none) :
    ∃ f : Boot → Boot, s.kindle b slot arm = (kindlingStart s).withBoot f ∧ ∀ x, (f x).phase = 5 ∧ (f x).window = [] ∧ (f x).code = x.code
      ∧ (f x).detail = x.detail ∧ (f x).attempts = x.attempts ∧ (f x).bundle.map (·.slot) = some slot
      ∧ (f x).bundle.map (·.sealArm) = some arm ∧ (f x).bundle.map (·.securityVersion) = some (byteAt b 16) := by
  unfold firstMismeasured at h
  simp only [State.kindle, hm, h]
  exact ⟨_, rfl, fun x => ⟨rfl, rfl, rfl, rfl, rfl, rfl, rfl, rfl⟩⟩

end Bundle

/-- Settles O13: the window, BOOT_GO and the kindling by the cases above. -/
theorem bundleTaken : Obligations.BundleTaken := by
  refine ⟨fun s hd => ⟨?write, ?read, ?closed, ?ignored, ?go⟩, fun s b slot arm => ⟨?breach, ?mismeasured, ?passed⟩⟩
  case write =>
    intro off b hopen hphase
    exact does_of_guard (exec_bootWindow_write hd off b) (windowOpen_of_open hopen hphase)
  case read =>
    intro off len hopen hphase
    rw [Does, exec_bootWindow_read hd, if_pos (windowOpen_of_open hopen hphase), hostActivity_boot, done]
  case closed =>
    intro h
    refine ⟨fun off b => does_of_not_guard (exec_bootWindow_write hd off b) (by simp [windowOpen_of_closed h]), fun off len => ?_⟩
    rw [Does, exec_bootWindow_read hd, windowOpen_of_closed h, if_neg Bool.false_ne_true, done]
  case ignored =>
    intro v h
    have hstay : s.hostActivity.bootGo v.toNat = s.hostActivity := bootGo_ignored (by simpa using h)
    exact hstay ▸ does_bootGo hd v
  case go =>
    intro v hkey hgo hphase
    have hphase : s.hostActivity.boot.phase = 2 := by rw [hostActivity_boot, hphase]
    have hbundle : windowBundle s.hostActivity = s.boot.window.readN 0 s.boot.bootLen := by rw [windowBundle, hostActivity_boot]
    have hchecking : romChecking s.hostActivity = s.hostActivity.withBoot fun x =>
        { x with phase := 3, windowOpen := false, goAt := s.time.elapsed } := by rw [romChecking, hostActivity_elapsed]
    dsimp only
    rw [← hbundle, ← hchecking]
    split
    case h_1 st d hrom =>
      rw [← State.imageRefusal, ← bootGo_refused hkey hgo hphase hrom]
      exact does_bootGo hd v
    case h_2 k hrom =>
      rw [← bootGo_passed hkey hgo hphase hrom]
      exact does_bootGo hd v
  case breach =>
    exact fun d => kindle_breach
  case mismeasured =>
    exact fun i => kindle_mismeasured
  case passed =>
    intro hm hmeasured
    obtain ⟨f, hkindle, hf⟩ := kindle_passed (s := s) (slot := slot) (arm := arm) hm hmeasured
    obtain ⟨hphase, hwindow, hcode, hdetail, hattempts, hslot, harm, hversion⟩ := hf (kindlingStart s).boot
    dsimp only
    rw [hkindle]
    exact ⟨hphase, hwindow, hcode, hdetail, hattempts, hslot, harm, hversion, rfl, rfl, rfl, rfl, rfl, rfl, rfl, rfl⟩

end Sys2Proof.Laws
end

section
/-! PROOFS. How a start ends (R81–R84, R94): its failures, what READY leaves, the hearth's watchdog, and the seal-store commands of a
bundle. -/

namespace Sys2Proof.Laws

open Sys2Proof.Machine

/-! What READY set stays while the firmware sets up its blocks (R94) -/

/-- The start's outcome, the entries of 0x2200 and the power state are those of s. -/
structure ReadyKept (s t : State) : Prop where
  ready : t.boot.ready = s.boot.ready
  phase : t.boot.phase = s.boot.phase
  bundle : t.boot.bundle = s.boot.bundle
  entries : ∀ k, k < 256 → t.dget 0x2200 k = s.dget 0x2200 k
  pow : t.pow = s.pow

section Ready

variable (s : State)

theorem dget_of_dict {s t : State} (h : t.dict = s.dict) (i k : Nat) : t.dget i k = s.dget i k := by
  rw [State.dget, State.dval, h, ← State.dval, ← State.dget]

/-- An update of other parts of the state. -/
theorem readyKept_other {s t : State} (hboot : t.boot = s.boot) (hdict : t.dict = s.dict) (hpow : t.pow = s.pow) : ReadyKept s t :=
  ⟨hboot ▸ rfl, hboot ▸ rfl, hboot ▸ rfl, fun k _ => dget_of_dict hdict _ k, hpow⟩

theorem readyKept_rfl : ReadyKept s s := readyKept_other rfl rfl rfl

theorem readyKept_trans {s t u : State} (h : ReadyKept s t) (k : ReadyKept t u) : ReadyKept s u :=
  ⟨k.ready.trans h.ready, k.phase.trans h.phase, k.bundle.trans h.bundle, fun i hi => (k.entries i hi).trans (h.entries i hi),
    k.pow.trans h.pow⟩

theorem readyKept_dset {s t : State} {i k : Nat} (n : Nat) (h : ReadyKept s t) (hi : i ≠ 0x2200 := by decide)
    (hk : k < 256 := by decide) : ReadyKept s (t.dset i k n) := by
  refine readyKept_trans h ⟨rfl, rfl, rfl, fun l hl => dget_dset_other t n ?_, rfl⟩
  rw [Ne, dkey_inj hl hk]
  exact fun h => hi h.1.symm

theorem readyKept_emberFwDropped : ReadyKept s (s.withBoot fun b => { b with emberFw := none }) := ⟨rfl, rfl, rfl, fun _ _ => rfl, rfl⟩

theorem readyKept_foldl {α : Type} {f : State → α → State} (hf : ∀ u x, ReadyKept u (f u x)) (l : List α) : ReadyKept s (l.foldl f s) := by
  induction l generalizing s with
  | nil => exact readyKept_rfl s
  | cons x l ih => exact readyKept_trans (hf s x) (ih (f s x))

theorem readyKept_instanceZero : ReadyKept s s.instanceZero :=
  have hinst : ReadyKept s (s.withInst 0 fun _ => { Inst.none_ with st := .active, record := recordZero }) := readyKept_other rfl rfl rfl
  readyKept_dset _ (readyKept_dset _ hinst)

theorem readyKept_peatRecover : ReadyKept s s.peatRecover := by
  unfold State.peatRecover
  split
  · split
    · exact readyKept_dset _ (readyKept_dset _ (readyKept_dset _ (readyKept_dset _ (readyKept_rfl s))))
    · exact readyKept_rfl s
  · exact readyKept_rfl s

theorem readyKept_damperFresh : ReadyKept s s.damperFresh :=
  readyKept_trans (readyKept_dset _ (readyKept_dset _ (readyKept_rfl s))) (readyKept_other rfl rfl rfl)

theorem readyKept_attachStart (p : Nat) : ReadyKept s (s.attachStart p) := by
  unfold State.attachStart
  dsimp only
  split <;> exact readyKept_other rfl rfl rfl

theorem readyKept_firmwareReady : ReadyKept s s.firmwareReady :=
  have hfresh : ReadyKept s s.instanceZero.peatRecover.damperFresh :=
    readyKept_trans (readyKept_trans (readyKept_instanceZero s) (readyKept_peatRecover _)) (readyKept_damperFresh _)
  have hvault : ReadyKept s s.instanceZero.peatRecover.damperFresh.vaultWaits :=
    readyKept_trans hfresh (readyKept_other rfl rfl rfl)
  readyKept_trans (readyKept_trans hvault (readyKept_attachStart _ 0)) (readyKept_attachStart _ 1)

theorem readyKept_events (l : List Nat) : ReadyKept s (l.foldl (fun (u : State) e => u.event e) s) :=
  readyKept_foldl s (f := fun (u : State) e => u.event e) (fun _ _ => readyKept_other rfl rfl rfl) l

/-- What READY leaves (R82, R94, R84): the bundle is spent and its entries stand; Glow with every domain on, no edge kept. -/
theorem enterReady_leaves (info : BundleInfo) :
    let t := s.enterReady info
    t.boot.ready = true ∧ t.boot.phase = 7 ∧ t.boot.bundle = none ∧ t.pow.st = .glow ∧ t.pow.trans = 0 ∧ t.pow.domains = []
      ∧ t.pow.edgesKept = [] ∧ t.dget 0x2200 3 = info.securityVersion ∧ t.dget 0x2200 4 = info.slot := by
  unfold State.enterReady
  extract_lets started numbered named ember gatherer glow firmware edges
  have hversion : named.dget 0x2200 3 = info.securityVersion := by
    rw [State.dget, dval_dsetv_other _ _ (by decide), dval_dsetv_other _ _ (by decide)]
    exact ((dget_dset_other _ _ (by decide)).trans (dget_dset_other _ _ (by decide))).trans (dget_dset_same _ _ _ _)
  have hslot : named.dget 0x2200 4 = info.slot := by
    rw [State.dget, dval_dsetv_other _ _ (by decide), dval_dsetv_other _ _ (by decide)]
    exact (dget_dset_other _ _ (by decide)).trans (dget_dset_same _ _ _ _)
  have hboot : named.boot.ready = true ∧ named.boot.phase = 7 ∧ named.boot.bundle = none := ⟨rfl, rfl, rfl⟩
  clear_value named
  have hember : ReadyKept named ember := by
    dsimp only [ember]
    split
    · exact readyKept_rfl named
    · split
      · exact readyKept_dset _ (readyKept_rfl named)
      · exact readyKept_trans (readyKept_dset _ (readyKept_rfl named)) (readyKept_emberFwDropped _)
  clear_value ember
  have hglow : glow.boot = ember.boot ∧ glow.dict = ember.dict ∧ glow.pow.st = .glow ∧ glow.pow.trans = 0
      ∧ glow.pow.domains = [] := by
    simp [glow, gatherer]
  clear_value glow
  have hedges : ReadyKept glow edges := readyKept_trans (readyKept_firmwareReady glow) (readyKept_events firmware _)
  clear_value edges
  obtain ⟨hready, hphase, hbundle⟩ := hboot
  obtain ⟨hgboot, hgdict, hst, htrans, hdomains⟩ := hglow
  have hentries (k : Nat) (hk : k < 256) : edges.dget 0x2200 k = named.dget 0x2200 k := by
    rw [hedges.entries k hk, dget_of_dict hgdict, hember.entries k hk]
  refine ⟨?_, ?_, ?_, ?_, ?_, ?_, rfl, (hentries 3 (by decide)).trans hversion, (hentries 4 (by decide)).trans hslot⟩
  · rw [withPow_boot, hedges.ready, hgboot, hember.ready, hready]
  · rw [withPow_boot, hedges.phase, hgboot, hember.phase, hphase]
  · rw [withPow_boot, hedges.bundle, hgboot, hember.bundle, hbundle]
  · rw [withPow_pow, hedges.pow, hst]
  · rw [withPow_pow, hedges.pow, htrans]
  · rw [withPow_pow, hedges.pow, hdomains]

end Ready

/-! The end of the memories' training (R83, Table 3-13) -/

section Training

variable {s : State} {info : BundleInfo}

theorem does_trainingFailed (c : Nat) (hphase : s.boot.phase = 5) (hbundle : s.boot.bundle = some info) :
    Does (.lpddr5TrainingDone (some c)) s ((s.coreReset 3).imageRefusal .internalFault (0x20 + c)) := by
  show execLpddr5TrainingDone (some c) s = _
  unfold execLpddr5TrainingDone
  rw [hphase, hbundle]
  rfl

theorem does_trained (hphase : s.boot.phase = 5) (hbundle : s.boot.bundle = some info) :
    Does (.lpddr5TrainingDone none) s ((s.loadCores.sealCommands info).enterReady info) := by
  show execLpddr5TrainingDone none s = _
  unfold execLpddr5TrainingDone
  rw [hphase, hbundle]
  rfl

theorem does_trainingDone_elsewhere (c : Option Nat) (h : s.boot.phase ≠ 5 ∨ s.boot.bundle = none) :
    Does (.lpddr5TrainingDone c) s s := by
  show execLpddr5TrainingDone c s = _
  unfold execLpddr5TrainingDone
  split
  case h_1 hphase hbundle => simp [hphase, hbundle] at h
  case h_2 hphase hbundle => simp [hphase, hbundle] at h
  case h_3 => rfl

end Training

/-! The hearth's watchdog (R67, R516) -/

section Watchdog

variable {s : State}

theorem does_hearthWatchdogExpiry (hphase : 3 ≤ s.boot.phase) (hup : s.awake = true ∨ s.pow.st = .starting)
    (hhalt : s.dbg.hearthHalted = false) :
    Does .hearthWatchdogExpiry s ((s.logCls 0 .fatal Status.internalFault.code []).coreReset 4) :=
  does_of_guard rfl ⟨hphase, hup, by simp [hhalt]⟩

theorem does_hearthWatchdogExpiry_paused
    (h : s.boot.phase < 3 ∨ (s.awake = false ∧ s.pow.st ≠ .starting) ∨ s.dbg.hearthHalted = true) :
    Does .hearthWatchdogExpiry s s := by
  refine does_of_not_guard rfl ?_
  rintro ⟨hphase, hup, hhalt⟩
  obtain h | ⟨hawake, hst⟩ | h := h
  · omega
  · exact hup.elim (by simp [hawake]) hst
  · simp [h] at hhalt

end Watchdog

/-! The seal-store commands (R81, R82, Table 3-15) -/

section Seal

variable {s : State} {info : BundleInfo} {z : Seal} {b c : Bytes} {cs : List Bytes} {i : Nat}

theorem sealCommands_unarmed (hcmd : info.sealCmd = some b) (harm : info.sealArm = false) :
    s.sealCommands info = s.dset 0x2202 1 Status.notInThisState.code := by
  simp [State.sealCommands, hcmd, harm]

theorem sealCommands_refused (hcmd : info.sealCmd = some b) (harm : info.sealArm = true)
    (hbad : sealFirstBad info s.sealStore 0 (chunksOf 64 b) = some i) :
    s.sealCommands info = (s.dset 0x2202 1 Status.fieldInvalid.code).dset 0x2202 2 i := by
  simp [State.sealCommands, hcmd, harm, hbad]

theorem sealCommands_applied (hcmd : info.sealCmd = some b) (harm : info.sealArm = true)
    (hbad : sealFirstBad info s.sealStore 0 (chunksOf 64 b) = none) :
    s.sealCommands info = { s with sealStore := (chunksOf 64 b).foldl Seal.apply s.sealStore } := by
  simp [State.sealCommands, hcmd, harm, hbad]

/-- A section passes when its first command passes, with a live slot left after PROGRAM_KEY and REVOKE_KEY, and its rest does. -/
theorem sealFirstBad_cons : sealFirstBad info z i (c :: cs) = none ↔ z.accepts info c = true
    ∧ (byteAt c 0 = 1 ∨ byteAt c 0 = 2 → (z.apply c).hasLive = true) ∧ sealFirstBad info (z.apply c) (i + 1) cs = none := by
  have hlive : ((byteAt c 0 != 1 && byteAt c 0 != 2) || (z.apply c).hasLive) = true
      ↔ (byteAt c 0 = 1 ∨ byteAt c 0 = 2 → (z.apply c).hasLive = true) := by
    rw [imp_iff_not_or]
    simp
  rw [← hlive, sealFirstBad]
  split
  next h =>
    rw [Bool.and_eq_true] at h
    simp [h]
  next h =>
    rw [Bool.and_eq_true] at h
    simp only [reduceCtorEq, false_iff]
    exact fun k => h ⟨k.1, k.2.1⟩

theorem accepts_command (h : z.accepts info c = true) : 1 ≤ byteAt c 0 ∧ byteAt c 0 ≤ 4 ∧ allZero (Machine.sub c 2 14) = true := by
  unfold Seal.accepts at h
  simp only [Bool.and_eq_true] at h
  obtain ⟨⟨hreserved, -⟩, hop⟩ := h
  split at hop
  case h_5 => cases hop
  all_goals exact ⟨by omega, by omega, hreserved⟩

theorem commands_of_sealFirstBad (h : sealFirstBad info z i cs = none) :
    ∀ c ∈ cs, 1 ≤ byteAt c 0 ∧ byteAt c 0 ≤ 4 ∧ allZero (Machine.sub c 2 14) = true := by
  induction cs generalizing z i with
  | nil => exact List.forall_mem_nil _
  | cons c cs ih =>
    obtain ⟨haccepts, -, hrest⟩ := sealFirstBad_cons.mp h
    exact List.forall_mem_cons.mpr ⟨accepts_command haccepts, ih hrest⟩

/-- A section of PROGRAM_KEY and REVOKE_KEY alone leaves a live slot, by its last command's check. -/
theorem hasLive_of_sealFirstBad (h : sealFirstBad info z i cs = none) (hkeys : ∀ c ∈ cs, byteAt c 0 = 1 ∨ byteAt c 0 = 2)
    (hlive : z.hasLive = true ∨ cs ≠ []) : (cs.foldl Seal.apply z).hasLive = true := by
  induction cs generalizing z i with
  | nil => exact hlive.resolve_right (not_not_intro rfl)
  | cons c cs ih =>
    obtain ⟨-, hkept, hrest⟩ := sealFirstBad_cons.mp h
    obtain ⟨hkey, hkeys⟩ := List.forall_mem_cons.mp hkeys
    exact ih hrest hkeys (.inl (hkept hkey))

end Seal

/-- Settles O14: the ends of a start, and the section of seal-store commands, by the cases above. -/
theorem startEnds : Obligations.StartEnds := by
  refine ⟨fun s => ⟨?pll, ?pllLocked, fun c _ => does_trainingFailed c, fun _ => does_trained, does_trainingDone_elsewhere, ?ready,
    does_hearthWatchdogExpiry, does_hearthWatchdogExpiry_paused⟩, fun s info b hcmd => ⟨sealCommands_unarmed hcmd,
    fun _ => sealCommands_refused hcmd, ?applied⟩⟩
  case pll => exact fun p h => does_of_guard rfl h
  case pllLocked => exact fun p h4 h5 => does_of_not_guard rfl (not_or.mpr ⟨h4, h5⟩)
  case ready =>
    intro info
    obtain ⟨hready, hphase, hbundle, hst, htrans, hdomains, hedges, hversion, hslot⟩ := enterReady_leaves s info
    obtain ⟨hqueue, hsent, -, hstore, -, -⟩ := later_enterReady info (later_rfl s)
    exact ⟨hready, hphase, hbundle, hst, htrans, hdomains, hedges, hversion, hslot, hstore, hsent, hqueue⟩
  case applied =>
    intro harm hbad
    have happlied := sealCommands_applied hcmd harm hbad
    refine ⟨happlied, commands_of_sealFirstBad hbad, fun hne hkeys => ?_⟩
    rw [happlied]
    exact hasLive_of_sealFirstBad hbad hkeys (.inr hne)

end Sys2Proof.Laws
end

section
/-! PROOFS. The requests for a power state (R95, R96) and the ignition line (R112, R139): a write of 0x2000:02, the move that it starts from
Blaze and from Glow, the request that the firmware makes by itself, the line's fall, its timer and its energy allowance. -/

namespace Sys2Proof.Laws

open Sys2Proof.Machine

section StateRequests

variable {s : State} {v : Nat}

/-! The checks of R96 -/

/-- The checks have one way to refuse. -/
theorem requestCheck_refused (h : s.requestCheck v ≠ .ok) : s.requestCheck v = .notInThisState := by
  unfold State.requestCheck at h ⊢
  split_ifs at h ⊢ with hevidence hember
  · rfl
  · rfl
  · exact absurd rfl h

/-- Blaze and Glow may be requested at any time. -/
theorem requestCheck_awake (h : v = 0 ∨ v = 1) : s.requestCheck v = .ok := by
  unfold State.requestCheck
  rw [if_neg (by omega), if_neg (by omega)]

theorem requestCheck_evidence (hv : v = 2 ∨ v = 3) (h : s.kilnOpenAny = true ∨ s.evidenceBusy = true) :
    s.requestCheck v = .notInThisState := if_pos ⟨hv, h⟩

/-- No firmware of the ember controller, no Ember. -/
theorem requestCheck_ember (h : s.pow.emberRun = false ∨ s.pow.emberBusy = true) : s.requestCheck 3 = .notInThisState := by
  have hember : 3 = 3 ∧ (!s.pow.emberRun ∨ s.pow.emberBusy) := ⟨rfl, by simpa using h⟩
  unfold State.requestCheck
  rw [if_pos hember, ite_self]

/-! The move (R95, Table 4-2) -/

theorem blazeLeft_blaze (h : s.pow.st = .blaze) : s.blazeLeft = (s.withPow fun p => { p with st := .glow }).event 17 := if_pos h

theorem blazeLeft_glow (h : s.pow.st = .glow) : s.blazeLeft = s := if_neg (by simp [h])

theorem requestStart_present_blaze (h : s.pow.st = .blaze) : s.requestStart 0 = s := if_pos h

theorem requestStart_present_glow (h : s.pow.st = .glow) : s.requestStart 1 = s := if_neg (by simp [h])

theorem requestStart_glow_of_blaze (h : s.pow.st = .blaze) : s.requestStart 1 = s.blazeLeft.transitionEnd .ok := if_pos h

/-- Banked and Ember begin with their drain, in Glow. -/
theorem requestStart_drain (hv : v = 2 ∨ v = 3) : s.requestStart v = s.blazeLeft.beginDrain (v - 1) := by
  obtain rfl | rfl := hv
  · rfl
  · rfl

/-! The write of 0x2000:02 -/

theorem entryWrite_powerState (s : State) (v : Nat) : s.entryWrite 0x2000 2 (.num v)
    = if s.requestCheck v = .ok then (.ok, s.requestStart v) else (s.requestCheck v, s) := rfl

/-- The entry holds a byte, and a request is one of four values. -/
theorem dec_powerState (h : v < 4) : DVal.dec (entryType 0x2000 2) (leBytes (entryType 0x2000 2).len v) = .num v := by
  have hty : entryType 0x2000 2 = .u8 := by decide +kernel
  have hv : leNat (leBytes 1 v) = v := (leNat_leBytes 1 v).trans (Nat.mod_eq_of_lt (by omega))
  rw [hty]
  exact congrArg DVal.num hv

/-- The four rows of the table write the entry, each with its own value. -/
theorem exec_powerRequest {c : Instr} {who : Requester} (hc : (c = .requestBlaze who ∧ v = 0) ∨ (c = .requestGlow who ∧ v = 1)
    ∨ (c = .requestBanked who ∧ v = 2) ∨ (c = .requestEmber who ∧ v = 3)) :
    v < 4 ∧ exec c s = done (s.writeRequest who 0x2000 2 v) := by
  obtain ⟨rfl, rfl⟩ | ⟨rfl, rfl⟩ | ⟨rfl, rfl⟩ | ⟨rfl, rfl⟩ := hc
  · exact ⟨by decide, rfl⟩
  · exact ⟨by decide, rfl⟩
  · exact ⟨by decide, rfl⟩
  · exact ⟨by decide, rfl⟩

section Written

variable {c : Instr} {who : Requester} (hc : exec c s = done (s.writeRequest who 0x2000 2 v)) (hv : v < 4)
  (hA : s.Asks (writeOf who 0x2000 2 v)) (hok : (s.taken (writeOf who 0x2000 2 v)).Accepts (writeOf who 0x2000 2 v))
include hc hv hA hok

theorem answers_powerState (h : (s.taken (writeOf who 0x2000 2 v)).requestCheck v = .ok) :
    Answers c s (writeOf who 0x2000 2 v) .ok [] ((s.taken (writeOf who 0x2000 2 v)).requestStart v) := by
  refine answers_write hc hA hok (by decide +kernel) rfl (by decide) ?_
  rw [dec_powerState hv, entryWrite_powerState, if_pos h]

theorem answers_powerState_refused (h : (s.taken (writeOf who 0x2000 2 v)).requestCheck v ≠ .ok) :
    Answers c s (writeOf who 0x2000 2 v) .notInThisState [] (s.taken (writeOf who 0x2000 2 v)) := by
  refine answers_write_refused (t := s.taken (writeOf who 0x2000 2 v)) hc hA hok (by decide +kernel) rfl (by decide) ?_
  rw [dec_powerState hv, entryWrite_powerState, if_neg h, requestCheck_refused h]

end Written

end StateRequests

section Ignition

variable {s : State}

/-! The firmware's own request (R112) -/

section FirmwareRequest

variable (haction : s.dget 0x2001 1 ≠ 0) (hlive : s.live = true)
include haction hlive

theorem firmwareRequest_waits (h : s.pow.trans ≠ 0 ∨ s.dbg.hearthHalted = true) :
    s.firmwareRequest = s.withPow fun p => { p with ignWaiting := true } := by
  unfold State.firmwareRequest
  rw [if_neg (by simp [haction, hlive]), if_pos h]

variable (htrans : s.pow.trans = 0) (hrun : s.dbg.hearthHalted = false)
include htrans hrun

/-- With no transition running and the hearth free, the checks of R96 decide. -/
theorem firmwareRequest_checked : s.firmwareRequest = if s.requestCheck (s.dget 0x2001 1) = .ok
    then (s.withPow fun p => { p with ignRetry := false, ignWaiting := false }).requestStart (s.dget 0x2001 1)
    else s.withPow fun p => { p with ignRetry := true, ignWaiting := false } := by
  unfold State.firmwareRequest
  rw [if_neg (by simp [haction, hlive]), if_neg (by simp [htrans, hrun])]

end FirmwareRequest

/-! The line falls (R112) -/

/-- The state in which the line has fallen and the energy count starts again. -/
def ignFallen (s : State) : State :=
  ((s.withPow fun p => { p with ign := false }).dset 0x2106 1 0).withDamper fun d => { d with ignCounting := true, ignReached := false }

/-- The line's fall leaves IGN_OFF_ACTION. -/
theorem ignFallen_action : ((ignFallen s).event 9).dget 0x2001 1 = s.dget 0x2001 1 :=
  dget_dset_other (s.withPow fun p => { p with ign := false }) 0 (by decide)

theorem exec_ignFall : exec .ignFall s = execIgnFall s := rfl

theorem exec_ignFall_awake (h : s.pow.st = .blaze ∨ s.pow.st = .glow) :
    exec .ignFall s = if s.dget 0x2001 1 = 0 then done ((ignFallen s).event 9)
      else done (((ignFallen s).event 9).withPow fun p => { p with ignTimer := true }) := by
  rw [exec_ignFall, ← apply_ite done, ← ignFallen_action]
  obtain h | h := h
  all_goals
    simp only [execIgnFall, withDamper_pow, dset_pow, withPow_pow, h]
    rfl

theorem does_ignFall_starting (h : s.pow.st = .starting) :
    Does .ignFall s ((ignFallen s).withPow fun p => { p with edgesKept := p.edgesKept ++ [9] }) := by
  rw [Does, exec_ignFall]
  simp only [execIgnFall, withDamper_pow, dset_pow, withPow_pow, h]
  rfl

theorem does_ignFall_asleep (h : s.pow.st = .off ∨ s.pow.st = .banked ∨ s.pow.st = .ember) : Does .ignFall s (ignFallen s) := by
  rw [Does, exec_ignFall]
  obtain h | h | h := h
  all_goals
    simp only [execIgnFall, withDamper_pow, dset_pow, withPow_pow, h]
    rfl

/-! The energy allowance (R139) -/

theorem does_ignOffAllowanceReached (hawake : s.awake = true) (hset : s.dget 0x2106 2 ≠ 0)
    (hreached : s.dget 0x2106 2 * 1000000 ≤ s.dget 0x2106 1) (hcounting : s.damper.ignCounting = true)
    (honce : s.damper.ignReached = false) :
    let v := (s.event 24).withDamper fun d => { d with ignReached := true }
    Does .ignOffAllowanceReached s (if s.dget 0x2106 3 = 1 then v.firmwareRequest else v) :=
  does_of_guard rfl ⟨hawake, Nat.mul_ne_zero hset (by decide), hreached, hcounting, by simp [honce]⟩

theorem does_ignOffAllowanceReached_quiet (h : s.awake = false ∨ s.dget 0x2106 2 = 0 ∨ s.dget 0x2106 1 < s.dget 0x2106 2 * 1000000
    ∨ s.damper.ignCounting = false ∨ s.damper.ignReached = true) : Does .ignOffAllowanceReached s s := by
  refine does_of_not_guard rfl ?_
  rintro ⟨hawake, hset, hreached, hcounting, honce⟩
  obtain h | h | h | h | h := h
  · simp [h] at hawake
  · simp [h] at hset
  · omega
  · simp [h] at hcounting
  · simp [h] at honce

end Ignition

/-- Settles O16: the requests by the checks and the moves above, the ignition line command by command. -/
theorem powerRequests : Obligations.PowerRequests := by
  refine ⟨fun who s => ⟨?rows, ⟨requestCheck_awake (.inl rfl), requestCheck_awake (.inr rfl)⟩, fun _ => requestCheck_evidence,
    requestCheck_ember, requestStart_present_blaze, requestStart_present_glow, ?leave, ?drainBlaze, ?drainGlow⟩,
    fun s => ⟨?fall, ?fallTimer, does_ignFall_starting, does_ignFall_asleep, fun h => does_of_guard rfl h,
      fun h => does_of_not_guard rfl (by simp [h]), fun h => does_of_guard rfl h, fun h => does_of_not_guard rfl (by simp [h]),
      does_ignOffAllowanceReached, does_ignOffAllowanceReached_quiet, ?waits, ?requested, ?repeated⟩⟩
  case rows =>
    intro c v hrow r u hA hok
    obtain ⟨hv, hc⟩ := exec_powerRequest hrow
    exact ⟨answers_powerState hc hv hA hok, fun h => ⟨requestCheck_refused h, answers_powerState_refused hc hv hA hok h⟩⟩
  case leave =>
    intro h
    rw [requestStart_glow_of_blaze h, blazeLeft_blaze h]
    rfl
  case drainBlaze =>
    intro v hv h
    rw [requestStart_drain hv, blazeLeft_blaze h]
    rfl
  case drainGlow =>
    intro v hv h
    rw [requestStart_drain hv, blazeLeft_glow h]
    rfl
  case fall => exact fun h haction => does_of_guard (exec_ignFall_awake h) haction
  case fallTimer => exact fun h haction => does_of_not_guard (exec_ignFall_awake h) haction
  case waits =>
    rintro v rfl haction hlive h
    exact firmwareRequest_waits haction hlive h
  case requested =>
    rintro v rfl haction hlive htrans hrun hcheck
    rw [firmwareRequest_checked haction hlive htrans hrun, if_pos hcheck]
  case repeated =>
    rintro v rfl haction hlive htrans hrun hcheck
    rw [firmwareRequest_checked haction hlive htrans hrun, if_neg hcheck]

end Sys2Proof.Laws
end

section
/-! PROOFS. The transfers of the Tinder port (R113–R115): a held transfer that the ember firmware takes, the stretch limit, and what is
written to the transfer. -/

namespace Sys2Proof.Laws

open Sys2Proof.Machine

section Tinder

variable {s : State}

/-! The registers while a transfer is held (R113) -/

@[simp] theorem dmax_pow (s : State) (i k n : Nat) : (s.dmax i k n).pow = s.pow := by
  unfold State.dmax
  split
  · exact dset_pow s i k n
  · rfl

/-- The stretch is recorded in the dictionary alone. -/
@[simp] theorem tinderStretch_pow (s : State) : s.tinderStretch.pow = s.pow := dmax_pow s _ _ _

/-- The Tinder registers show the power states and nothing of the transfer itself. -/
theorem tinderReg_released (s : State) (p : Nat) :
    (s.tinderStretch.withPow fun q => { q with tinderHeld := none }).tinderReg p = s.tinderReg p := by
  simp only [State.tinderReg, withPow_pow, tinderStretch_pow]

/-! A transfer taken (R113, R115) -/

theorem exec_tinderTransferTaken {n : Nat} : exec (.tinderTransferTaken n) s = execTinderTransferTaken n s := rfl

theorem exec_tinderTransferTaken_running {n : Nat} {rd : Bool} (hheld : s.pow.tinderHeld = some rd) (hrun : s.pow.emberRun = true)
    (hfree : s.pow.emberBusy = false) :
    let u := s.tinderStretch.withPow fun p => { p with tinderHeld := none }
    exec (.tinderTransferTaken n) s = if rd then done ((u.emit (.tinder ((List.range n).map fun i =>
        BitVec.ofNat 8 (s.tinderReg ((s.pow.tinderPtr + i) % 256))))).withPow fun p => { p with tinderPtr := (p.tinderPtr + n) % 256 })
      else done u := by
  rw [exec_tinderTransferTaken, execTinderTransferTaken, hheld]
  dsimp only
  rw [if_pos ⟨hrun, by simp [hfree]⟩]
  simp only [tinderReg_released, withPow_pow, tinderStretch_pow]

theorem does_tinderTransferTaken_idle {n : Nat}
    (h : s.pow.tinderHeld = none ∨ s.pow.emberRun = false ∨ s.pow.emberBusy = true) : Does (.tinderTransferTaken n) s s := by
  rw [Does, exec_tinderTransferTaken, execTinderTransferTaken]
  cases hheld : s.pow.tinderHeld with
  | none => rfl
  | some rd => exact if_neg (by simpa [hheld, imp_iff_not_or] using h)

/-! The stretch limit (R113, R114) -/

theorem exec_tinderStretchLimit : exec .tinderStretchLimit s = execTinderStretchLimit s := rfl

theorem does_tinderStretchLimit {rd : Bool} (h : s.pow.tinderHeld = some rd) :
    let u := (s.dmax 0x2004 3 300).withPow fun p => { p with tinderHeld := none, tinderRefused := true }
    Does .tinderStretchLimit s (if rd then u.emit (.tinder [0xFF]) else u) := by
  rw [Does, exec_tinderStretchLimit, execTinderStretchLimit, h]
  rfl

theorem does_tinderStretchLimit_idle (h : s.pow.tinderHeld = none) : Does .tinderStretchLimit s s := by
  rw [Does, exec_tinderStretchLimit, execTinderStretchLimit, h]
  rfl

/-! What is written to a transfer (R114, R115) -/

/-- A data byte at the pointer: bits of WAKE_LATCHED written 1 are cleared, and the pointer goes on. -/
def tinderByte (s : State) (b : Byte) : State :=
  (if s.pow.tinderPtr = 3 then s.withPow fun p => { p with lastWakeLatched := p.lastWakeLatched - (p.lastWakeLatched &&& b.toNat) }
    else s).withPow fun p => { p with tinderPtr := (p.tinderPtr + 1) % 256 }

theorem tinderByte_pointed (s : State) (ptr b : Byte) :
    tinderByte (s.withPow fun p => { p with tinderPtr := ptr.toNat }) b = s.withPow fun p => { p with
      tinderPtr := (ptr.toNat + 1) % 256
      lastWakeLatched := if ptr = 3 then p.lastWakeLatched - (p.lastWakeLatched &&& b.toNat) else p.lastWakeLatched } := by
  by_cases hptr : ptr = 3
  · subst hptr
    rfl
  · have hreg : ptr.toNat ≠ 3 := fun h => hptr (BitVec.eq_of_toNat_eq h)
    simp only [tinderByte, withPow_pow, hreg, hptr, if_false]
    rfl

theorem does_tinderRegisterWrite {ptr : Byte} {data : Bytes} (hrun : s.pow.emberRun = true) (hfree : s.pow.emberBusy = false)
    (hheard : s.pow.tinderRefused = false) : Does (.tinderRegisterWrite (ptr :: data)) s
      (data.foldl tinderByte (s.withPow fun p => { p with tinderPtr := ptr.toNat })) :=
  does_of_guard (v := s) rfl ⟨hrun, by simp [hfree], by simp [hheard]⟩

theorem does_tinderRegisterWrite_refused {data : Bytes}
    (h : s.pow.emberRun = false ∨ s.pow.emberBusy = true ∨ s.pow.tinderRefused = true ∨ data = []) :
    Does (.tinderRegisterWrite data) s s := by
  cases data with
  | nil => exact ite_self _
  | cons ptr data => exact does_of_not_guard rfl (by simpa [imp_iff_not_or] using h)

end Tinder

/-- Settles O19: a transfer taken, the stretch limit, and the bytes written, by the cases above. -/
theorem tinderTransfers : Obligations.TinderTransfers := by
  intro s
  refine ⟨?read, ?write, fun _ => does_tinderTransferTaken_idle, fun _ => does_tinderStretchLimit, does_tinderStretchLimit_idle,
    fun _ => does_tinderRegisterWrite (data := []), ?data, fun _ => does_tinderRegisterWrite_refused⟩
  case read => exact fun n hheld hrun hfree => does_of_guard (exec_tinderTransferTaken_running hheld hrun hfree) rfl
  case write => exact fun n hheld hrun hfree => does_of_not_guard (exec_tinderTransferTaken_running hheld hrun hfree) Bool.false_ne_true
  case data =>
    intro ptr b hrun hfree hheard
    rw [← tinderByte_pointed]
    exact does_tinderRegisterWrite hrun hfree hheard

end Sys2Proof.Laws
end

section
/-! PROOFS. Completions and timeouts of the host's reads (R165–R169, R171) by what tracks the tag, and the errors that the endpoint
reports (R170, Table 6-11). -/

namespace Sys2Proof.Laws

open Sys2Proof.Machine

section Completions

variable {s : State} {n tag : Nat} {cpl : Cpl} {r : TagRec}

/-- The state with a function's tag free again. -/
def tagFreed (s : State) (n tag : Nat) : State := s.withFn n fun x => { x with tags := x.tags.del tag }

/-- What a completion in time does for the owner of its read: data go on; an error is logged by its kind and ends the owner's command. -/
def completionServed (u : State) (n : Nat) (o : TagOwner) : Cpl → State
  | .data b => u.accessData n o b
  | .poisoned => ((u.aerAdvisory n 12).epstatSet n 2).accessFailed n o .hostReadError
  | .unsupported =>
    ((u.cfgPut n .statusErrorBits (setBit (u.cfg n .statusErrorBits) 13 true)).epstatSet n 2).accessFailed n o .hostReadError
  | .aborted =>
    ((u.cfgPut n .statusErrorBits (setBit (u.cfg n .statusErrorBits) 12 true)).epstatSet n 2).accessFailed n o .hostReadError

/-! A completion, by its tag (R166–R169, R171) -/

theorem exec_completionReceived : exec (.completionReceived n tag cpl) s = execCompletionReceived n tag cpl s := rfl

theorem does_completionReceived_untracked (h : (s.hostActivity.fn n).tags.get? tag = none) :
    Does (.completionReceived n tag cpl) s (s.hostActivity.unexpectedCpl n) := by
  rw [Does, exec_completionReceived, execCompletionReceived, h]
  rfl

section Tracked

variable (h : (s.hostActivity.fn n).tags.get? tag = some r)
include h

theorem does_completionReceived_late (ht : r.timedOut = true) :
    Does (.completionReceived n tag cpl) s (s.hostActivity.unexpectedCpl n) := by
  rw [Does, exec_completionReceived, execCompletionReceived, h]
  exact if_pos ht

/-- A completion before its timeout frees its tag, and is dropped in quarantine, or else serves the owner. -/
theorem exec_completionReceived_tracked (ht : r.timedOut = false) : exec (.completionReceived n tag cpl) s =
    if r.quarantined then done ((tagFreed s.hostActivity n tag).dinc 0x2302 5)
    else done (completionServed (tagFreed s.hostActivity n tag) n r.owner cpl) := by
  rw [exec_completionReceived, execCompletionReceived, h]
  dsimp only
  rw [ht]
  cases cpl <;> rfl

theorem does_completionReceived_quarantined (ht : r.timedOut = false) (hq : r.quarantined = true) :
    Does (.completionReceived n tag cpl) s ((tagFreed s.hostActivity n tag).dinc 0x2302 5) :=
  does_of_guard (exec_completionReceived_tracked h ht) hq

theorem does_completionReceived_served (ht : r.timedOut = false) (hq : r.quarantined = false) :
    Does (.completionReceived n tag cpl) s (completionServed (tagFreed s.hostActivity n tag) n r.owner cpl) :=
  does_of_not_guard (exec_completionReceived_tracked h ht) (by simp [hq])

end Tracked

/-! A timeout and the end of its quarantine (R165, R166) -/

theorem exec_completionTimeout : exec (.completionTimeout n tag) s = execCompletionTimeout n tag s := rfl

theorem exec_quarantineWindowClose : exec (.quarantineWindowClose n tag) s = execQuarantineWindowClose n tag s := rfl

theorem does_completionTimeout_untracked (h : (s.fn n).tags.get? tag = none) : Does (.completionTimeout n tag) s s := by
  rw [Does, exec_completionTimeout, execCompletionTimeout, h]
  rfl

theorem does_quarantineWindowClose_untracked (h : (s.fn n).tags.get? tag = none) : Does (.quarantineWindowClose n tag) s s := by
  rw [Does, exec_quarantineWindowClose, execQuarantineWindowClose, h]
  rfl

section Tracked

variable (h : (s.fn n).tags.get? tag = some r)
include h

theorem exec_completionTimeout_tracked : exec (.completionTimeout n tag) s = if r.timedOut then done s else
    done ((((((s.withFn n fun x => { x with tags := x.tags.put tag ⟨.nobody, true, true⟩ }).aerUncor n 14).epstatSet n 1).event
      36).dinc 0x2302 2).accessFailed n r.owner .hostReadTimeout) := by
  rw [exec_completionTimeout, execCompletionTimeout, h]

theorem exec_quarantineWindowClose_tracked :
    exec (.quarantineWindowClose n tag) s = if r.quarantined then done (tagFreed s n tag) else done s := by
  rw [exec_quarantineWindowClose, execQuarantineWindowClose, h]
  rfl

end Tracked

end Completions

section EndpointErrors

variable {s : State} {err : LinkError} {b : Nat}

/-! Errors of the link (R170, Table 6-11) -/

/-- A link error has its bit in one of the two AER status registers. -/
theorem aerBit_one (err : LinkError) : (aerUncorrectableBit err).isSome = true ∧ aerCorrectableBit err = none
    ∨ aerUncorrectableBit err = none ∧ (aerCorrectableBit err).isSome = true := by
  cases err <;> decide

theorem aerUncorrectableBit_of_correctable (h : aerCorrectableBit err = some b) : aerUncorrectableBit err = none := by
  obtain ⟨-, hnone⟩ | ⟨hnone, -⟩ := aerBit_one err
  · simp [hnone] at h
  · exact hnone

theorem exec_hostLinkError : exec (.hostLinkError err) s = execHostLinkError err s := rfl

theorem does_hostLinkError_uncorrectable (h : aerUncorrectableBit err = some b) : Does (.hostLinkError err) s (s.aerUncor 0 b) := by
  rw [Does, exec_hostLinkError, execHostLinkError, h]
  rfl

theorem does_hostLinkError_correctable (h : aerCorrectableBit err = some b) : Does (.hostLinkError err) s (s.aerCor 0 b) := by
  rw [Does, exec_hostLinkError, execHostLinkError, aerUncorrectableBit_of_correctable h, h]
  rfl

end EndpointErrors

/-- Settles O25: a completion and a timeout by what tracks the tag, an error of the link by its bit. -/
theorem hostCompletions : Obligations.HostCompletions := by
  refine ⟨fun s n tag => ⟨fun _ => does_completionReceived_untracked, fun _ _ => does_completionReceived_late, ?inTime, ?timeout,
      ?timeoutAgain, ?untracked, ?close, ?closeElse⟩,
    fun s => ⟨fun _ _ => does_hostLinkError_uncorrectable, fun _ _ => does_hostLinkError_correctable, aerBit_one, fun _ => rfl,
      fun _ _ _ => rfl⟩⟩
  case inTime =>
    intro r h ht
    have served (hq : r.quarantined = false) (cpl : Cpl) := does_completionReceived_served (cpl := cpl) h ht hq
    exact ⟨fun hq _ => does_completionReceived_quarantined h ht hq,
      fun hq => ⟨fun b => served hq (.data b), served hq .poisoned, served hq .unsupported, served hq .aborted⟩⟩
  case timeout =>
    intro r h ht
    exact does_of_not_guard (exec_completionTimeout_tracked h) (by simp [ht])
  case timeoutAgain =>
    intro r h ht
    exact does_of_guard (exec_completionTimeout_tracked h) ht
  case untracked =>
    intro h
    exact ⟨does_completionTimeout_untracked h, does_quarantineWindowClose_untracked h⟩
  case close =>
    intro r h hq
    exact does_of_guard (exec_quarantineWindowClose_tracked h) hq
  case closeElse =>
    intro r h hq
    exact does_of_not_guard (exec_quarantineWindowClose_tracked h) (by simp [hq])

end Sys2Proof.Laws
end

section
/-! PROOFS. Doorbells (R148, R185, R186, R188, Table 8-3): what an SQ's and a CQ's doorbell do before a queue is found, and then by the
value, the queue's state and the arc. -/

namespace Sys2Proof.Laws

open Sys2Proof.Machine

section Doorbells

variable {s : State} {n q v : Nat}

theorem does_sqTailDoorbell {u : State} (h : s.hostActivity.sqDoorbell n q v = u) : Does (.sqTailDoorbell n q v) s u := h ▸ rfl

theorem does_cqHeadDoorbell {u : State} (h : s.hostActivity.cqDoorbell n q v = u) : Does (.cqHeadDoorbell n q v) s u := h ▸ rfl

/-! Where no doorbell is taken (R148, Table 8-3) -/

theorem sqDoorbell_undecoded (hd : s.decodes n = false) : s.sqDoorbell n q v = s.unsupportedRequest n false := by
  simp [State.sqDoorbell, hd]

theorem cqDoorbell_undecoded (hd : s.decodes n = false) : s.cqDoorbell n q v = s.unsupportedRequest n false := by
  simp [State.cqDoorbell, hd]

section Decoded

variable (hd : s.decodes n = true)
include hd

theorem sqDoorbell_unwritable (hw : s.adminWritable n = false) : s.sqDoorbell n q v = s := by
  simp [State.sqDoorbell, hd, hw]

theorem cqDoorbell_unwritable (hw : s.adminWritable n = false) : s.cqDoorbell n q v = s := by
  simp [State.cqDoorbell, hd, hw]

section Writable

variable (hw : s.adminWritable n = true)
include hw

/-! No queue (R186) -/

theorem sqDoorbell_stray (hx : s.sq? n q = none) : s.sqDoorbell n q v = s.strayDoorbell n := by
  simp [State.sqDoorbell, hd, hw, hx]

theorem cqDoorbell_stray (hx : s.cq? n q = none) : s.cqDoorbell n q v = s.strayDoorbell n := by
  simp [State.cqDoorbell, hd, hw, hx]

/-! A queue's doorbell (R185, R188) -/

section Sq

variable {x : Sq} (hq : q < doorbellQueues n) (hx : s.sq? n q = some x)
include hq hx

/-- The doorbell of an SQ: the value as it stands does nothing, a frozen queue keeps it, and on a running one it is checked. -/
theorem sqDoorbell_queue : s.sqDoorbell n q v = if v % 65536 = x.bell then s
    else if x.frozen then s.setSq n q { x with bell := v % 65536 } else s.sqBell n q (v % 65536) := by
  simp [State.sqDoorbell, hd, hw, hx, not_le.mpr hq]

theorem sqDoorbell_same (hv : v % 65536 = x.bell) : s.sqDoorbell n q v = s :=
  (sqDoorbell_queue hd hw hq hx).trans (if_pos hv)

variable (hv : v % 65536 ≠ x.bell)
include hv

theorem sqDoorbell_frozen (hf : x.frozen = true) : s.sqDoorbell n q v = s.setSq n q { x with bell := v % 65536 } :=
  (sqDoorbell_queue hd hw hq hx).trans ((if_neg hv).trans (if_pos hf))

/-- On a running SQ the arc decides: from the tail up to the slot before the head. -/
theorem sqDoorbell_running (hf : x.frozen = false) : s.sqDoorbell n q v =
    let u := s.setSq n q { x with bell := v % 65536 }
    if onArc x.depth x.tail ((x.head + x.depth - 1) % x.depth) (v % 65536) then
      u.setSq n q { x with bell := v % 65536, tail := v % 65536 }
    else u.freeze n q 0 4 .queueFrozen [] := by
  rw [sqDoorbell_queue hd hw hq hx, if_neg hv, if_neg (by simp [hf]), State.sqBell, hx]

end Sq

section Cq

variable {x : Cq} (hq : q < doorbellQueues n) (hx : s.cq? n q = some x)
include hq hx

/-- The doorbell of a CQ: the value as it stands does nothing, a frozen queue keeps it, and on a running one it is checked. -/
theorem cqDoorbell_queue : s.cqDoorbell n q v = if v % 65536 = x.bell then s
    else if x.frozen then s.setCq n q { x with bell := v % 65536 } else s.cqBell n q (v % 65536) := by
  simp [State.cqDoorbell, hd, hw, hx, not_le.mpr hq]

theorem cqDoorbell_same (hv : v % 65536 = x.bell) : s.cqDoorbell n q v = s :=
  (cqDoorbell_queue hd hw hq hx).trans (if_pos hv)

variable (hv : v % 65536 ≠ x.bell)
include hv

theorem cqDoorbell_frozen (hf : x.frozen = true) : s.cqDoorbell n q v = s.setCq n q { x with bell := v % 65536 } :=
  (cqDoorbell_queue hd hw hq hx).trans ((if_neg hv).trans (if_pos hf))

/-- On a running CQ the arc decides: from the head up to the tail. -/
theorem cqDoorbell_running (hf : x.frozen = false) : s.cqDoorbell n q v =
    let u := s.setCq n q { x with bell := v % 65536 }
    if onArc x.depth x.head x.tail (v % 65536) then (u.setCq n q { x with bell := v % 65536, head := v % 65536 }).cqDrain n q
    else (u.freeze n q 1 5 .queueFrozen []).stallCheck n q := by
  rw [cqDoorbell_queue hd hw hq hx, if_neg hv, if_neg (by simp [hf]), State.cqBell, hx]

end Cq

end Writable

end Decoded

end Doorbells

/-- Settles O26: both doorbells by the cases above. -/
theorem doorbells : Obligations.Doorbells := by
  intro s n q v
  refine ⟨fun hd => ⟨does_sqTailDoorbell (sqDoorbell_undecoded hd), does_cqHeadDoorbell (cqDoorbell_undecoded hd)⟩,
    fun hd hw => ⟨does_sqTailDoorbell (sqDoorbell_unwritable hd hw), does_cqHeadDoorbell (cqDoorbell_unwritable hd hw)⟩,
    fun hd hw => ⟨fun hx => does_sqTailDoorbell (sqDoorbell_stray hd hw hx), fun hx => does_cqHeadDoorbell (cqDoorbell_stray hd hw hx),
      ?sq, ?cq⟩⟩
  case sq =>
    intro hq x hx
    refine ⟨fun hv => does_sqTailDoorbell (sqDoorbell_same hd hw hq hx hv),
      fun hv hf => does_sqTailDoorbell (sqDoorbell_frozen hd hw hq hx hv hf), fun hv hf harc => ?onArc, fun hv hf harc => ?offArc⟩
    case onArc => exact does_sqTailDoorbell ((sqDoorbell_running hd hw hq hx hv hf).trans (if_pos harc))
    case offArc => exact does_sqTailDoorbell ((sqDoorbell_running hd hw hq hx hv hf).trans (if_neg (by simp [harc])))
  case cq =>
    intro hq x hx
    refine ⟨fun hv => does_cqHeadDoorbell (cqDoorbell_same hd hw hq hx hv),
      fun hv hf => does_cqHeadDoorbell (cqDoorbell_frozen hd hw hq hx hv hf), fun hv hf harc => ?onArc, fun hv hf harc => ?offArc⟩
    case onArc => exact does_cqHeadDoorbell ((cqDoorbell_running hd hw hq hx hv hf).trans (if_pos harc))
    case offArc => exact does_cqHeadDoorbell ((cqDoorbell_running hd hw hq hx hv hf).trans (if_neg (by simp [harc])))

end Sys2Proof.Laws
end

section
/-! PROOFS. The queue admin commands (R198, R204–R209, R213, R526, R527, Tables 7-14 and 7-15): each command's outcomes, in the order of
its checks. -/

namespace Sys2Proof.Laws

open Sys2Proof.Machine

/-- A command's row does what the command means, when the command may start. -/
theorem does_onCommand {s u : State} {op n q tag : Nat} {c : Ctx} {k : Ctx → State → State} {i : Instr}
    (hi : exec i s = onCommand op n q tag s k) (hc : s.starting? op n q tag = some c) (h : k c s = u) : Does i s u := by
  rw [Does, hi, onCommand, hc]
  exact congrArg done h

/-- The queue that a queue admin command names (Table 7-15). -/
@[reducible] def namedQueue (c : Ctx) : Nat := bits (dw c.entry 1) 0 16

/-- An ID above 0 and within the function's range passes the range check of the commands that name an I/O queue. -/
theorem not_outOfRange_of_ioQueue {n id : Nat} (h0 : id ≠ 0) (hle : id ≤ maxQid n) : ¬ (id = 0 ∨ maxQid n < id) :=
  not_or.mpr ⟨h0, not_lt.mpr hle⟩

section Meanings

variable {s : State} {n tag : Nat}

theorem exec_createCq : exec (.createCq n tag) s = execCreateCq n tag s := rfl

theorem exec_createSq : exec (.createSq n tag) s = execCreateSq n tag s := rfl

theorem exec_deleteSq : exec (.deleteSq n tag) s = execDeleteSq n tag s := rfl

theorem exec_deleteCq : exec (.deleteCq n tag) s = execDeleteCq n tag s := rfl

theorem exec_restartQueue : exec (.restartQueue n tag) s = execRestartQueue n tag s := rfl

theorem exec_getErrorLog {buf : HostRead} : exec (.getErrorLog n tag buf) s = execGetErrorLog n tag buf s := rfl

theorem exec_abort : exec (.abort n tag) s = execAbort n tag s := rfl

theorem exec_setModeration : exec (.setModeration n tag) s = execSetModeration n tag s := rfl

theorem exec_getQueueStatus : exec (.getQueueStatus n tag) s = execGetQueueStatus n tag s := rfl

end Meanings

/-! CREATE_CQ and CREATE_SQ (R204) -/

section CreateCq

variable {s : State} {n tag : Nat} {c : Ctx} (hc : s.starting? 0x01 n 0 tag = some c)
include hc

theorem does_createCq_ok (h : s.createCqCheck n c.entry = .ok) :
    Does (.createCq n tag) s ((s.setCq n (namedQueue c) ⟨leAt c.entry 8 8, bits (dw c.entry 1) 16 16 + 1, bit (dw c.entry 4) 31,
      bits (dw c.entry 4) 16 11, bits (dw c.entry 4) 0 8, bits (dw c.entry 5) 0 16, bits (dw c.entry 5) 16 16, 0, true, 0, 0, false, false,
      [], [], 0⟩).reserveLow.complete n 0 tag .ok) :=
  does_onCommand exec_createCq hc (by simp only [h, modFields])

theorem does_createCq_refused (h : s.createCqCheck n c.entry ≠ .ok) :
    Does (.createCq n tag) s (s.complete n 0 tag (s.createCqCheck n c.entry)) :=
  does_onCommand exec_createCq hc (by
    dsimp only
    split
    · contradiction
    · rfl)

end CreateCq

section CreateSq

variable {s : State} {n tag : Nat} {c : Ctx} (hc : s.starting? 0x02 n 0 tag = some c)
include hc

theorem does_createSq_ok (h : s.createSqCheck n c.entry = .ok) :
    Does (.createSq n tag) s ((s.setSq n (namedQueue c) ⟨leAt c.entry 8 8, bits (dw c.entry 1) 16 16 + 1, bits (dw c.entry 4) 24 8,
      bits (dw c.entry 4) 16 2, bits (dw c.entry 4) 0 16, bits (dw c.entry 5) 0 11, 0, true, 0, 0, false, none, none, 0⟩).complete n 0 tag
      .ok) :=
  does_onCommand exec_createSq hc (by simp only [h])

theorem does_createSq_refused (h : s.createSqCheck n c.entry ≠ .ok) :
    Does (.createSq n tag) s (s.complete n 0 tag (s.createSqCheck n c.entry)) :=
  does_onCommand exec_createSq hc (by
    dsimp only
    split
    · contradiction
    · rfl)

end CreateSq

/-! DELETE_SQ and DELETE_CQ (R205, R527) -/

section DeleteSq

variable {s : State} {n tag : Nat} {c : Ctx} (hc : s.starting? 0x03 n 0 tag = some c)
include hc

theorem does_deleteSq_outOfRange (h : namedQueue c = 0 ∨ maxQid n < namedQueue c) :
    Does (.deleteSq n tag) s (s.complete n 0 tag .outOfRange) :=
  does_onCommand exec_deleteSq hc (if_pos h)

variable (h0 : namedQueue c ≠ 0) (hle : namedQueue c ≤ maxQid n)
include h0 hle

theorem does_deleteSq_absent (hx : s.sq? n (namedQueue c) = none) : Does (.deleteSq n tag) s (s.complete n 0 tag .fieldInvalid) :=
  does_onCommand exec_deleteSq hc ((if_neg (not_outOfRange_of_ioQueue h0 hle)).trans (by rw [hx]))

/-- On an SQ that is there, what decides is whether a deletion of it is under way. -/
theorem does_deleteSq_present {u : State} {x : Sq} (hx : s.sq? n (namedQueue c) = some x)
    (h : (if x.deleting.isSome then s.complete n 0 tag .notInThisState else
      (s.setSq n (namedQueue c) { x with
        deleting := some (tag, (x.tail + x.depth - x.head) % x.depth), tail := x.head }).markStarted n 0 tag) = u) :
    Does (.deleteSq n tag) s u :=
  does_onCommand exec_deleteSq hc ((if_neg (not_outOfRange_of_ioQueue h0 hle)).trans (by
    rw [hx]
    exact h))

end DeleteSq

section DeleteCq

variable {s : State} {n tag : Nat} {c : Ctx} (hc : s.starting? 0x04 n 0 tag = some c)
include hc

theorem does_deleteCq_outOfRange (h : namedQueue c = 0 ∨ maxQid n < namedQueue c) :
    Does (.deleteCq n tag) s (s.complete n 0 tag .outOfRange) :=
  does_onCommand exec_deleteCq hc (if_pos h)

variable (h0 : namedQueue c ≠ 0) (hle : namedQueue c ≤ maxQid n)
include h0 hle

theorem does_deleteCq_absent (hx : s.cq? n (namedQueue c) = none) : Does (.deleteCq n tag) s (s.complete n 0 tag .fieldInvalid) :=
  does_onCommand exec_deleteCq hc ((if_neg (not_outOfRange_of_ioQueue h0 hle)).trans (by rw [hx]))

/-- On a CQ that is there, what decides is whether anything is bound to it. -/
theorem does_deleteCq_present {u : State} {x : Cq} (hx : s.cq? n (namedQueue c) = some x)
    (h : (if (s.sqsOf n).any (fun y => y.2.cqid == namedQueue c) ∨ s.cqNamed n (namedQueue c) then s.complete n 0 tag .notInThisState
      else (s.withQ fun k => { k with cqs := k.cqs.del (qkey n (namedQueue c)) }).reserveLow.complete n 0 tag .ok x.share.length) = u) :
    Does (.deleteCq n tag) s u :=
  does_onCommand exec_deleteCq hc ((if_neg (not_outOfRange_of_ioQueue h0 hle)).trans (by
    rw [hx]
    exact h))

end DeleteCq

/-! RESTART_QUEUE, and the restart of an SQ for both its ways (R206) -/

section Restart

variable {s : State} {n q h : Nat} {ph : Bool}

theorem restart_sq_absent (hx : s.sq? n q = none) : s.restart n q 0 h ph = (s, .fieldInvalid) := by
  rw [State.restart, if_pos rfl, hx]

/-- On an SQ that is there: it has to be frozen, and the new head has to lie in its ring. -/
theorem restart_sq_present {x : Sq} (hx : s.sq? n q = some x) : s.restart n q 0 h ph =
    if !x.frozen then (s, .notInThisState) else if x.depth ≤ h then (s, .outOfRange)
    else ((s.setSq n q { x with frozen := false, head := h, phase := ph }).sqBell n q x.bell, .ok) := by
  rw [State.restart, if_pos rfl, hx]

theorem restart_sq_running {x : Sq} (hx : s.sq? n q = some x) (hf : x.frozen = false) :
    s.restart n q 0 h ph = (s, .notInThisState) :=
  (restart_sq_present hx).trans (if_pos (by rw [hf]; rfl))

section Frozen

variable {x : Sq} (hx : s.sq? n q = some x) (hf : x.frozen = true)
include hx hf

theorem restart_sq_offRing (hh : x.depth ≤ h) : s.restart n q 0 h ph = (s, .outOfRange) :=
  (restart_sq_present hx).trans ((if_neg (by simp [hf])).trans (if_pos hh))

theorem restart_sq_frozen (hh : h < x.depth) : s.restart n q 0 h ph =
    ((s.setSq n q { x with frozen := false, head := h, phase := ph }).sqBell n q x.bell, .ok) :=
  (restart_sq_present hx).trans ((if_neg (by simp [hf])).trans (if_neg (not_le.mpr hh)))

end Frozen

end Restart

section RestartQueue

variable {s : State} {n tag : Nat} {c : Ctx} (hc : s.starting? 0x05 n 0 tag = some c)
include hc

theorem does_restartQueue_outOfRange (h : namedQueue c = 0 ∨ maxQid n < namedQueue c) :
    Does (.restartQueue n tag) s (s.complete n 0 tag .outOfRange) :=
  does_onCommand exec_restartQueue hc (if_pos h)

theorem does_restartQueue (h0 : namedQueue c ≠ 0) (hle : namedQueue c ≤ maxQid n) :
    let r := s.restart n (namedQueue c) (bits (dw c.entry 1) 16 1) (bits (dw c.entry 2) 0 16) (bit (dw c.entry 1) 17)
    Does (.restartQueue n tag) s (r.1.complete n 0 tag r.2) :=
  does_onCommand exec_restartQueue hc (if_neg (not_outOfRange_of_ioQueue h0 hle))

end RestartQueue

/-! GET_ERROR_LOG (R198, R526) -/

section GetErrorLog

variable {s : State} {n tag : Nat} {c : Ctx} {buf : HostRead} (hc : s.starting? 0x06 n 0 tag = some c)
include hc

theorem does_getErrorLog_notOwned (hd : s.descOwn n (descAt c.entry 8) = false) :
    Does (.getErrorLog n tag buf) s (s.complete n 0 tag .notYourInstance) :=
  does_onCommand exec_getErrorLog hc (if_pos (by rw [hd]; rfl))

variable (hd : s.descOwn n (descAt c.entry 8) = true)
include hd

theorem does_getErrorLog_outOfRange
    (h : bits (dw c.entry 1) 0 5 = 0 ∨ 16 < bits (dw c.entry 1) 0 5 ∨ (descAt c.entry 8).len < 64 * bits (dw c.entry 1) 0 5) :
    Does (.getErrorLog n tag buf) s (s.complete n 0 tag .outOfRange) :=
  does_onCommand exec_getErrorLog hc ((if_neg (by simp [hd])).trans (if_pos h))

variable (h0 : bits (dw c.entry 1) 0 5 ≠ 0) (hle : bits (dw c.entry 1) 0 5 ≤ 16)
  (hlen : 64 * bits (dw c.entry 1) 0 5 ≤ (descAt c.entry 8).len)
include h0 hle hlen

/-- A good command's records go to its buffer; what becomes of that write ends it. -/
theorem does_getErrorLog_written {u : State} {bad : Option Status}
    (hw : s.scatter n (descAt c.entry 8) 0 buf ((s.fn n).errlog.take (bits (dw c.entry 1) 0 5)).flatten = (u, bad)) :
    Does (.getErrorLog n tag buf) s
      (u.complete n 0 tag (bad.getD .ok) (if bad.isNone then ((s.fn n).errlog.take (bits (dw c.entry 1) 0 5)).length else 0)) :=
  have hsize : ¬ (bits (dw c.entry 1) 0 5 = 0 ∨ 16 < bits (dw c.entry 1) 0 5
      ∨ (descAt c.entry 8).len < 64 * bits (dw c.entry 1) 0 5) := by omega
  does_onCommand exec_getErrorLog hc ((if_neg (by simp [hd])).trans ((if_neg hsize).trans (by
    dsimp only
    rw [hw]
    cases bad with
    | none => rfl
    | some st => rfl)))

end GetErrorLog

/-! ABORT (R207–R209) -/

section Abort

variable {s : State} {n tag : Nat} {c : Ctx} (hc : s.starting? 0x07 n 0 tag = some c)
include hc

/-- No command of an evidence SQ can be aborted (class 1). -/
theorem does_abort_evidenceQueue (h : (s.sq? n (namedQueue c)).map (·.cls) = some 1) :
    Does (.abort n tag) s (s.complete n 0 tag .fieldInvalid) :=
  does_onCommand exec_abort hc (if_pos h)

variable (hcls : (s.sq? n (namedQueue c)).map (·.cls) ≠ some 1)
include hcls

theorem does_abort_unknown (hx : s.ctx? n (namedQueue c) (bits (dw c.entry 1) 16 16) = none) :
    Does (.abort n tag) s (s.complete n 0 tag .abortNotCaught) :=
  does_onCommand exec_abort hc ((if_neg hcls).trans (by rw [hx]))

theorem does_abort_itself (hq : namedQueue c = 0) (ht : bits (dw c.entry 1) 16 16 = tag) :
    Does (.abort n tag) s (s.complete n 0 tag .abortNotCaught) :=
  does_onCommand exec_abort hc ((if_neg hcls).trans (by
    split
    · rfl
    · exact if_pos ⟨hq, ht⟩))

section Other

variable {x : Ctx} (hx : s.ctx? n (namedQueue c) (bits (dw c.entry 1) 16 16) = some x)
  (hne : namedQueue c ≠ 0 ∨ bits (dw c.entry 1) 16 16 ≠ tag)
include hx hne

theorem does_abort_waiting (hs : x.started = false) :
    Does (.abort n tag) s ((s.complete n (namedQueue c) (bits (dw c.entry 1) 16 16) .aborted).complete n 0 tag .ok) :=
  does_onCommand exec_abort hc ((if_neg hcls).trans (by
    rw [hx]
    exact (if_neg (not_and_or.mpr hne)).trans (if_pos (by rw [hs]; rfl))))

/-- A command that has started ends as its block can end it, or is not caught. -/
theorem does_abort_started (hs : x.started = true) {o : Option State} (ho : s.abortStarted x = o) :
    Does (.abort n tag) s (o.elim (s.complete n 0 tag .abortNotCaught) (·.complete n 0 tag .ok)) :=
  does_onCommand exec_abort hc ((if_neg hcls).trans (by
    rw [hx]
    exact (if_neg (not_and_or.mpr hne)).trans ((if_neg (by simp [hs])).trans (by rw [ho]; cases o <;> rfl))))

end Other

end Abort

/-! SET_MODERATION (R213, R527) -/

section SetModeration

variable {s : State} {n tag : Nat} {c : Ctx} (hc : s.starting? 0x08 n 0 tag = some c)
include hc

theorem does_setModeration_outOfRange (h : namedQueue c = 0 ∨ maxQid n < namedQueue c) :
    Does (.setModeration n tag) s (s.complete n 0 tag .outOfRange) :=
  does_onCommand exec_setModeration hc (if_pos h)

variable (h0 : namedQueue c ≠ 0) (hle : namedQueue c ≤ maxQid n)
include h0 hle

theorem does_setModeration_absent (hx : s.cq? n (namedQueue c) = none) :
    Does (.setModeration n tag) s (s.complete n 0 tag .fieldInvalid) :=
  does_onCommand exec_setModeration hc ((if_neg (not_outOfRange_of_ioQueue h0 hle)).trans (by rw [hx]))

variable {x : Cq} (hx : s.cq? n (namedQueue c) = some x)
include hx

theorem does_setModeration_refused
    (h : (1 < bits (dw c.entry 2) 0 8 ∧ bits (dw c.entry 3) 0 16 = 0) ∨ s.vectorOk n (bits (dw c.entry 2) 16 11) = false) :
    Does (.setModeration n tag) s (s.complete n 0 tag .fieldInvalid) :=
  does_onCommand exec_setModeration hc ((if_neg (not_outOfRange_of_ioQueue h0 hle)).trans (by
    rw [hx]
    exact if_pos (h.imp_right (by simp [·]))))

theorem does_setModeration_ok (hagg : ¬ (1 < bits (dw c.entry 2) 0 8 ∧ bits (dw c.entry 3) 0 16 = 0))
    (hvec : s.vectorOk n (bits (dw c.entry 2) 16 11) = true) :
    let u := s.setCq n (namedQueue c) { x with
      irqEn := bit (dw c.entry 2) 31, vector := bits (dw c.entry 2) 16 11, aggCount := bits (dw c.entry 2) 0 8,
      aggTime := bits (dw c.entry 3) 0 16 }
    Does (.setModeration n tag) s
      ((if bit (dw c.entry 2) 31 = true ∧ x.unsignalled ≠ 0
          ∧ (bits (dw c.entry 2) 0 8 ≤ 1 ∨ bits (dw c.entry 2) 0 8 ≤ x.unsignalled)
        then u.cqMessage n (namedQueue c) else u).complete n 0 tag .ok) :=
  does_onCommand exec_setModeration hc ((if_neg (not_outOfRange_of_ioQueue h0 hle)).trans (by
    rw [hx]
    exact if_neg (not_or.mpr ⟨hagg, by simp [hvec]⟩)))

end SetModeration

/-! GET_QUEUE_STATUS (R527, Table 7-14) -/

section GetQueueStatus

variable {s : State} {n tag : Nat} {c : Ctx} (hc : s.starting? 0x09 n 0 tag = some c)
include hc

theorem does_getQueueStatus_outOfRange (h : maxQid n < namedQueue c) :
    Does (.getQueueStatus n tag) s (s.complete n 0 tag .outOfRange) :=
  does_onCommand exec_getQueueStatus hc (if_pos h)

variable (hle : namedQueue c ≤ maxQid n)
include hle

section OfSq

variable (hk : bits (dw c.entry 1) 16 1 = 0)
include hk

theorem does_getQueueStatus_sq_absent (hx : s.sq? n (namedQueue c) = none) :
    Does (.getQueueStatus n tag) s (s.complete n 0 tag .fieldInvalid) :=
  does_onCommand exec_getQueueStatus hc ((if_neg (not_lt.mpr hle)).trans ((if_pos hk).trans (by rw [hx])))

theorem does_getQueueStatus_sq {x : Sq} (hx : s.sq? n (namedQueue c) = some x) :
    Does (.getQueueStatus n tag) s (s.complete n 0 tag .ok (x.bell * 65536 + x.head)
      (b2n x.frozen * 0x800000 + b2n (s.fetchStopped n (namedQueue c)) * 0x400000
        + b2n (((s.cq? n x.cqid).map (·.stalled)).getD false) * 0x200000 + min 0x7FF (s.inFlight n (namedQueue c)))) :=
  does_onCommand exec_getQueueStatus hc ((if_neg (not_lt.mpr hle)).trans ((if_pos hk).trans (by rw [hx])))

end OfSq

theorem does_getQueueStatus_cq_absent (hk : bits (dw c.entry 1) 16 1 ≠ 0) (hx : s.cq? n (namedQueue c) = none) :
    Does (.getQueueStatus n tag) s (s.complete n 0 tag .fieldInvalid) :=
  does_onCommand exec_getQueueStatus hc ((if_neg (not_lt.mpr hle)).trans ((if_neg hk).trans (by rw [hx])))

end GetQueueStatus

/-- Settles O29: each command by its outcomes above; the two ends of a write of the log's records, and of an ABORT of a started command,
are the two cases of one lemma each. -/
theorem queuesManaged : Obligations.QueuesManaged := by
  intro s n tag c
  refine ⟨fun hc => ⟨does_restartQueue_outOfRange hc, does_restartQueue hc⟩, fun q h ph => restart_sq_absent,
    fun q h ph x => restart_sq_running, fun q h ph x => restart_sq_offRing, fun q h ph x => restart_sq_frozen, fun buf hc => ?errorLog,
    fun hc => ?abort, fun hc => ?moderation, fun hc => ?status⟩
  case errorLog =>
    exact ⟨does_getErrorLog_notOwned hc, does_getErrorLog_outOfRange hc,
      fun hd h0 hle hlen hw => does_getErrorLog_written hc hd h0 hle hlen (bad := none) (Prod.ext rfl hw),
      fun st hd h0 hle hlen hw => does_getErrorLog_written hc hd h0 hle hlen (bad := some st) (Prod.ext rfl hw)⟩
  case abort =>
    exact ⟨does_abort_evidenceQueue hc, fun hcls => ⟨does_abort_unknown hc hcls, does_abort_itself hc hcls,
      fun x => does_abort_waiting hc hcls, fun x hx hne hs => does_abort_started hc hcls hx hne hs (o := none),
      fun x u hx hne hs => does_abort_started hc hcls hx hne hs (o := some u)⟩⟩
  case moderation =>
    exact ⟨does_setModeration_outOfRange hc, does_setModeration_absent hc, fun x h0 hle hx => does_setModeration_refused hc h0 hle hx,
      fun x h0 hle hx => does_setModeration_ok hc h0 hle hx⟩
  case status =>
    exact ⟨does_getQueueStatus_outOfRange hc, does_getQueueStatus_sq_absent hc, fun x hle hk hx => does_getQueueStatus_sq hc hle hk hx,
      does_getQueueStatus_cq_absent hc⟩

end Sys2Proof.Laws
end

section
/-! PROOFS. The admin pair's registers (R199–R202): where a write to TQ_ACTRL is taken, and what each of its bits does; with the queue
admin commands they settle how queues are made and taken. -/

namespace Sys2Proof.Laws

open Sys2Proof.Machine

section AdminPair

variable {s : State} {n : Nat}

theorem does_adminEnable {u : State} (h : s.hostActivity.actrl n (·.adminEnable n) = u) : Does (.adminEnable n) s u := h ▸ rfl

theorem does_adminDisable {u : State} (h : s.hostActivity.actrl n (·.adminDisable n) = u) : Does (.adminDisable n) s u := h ▸ rfl

theorem does_adminRestart {u : State} (h : s.hostActivity.actrl n (·.adminRestart n) = u) : Does (.adminRestart n) s u := h ▸ rfl

/-! Where a write is taken (R147, R148, R174, R199) -/

section Taken

variable {k : State → State}

theorem actrl_undecoded (hd : s.decodes n = false) : s.actrl n k = s.unsupportedRequest n false := by simp [State.actrl, hd]

theorem actrl_unwritable (hd : s.decodes n = true) (hw : s.adminWritable n = false) : s.actrl n k = s := by simp [State.actrl, hd, hw]

theorem actrl_taken (hd : s.decodes n = true) (hw : s.adminWritable n = true) : s.actrl n k = k s := by simp [State.actrl, hd, hw]

end Taken

/-! ENABLE = 1 (R200) -/

/-- The pair can be made: there is none, both bases are set, and both rings have at least 16 places. -/
def pairReady (s : State) (n : Nat) : Bool :=
  (s.sq? n 0).isNone && (s.fn n).tq.asqb != 0 && (s.fn n).tq.acqb != 0 && decide (15 ≤ bits (s.fn n).tq.aqs 0 12)
    && decide (15 ≤ bits (s.fn n).tq.aqs 16 12)

theorem adminEnable_eq : s.adminEnable n = if pairReady s n then
    ((s.setSq n 0 ⟨(s.fn n).tq.asqb, bits (s.fn n).tq.aqs 0 12 + 1, 1, 0, 0, 16, 0, true, 0, 0, false, none, none, 0⟩).setCq n 0
      ⟨(s.fn n).tq.acqb, bits (s.fn n).tq.aqs 16 12 + 1, true, 0, 0, 0, 16, 0, true, 0, 0, false, false, [], [], 0⟩).lastErr n .ok
    else s.lastErr n .fieldInvalid := by
  simp [State.adminEnable, pairReady, and_assoc]

/-! ENABLE = 0 (R201) -/

theorem adminDisable_queues (h : (ioOnly (s.sqsOf n)).isEmpty = false ∨ (ioOnly (s.cqsOf n)).isEmpty = false) :
    s.adminDisable n = s.lastErr n .notInThisState :=
  if_pos (h.imp (by simp [·]) (by simp [·]))

section NoQueues

variable (hsq : (ioOnly (s.sqsOf n)).isEmpty = true) (hcq : (ioOnly (s.cqsOf n)).isEmpty = true)
include hsq hcq

theorem adminDisable_noQueues : s.adminDisable n = if (s.sq? n 0).isNone then s.lastErr n .ok
    else (s.withTq n fun t => { t with disabling := true }).lastErr n .ok :=
  if_neg (by simp [hsq, hcq])

theorem adminDisable_pair (h : (s.sq? n 0).isSome = true) :
    s.adminDisable n = (s.withTq n fun t => { t with disabling := true }).lastErr n .ok :=
  (adminDisable_noQueues hsq hcq).trans (if_neg (by simp [Option.isSome_iff_ne_none.mp h]))

theorem adminDisable_noPair (h : s.sq? n 0 = none) : s.adminDisable n = s.lastErr n .ok :=
  (adminDisable_noQueues hsq hcq).trans (if_pos (by rw [h]; rfl))

end NoQueues

/-! RESTART = 1 of the admin SQ (R202) -/

section RestartSq

variable {x : Sq} (hk : bits (s.fn n).tq.arest 16 1 = 0) (hx : s.sq? n 0 = some x)
include hk hx

theorem adminRestart_sq : s.adminRestart n = if !x.frozen then s.lastErr n .notInThisState
    else if x.depth ≤ bits (s.fn n).tq.arest 0 16 then s.lastErr n .outOfRange
    else (s.restart n 0 0 (bits (s.fn n).tq.arest 0 16) (bit (s.fn n).tq.arest 17)).1.lastErr n .ok := by
  simp [State.adminRestart, hk, hx]

theorem adminRestart_running (hf : x.frozen = false) : s.adminRestart n = s.lastErr n .notInThisState :=
  (adminRestart_sq hk hx).trans (if_pos (by rw [hf]; rfl))

theorem adminRestart_offRing (hf : x.frozen = true) (hh : x.depth ≤ bits (s.fn n).tq.arest 0 16) :
    s.adminRestart n = s.lastErr n .outOfRange :=
  (adminRestart_sq hk hx).trans ((if_neg (by simp [hf])).trans (if_pos hh))

theorem adminRestart_frozen (hf : x.frozen = true) (hh : bits (s.fn n).tq.arest 0 16 < x.depth) : s.adminRestart n =
    ((s.setSq n 0 { x with
      frozen := false, head := bits (s.fn n).tq.arest 0 16, phase := bit (s.fn n).tq.arest 17 }).sqBell n 0 x.bell).lastErr n .ok := by
  rw [adminRestart_sq hk hx, if_neg (by simp [hf]), if_neg (not_le.mpr hh), restart_sq_frozen hx hf hh]

end RestartSq

end AdminPair

/-- Settles O28: the queue admin commands by their outcomes, and the admin pair's registers by where a write is taken and its bits. -/
theorem queuesMade : Obligations.QueuesMade := by
  refine ⟨fun s n tag c => ⟨does_createCq_ok, does_createCq_refused, does_createSq_ok, does_createSq_refused, fun hc => ?deleteSq,
    fun hc => ?deleteCq, rfl, fun m hm => if_neg hm⟩,
    fun s n => ⟨fun hd => ?undecoded, fun hd hw => ?unwritable, fun hd hw => ?taken⟩⟩
  case deleteSq =>
    refine ⟨does_deleteSq_outOfRange hc, does_deleteSq_absent hc, fun x h0 hle hx hdel => ?deleting, fun x h0 hle hx hdel => ?free⟩
    case deleting => exact does_deleteSq_present hc h0 hle hx (if_pos hdel)
    case free => exact does_deleteSq_present hc h0 hle hx (if_neg (by simp [hdel]))
  case deleteCq =>
    refine ⟨does_deleteCq_outOfRange hc, does_deleteCq_absent hc, fun x h0 hle hx hb => ?bound, fun x h0 hle hx hsq hn => ?free⟩
    case bound => exact does_deleteCq_present hc h0 hle hx (if_pos hb)
    case free => exact does_deleteCq_present hc h0 hle hx (if_neg (by simp [hsq, hn]))
  case undecoded =>
    exact ⟨does_adminEnable (actrl_undecoded hd), does_adminDisable (actrl_undecoded hd), does_adminRestart (actrl_undecoded hd)⟩
  case unwritable =>
    exact ⟨does_adminEnable (actrl_unwritable hd hw), does_adminDisable (actrl_unwritable hd hw),
      does_adminRestart (actrl_unwritable hd hw)⟩
  case taken =>
    have enable {u} (h : s.hostActivity.adminEnable n = u) := does_adminEnable ((actrl_taken hd hw).trans h)
    have disable {u} (h : s.hostActivity.adminDisable n = u) := does_adminDisable ((actrl_taken hd hw).trans h)
    have restart {u} (h : s.hostActivity.adminRestart n = u) := does_adminRestart ((actrl_taken hd hw).trans h)
    exact ⟨fun hgood => enable (adminEnable_eq.trans (if_pos hgood)),
      fun hbad => enable (adminEnable_eq.trans (if_neg (Bool.eq_false_iff.mp hbad))),
      fun h => disable (adminDisable_queues h), fun hsq hcq h => disable (adminDisable_pair hsq hcq h),
      fun hsq hcq h => disable (adminDisable_noPair hsq hcq h), fun x hk hx hf => restart (adminRestart_running hk hx hf),
      fun x hk hx hf hh => restart (adminRestart_offRing hk hx hf hh), fun x hk hx hf hh => restart (adminRestart_frozen hk hx hf hh)⟩

end Sys2Proof.Laws
end

section
/-! PROOFS. The canonical forms of LPDDR5 and of the dictionary store: reset has them, and a step, of either kind, keeps them. -/

namespace Sys2Proof.Laws

open Sys2Proof.Machine

theorem inv_reset : State.reset.Inv := ⟨rfl, rfl⟩

theorem inv_of_kept {s t : State} (h : Kept s t) : s.Inv → t.Inv := And.imp h.dram h.dict

theorem step_idle {s : State} (h : s.pending = []) : step s = .next s.tick := by rw [step, h]

theorem step_front {s : State} {c : Instr} {rest : List Instr} (h : s.pending = c :: rest) :
    step s = exec c { s with pending := rest } := by rw [step, h]

/-- What a step keeps, told from the state in which the queue's front has been taken off: a nanosecond by the tick's own rule, a command
by that of every command. -/
theorem kept_step {s t : State} (e : step s = .next t) : Kept { s with pending := s.pending.tail } t := by
  cases h : s.pending with
  | nil =>
    have ht : s.tick = t := Host.Outcome.next.inj ((step_idle h).symm.trans e)
    have hs : { s with pending := [] } = s := h ▸ rfl
    rw [List.tail_nil, hs, ← ht]
    exact later_kept (later_tick (later_rfl s))
  | cons c rest => exact kept_exec ((step_front h).symm.trans e)

/-- Settles O2: reset lists no byte of LPDDR5 and no entry of the dictionary, so both are in canonical order; the rest is its definition. -/
theorem resetKeepsInv : Obligations.ResetKeepsInv := ⟨inv_reset, rfl, rfl, rfl, rfl, rfl, rfl⟩

/-- Settles O3: taking the front command off the queue touches neither memory, and what the step then keeps includes both forms. -/
theorem stepKeepsInv : Obligations.StepKeepsInv := fun _ _ hs e => inv_of_kept (kept_step e) hs

end Sys2Proof.Laws
end

section
/-! PROOFS. The tenant admin commands (R220–R235, Tables 8-4 and 8-5): each command's outcomes, in the order of its checks, and what a change
of a tenant's state leaves. The hypotheses of a section gather as the checks pass. -/

namespace Sys2Proof.Laws

open Sys2Proof.Machine

/-- A tenant command does what its row means on the tenant that its entry names, when it may start. -/
theorem does_onTenant {s u : State} {op tag : Nat} {c : Ctx} {k : Ctx → Nat → State → State} {i : Instr}
    (hi : exec i s = onTenant op tag s k) (hc : s.starting? op 0 0 tag = some c) (h : k c c.target s = u) : Does i s u :=
  does_onCommand hi hc h

/-! A change of state (R235) -/

section InstTo

variable {s : State} {n : Nat} {st : InstState}

theorem instTo_same (h : (s.inst n).st = st) : s.instTo n st = s := if_pos h

theorem instTo_changed (h : (s.inst n).st ≠ st) :
    s.instTo n st = (((s.withInst n fun x => { x with st := st }).dinc 0x2500 0x0E).event 26).logSrc 26 .notice 0x8006
      (leBytes 1 n ++ leBytes 1 (s.inst n).st.num ++ leBytes 1 st.num) :=
  if_neg h

end InstTo

section Meanings

variable {s : State} {tag n : Nat} {buf : HostRead}

theorem exec_createInstance : exec (.createInstance tag buf) s = execCreateInstance tag buf s := rfl

theorem exec_modifyInstance : exec (.modifyInstance tag buf) s = execModifyInstance tag buf s := rfl

theorem exec_quiesceInstance : exec (.quiesceInstance tag) s = execQuiesceInstance tag s := rfl

theorem exec_quiesceComplete : exec (.quiesceComplete n) s = execQuiesceComplete n s := rfl

theorem exec_quiesceTimeout : exec (.quiesceTimeout n) s = execQuiesceTimeout n s := rfl

theorem exec_resumeInstance : exec (.resumeInstance tag) s = execResumeInstance tag s := rfl

theorem exec_resetInstance : exec (.resetInstance tag) s = execResetInstance tag s := rfl

theorem exec_destroyInstance : exec (.destroyInstance tag) s = execDestroyInstance tag s := rfl

theorem exec_rearmInstance : exec (.rearmInstance tag) s = execRearmInstance tag s := rfl

theorem exec_getInstance : exec (.getInstance tag buf) s = execGetInstance tag buf s := rfl

end Meanings

/-! CREATE_INSTANCE (R228, R252) -/

section CreateInstance

variable {s : State} {tag : Nat} {rec : HostRead} {c : Ctx} (hc : s.starting? 0x10 0 0 tag = some c)
include hc

theorem does_createInstance_noRecord {st : Status} (hr : s.recordOf c rec = .error st) :
    Does (.createInstance tag rec) s (s.tenantEnd tag c.target st) :=
  does_onTenant exec_createInstance hc (by rw [hr])

variable {r : Bytes} (hr : s.recordOf c rec = .ok r)
include hr

theorem does_createInstance_outOfRange (h : s.recordOutOfRange c.target r = true) :
    Does (.createInstance tag rec) s (s.tenantEnd tag c.target .outOfRange) :=
  does_onTenant exec_createInstance hc (by rw [hr]; exact if_pos h)

variable (hrange : s.recordOutOfRange c.target r = false)
include hrange

/-- The limit on namespaces does not fall below those attached, whose number is RESULT1. -/
theorem does_createInstance_attached (h : byteAt r 15 < s.nsAttached c.target) :
    Does (.createInstance tag rec) s (s.tenantEnd tag c.target .outOfRange (s.nsAttached c.target)) :=
  does_onTenant exec_createInstance hc (by simp [hr, hrange, h])

variable (hns : s.nsAttached c.target ≤ byteAt r 15)
include hns

theorem does_createInstance_badForm (h : recordReservedOk r = false ∨ s.recordOverlaps c.target r = true) :
    Does (.createInstance tag rec) s (s.tenantEnd tag c.target .fieldInvalid) :=
  does_onTenant exec_createInstance hc (by simp [hr, hrange, hns.not_gt, h])

variable (hres : recordReservedOk r = true) (hov : s.recordOverlaps c.target r = false)
include hres hov

theorem does_createInstance_present (h : (s.inst c.target).st ≠ .absent) :
    Does (.createInstance tag rec) s (s.tenantEnd tag c.target .notInThisState) :=
  does_onTenant exec_createInstance hc (by simp [hr, hrange, hns.not_gt, hres, hov, h])

variable (habs : (s.inst c.target).st = .absent)
include habs

theorem does_createInstance_exhausted (h : s.poolsExceeded c.target r = true) :
    Does (.createInstance tag rec) s (s.tenantEnd tag c.target .poolExhausted) :=
  does_onTenant exec_createInstance hc (by simp [hr, hrange, hns.not_gt, hres, hov, habs, h])

theorem does_createInstance_ok (h : s.poolsExceeded c.target r = false) :
    Does (.createInstance tag rec) s
      ((((s.withInst c.target fun x => { x with record := zeros 128 }).putRecord c.target r).dinc (blk c.target 0x10) 2).instTo c.target
        .active |>.tenantEnd tag c.target .ok) :=
  does_onTenant exec_createInstance hc (by simp [hr, hrange, hns.not_gt, hres, hov, habs, h])

end CreateInstance

/-! MODIFY_INSTANCE (R229) -/

section ModifyInstance

variable {s : State} {tag : Nat} {rec : HostRead} {c : Ctx} (hc : s.starting? 0x11 0 0 tag = some c)
include hc

theorem does_modifyInstance_noRecord {st : Status} (hr : s.recordOf c rec = .error st) :
    Does (.modifyInstance tag rec) s (s.tenantEnd tag c.target st) :=
  does_onTenant exec_modifyInstance hc (by rw [hr])

variable {r : Bytes} (hr : s.recordOf c rec = .ok r)
include hr

theorem does_modifyInstance_outOfRange (h : s.recordOutOfRange c.target r = true) :
    Does (.modifyInstance tag rec) s (s.tenantEnd tag c.target .outOfRange) :=
  does_onTenant exec_modifyInstance hc (by rw [hr]; exact if_pos h)

variable (hrange : s.recordOutOfRange c.target r = false)
include hrange

theorem does_modifyInstance_badForm (h : recordReservedOk r = false ∨ s.recordOverlaps c.target r = true) :
    Does (.modifyInstance tag rec) s (s.tenantEnd tag c.target .fieldInvalid) :=
  does_onTenant exec_modifyInstance hc (by simp [hr, hrange, h])

variable (hres : recordReservedOk r = true) (hov : s.recordOverlaps c.target r = false)
include hres hov

theorem does_modifyInstance_wrongState (hact : (s.inst c.target).st ≠ .active) (hqui : (s.inst c.target).st ≠ .quiesced) :
    Does (.modifyInstance tag rec) s (s.tenantEnd tag c.target .notInThisState) :=
  does_onTenant exec_modifyInstance hc (by simp [hr, hrange, hres, hov, hact, hqui])

theorem does_modifyInstance_quiesced_inUse (hst : (s.inst c.target).st = .quiesced)
    (h : s.lowersBelowUse c.target r = true ∨ s.removesGrouped c.target r = true) :
    Does (.modifyInstance tag rec) s (s.tenantEnd tag c.target .notInThisState) :=
  does_onTenant exec_modifyInstance hc (by simp [hr, hrange, hres, hov, hst, h])

theorem does_modifyInstance_active_inUse (hst : (s.inst c.target).st = .active)
    (h : s.lowersBelowUse c.target r = true ∨ s.removesGrouped c.target r = true) :
    Does (.modifyInstance tag rec) s (s.tenantEnd tag c.target .instanceNotQuiesced) :=
  does_onTenant exec_modifyInstance hc (by
    simp only [hr, hrange, hres, hov, hst]
    obtain h | h := h <;> simp [h])

variable (hlow : s.lowersBelowUse c.target r = false) (hgrp : s.removesGrouped c.target r = false)
include hlow hgrp

/-- Of a tenant that is ACTIVE nothing in use is taken away: no context, engine, key that is held or memory (Table 8-5). -/
theorem does_modifyInstance_active_ok (hst : (s.inst c.target).st = .active) (hctx : s.contextsOf c.target ≤ leAt r 8 2)
    (heng : (s.enginesHeld c.target).length ≤ byteAt r 14)
    (hkeys : (rangeMinus (recKeys (s.inst c.target).record) (recKeys r)).any (fun x => s.keysHeld x.1 x.2) = false)
    (hdram : (rangeMinus (recDram (s.inst c.target).record) (recDram r)).all (fun x => x.2 == 0) = true)
    (hpool : s.poolsExceeded c.target r = false) :
    Does (.modifyInstance tag rec) s ((s.putRecord c.target r).tenantEnd tag c.target .ok) :=
  does_onTenant exec_modifyInstance hc (by
    simp only [hr, hrange, hres, hov, hst, hlow, hgrp, hctx.not_gt, heng.not_gt, hkeys, hdram, hpool]
    rfl)

variable (hst : (s.inst c.target).st = .quiesced)
include hst

theorem does_modifyInstance_quiesced_ok (hpool : s.poolsExceeded c.target r = false) :
    Does (.modifyInstance tag rec) s ((s.putRecord c.target r).tenantEnd tag c.target .ok) :=
  does_onTenant exec_modifyInstance hc (by simp [hr, hrange, hres, hov, hst, hlow, hgrp, hpool])

theorem does_modifyInstance_quiesced_exhausted (hpool : s.poolsExceeded c.target r = true) :
    Does (.modifyInstance tag rec) s (s.tenantEnd tag c.target .poolExhausted) :=
  does_onTenant exec_modifyInstance hc (by simp [hr, hrange, hres, hov, hst, hlow, hgrp, hpool])

end ModifyInstance

/-- Settles O30: CREATE and MODIFY by their outcomes, and a change of state by whether there is one. -/
theorem instancesMade : Obligations.InstancesMade := by
  refine ⟨fun s tag rec c n hn => ?commands, fun s n tag => ⟨fun _ _ => rfl, fun _ => instTo_same, fun _ => instTo_changed,
    fun _ => inst_withInst_same s n _⟩⟩
  case commands =>
    subst hn
    refine ⟨fun hc => ⟨fun _ => does_createInstance_noRecord hc, fun r hr => ?create⟩,
      fun hc => ⟨fun _ => does_modifyInstance_noRecord hc, fun r hr => ?modify⟩⟩
    case create =>
      exact ⟨does_createInstance_outOfRange hc hr, does_createInstance_attached hc hr, fun hrange hns =>
        ⟨does_createInstance_badForm hc hr hrange hns, fun hres hov => ⟨does_createInstance_present hc hr hrange hns hres hov,
          does_createInstance_exhausted hc hr hrange hns hres hov, does_createInstance_ok hc hr hrange hns hres hov⟩⟩⟩
    case modify =>
      exact ⟨does_modifyInstance_outOfRange hc hr, does_modifyInstance_badForm hc hr, fun hrange hres hov =>
        ⟨does_modifyInstance_wrongState hc hr hrange hres hov, does_modifyInstance_quiesced_inUse hc hr hrange hres hov,
          does_modifyInstance_active_inUse hc hr hrange hres hov,
          fun hst hlow hgrp => does_modifyInstance_active_ok hc hr hrange hres hov hlow hgrp hst,
          fun hst hlow hgrp => does_modifyInstance_quiesced_ok hc hr hrange hres hov hlow hgrp hst,
          fun hst hlow hgrp => does_modifyInstance_quiesced_exhausted hc hr hrange hres hov hlow hgrp hst⟩⟩

end Sys2Proof.Laws
end

section
/-! PROOFS. The end of a tenant's work (R226, R230–R234, Tables 8-4 and 8-5): quiescing and resuming, reset, destruction, re-arming, and
the record read back; each command's outcomes in the order of its checks. -/

namespace Sys2Proof.Laws

open Sys2Proof.Machine

/-! QUIESCE_INSTANCE and its two ends (R230, R231) -/

section QuiesceInstance

variable {s : State} {tag : Nat} {c : Ctx} (hc : s.starting? 0x12 0 0 tag = some c)
include hc

theorem does_quiesceInstance_outOfRange (h : c.target = 0 ∨ bits (dw c.entry 2) 0 14 = 0 ∨ 10000 < bits (dw c.entry 2) 0 14) :
    Does (.quiesceInstance tag) s (s.tenantEnd tag c.target .outOfRange) :=
  does_onTenant exec_quiesceInstance hc (if_pos h)

variable (h0 : c.target ≠ 0) (ht : bits (dw c.entry 2) 0 14 ≠ 0) (hle : bits (dw c.entry 2) 0 14 ≤ 10000)
include h0 ht hle

theorem does_quiesceInstance_quiesced (hst : (s.inst c.target).st = .quiesced) :
    Does (.quiesceInstance tag) s (s.tenantEnd tag c.target .ok) :=
  does_onTenant exec_quiesceInstance hc (by simp [h0, ht, hle.not_gt, hst])

theorem does_quiesceInstance_refused (hst : (s.inst c.target).st = .absent ∨ (s.inst c.target).st = .fenced) :
    Does (.quiesceInstance tag) s (s.tenantEnd tag c.target .notInThisState) :=
  does_onTenant exec_quiesceInstance hc (by obtain hst | hst := hst <;> simp [h0, ht, hle.not_gt, hst])

theorem does_quiesceInstance_starts (hst : (s.inst c.target).st = .active ∨ (s.inst c.target).st = .quiescing) :
    let u := ((s.withInst c.target fun x => { x with quiesceTag := some tag, forced := bit (dw c.entry 2) 31 }).instTo c.target
      .quiescing).markStarted 0 0 tag
    Does (.quiesceInstance tag) s (if bit (dw c.entry 2) 31 then u.forceQuiet c.target else u) :=
  does_onTenant exec_quiesceInstance hc (by obtain hst | hst := hst <;> simp [h0, ht, hle.not_gt, hst])

end QuiesceInstance

section QuiesceEnds

variable {s : State} {n : Nat}

theorem does_quiesceComplete (hst : (s.inst n).st = .quiescing) (hq : s.quiet n = true) (hf : (s.fn n).flr = none)
    (hh : s.hearthRuns = true) :
    Does (.quiesceComplete n) s ((((s.quiesceGroups n).locksRelease n).instTo n .quiesced).quiesceEnd n .ok) :=
  does_of_guard exec_quiesceComplete ⟨hst, hq, hf, hh⟩

theorem does_quiesceComplete_idle
    (h : (s.inst n).st ≠ .quiescing ∨ s.quiet n = false ∨ (s.fn n).flr.isSome = true ∨ s.hearthRuns = false) :
    Does (.quiesceComplete n) s s :=
  does_of_not_guard exec_quiesceComplete (by
    rintro ⟨hst, hq, hf, hh⟩
    simp [hst, hq, hf, hh] at h)

theorem does_quiesceTimeout (hst : (s.inst n).st = .quiescing) (hforced : (s.inst n).forced = false) (hf : (s.fn n).flr = none)
    (hh : s.hearthRuns = true) : Does (.quiesceTimeout n) s ((s.instTo n .active).quiesceEnd n .notDrained) :=
  does_of_guard exec_quiesceTimeout ⟨hst, by simp [hforced], hf, hh⟩

theorem does_quiesceTimeout_idle
    (h : (s.inst n).st ≠ .quiescing ∨ (s.inst n).forced = true ∨ (s.fn n).flr.isSome = true ∨ s.hearthRuns = false) :
    Does (.quiesceTimeout n) s s :=
  does_of_not_guard exec_quiesceTimeout (by
    rintro ⟨hst, hforced, hf, hh⟩
    simp [hst, hf, hh] at h
    simp [h] at hforced)

end QuiesceEnds

/-! RESUME_INSTANCE (R232) -/

section ResumeInstance

variable {s : State} {tag : Nat} {c : Ctx} (hc : s.starting? 0x13 0 0 tag = some c)
include hc

theorem does_resumeInstance (h : (s.inst c.target).st = .quiesced) :
    Does (.resumeInstance tag) s (((s.resumeGroups c.target).instTo c.target .active).tenantEnd tag c.target .ok) :=
  does_onTenant exec_resumeInstance hc (if_pos h)

theorem does_resumeInstance_refused (h : (s.inst c.target).st ≠ .quiesced) :
    Does (.resumeInstance tag) s (s.tenantEnd tag c.target .notInThisState) :=
  does_onTenant exec_resumeInstance hc (if_neg h)

end ResumeInstance

/-! RESET_INSTANCE (R233) -/

section ResetInstance

variable {s : State} {tag : Nat} {c : Ctx} (hc : s.starting? 0x14 0 0 tag = some c)
include hc

theorem does_resetInstance_zero (h : c.target = 0) : Does (.resetInstance tag) s (s.tenantEnd tag c.target .outOfRange) :=
  does_onTenant exec_resetInstance hc (if_pos h)

variable (h0 : c.target ≠ 0)
include h0

theorem does_resetInstance_wrongState (hqui : (s.inst c.target).st ≠ .quiesced) (hfen : (s.inst c.target).st ≠ .fenced) :
    Does (.resetInstance tag) s (s.tenantEnd tag c.target .notInThisState) :=
  does_onTenant exec_resetInstance hc ((if_neg h0).trans (if_pos ⟨hqui, hfen⟩))

variable (hst : (s.inst c.target).st = .quiesced ∨ (s.inst c.target).st = .fenced)
include hst

theorem does_resetInstance_busy (h : s.quiet c.target = false ∨ s.threadsRun c.target = true) :
    Does (.resetInstance tag) s (s.tenantEnd tag c.target .instanceNotQuiesced) :=
  does_onTenant exec_resetInstance hc ((if_neg h0).trans ((if_neg (by tauto)).trans (if_pos (by simpa using h))))

variable (hq : s.quiet c.target = true) (hrun : s.threadsRun c.target = false)
include hq hrun

/-- A kiln stream that names the tenant keeps it; the stream's number is RESULT1. -/
theorem does_resetInstance_named {k : Nat} (hk : s.kilnNames c.target = some k) :
    Does (.resetInstance tag) s (s.tenantEnd tag c.target .notInThisState k) :=
  does_onTenant exec_resetInstance hc ((if_neg h0).trans ((if_neg (by tauto)).trans ((if_neg (by simp [hq, hrun])).trans (by rw [hk]))))

theorem does_resetInstance_ok (hk : s.kilnNames c.target = none) : Does (.resetInstance tag) s
      ((((s.instanceCleaned c.target false).resumeForgotten c.target).instTo c.target .active).tenantEnd tag c.target .ok) :=
  does_onTenant exec_resetInstance hc ((if_neg h0).trans ((if_neg (by tauto)).trans ((if_neg (by simp [hq, hrun])).trans (by rw [hk]))))

end ResetInstance

/-! DESTROY_INSTANCE (R233) -/

section DestroyInstance

variable {s : State} {tag : Nat} {c : Ctx} (hc : s.starting? 0x15 0 0 tag = some c)
include hc

theorem does_destroyInstance_zero (h : c.target = 0) : Does (.destroyInstance tag) s (s.tenantEnd tag c.target .outOfRange) :=
  does_onTenant exec_destroyInstance hc (if_pos h)

variable (h0 : c.target ≠ 0)
include h0

theorem does_destroyInstance_wrongState (h : (s.inst c.target).st = .absent ∨ (s.inst c.target).st = .quiescing) :
    Does (.destroyInstance tag) s (s.tenantEnd tag c.target .notInThisState) :=
  does_onTenant exec_destroyInstance hc ((if_neg h0).trans (if_pos (by obtain h | h := h <;> simp [h])))

variable (hst : (s.inst c.target).st = .quiesced ∨ (s.inst c.target).st = .fenced ∨ (s.inst c.target).st = .active)
include hst

theorem does_destroyInstance_busy (h : s.quiet c.target = false ∨ s.threadsRun c.target = true) :
    Does (.destroyInstance tag) s (s.tenantEnd tag c.target .instanceNotQuiesced) :=
  does_onTenant exec_destroyInstance hc ((if_neg h0).trans ((if_neg (by tauto)).trans (if_pos (by simpa using h))))

variable (hq : s.quiet c.target = true) (hrun : s.threadsRun c.target = false)
include hq hrun

/-- A kiln stream that names the tenant keeps it; the stream's number is RESULT1. -/
theorem does_destroyInstance_named {k : Nat} (hk : s.kilnNames c.target = some k) :
    Does (.destroyInstance tag) s (s.tenantEnd tag c.target .notInThisState k) :=
  does_onTenant exec_destroyInstance hc ((if_neg h0).trans ((if_neg (by tauto)).trans ((if_neg (by simp [hq, hrun])).trans (by rw [hk]))))

theorem does_destroyInstance_ok (hk : s.kilnNames c.target = none) : Does (.destroyInstance tag) s
      ((((((s.instanceCleaned c.target false).groupsGone c.target).withInst c.target fun x => { x with
        record := zeros 128 }).threadsMoved (s.threadsOf c.target)).instTo c.target .absent).tenantEnd tag c.target .ok) :=
  does_onTenant exec_destroyInstance hc ((if_neg h0).trans ((if_neg (by tauto)).trans ((if_neg (by simp [hq, hrun])).trans (by rw [hk]))))

end DestroyInstance

/-! REARM_INSTANCE (R234) -/

section RearmInstance

variable {s : State} {tag : Nat} {c : Ctx} (hc : s.starting? 0x16 0 0 tag = some c)
include hc

theorem does_rearmInstance_zero (h : c.target = 0) : Does (.rearmInstance tag) s (s.tenantEnd tag c.target .outOfRange) :=
  does_onTenant exec_rearmInstance hc (if_pos h)

theorem does_rearmInstance_wrongState (h0 : c.target ≠ 0) (h : (s.inst c.target).st ≠ .fenced) :
    Does (.rearmInstance tag) s (s.tenantEnd tag c.target .notInThisState) :=
  does_onTenant exec_rearmInstance hc ((if_neg h0).trans (if_pos h))

theorem does_rearmInstance_fenced (h0 : c.target ≠ 0) (h : (s.inst c.target).st = .fenced) :
    Does (.rearmInstance tag) s ((((s.instanceCleaned c.target (bit (dw c.entry 2) 0)).resumeForgotten c.target).instTo c.target
      .active).tenantEnd tag c.target .ok) :=
  does_onTenant exec_rearmInstance hc ((if_neg h0).trans (if_neg (not_not.mpr h)))

end RearmInstance

/-! GET_INSTANCE -/

section GetInstance

variable {s : State} {tag : Nat} {buf : HostRead} {c : Ctx} (hc : s.starting? 0x17 0 0 tag = some c)
include hc

theorem does_getInstance_notOwned (h : s.descOwn 0 (descAt c.entry 8) = false) :
    Does (.getInstance tag buf) s (s.tenantEnd tag c.target .notYourInstance) :=
  does_onTenant exec_getInstance hc (if_pos (by simp [h]))

variable (hd : s.descOwn 0 (descAt c.entry 8) = true)
include hd

theorem does_getInstance_short (h : (descAt c.entry 8).len < 128) :
    Does (.getInstance tag buf) s (s.tenantEnd tag c.target .outOfRange) :=
  does_onTenant exec_getInstance hc ((if_neg (by simp [hd])).trans (if_pos h))

theorem does_getInstance_written (h : 128 ≤ (descAt c.entry 8).len) :
    let w := s.scatter 0 (descAt c.entry 8) 0 buf (s.inst c.target).record
    Does (.getInstance tag buf) s (w.1.tenantEnd tag c.target (w.2.getD .ok)) :=
  does_onTenant exec_getInstance hc ((if_neg (by simp [hd])).trans (if_neg (not_lt.mpr h)))

end GetInstance

/-- Settles O31: each command by its outcomes, in the order of its checks. -/
theorem instancesEnd : Obligations.InstancesEnd := by
  refine ⟨fun s tag n c hn => ?quiescing, fun s tag n c hn => ?ending⟩ <;> subst hn
  case quiescing =>
    exact ⟨fun hc => ⟨does_quiesceInstance_outOfRange hc, fun h0 ht hle => ⟨does_quiesceInstance_quiesced hc h0 ht hle,
        does_quiesceInstance_refused hc h0 ht hle, does_quiesceInstance_starts hc h0 ht hle⟩⟩,
      does_quiesceComplete, does_quiesceComplete_idle, does_quiesceTimeout, does_quiesceTimeout_idle,
      fun hc => ⟨does_resumeInstance hc, does_resumeInstance_refused hc⟩⟩
  case ending =>
    refine ⟨fun hc => ?reset, fun hc => ?destroy, fun hc => ?rearm, fun buf hc => ?get⟩
    case reset =>
      exact ⟨does_resetInstance_zero hc, does_resetInstance_wrongState hc, fun h0 hst => ⟨does_resetInstance_busy hc h0 hst,
        fun hq hrun => ⟨fun k => does_resetInstance_named hc h0 hst hq hrun,
          does_resetInstance_ok hc h0 hst hq hrun⟩⟩⟩
    case destroy =>
      exact ⟨does_destroyInstance_zero hc, does_destroyInstance_wrongState hc, fun h0 hst => ⟨does_destroyInstance_busy hc h0 hst,
        fun hq hrun => ⟨fun k => does_destroyInstance_named hc h0 hst hq hrun,
          does_destroyInstance_ok hc h0 hst hq hrun⟩⟩⟩
    case rearm =>
      exact ⟨does_rearmInstance_zero hc, does_rearmInstance_wrongState hc, does_rearmInstance_fenced hc⟩
    case get =>
      exact ⟨does_getInstance_notOwned hc, does_getInstance_short hc, does_getInstance_written hc⟩

end Sys2Proof.Laws
end

section
/-! PROOFS. The administration of namespaces (R246, R249, R258, Tables 9-8 and 9-10) and of the SSDs (R244, R245, R258): each command's
outcomes, in the order of its checks. The hypotheses of a section gather as the checks pass. -/

namespace Sys2Proof.Laws

open Sys2Proof.Machine

section Meanings

variable {s : State} {n tag : Nat}

theorem exec_nsCreate : exec (.nsCreate n tag) s = execNsCreate n tag s := rfl

theorem exec_nsDelete : exec (.nsDelete n tag) s = execNsDelete n tag s := rfl

theorem exec_nsIdentify {buf : HostRead} : exec (.nsIdentify n tag buf) s = execNsIdentify n tag buf s := rfl

theorem exec_nsErase : exec (.nsErase n tag) s = execNsErase n tag s := rfl

theorem exec_evidenceRelease : exec (.evidenceRelease n tag) s = execEvidenceRelease n tag s := rfl

theorem exec_ssdPrepare : exec (.ssdPrepare n tag) s = execSsdPrepare n tag s := rfl

theorem exec_ssdDetach : exec (.ssdDetach n tag) s = execSsdDetach n tag s := rfl

theorem exec_ssdAttach : exec (.ssdAttach n tag) s = execSsdAttach n tag s := rfl

end Meanings

/-! NS_CREATE (R258, Table 9-10) -/

/-- The namespace that an NS_CREATE entry asks for (Table 9-8), empty: its pointers stand at 0. -/
def nsAsked (e : Bytes) : Ns :=
  ⟨bits (dw e 2) 6 1 == 1, bits (dw e 2) 0 6, if bit (dw e 2) 14 then some (bits (dw e 2) 8 6) else none, bits (dw e 2) 7 1,
    dw e 3 + bits (dw e 4) 0 16 * 2 ^ 32, 0, 0, 0, false, 0, 0, 0, [], [], 0, false⟩

section NsCreate

variable {s : State} {n tag : Nat} {c : Ctx} (hc : s.starting? 0x20 n 0 tag = some c)
include hc

theorem does_nsCreate_refused (h : s.nsCreateCheck c.entry c.nsNumber ≠ .ok) :
    Does (.nsCreate n tag) s (s.complete n 0 tag (s.nsCreateCheck c.entry c.nsNumber)) :=
  does_onCommand exec_nsCreate hc (by
    dsimp only
    split
    · contradiction
    · rfl)

theorem does_nsCreate_ok (h : s.nsCreateCheck c.entry c.nsNumber = .ok) :
    Does (.nsCreate n tag) s ((s.withStor fun y => { y with ns := y.ns.put c.nsNumber (nsAsked c.entry) }).startStorage c
      (Job.new (.command n 0 tag) 0x20 c.nsNumber (bits (dw c.entry 2) 7 1) 3 0 1 1)) :=
  does_onCommand exec_nsCreate hc (by simp only [h, nsAsked])

end NsCreate

/-! NS_DELETE (R258, Table 9-10) -/

section NsDelete

variable {s : State} {n tag : Nat} {c : Ctx} (hc : s.starting? 0x21 n 0 tag = some c)
include hc

theorem does_nsDelete_refused {st : Status} (hr : s.nsRefused n c.nsNumber false = some st) :
    Does (.nsDelete n tag) s (s.complete n 0 tag st) :=
  does_onCommand exec_nsDelete hc (by simp only [hr])

variable (hr : s.nsRefused n c.nsNumber false = none)
include hr

/-- No state comes here: check 7 has refused a number that names nothing (R246). The statement has the clause all the same. -/
theorem does_nsDelete_absent (hx : s.nsNamed c.nsNumber = none) : Does (.nsDelete n tag) s (s.complete n 0 tag .fieldInvalid) :=
  does_onCommand exec_nsDelete hc (by simp only [hr, hx])

variable {x : Ns} (hx : s.nsNamed c.nsNumber = some x)
include hx

/-- Evidence that is not released, or that a kiln stream is bound to, stays. -/
theorem does_nsDelete_inUse (he : x.evidence = true) (h : x.rp ≠ x.ap ∨ s.nsBound c.nsNumber = true) :
    Does (.nsDelete n tag) s (s.complete n 0 tag .notInThisState) :=
  does_onCommand exec_nsDelete hc (by simp [hr, hx, he, h])

variable (hfree : x.evidence = false ∨ (x.rp = x.ap ∧ s.nsBound c.nsNumber = false))
include hfree

/-- On a namespace that may go, its port decides. -/
theorem does_nsDelete_free {u : State} (h : (if !s.portUsable x.port then s.complete n 0 tag .backendUnavailable else
      s.startStorage c { Job.new (.command n 0 tag) 0x21 c.nsNumber x.port 3 0 1 1 with locks := true, span := wholeNs }) = u) :
    Does (.nsDelete n tag) s u :=
  have hgoes : ¬ (x.evidence = true ∧ (x.rp ≠ x.ap ∨ s.nsBound c.nsNumber = true)) := by
    rintro ⟨he, hkept⟩
    obtain hgen | ⟨hrp, hb⟩ := hfree
    · simp [hgen] at he
    · simp [hrp, hb] at hkept
  does_onCommand exec_nsDelete hc (by
    simp only [hr, hx]
    exact (if_neg hgoes).trans h)

theorem does_nsDelete_noPort (hp : s.portUsable x.port = false) :
    Does (.nsDelete n tag) s (s.complete n 0 tag .backendUnavailable) :=
  does_nsDelete_free hc hr hx hfree (if_pos (by simp [hp]))

theorem does_nsDelete_starts (hp : s.portUsable x.port = true) : Does (.nsDelete n tag) s
    (s.startStorage c { Job.new (.command n 0 tag) 0x21 c.nsNumber x.port 3 0 1 1 with locks := true, span := wholeNs }) :=
  does_nsDelete_free hc hr hx hfree (if_neg (by simp [hp]))

end NsDelete

/-! NS_IDENTIFY (Table 9-8) -/

section NsIdentify

variable {s : State} {n tag : Nat} {buf : HostRead} {c : Ctx} (hc : s.starting? 0x22 n 0 tag = some c)
include hc

theorem does_nsIdentify_refused {st : Status} (hr : s.nsRefused n c.nsNumber true = some st) :
    Does (.nsIdentify n tag buf) s (s.complete n 0 tag st) :=
  does_onCommand exec_nsIdentify hc (by simp only [hr])

theorem does_nsIdentify_written {x : Ns} (hr : s.nsRefused n c.nsNumber true = none) (hx : s.nsNamed c.nsNumber = some x)
    (hd : s.descOwn n (descAt c.entry 8) = true) (hlen : (descAt c.entry 8).list = true ∨ 64 ≤ (descAt c.entry 8).len)
    (hp : s.portUsable x.port = true) :
    let w := s.scatter n (descAt c.entry 8) 0 buf (s.nsDescriptor n c.nsNumber x)
    Does (.nsIdentify n tag buf) s (w.1.storEnd n 0 tag (w.2.getD .ok)) :=
  have hfits : ¬ ((!(descAt c.entry 8).list) = true ∧ (descAt c.entry 8).len < 64) := by simpa [imp_iff_not_or] using hlen
  does_onCommand exec_nsIdentify hc (by
    simp only [hr, hx]
    exact (if_neg (by simp [hd])).trans ((if_neg hfits).trans (if_neg (by simp [hp]))))

end NsIdentify

/-! NS_ERASE (R258) -/

section NsErase

variable {s : State} {n tag : Nat} {c : Ctx} (hc : s.starting? 0x23 n 0 tag = some c)
include hc

theorem does_nsErase_refused {st : Status} (hr : s.nsRefused n c.nsNumber true = some st) :
    Does (.nsErase n tag) s (s.complete n 0 tag st) :=
  does_onCommand exec_nsErase hc (by simp only [hr])

variable {x : Ns} (hr : s.nsRefused n c.nsNumber true = none) (hx : s.nsNamed c.nsNumber = some x)
include hr hx

/-- A tenant that may only read the namespace does not erase it. -/
theorem does_nsErase_reader (hn : n ≠ 0) (ho : x.owner ≠ n) : Does (.nsErase n tag) s (s.complete n 0 tag .unknownIndexOrOpcode) :=
  does_onCommand exec_nsErase hc (by simp [hr, hx, hn, ho])

variable (ho : n = 0 ∨ x.owner = n)
include ho

/-- For the owner and for tenant 0 the kind of the namespace and its port decide. -/
theorem does_nsErase_owned {u : State} (h : (if x.evidence then s.complete n 0 tag .fieldInvalid
      else if !s.portUsable x.port then s.complete n 0 tag .backendUnavailable else
      s.startStorage c { Job.new (.command n 0 tag) 0x23 c.nsNumber x.port 3 0 1 1 with locks := true, span := wholeNs }) = u) :
    Does (.nsErase n tag) s u :=
  does_onCommand exec_nsErase hc (by
    simp only [hr, hx]
    exact (if_neg fun hreads => ho.elim hreads.1 hreads.2).trans h)

theorem does_nsErase_evidence (he : x.evidence = true) : Does (.nsErase n tag) s (s.complete n 0 tag .fieldInvalid) :=
  does_nsErase_owned hc hr hx ho (if_pos he)

variable (he : x.evidence = false)
include he

theorem does_nsErase_noPort (hp : s.portUsable x.port = false) : Does (.nsErase n tag) s (s.complete n 0 tag .backendUnavailable) :=
  does_nsErase_owned hc hr hx ho (by simp [he, hp])

theorem does_nsErase_starts (hp : s.portUsable x.port = true) : Does (.nsErase n tag) s
    (s.startStorage c { Job.new (.command n 0 tag) 0x23 c.nsNumber x.port 3 0 1 1 with locks := true, span := wholeNs }) :=
  does_nsErase_owned hc hr hx ho (by simp [he, hp])

end NsErase

/-! EVIDENCE_RELEASE (R249) -/

section EvidenceRelease

variable {s : State} {n tag : Nat} {c : Ctx} (hc : s.starting? 0x24 n 0 tag = some c)
include hc

theorem does_evidenceRelease_refused {st : Status} (hr : s.nsRefused n c.nsNumber false = some st) :
    Does (.evidenceRelease n tag) s (s.complete n 0 tag st) :=
  does_onCommand exec_evidenceRelease hc (by simp only [hr])

variable {x : Ns} (hr : s.nsRefused n c.nsNumber false = none) (hx : s.nsNamed c.nsNumber = some x)
include hr hx

theorem does_evidenceRelease_general (he : x.evidence = false) : Does (.evidenceRelease n tag) s (s.complete n 0 tag .fieldInvalid) :=
  does_onCommand exec_evidenceRelease hc (by simp [hr, hx, he])

variable (he : x.evidence = true)
include he

/-- What is released lies between RP and CP. -/
theorem does_evidenceRelease_outOfRange (h : leAt c.entry 8 8 < x.rp ∨ x.cp < leAt c.entry 8 8) :
    Does (.evidenceRelease n tag) s (s.complete n 0 tag .outOfRange) :=
  does_onCommand exec_evidenceRelease hc (by simp [hr, hx, he, h])

variable (hrp : x.rp ≤ leAt c.entry 8 8) (hcp : leAt c.entry 8 8 ≤ x.cp)
include hrp hcp

theorem does_evidenceRelease_noPort (hp : s.portUsable x.port = false) :
    Does (.evidenceRelease n tag) s (s.complete n 0 tag .backendUnavailable) :=
  does_onCommand exec_evidenceRelease hc (by simp [hr, hx, he, hrp.not_gt, hcp.not_gt, hp])

theorem does_evidenceRelease_starts (hp : s.portUsable x.port = true) : Does (.evidenceRelease n tag) s
    (s.startStorage c { Job.new (.command n 0 tag) 0x24 c.nsNumber x.port 3 x.rp (leAt c.entry 8 8 - x.rp) (leAt c.entry 8 8 - x.rp) with
      locks := true, fua := true }) :=
  does_onCommand exec_evidenceRelease hc (by simp [hr, hx, he, hrp.not_gt, hcp.not_gt, hp])

end EvidenceRelease

/-! SSD_PREPARE (R244, R245) -/

section SsdPrepare

variable {s : State} {n tag : Nat} {c : Ctx} (hc : s.starting? 0x25 n 0 tag = some c)
include hc

theorem does_ssdPrepare_noWord (h : bits (dw c.entry 2) 16 16 ≠ 0x960D) :
    Does (.ssdPrepare n tag) s (s.complete n 0 tag .fieldInvalid) :=
  does_onCommand exec_ssdPrepare hc (if_pos h)

variable (hw : bits (dw c.entry 2) 16 16 = 0x960D)
include hw

theorem does_ssdPrepare_starts (h : (s.port c.portNumber).st = 3 ∨ (s.port c.portNumber).st = 6
    ∨ ((s.port c.portNumber).st = 2 ∧ s.nsOn c.portNumber = [])) :
    Does (.ssdPrepare n tag) s (s.startStorage c (Job.new (.command n 0 tag) 0x25 0 c.portNumber 3 0 1 1)) :=
  does_onCommand exec_ssdPrepare hc ((if_neg (not_not_intro hw)).trans (if_neg (by obtain h | h | ⟨h, hns⟩ := h <;> simp [*])))

theorem does_ssdPrepare_wrongState (h3 : (s.port c.portNumber).st ≠ 3) (h6 : (s.port c.portNumber).st ≠ 6)
    (h2 : (s.port c.portNumber).st ≠ 2 ∨ s.nsOn c.portNumber ≠ []) : Does (.ssdPrepare n tag) s (s.complete n 0 tag .notInThisState) :=
  does_onCommand exec_ssdPrepare hc ((if_neg (not_not_intro hw)).trans (if_pos ⟨h3, h6, by simpa [imp_iff_not_or] using h2⟩))

end SsdPrepare

/-! SSD_DETACH (R258) -/

section SsdDetach

variable {s : State} {n tag : Nat} {c : Ctx} (hc : s.starting? 0x26 n 0 tag = some c)
include hc

theorem does_ssdDetach_bound (hb : ((s.nsOn c.portNumber).any fun kv => s.nsBound kv.1) = true) :
    Does (.ssdDetach n tag) s (s.complete n 0 tag .notInThisState) :=
  does_onCommand exec_ssdDetach hc (if_pos hb)

variable (hb : ((s.nsOn c.portNumber).any fun kv => s.nsBound kv.1) = false)
include hb

theorem does_ssdDetach_inHand (hd : (s.port c.portNumber).detach.isSome = true) :
    Does (.ssdDetach n tag) s (s.complete n 0 tag .backendUnavailable) :=
  does_onCommand exec_ssdDetach hc ((if_neg (by simp [hb])).trans (if_pos hd))

theorem does_ssdDetach_starts (hd : (s.port c.portNumber).detach = none) : Does (.ssdDetach n tag) s
    ((s.markStarted n 0 tag).withPort c.portNumber fun x => { x with detach := some tag, shutdown := false }) :=
  does_onCommand exec_ssdDetach hc ((if_neg (by simp [hb])).trans (if_neg (by simp [hd])))

end SsdDetach

/-! SSD_ATTACH (R258) -/

section SsdAttach

variable {s : State} {n tag : Nat} {c : Ctx} (hc : s.starting? 0x27 n 0 tag = some c)
include hc

theorem does_ssdAttach_attached
    (h : (s.port c.portNumber).st = 1 ∨ (s.port c.portNumber).st = 2 ∨ (s.port c.portNumber).st = 5) :
    Does (.ssdAttach n tag) s (s.complete n 0 tag .notInThisState) :=
  does_onCommand exec_ssdAttach hc (if_pos h)

theorem does_ssdAttach_starts (h1 : (s.port c.portNumber).st ≠ 1) (h2 : (s.port c.portNumber).st ≠ 2)
    (h5 : (s.port c.portNumber).st ≠ 5) : Does (.ssdAttach n tag) s
      (((s.markStarted n 0 tag).attachStart c.portNumber).withPort c.portNumber fun x => { x with attach := some tag }) :=
  does_onCommand exec_ssdAttach hc (if_neg (by simp [h1, h2, h5]))

end SsdAttach

/-- Settles O32: each command by its outcomes, in the order of its checks; what NS_CREATE makes is what its entry asks for. -/
theorem namespaceAdmin : Obligations.NamespaceAdmin := by
  refine ⟨fun s n tag c => ⟨fun hc => ?create, fun hc => ?delete, fun buf hc => ?identify, fun hc => ?erase, fun hc => ?release⟩,
    fun s n tag c => ⟨fun hc => ?prepare, fun hc => ?detach, fun hc => ?attach⟩⟩
  case create =>
    exact ⟨does_nsCreate_refused hc, fun h => ⟨nsAsked c.entry, rfl, rfl, rfl, rfl, rfl, rfl, rfl, does_nsCreate_ok hc h⟩⟩
  case delete =>
    exact ⟨fun _ => does_nsDelete_refused hc, does_nsDelete_absent hc, fun x hr hx => ⟨does_nsDelete_inUse hc hr hx, fun hfree =>
      ⟨does_nsDelete_noPort hc hr hx hfree, does_nsDelete_starts hc hr hx hfree⟩⟩⟩
  case identify => exact ⟨fun _ => does_nsIdentify_refused hc, fun x => does_nsIdentify_written hc⟩
  case erase =>
    exact ⟨fun _ => does_nsErase_refused hc, fun x hr hx => ⟨does_nsErase_reader hc hr hx, fun ho =>
      ⟨does_nsErase_evidence hc hr hx ho, does_nsErase_noPort hc hr hx ho, does_nsErase_starts hc hr hx ho⟩⟩⟩
  case release =>
    exact ⟨fun _ => does_evidenceRelease_refused hc, fun x hr hx => ⟨does_evidenceRelease_general hc hr hx,
      does_evidenceRelease_outOfRange hc hr hx, fun he hrp hcp => does_evidenceRelease_noPort hc hr hx he hrp hcp,
      fun he hrp hcp => does_evidenceRelease_starts hc hr hx he hrp hcp⟩⟩
  case prepare => exact ⟨does_ssdPrepare_noWord hc, does_ssdPrepare_starts hc, does_ssdPrepare_wrongState hc⟩
  case detach => exact ⟨does_ssdDetach_bound hc, does_ssdDetach_inHand hc, does_ssdDetach_starts hc⟩
  case attach => exact ⟨does_ssdAttach_attached hc, does_ssdAttach_starts hc⟩

end Sys2Proof.Laws
end

section
/-! PROOFS. The storage commands (R248, R250, R256, R257, R259, R261, R262, Tables 9-9 and 9-10): each on the namespace that it names, with
the status of its checks deciding whether it starts. -/

namespace Sys2Proof.Laws

open Sys2Proof.Machine

/-- A command that a condition sends one way or the other. -/
theorem does_branches {i : Instr} {s u v : State} {P : Prop} [Decidable P] (h : Does i s (if P then u else v)) :
    (P → Does i s u) ∧ (¬ P → Does i s v) :=
  ⟨fun hP => by rwa [if_pos hP] at h, fun hP => by rwa [if_neg hP] at h⟩

/-- A command that goes on where its checks give OK, and else ends with the status they give. -/
theorem match_ok_eq_ite (st : Status) (u : State) (refused : Status → State) :
    (match st with
    | .ok => u
    | st => refused st) = if st = .ok then u else refused st := by
  by_cases h : st = .ok
  · rw [h, if_pos rfl]
  · rw [if_neg h]
    split
    · contradiction
    · rfl

section Meanings

variable {s : State} {n q tag : Nat} {r : HostRead}

theorem exec_read : exec (.read n q tag r) s = execRead n q tag r s := rfl

theorem exec_write : exec (.write n q tag r) s = execWrite n q tag r s := rfl

theorem exec_flush : exec (.flush n q tag) s = execFlush n q tag s := rfl

theorem exec_deallocate : exec (.deallocate n q tag) s = execDeallocate n q tag s := rfl

theorem exec_writeZeroes : exec (.writeZeroes n q tag) s = execWriteZeroes n q tag s := rfl

theorem exec_verify : exec (.verify n q tag) s = execVerify n q tag s := rfl

theorem exec_evidenceAppend : exec (.evidenceAppend n q tag r) s = execEvidenceAppend n q tag r s := rfl

end Meanings

/-! A number that check 7 refuses (R246) -/

section Refused

variable {s : State} {n q tag : Nat} {r : HostRead} {c : Ctx} {st : Status}

theorem does_read_refused (hc : s.starting? 0x40 n q tag = some c) (hx : s.ioNs n c.nsNumber true = .error st) :
    Does (.read n q tag r) s (s.complete n q tag st) :=
  does_onCommand exec_read hc (by simp only [hx])

theorem does_verify_refused (hc : s.starting? 0x45 n q tag = some c) (hx : s.ioNs n c.nsNumber true = .error st) :
    Does (.verify n q tag) s (s.complete n q tag st) :=
  does_onCommand exec_verify hc (by simp only [hx])

variable (hx : s.ioNs n c.nsNumber false = .error st)
include hx

theorem does_write_refused (hc : s.starting? 0x41 n q tag = some c) : Does (.write n q tag r) s (s.complete n q tag st) :=
  does_onCommand exec_write hc (by simp only [hx])

theorem does_flush_refused (hc : s.starting? 0x42 n q tag = some c) : Does (.flush n q tag) s (s.complete n q tag st) :=
  does_onCommand exec_flush hc (by simp only [hx])

theorem does_deallocate_refused (hc : s.starting? 0x43 n q tag = some c) : Does (.deallocate n q tag) s (s.complete n q tag st) :=
  does_onCommand exec_deallocate hc (by simp only [hx])

theorem does_writeZeroes_refused (hc : s.starting? 0x44 n q tag = some c) : Does (.writeZeroes n q tag) s (s.complete n q tag st) :=
  does_onCommand exec_writeZeroes hc (by simp only [hx])

theorem does_evidenceAppend_refused (hc : s.starting? 0x48 n q tag = some c) :
    Does (.evidenceAppend n q tag r) s (s.complete n q tag st) :=
  does_onCommand exec_evidenceAppend hc (by simp only [hx])

end Refused

/-! The commands without a buffer: FLUSH, DEALLOCATE, WRITE_ZEROES, VERIFY (R257, R261) -/

section Bufferless

variable {s : State} {n q tag : Nat} {c : Ctx} {x : Ns}

theorem does_verify (hc : s.starting? 0x45 n q tag = some c) (hx : s.ioNs n c.nsNumber true = .ok x) :
    let st := s.ioCheck x (leAt c.entry 8 8) (dw c.entry 4) (dw c.entry 4 == 0) true true true
    Does (.verify n q tag) s (if st = .ok then s.startStorage c { Job.new (.command n q tag) 0x45 c.nsNumber x.port (b2n x.evidence)
        (leAt c.entry 8 8) (dw c.entry 4) 256 with locks := true, shared := true }
      else s.complete n q tag st) :=
  does_onCommand exec_verify hc (by
    simp only [hx]
    exact match_ok_eq_ite _ _ fun st => s.complete n q tag st)

variable (hx : s.ioNs n c.nsNumber false = .ok x)
include hx

/-- A flush from an evidence queue is for evidence alone, and from any other for general namespaces alone. -/
theorem does_flush (hc : s.starting? 0x42 n q tag = some c) :
    let ev := ((s.sq? n q).map (·.cls)).getD 0 == 1
    let st := s.ioCheck x 0 0 false false (!ev) ev
    Does (.flush n q tag) s (if st = .ok then s.startStorage c { Job.new (.command n q tag) 0x42 c.nsNumber x.port (b2n ev) 0
        (if ev then 0 else 1) 1 with gathered := !ev && s.flushGathered }
      else s.complete n q tag st) :=
  does_onCommand exec_flush hc (by
    simp only [hx]
    exact match_ok_eq_ite _ _ fun st => s.complete n q tag st)

theorem does_deallocate (hc : s.starting? 0x43 n q tag = some c) :
    let st := s.ioCheck x (leAt c.entry 8 8) (dw c.entry 4) (dw c.entry 4 == 0) true true false
    Does (.deallocate n q tag) s (if st = .ok then s.startStorage c { Job.new (.command n q tag) 0x43 c.nsNumber x.port 0
        (leAt c.entry 8 8) (dw c.entry 4) (dw c.entry 4) with locks := true }
      else s.complete n q tag st) :=
  does_onCommand exec_deallocate hc (by
    simp only [hx]
    exact match_ok_eq_ite _ _ fun st => s.complete n q tag st)

theorem does_writeZeroes (hc : s.starting? 0x44 n q tag = some c) :
    let st := s.ioCheck x (leAt c.entry 8 8) (dw c.entry 4) (dw c.entry 4 == 0) true true false
    Does (.writeZeroes n q tag) s (if st = .ok then s.startStorage c { Job.new (.command n q tag) 0x44 c.nsNumber x.port 0
        (leAt c.entry 8 8) (dw c.entry 4) 65536 with locks := true, fua := bit (dw c.entry 1) 8 }
      else s.complete n q tag st) :=
  does_onCommand exec_writeZeroes hc (by
    simp only [hx]
    exact match_ok_eq_ite _ _ fun st => s.complete n q tag st)

end Bufferless

/-! The commands with a buffer: READ and WRITE (R256, R257, R259) -/

theorem does_read {s : State} {n q tag : Nat} {buf : HostRead} {c : Ctx} {x : Ns} {len : Nat}
    (hc : s.starting? 0x40 n q tag = some c) (hx : s.ioNs n c.nsNumber true = .ok x) (hd : s.descOwn n (descAt c.entry 16) = true)
    (hlen : s.bufLen n (descAt c.entry 16) 0 buf = .ok len) :
    let st := s.ioCheck x (leAt c.entry 8 8) (len / 4096) (!storageLengthOk len) true true true
    Does (.read n q tag buf) s (if st = .ok then s.startStorage c { Job.new (.command n q tag) 0x40 c.nsNumber x.port (b2n x.evidence)
        (leAt c.entry 8 8) (len / 4096) 256 with locks := true, shared := true, lists := buf }
      else s.complete n q tag st) :=
  does_onCommand exec_read hc (by
    simp only [hx, hlen]
    refine (if_neg (by simp [hd])).trans ?_
    exact match_ok_eq_ite _ _ fun st => s.complete n q tag st)

section Write

variable {s : State} {n q tag : Nat} {data : HostRead} {c : Ctx} {x : Ns} {len : Nat} (hc : s.starting? 0x41 n q tag = some c)
  (hx : s.ioNs n c.nsNumber false = .ok x) (hd : s.descOwn n (descAt c.entry 16) = true)
  (hlen : s.bufLen n (descAt c.entry 16) 0 data = .ok len)
include hc hx hd hlen

/-- The data is read once the checks give OK. -/
theorem does_write {u : State} (h : (match s.writeData n (descAt c.entry 16) data len with
      | .error st => s.storEnd n q tag st
      | .ok b => s.startStorage c { Job.new (.command n q tag) 0x41 c.nsNumber x.port 0 (leAt c.entry 8 8) (len / 4096) 256 with
          locks := true, data := b, fua := bit (dw c.entry 1) 8 }) = u) :
    let st := s.ioCheck x (leAt c.entry 8 8) (len / 4096) (!storageLengthOk len) true true false
    Does (.write n q tag data) s (if st = .ok then u else s.complete n q tag st) :=
  does_onCommand exec_write hc (by
    subst h
    simp only [hx, hlen]
    refine (if_neg (by simp [hd])).trans ?_
    exact match_ok_eq_ite _ _ fun st => s.complete n q tag st)

theorem does_write_starts {b : Bytes} (hok : s.ioCheck x (leAt c.entry 8 8) (len / 4096) (!storageLengthOk len) true true false = .ok)
    (hw : s.writeData n (descAt c.entry 16) data len = .ok b) : Does (.write n q tag data) s
      (s.startStorage c { Job.new (.command n q tag) 0x41 c.nsNumber x.port 0 (leAt c.entry 8 8) (len / 4096) 256 with
        locks := true, data := b, fua := bit (dw c.entry 1) 8 }) :=
  (does_branches (does_write hc hx hd hlen (by rw [hw]))).1 hok

theorem does_write_unread {st : Status}
    (hok : s.ioCheck x (leAt c.entry 8 8) (len / 4096) (!storageLengthOk len) true true false = .ok)
    (hw : s.writeData n (descAt c.entry 16) data len = .error st) : Does (.write n q tag data) s (s.storEnd n q tag st) :=
  (does_branches (does_write hc hx hd hlen (by rw [hw]))).1 hok

end Write

/-! EVIDENCE_APPEND (R248, R250, R262) -/

section EvidenceAppend

variable {s : State} {n q tag : Nat} {data : HostRead} {c : Ctx} {x : Ns} {len : Nat} (hc : s.starting? 0x48 n q tag = some c)
  (hx : s.ioNs n c.nsNumber false = .ok x) (hd : s.descOwn n (descAt c.entry 16) = true)
  (hlen : s.bufLen n (descAt c.entry 16) 0 data = .ok len) (hblocks : storageLengthOk len = true)
include hc hx hd hlen hblocks

theorem does_evidenceAppend_general (he : x.evidence = false) :
    Does (.evidenceAppend n q tag data) s (s.complete n q tag .fieldInvalid) :=
  does_onCommand exec_evidenceAppend hc (by simp [hx, hd, hlen, hblocks, he])

variable (he : x.evidence = true)
include he

/-- Evidence that a kiln stream is bound to takes no other's appends. -/
theorem does_evidenceAppend_bound (hb : s.nsBound c.nsNumber = true) :
    Does (.evidenceAppend n q tag data) s (s.complete n q tag .notInThisState) :=
  does_onCommand exec_evidenceAppend hc (by simp [hx, hd, hlen, hblocks, he, hb])

variable (hb : s.nsBound c.nsNumber = false)
include hb

theorem does_evidenceAppend_full (hr : x.room (len / 4096) = false) :
    Does (.evidenceAppend n q tag data) s ((s.eventLimited 103 c.nsNumber).complete n q tag .evidenceFull) :=
  does_onCommand exec_evidenceAppend hc (by simp [hx, hd, hlen, hblocks, he, hb, hr])

variable (hr : x.room (len / 4096) = true)
include hr

theorem does_evidenceAppend_noPort (hp : s.portUsable x.port = false) :
    Does (.evidenceAppend n q tag data) s (s.complete n q tag .backendUnavailable) :=
  does_onCommand exec_evidenceAppend hc (by simp [hx, hd, hlen, hblocks, he, hb, hr, hp])

theorem does_evidenceAppend_starts {b : Bytes} (hp : s.portUsable x.port = true)
    (hw : s.writeData n (descAt c.entry 16) data len = .ok b) : Does (.evidenceAppend n q tag data) s
      ((s.takePositions c.nsNumber (len / 4096)).startStorage c { Job.new (.command n q tag) 0x48 c.nsNumber x.port 1 x.ap (len / 4096) 256
        with locks := true, fua := true, data := b }) :=
  does_onCommand exec_evidenceAppend hc (by simp [hx, hd, hlen, hblocks, he, hb, hr, hp, hw])

end EvidenceAppend

/-- Settles O33: each command on a namespace that check 7 gives, by its checks; and where check 7 refuses. -/
theorem storageCommands : Obligations.StorageCommands := by
  intro s n q tag c x
  refine ⟨fun buf len hc hx hd hlen => does_branches (does_read hc hx hd hlen), fun data len hc hx hd hlen => ?write,
    fun hc hx => does_branches (does_flush hx hc), fun hc hx => does_branches (does_deallocate hx hc),
    fun hc hx => does_branches (does_writeZeroes hx hc), fun hc hx => does_branches (does_verify hc hx),
    fun data len hc hx hd hlen hblocks => ?append, fun er hx => ⟨fun _ hc => does_read_refused hc hx, fun hc => does_verify_refused hc hx⟩,
    fun er hx => ⟨fun _ => does_write_refused hx, fun _ => does_evidenceAppend_refused hx, does_flush_refused hx,
      does_deallocate_refused hx, does_writeZeroes_refused hx⟩⟩
  case write =>
    exact ⟨fun b => does_write_starts hc hx hd hlen, fun er => does_write_unread hc hx hd hlen,
      (does_branches (does_write hc hx hd hlen rfl)).2⟩
  case append =>
    exact ⟨does_evidenceAppend_general hc hx hd hlen hblocks, does_evidenceAppend_bound hc hx hd hlen hblocks,
      does_evidenceAppend_full hc hx hd hlen hblocks, does_evidenceAppend_noPort hc hx hd hlen hblocks,
      fun b he hb hr hp => does_evidenceAppend_starts hc hx hd hlen hblocks he hb hr hp⟩

end Sys2Proof.Laws
end

section
/-! PROOFS. The root ports (R251, R261, R273, Tables 9-2, 9-7 and 9-12): the link, the controller, the back-end commands by whether they are
outstanding, the SSD's warning, the catalogue's checkpoint and the gathered flushes. -/

namespace Sys2Proof.Laws

open Sys2Proof.Machine

section Meanings

variable {s : State} {p k w : Nat}

theorem exec_rootPortLinkUp : exec (.rootPortLinkUp p) s = execRootPortLinkUp p s := rfl

theorem exec_rootPortLinkDown : exec (.rootPortLinkDown p) s = execRootPortLinkDown p s := rfl

theorem exec_controllerReady {i : SsdIdentity} : exec (.controllerReady p i) s = execControllerReady p i s := rfl

theorem exec_controllerReadyTimeout : exec (.controllerReadyTimeout p) s = execControllerReadyTimeout p s := rfl

theorem exec_backendCompletion {r : BackendResult} : exec (.backendCompletion p k r) s = execBackendCompletion p k r s := rfl

theorem exec_backendTimeout : exec (.backendTimeout p k) s = execBackendTimeout p k s := rfl

theorem exec_ssdAsyncEvent : exec (.ssdAsyncEvent p w) s = execSsdAsyncEvent p w s := rfl

theorem exec_catalogueCheckpoint : exec (.catalogueCheckpoint k) s = execCatalogueCheckpoint k s := rfl

theorem exec_flushGatherExpiry : exec .flushGatherExpiry s = execFlushGatherExpiry s := rfl

end Meanings

/-! The link (Tables 9-2 and 9-12) -/

section Link

variable {s : State} {p : Nat}

theorem does_rootPortLinkUp_idle (h : (s.port p).linkUp = true) : Does (.rootPortLinkUp p) s s :=
  exec_rootPortLinkUp.trans (if_pos h)

/-- The change of the link leaves the port's state, which decides on. -/
theorem st_withPort_linkUp (s : State) (p : Nat) (b : Bool) :
    ((s.withPort p fun x => { x with linkUp := b }).port p).st = (s.port p).st := by rw [port_withPort]

/-- A link that trains enables the controller in an attach alone. -/
theorem does_rootPortLinkUp (h : (s.port p).linkUp = false) :
    let t := s.withPort p fun x => { x with linkUp := true }
    Does (.rootPortLinkUp p) s (if (s.port p).st = 1 then t.emit (.nvme p 0 0x102 0 0 0 []) else t) := by
  rw [Does, exec_rootPortLinkUp, execRootPortLinkUp, if_neg (by simp [h])]
  simp only [st_withPort_linkUp]
  split <;> rfl

theorem does_rootPortLinkDown :
    let t := s.withPort p fun x => { x with linkUp := false }
    Does (.rootPortLinkDown p) s (if (s.port p).st = 7 ∨ (s.port p).st = 0 then t else t.portFail p 0) := by
  simp only [Does, exec_rootPortLinkDown, execRootPortLinkDown, st_withPort_linkUp, done]

end Link

/-! The controller (R273, Table 9-2) -/

section Controller

variable {s : State} {p : Nat}

theorem does_controllerReady_attach {i : SsdIdentity} (hst : (s.port p).st = 1) (hup : (s.port p).linkUp = true)
    (hrec : (s.port p).recovering = false) : Does (.controllerReady p i) s (s.attachIdentified p i) :=
  exec_controllerReady.trans (if_pos ⟨hst, hup, by simp [hrec]⟩)

/-- After a reset: what was outstanding goes out once more, in its order, and is marked. -/
theorem does_controllerReady_reissues {i : SsdIdentity} (hst : (s.port p).st = 5) : Does (.controllerReady p i) s
    ((s.port p).cmds.foldl (fun (x : State) b => x.emit (.nvme p b.id b.opcode b.ns b.lba b.blocks b.data))
      (s.withPort p fun y => { y with st := y.back, cmds := y.cmds.map fun b => { b with reissued := true } })) :=
  exec_controllerReady.trans ((if_neg (by simp [hst])).trans (if_pos hst))

theorem does_controllerReady_idle {i : SsdIdentity} (h5 : (s.port p).st ≠ 5)
    (h : (s.port p).st ≠ 1 ∨ (s.port p).linkUp = false ∨ (s.port p).recovering = true) : Does (.controllerReady p i) s s :=
  exec_controllerReady.trans <| (if_neg (by
    rintro ⟨hst, hup, hrec⟩
    obtain h | h | h := h
    · exact h hst
    · simp [h] at hup
    · simp [h] at hrec)).trans (if_neg h5)

theorem does_controllerReadyTimeout_reset (hst : (s.port p).st = 5) : Does (.controllerReadyTimeout p) s (s.portFail p 6) :=
  exec_controllerReadyTimeout.trans (if_pos hst)

theorem does_controllerReadyTimeout_attach (hst : (s.port p).st = 1) (hrec : (s.port p).recovering = false) :
    Does (.controllerReadyTimeout p) s (s.attachEnd p (if (s.port p).linkUp then 6 else 0)) :=
  exec_controllerReadyTimeout.trans <| (if_neg (by simp [hst])).trans (if_pos ⟨hst, by simp [hrec]⟩)

theorem does_controllerReadyTimeout_idle (h5 : (s.port p).st ≠ 5) (h : (s.port p).st ≠ 1 ∨ (s.port p).recovering = true) :
    Does (.controllerReadyTimeout p) s s :=
  exec_controllerReadyTimeout.trans <| (if_neg h5).trans (if_neg (by
    rintro ⟨hst, hrec⟩
    obtain h | h := h
    · exact h hst
    · simp [h] at hrec))

end Controller

/-! The back-end commands (R273) -/

section Backend

variable {s : State} {p k : Nat}

theorem does_backendCompletion_unknown {r : BackendResult} (hb : (s.port p).cmds.find? (fun b => b.id == k) = none) :
    Does (.backendCompletion p k r) s s := by
  rw [Does, exec_backendCompletion, execBackendCompletion, hb]
  rfl

theorem does_backendTimeout_unknown (hb : (s.port p).cmds.find? (fun b => b.id == k) = none) : Does (.backendTimeout p k) s s := by
  simp only [Does, exec_backendTimeout, execBackendTimeout, hb, done]

variable {b : Backend} (hb : (s.port p).cmds.find? (fun b => b.id == k) = some b)
include hb

theorem does_backendCompletion_ok (bl : List BlockRead) : Does (.backendCompletion p k (.ok bl)) s (s.backendEnds p b true bl) := by
  rw [Does, exec_backendCompletion, execBackendCompletion, hb]
  rfl

theorem does_backendCompletion_failed (bl : List BlockRead) :
    Does (.backendCompletion p k (.failed bl)) s (s.backendEnds p b false bl) := by
  rw [Does, exec_backendCompletion, execBackendCompletion, hb]
  rfl

/-- What a time-out of an outstanding command does: nothing in a reset; the second one fails the command, the first one resets. -/
theorem does_backendTimeout : Does (.backendTimeout p k) s
    (if (s.port p).st = 5 then s else if b.reissued then s.backendEnds p b false [] else
      ((((s.withPort p fun y => { y with st := 5, back := y.st }).dinc (0x2601 + p) 6).eventLog 98 .warning
        Status.backendUnavailable.code (leBytes 1 p)).emit (.nvme p 0 0x101 0 0 0 []))) := by
  simp only [Does, exec_backendTimeout, execBackendTimeout, hb, done]
  split
  · rfl
  · split <;> rfl

theorem does_backendTimeout_resetting (hst : (s.port p).st = 5) : Does (.backendTimeout p k) s s :=
  (does_branches (does_backendTimeout hb)).1 hst

variable (hst : (s.port p).st ≠ 5)
include hst

theorem does_backendTimeout_again (hr : b.reissued = true) : Does (.backendTimeout p k) s (s.backendEnds p b false []) :=
  (does_branches ((does_branches (does_backendTimeout hb)).2 hst)).1 hr

theorem does_backendTimeout_resets (hr : b.reissued = false) : Does (.backendTimeout p k) s
    ((((s.withPort p fun y => { y with st := 5, back := y.st }).dinc (0x2601 + p) 6).eventLog 98 .warning
      Status.backendUnavailable.code (leBytes 1 p)).emit (.nvme p 0 0x101 0 0 0 [])) :=
  (does_branches ((does_branches (does_backendTimeout hb)).2 hst)).2 (by simp [hr])

end Backend

/-! The SSD's Critical Warning (Table 9-12) -/

section SsdAsyncEvent

variable {s : State} {p w : Nat}

theorem does_ssdAsyncEvent_clear (h : w % 256 = 0) : Does (.ssdAsyncEvent p w) s (s.dset (0x2601 + p) 0x0B 0) := by
  simp only [Does, exec_ssdAsyncEvent, execSsdAsyncEvent, h, if_true, done]

theorem does_ssdAsyncEvent_warning (h : w % 256 ≠ 0) : Does (.ssdAsyncEvent p w) s
    ((s.dset (0x2601 + p) 0x0B (w % 256)).eventLog 99 .warning Status.backendUnavailable.code (leBytes 1 p ++ leBytes 1 w)) :=
  does_of_not_guard exec_ssdAsyncEvent h

end SsdAsyncEvent

/-! The catalogue's checkpoint (R251) -/

section CatalogueCheckpoint

variable {s : State} {k : Nat}

theorem does_catalogueCheckpoint_absent (hx : s.ns? k = none) : Does (.catalogueCheckpoint k) s s := by
  simp only [Does, exec_catalogueCheckpoint, execCatalogueCheckpoint, hx, done]

/-- Of a namespace that is there, what is written is the catalogue of evidence, on a port in state 2. -/
theorem does_catalogueCheckpoint {x : Ns} (hx : s.ns? k = some x) : Does (.catalogueCheckpoint k) s
    (if x.evidence = true ∧ (s.port x.port).st = 2 then (s.withNs k fun y => { y with unsaved := 0 }).catalogueWrite x.port else s) := by
  simp only [Does, exec_catalogueCheckpoint, execCatalogueCheckpoint, hx, done]
  split <;> rfl

end CatalogueCheckpoint

/-- Settles O35: each command of a root port by the port's state, the back-end commands by whether they are outstanding. -/
theorem rootPorts : Obligations.RootPorts := by
  intro s p
  refine ⟨does_rootPortLinkUp_idle, fun h => (does_branches (does_rootPortLinkUp h)).2, fun h => (does_branches (does_rootPortLinkUp h)).1,
    (does_branches does_rootPortLinkDown).1, fun h7 h0 => (does_branches does_rootPortLinkDown).2 (not_or.mpr ⟨h7, h0⟩),
    fun _ => does_controllerReady_attach, fun _ => does_controllerReady_reissues, fun _ => does_controllerReady_idle,
    does_controllerReadyTimeout_reset, does_controllerReadyTimeout_attach, does_controllerReadyTimeout_idle, fun k b hb => ?outstanding,
    fun k r hb => ⟨does_backendCompletion_unknown hb, does_backendTimeout_unknown hb⟩, fun w => does_ssdAsyncEvent_clear,
    fun w => does_ssdAsyncEvent_warning, fun k x hx => ?written, fun k => does_catalogueCheckpoint_absent, fun k x hx => ?kept,
    exec_flushGatherExpiry⟩
  case outstanding =>
    exact ⟨fun bl => ⟨does_backendCompletion_ok hb bl, does_backendCompletion_failed hb bl⟩, does_backendTimeout_resetting hb,
      does_backendTimeout_again hb, does_backendTimeout_resets hb⟩
  case written => exact fun he hst => (does_branches (does_catalogueCheckpoint hx)).1 ⟨he, hst⟩
  case kept => exact fun h => (does_branches (does_catalogueCheckpoint hx)).2 (by
    rintro ⟨he, hst⟩
    simp [he, hst] at h)

end Sys2Proof.Laws
end

section
/-! PROOFS. The making, opening and deletion of kiln streams (R278, R280–R282, R284, R291, R302, Tables 10-2 to 10-5): each command's
outcomes, in the order of Table 10-5, and the seal engine that an OPEN takes. The hypotheses of a section gather as the checks pass. -/

namespace Sys2Proof.Laws

open Sys2Proof.Machine

/-- The stream that a kiln admin command names (Table 10-4). -/
@[reducible] def namedStream (c : Ctx) : Nat := bits (dw c.entry 1) 0 6

/-- A kiln admin command does what its row means on the stream that its entry names, when it may start. -/
theorem does_onKiln {s u : State} {op tag : Nat} {c : Ctx} {k : Ctx → Nat → State → State} {i : Instr}
    (hi : exec i s = onKiln op tag s k) (hc : s.starting? op 0 0 tag = some c) (h : k c (namedStream c) s = u) : Does i s u :=
  does_onCommand hi hc h

section Meanings

variable {s : State} {tag : Nat} {r : HostRead}

theorem exec_kilnStreamCreate : exec (.kilnStreamCreate tag r) s = execKilnStreamCreate tag r s := rfl

theorem exec_kilnStreamOpen : exec (.kilnStreamOpen tag) s = execKilnStreamOpen tag s := rfl

theorem exec_kilnStreamClose : exec (.kilnStreamClose tag) s = execKilnStreamClose tag s := rfl

theorem exec_kilnStreamKeys : exec (.kilnStreamKeys tag r) s = execKilnStreamKeys tag r s := rfl

theorem exec_kilnStreamDelete : exec (.kilnStreamDelete tag) s = execKilnStreamDelete tag s := rfl

theorem exec_kilnStreamGet : exec (.kilnStreamGet tag r) s = execKilnStreamGet tag r s := rfl

theorem exec_kilnStreamIndex : exec (.kilnStreamIndex tag) s = execKilnStreamIndex tag s := rfl

end Meanings

/-! A change of a stream's state (event 160) -/

section StreamTo

variable {s : State} {i : Nat} {st : StreamState}

theorem streamTo_changed (h : (s.stream i).st ≠ st) :
    s.streamTo i st = (s.withStream i fun x => { x with st := st }).event 160 :=
  if_neg h

/-- A stream written and then moved to another state is written once. -/
theorem streamTo_withStream {f : Stream → Stream} (h : (f (s.stream i)).st ≠ st) :
    (s.withStream i f).streamTo i st = (s.withStream i fun x => { f x with st := st }).event 160 := by
  rw [streamTo_changed (by rwa [stream_withStream]), withStream_twice]

end StreamTo

/-! KILN_STREAM_CREATE (R280, R281, R302) -/

/-- The stream that a good CREATE leaves: CLOSED under its record, its index bound to the CQ that the record names. -/
def streamMade (r : Bytes) (x : Stream) : Stream :=
  { x with st := .closed, record := r, cur := none, cause := 0, lastTag := zeros 16, bind := 1, bindFn := byteAt r 12, bindCq := leAt r 10 2 }

section KilnStreamCreate

variable {s : State} {tag : Nat} {record : HostRead} {c : Ctx} (hc : s.starting? 0x28 0 0 tag = some c)
include hc

theorem does_kilnStreamCreate_noRecord {st : Status} (hr : s.kilnBuffer c 64 record = .error st) :
    Does (.kilnStreamCreate tag record) s (s.complete 0 0 tag st) :=
  does_onKiln exec_kilnStreamCreate hc (by simp only [hr])

variable {r : Bytes} (hr : s.kilnBuffer c 64 record = .ok r)
include hr

theorem does_kilnStreamCreate_outOfRange (h : kilnRecordOut r = true) :
    Does (.kilnStreamCreate tag record) s (s.complete 0 0 tag .outOfRange) :=
  does_onKiln exec_kilnStreamCreate hc (by simp only [hr, h, if_true])

variable (hrange : kilnRecordOut r = false)
include hrange

theorem does_kilnStreamCreate_badForm (h : kilnRecordZero r = false) :
    Does (.kilnStreamCreate tag record) s (s.complete 0 0 tag .fieldInvalid) :=
  does_onKiln exec_kilnStreamCreate hc (by simp [hr, hrange, h])

variable (hzero : kilnRecordZero r = true)
include hzero

theorem does_kilnStreamCreate_badKeys {st : Status} (h : s.kilnKeysBad (keyList (sub r 20 16)) (leAt r 0 4) = some st) :
    Does (.kilnStreamCreate tag record) s (s.complete 0 0 tag st) :=
  does_onKiln exec_kilnStreamCreate hc (by simp [hr, hrange, hzero, h])

variable (hkeys : s.kilnKeysBad (keyList (sub r 20 16)) (leAt r 0 4) = none)
include hkeys

theorem does_kilnStreamCreate_badTarget (h : s.evidenceNs (byteAt r 4) = false ∨ s.indexCqOk (byteAt r 12) (leAt r 10 2) = false) :
    Does (.kilnStreamCreate tag record) s (s.complete 0 0 tag .fieldInvalid) :=
  does_onKiln exec_kilnStreamCreate hc (by simp [hr, hrange, hzero, hkeys, h])

variable (hns : s.evidenceNs (byteAt r 4) = true) (hcq : s.indexCqOk (byteAt r 12) (leAt r 10 2) = true)
include hns hcq

theorem does_kilnStreamCreate_inUse
    (h : (s.stream (namedStream c)).st ≠ .unused ∨ s.nsTaken (namedStream c) (byteAt r 4) = true) :
    Does (.kilnStreamCreate tag record) s (s.complete 0 0 tag .notInThisState) :=
  does_onKiln exec_kilnStreamCreate hc (by simp [hr, hrange, hzero, hkeys, hns, hcq, h])

theorem does_kilnStreamCreate_ok (hst : (s.stream (namedStream c)).st = .unused)
    (hfree : s.nsTaken (namedStream c) (byteAt r 4) = false) : Does (.kilnStreamCreate tag record) s
      (((s.withStream (namedStream c) fun _ => streamMade r (s.stream (namedStream c))).event 160).complete 0 0 tag .ok) :=
  does_onKiln exec_kilnStreamCreate hc (by
    simp only [hr, hrange, hzero, hkeys, hns, hcq, hfree, hst]
    rw [streamTo_withStream (by simp [hst])]
    rfl)

end KilnStreamCreate

/-! The seal engine of the lowest declared rate (R282) -/

/-- Of the numbers below k, m is the first at which r is least. -/
def FirstLeast (r : Nat → Nat) (k m : Nat) : Prop := m < k ∧ ∀ e < k, r m ≤ r e ∧ (r e = r m → m ≤ e)

theorem FirstLeast.one (r : Nat → Nat) : FirstLeast r 1 0 := by
  refine ⟨Nat.one_pos, fun e he => ?_⟩
  obtain rfl : e = 0 := by omega
  exact ⟨le_rfl, fun _ => le_rfl⟩

/-- The next number takes the place only with a lower rate. -/
theorem FirstLeast.next {r : Nat → Nat} {k m : Nat} (h : FirstLeast r k m) : FirstLeast r (k + 1) (if r k < r m then k else m) := by
  obtain ⟨hm, hleast⟩ := h
  have below_or_next : ∀ e < k + 1, e = k ∨ (e < k ∧ r m ≤ r e ∧ (r e = r m → m ≤ e)) := fun e he =>
    (Nat.lt_succ_iff_lt_or_eq.mp he).symm.imp_right fun hlt => ⟨hlt, hleast e hlt⟩
  split
  case isTrue hlow =>
    refine ⟨Nat.lt_succ_self k, fun e he => ?_⟩
    obtain rfl | ⟨_, hle, _⟩ := below_or_next e he
    · exact ⟨le_rfl, fun _ => le_rfl⟩
    · omega
  case isFalse hkeep =>
    refine ⟨Nat.lt_succ_of_lt hm, fun e he => ?_⟩
    obtain rfl | ⟨_, hle⟩ := below_or_next e he
    · omega
    · exact hle

theorem sealEngine_firstLeast (s : State) : FirstLeast s.engineRate 4 s.sealEngine :=
  (FirstLeast.one s.engineRate).next.next.next

/-! KILN_STREAM_OPEN (R281, R282, R291) -/

section KilnStreamOpen

variable {s : State} {tag : Nat} {c : Ctx} {x : Stream} (hc : s.starting? 0x29 0 0 tag = some c) (hx : s.stream (namedStream c) = x)
include hc hx

theorem does_kilnStreamOpen_unused (hst : x.st = .unused) : Does (.kilnStreamOpen tag) s (s.complete 0 0 tag .notInThisState) :=
  does_onKiln exec_kilnStreamOpen hc (by simp only [hx, hst, if_true])

variable (hst : x.st ≠ .unused)
include hst

theorem does_kilnStreamOpen_badKeys {st : Status} (hk : s.kilnKeysBad (x.keys.drop (x.cur.getD 0)) x.sid = some st) :
    Does (.kilnStreamOpen tag) s (s.complete 0 0 tag st) :=
  does_onKiln exec_kilnStreamOpen hc (by simp only [hx, hst, hk, if_false])

variable (hkeys : s.kilnKeysBad (x.keys.drop (x.cur.getD 0)) x.sid = none)
include hkeys

theorem does_kilnStreamOpen_noNs (hm : s.nsNamed x.ns = none) : Does (.kilnStreamOpen tag) s (s.complete 0 0 tag .fieldInvalid) :=
  does_onKiln exec_kilnStreamOpen hc (by simp only [hx, hst, hkeys, hm, if_false])

variable {m : Ns} (hm : s.nsNamed x.ns = some m)
include hm

/-- The namespace holds evidence, under no other STREAM_ID. -/
theorem does_kilnStreamOpen_badNs (h : m.evidence = false ∨ (m.streamId ≠ 0 ∧ m.streamId ≠ x.sid)) :
    Does (.kilnStreamOpen tag) s (s.complete 0 0 tag .fieldInvalid) :=
  does_onKiln exec_kilnStreamOpen hc (by simp [hx, hst, hkeys, hm, h])

variable (he : m.evidence = true) (hid : ¬ (m.streamId ≠ 0 ∧ m.streamId ≠ x.sid))
include he hid

theorem does_kilnStreamOpen_wrongState (h : x.st ≠ .closed ∨ x.openTag.isSome = true ∨ s.nsTaken (namedStream c) x.ns = true) :
    Does (.kilnStreamOpen tag) s (s.complete 0 0 tag .notInThisState) :=
  does_onKiln exec_kilnStreamOpen hc (by simp [hx, hst, hkeys, hm, he, hid, h])

variable (hcl : x.st = .closed) (hot : x.openTag = none) (hfree : s.nsTaken (namedStream c) x.ns = false)
omit hst
include hcl hot hfree

theorem does_kilnStreamOpen_noPort (h : (s.port m.port).st ≠ 2) :
    Does (.kilnStreamOpen tag) s (s.complete 0 0 tag .backendUnavailable) :=
  does_onKiln exec_kilnStreamOpen hc (by simp [hx, hkeys, hm, he, hid, hcl, hot, hfree, h])

variable (hp : (s.port m.port).st = 2)
include hp

theorem does_kilnStreamOpen_exhausted (h : s.kilnTotalsBad (namedStream c) = true) :
    Does (.kilnStreamOpen tag) s (s.complete 0 0 tag .poolExhausted) :=
  does_onKiln exec_kilnStreamOpen hc (by simp [hx, hkeys, hm, he, hid, hcl, hot, hfree, hp, h])

variable (htot : s.kilnTotalsBad (namedStream c) = false)
include htot

theorem does_kilnStreamOpen_keySpent (h : s.usableKey x = none) : Does (.kilnStreamOpen tag) s (s.complete 0 0 tag .keySpent) :=
  does_onKiln exec_kilnStreamOpen hc (by simp [hx, hkeys, hm, he, hid, hcl, hot, hfree, hp, htot, h])

/-- The OPEN waits for its lease; the write is the model's NVMe command 0x106 (log entry 63). -/
theorem does_kilnStreamOpen_starts (h : (s.usableKey x).isSome = true) : Does (.kilnStreamOpen tag) s
    (((s.markStarted 0 0 tag).withStream (namedStream c) fun y => { y with
      openTag := some tag, engine := some s.sealEngine, leaseWrite := some (m.lease + 1048576) }).emit
      (.nvme m.port 0 0x106 x.ns 0 0 (leBytes 4 x.sid ++ leBytes 8 (m.lease + 1048576)))) :=
  have hkey : (s.usableKey x).isNone = false := by rwa [Option.isNone_eq_false_iff]
  does_onKiln exec_kilnStreamOpen hc (by simp [hx, hkeys, hm, he, hid, hcl, hot, hfree, hp, htot, hkey])

end KilnStreamOpen

/-! KILN_STREAM_DELETE (Table 10-4) -/

/-- The stream that a DELETE leaves: UNUSED, without a binding and without a key in use. -/
def streamDeleted (x : Stream) : Stream := { x with st := .unused, bind := 0, cur := none }

section KilnStreamDelete

variable {s : State} {tag : Nat} {c : Ctx} (hc : s.starting? 0x2C 0 0 tag = some c)
include hc

theorem does_kilnStreamDelete_wrongState
    (h : (s.stream (namedStream c)).st ≠ .closed ∨ (s.stream (namedStream c)).openTag.isSome = true) :
    Does (.kilnStreamDelete tag) s (s.complete 0 0 tag .notInThisState) :=
  does_onKiln exec_kilnStreamDelete hc (if_pos h)

theorem does_kilnStreamDelete_ok (hst : (s.stream (namedStream c)).st = .closed) (hot : (s.stream (namedStream c)).openTag = none) :
    Does (.kilnStreamDelete tag) s
      (((s.withStream (namedStream c) fun _ => streamDeleted (s.stream (namedStream c))).event 160).complete 0 0 tag .ok) :=
  does_onKiln exec_kilnStreamDelete hc (by
    dsimp only
    rw [if_neg (by simp [hst, hot]), streamTo_withStream (by simp [hst])]
    rfl)

end KilnStreamDelete

/-- Settles O36: each command by its outcomes, in the order of its checks; the seal engine is the first of the lowest rate. -/
theorem kilnStreamsMade : Obligations.KilnStreamsMade := by
  refine fun s tag c => ⟨fun record hc => ⟨fun _ => does_kilnStreamCreate_noRecord hc, fun r hr => ?creates⟩, fun hc => ?opens, fun hc => ?deletes,
    sealEngine_firstLeast s⟩
  case creates =>
    exact ⟨does_kilnStreamCreate_outOfRange hc hr, does_kilnStreamCreate_badForm hc hr, fun hrange hzero =>
      ⟨fun _ => does_kilnStreamCreate_badKeys hc hr hrange hzero, fun hkeys =>
        ⟨does_kilnStreamCreate_badTarget hc hr hrange hzero hkeys, fun hns hcq =>
          ⟨does_kilnStreamCreate_inUse hc hr hrange hzero hkeys hns hcq, fun hst hfree =>
            ⟨streamMade r (s.stream (namedStream c)), rfl, rfl, rfl, rfl, rfl, rfl, rfl, rfl, rfl,
              does_kilnStreamCreate_ok hc hr hrange hzero hkeys hns hcq hst hfree⟩⟩⟩⟩⟩
  case opens =>
    refine ⟨does_kilnStreamOpen_unused hc rfl, fun _ hst => does_kilnStreamOpen_badKeys hc rfl hst, fun hst hkeys =>
      ⟨does_kilnStreamOpen_noNs hc rfl hst hkeys, fun m hm => ⟨does_kilnStreamOpen_badNs hc rfl hst hkeys hm, fun he hid => ?_⟩⟩⟩
    have hid : ¬ (m.streamId ≠ 0 ∧ m.streamId ≠ (s.stream (namedStream c)).sid) := fun h => hid.elim h.1 h.2
    exact ⟨does_kilnStreamOpen_wrongState hc rfl hst hkeys hm he hid, fun hcl hot hfree =>
      ⟨does_kilnStreamOpen_noPort hc rfl hkeys hm he hid hcl hot hfree, fun hp =>
        ⟨does_kilnStreamOpen_exhausted hc rfl hkeys hm he hid hcl hot hfree hp,
          does_kilnStreamOpen_keySpent hc rfl hkeys hm he hid hcl hot hfree hp,
          does_kilnStreamOpen_starts hc rfl hkeys hm he hid hcl hot hfree hp⟩⟩⟩
  case deletes =>
    exact ⟨does_kilnStreamDelete_wrongState hc, fun hst hot =>
      ⟨streamDeleted (s.stream (namedStream c)), rfl, rfl, rfl, rfl, rfl, does_kilnStreamDelete_ok hc hst hot⟩⟩

end Sys2Proof.Laws
end

section
/-! PROOFS. Kiln streams in hand (R283, R284, R302, Table 10-4): CLOSE, KEYS, GET and INDEX by their outcomes, in the order of their checks.
The hypotheses of a section gather as the checks pass. -/

namespace Sys2Proof.Laws

open Sys2Proof.Machine

/-- KEYS and INDEX refuse a stream in the states that they do not name (Table 10-4). -/
theorem not_inHand_iff {st : StreamState} : (st ≠ .closed ∧ st ≠ .opened ∧ st ≠ .paused) ↔ st = .unused ∨ st = .closing := by
  cases st <;> decide

/-! KILN_STREAM_CLOSE (R283) -/

/-- A stream that closes: what it queued is dropped and counted, and the CLOSE in hand is noted (log entry 59). -/
def streamFlushed (s : State) (tag i : Nat) : State :=
  ((s.markStarted 0 0 tag).dadd (streamIdx i) 0x0B (s.stream i).queue.length).withStream i fun y => { y with
    queue := [], closeTag := some tag }

theorem kilnFlush_markStarted (s : State) (tag i : Nat) :
    (((s.markStarted 0 0 tag).kilnFlush i).withStream i fun y => { y with closeTag := some tag }) = streamFlushed s tag i := by
  rw [State.kilnFlush, withStream_twice]
  rfl

theorem stream_streamFlushed (s : State) (tag i : Nat) :
    (streamFlushed s tag i).stream i = { s.stream i with queue := [], closeTag := some tag } :=
  stream_withStream _ _ _

/-- A stream is CLOSED and unbound, and the CLOSE in hand answers with the last segment committed. -/
theorem streamClosed_closing {s : State} {i tag : Nat} (h : (s.stream i).closeTag = some tag) :
    s.streamClosed i .ok = ((s.streamTo i .closed).withStream i fun y => { y with
      engine := none, ports := [], closeTag := none }).complete 0 0 tag .ok (s.stream i).lastCommitted := by
  simp only [State.streamClosed, h, if_true]

section KilnStreamClose

variable {s : State} {tag : Nat} {c : Ctx} (hc : s.starting? 0x2A 0 0 tag = some c)
include hc

theorem does_kilnStreamClose_wrongState (ho : (s.stream (namedStream c)).st ≠ .opened) (hp : (s.stream (namedStream c)).st ≠ .paused) :
    Does (.kilnStreamClose tag) s (s.complete 0 0 tag .notInThisState) :=
  does_onKiln exec_kilnStreamClose hc (if_pos ⟨ho, hp⟩)

variable (hst : (s.stream (namedStream c)).st = .opened ∨ (s.stream (namedStream c)).st = .paused)
include hst

/-- Of a stream that is OPEN or PAUSED, whether a segment is open decides. -/
theorem does_kilnStreamClose_inHand : Does (.kilnStreamClose tag) s
    (if (s.stream (namedStream c)).openSeg.isSome then
      (((streamFlushed s tag (namedStream c)).closeSeg (namedStream c) 3).streamTo (namedStream c) .closing).closingSettle (namedStream c)
    else (streamFlushed s tag (namedStream c)).streamClosed (namedStream c) .ok) :=
  does_onKiln exec_kilnStreamClose hc (by
    dsimp only
    rw [if_neg fun h => hst.elim h.1 h.2, kilnFlush_markStarted])

theorem does_kilnStreamClose_segment (h : (s.stream (namedStream c)).openSeg.isSome = true) : Does (.kilnStreamClose tag) s
    ((((streamFlushed s tag (namedStream c)).closeSeg (namedStream c) 3).streamTo (namedStream c) .closing).closingSettle (namedStream c)) :=
  (does_branches (does_kilnStreamClose_inHand hc hst)).1 h

theorem does_kilnStreamClose_noSegment (h : (s.stream (namedStream c)).openSeg = none) : Does (.kilnStreamClose tag) s
    ((((streamFlushed s tag (namedStream c)).streamTo (namedStream c) .closed).withStream (namedStream c) fun y => { y with
      engine := none, ports := [], closeTag := none }).complete 0 0 tag .ok (s.stream (namedStream c)).lastCommitted) := by
  have hclosed := (does_branches (does_kilnStreamClose_inHand hc hst)).2 (by simp [h])
  rwa [streamClosed_closing (tag := tag) (by rw [stream_streamFlushed]), stream_streamFlushed] at hclosed

end KilnStreamClose

/-! KILN_STREAM_KEYS (R284, log entry 64) -/

/-- The key list after a KEYS: the key in use, then the new ones, eight in all. -/
def keysInForce (x : Stream) (new : List Nat) : List Nat :=
  ((match x.slot with
    | some k => [k]
    | none => []) ++ new).take 8

/-- A stream whose record lists other keys; the key in use, if there is one, is the first of them. -/
def streamRekeyed (keys : List Nat) (y : Stream) : Stream :=
  let enc := (keys.map (leBytes 2)).flatten
  { y with cur := y.cur.map fun _ => 0, record := overlay y.record 20 (enc ++ List.replicate (16 - enc.length) 0xFF) }

theorem keyOut_iff {l : List Nat} : (l.any fun k => decide (4095 < k)) = true ↔ ∃ k ∈ l, 4095 < k := by
  simp only [List.any_eq_true, decide_eq_true_eq]

theorem not_keyOut {l : List Nat} (h : ∀ k ∈ l, k ≤ 4095) : ¬ (l.any fun k => decide (4095 < k)) = true := by
  rw [keyOut_iff]
  rintro ⟨k, hk, hlt⟩
  exact absurd (h k hk) hlt.not_ge

section KilnStreamKeys

variable {s : State} {tag : Nat} {list : HostRead} {c : Ctx} (hc : s.starting? 0x2B 0 0 tag = some c)
include hc

theorem does_kilnStreamKeys_noList {st : Status} (hb : s.kilnBuffer c 16 list = .error st) :
    Does (.kilnStreamKeys tag list) s (s.complete 0 0 tag st) :=
  does_onKiln exec_kilnStreamKeys hc (by simp only [hb])

variable {b : Bytes} (hb : s.kilnBuffer c 16 list = .ok b)
include hb

theorem does_kilnStreamKeys_outOfRange (h : ∃ k ∈ keyList b, 4095 < k) :
    Does (.kilnStreamKeys tag list) s (s.complete 0 0 tag .outOfRange) :=
  does_onKiln exec_kilnStreamKeys hc (by
    rw [hb]
    exact if_pos (keyOut_iff.mpr h))

variable (hrange : ∀ k ∈ keyList b, k ≤ 4095)
include hrange

theorem does_kilnStreamKeys_badKeys {st : Status} (h : s.kilnKeysBad (keyList b) (s.stream (namedStream c)).sid = some st) :
    Does (.kilnStreamKeys tag list) s (s.complete 0 0 tag st) :=
  does_onKiln exec_kilnStreamKeys hc (by
    simp only [hb, h]
    exact if_neg (not_keyOut hrange))

variable (hkeys : s.kilnKeysBad (keyList b) (s.stream (namedStream c)).sid = none)
include hkeys

/-- With keys that are good the stream's state decides; a stream that ran out of keys goes on when one of them is usable. -/
theorem does_kilnStreamKeys_good :
    let x := s.stream (namedStream c)
    let keys := keysInForce x (keyList b)
    let u := s.withStream (namedStream c) (streamRekeyed keys)
    Does (.kilnStreamKeys tag list) s (if x.st = .unused ∨ x.st = .closing then s.complete 0 0 tag .notInThisState
      else (if x.st = .paused ∧ x.cause = Status.keySpent.code ∧ (u.usableKey (u.stream (namedStream c))).isSome then
        u.streamTo (namedStream c) .opened else u).complete 0 0 tag .ok (keys.length - 1)) :=
  does_onKiln exec_kilnStreamKeys hc (by
    simp only [hb, hkeys]
    refine (if_neg (not_keyOut hrange)).trans (if_congr not_inHand_iff rfl ?_)
    simp only [stream_withStream]
    rfl)

end KilnStreamKeys

/-! KILN_STREAM_GET (Table 10-4) -/

section KilnStreamGet

variable {s : State} {tag : Nat} {buf : HostRead} {c : Ctx} (hc : s.starting? 0x2D 0 0 tag = some c)
include hc

theorem does_kilnStreamGet_notOwned (h : s.descOwn 0 (descAt c.entry 8) = false) :
    Does (.kilnStreamGet tag buf) s (s.complete 0 0 tag .notYourInstance) :=
  does_onKiln exec_kilnStreamGet hc (if_pos (by simp [h]))

variable (hd : s.descOwn 0 (descAt c.entry 8) = true)
include hd

theorem does_kilnStreamGet_short (hl : (descAt c.entry 8).list = false) (h : (descAt c.entry 8).len < 64) :
    Does (.kilnStreamGet tag buf) s (s.complete 0 0 tag .outOfRange) :=
  does_onKiln exec_kilnStreamGet hc (by simp [hd, hl, h])

variable (hlen : (descAt c.entry 8).list = true ∨ 64 ≤ (descAt c.entry 8).len)
include hlen

/-- Into a buffer that holds it, the record of any stream but one UNUSED is written. -/
theorem does_kilnStreamGet_fits :
    let w := s.scatter 0 (descAt c.entry 8) 0 buf (s.stream (namedStream c)).record
    Does (.kilnStreamGet tag buf) s (if (s.stream (namedStream c)).st = .unused then s.complete 0 0 tag .notInThisState
      else w.1.complete 0 0 tag (w.2.getD .ok)) :=
  have hfits : ¬ ((!(descAt c.entry 8).list) = true ∧ (descAt c.entry 8).len < 64) := by simpa [imp_iff_not_or] using hlen
  does_onKiln exec_kilnStreamGet hc ((if_neg (by simp [hd])).trans (if_neg hfits))

end KilnStreamGet

/-! KILN_STREAM_INDEX (R302) -/

/-- INDEX_CQ of a KILN_STREAM_INDEX (Table 10-4). -/
@[reducible] def indexCq (c : Ctx) : Nat := bits (dw c.entry 2) 0 16

/-- INDEX_INSTANCE of a KILN_STREAM_INDEX (Table 10-4). -/
@[reducible] def indexInstance (c : Ctx) : Nat := bits (dw c.entry 2) 16 6

/-- A stream whose index goes to the CQ that the command names, in its record too. -/
def streamIndexed (c : Ctx) (y : Stream) : Stream :=
  { y with
    bind := 1, bindFn := indexInstance c, bindCq := indexCq c
    record := overlay (overlay y.record 10 (leBytes 2 (indexCq c) ++ leBytes 1 (indexInstance c))) 7
      (leBytes 1 (bits (dw c.entry 2) 22 1)) }

section KilnStreamIndex

variable {s : State} {tag : Nat} {c : Ctx} (hc : s.starting? 0x2E 0 0 tag = some c)
include hc

theorem does_kilnStreamIndex_zero (h : indexCq c = 0) : Does (.kilnStreamIndex tag) s (s.complete 0 0 tag .outOfRange) :=
  does_onKiln exec_kilnStreamIndex hc (if_pos h)

variable (h0 : indexCq c ≠ 0)
include h0

theorem does_kilnStreamIndex_noCq (h : s.cq? (indexInstance c) (indexCq c) = none) :
    Does (.kilnStreamIndex tag) s (s.complete 0 0 tag .fieldInvalid) :=
  does_onKiln exec_kilnStreamIndex hc ((if_neg h0).trans (if_pos (by simp [State.indexCqOk, h])))

variable (hq : (s.cq? (indexInstance c) (indexCq c)).isSome = true)
include hq

/-- To a CQ that is there, the index of a stream in hand is bound. -/
theorem does_kilnStreamIndex_cq : Does (.kilnStreamIndex tag) s
    (if (s.stream (namedStream c)).st = .unused ∨ (s.stream (namedStream c)).st = .closing then s.complete 0 0 tag .notInThisState
    else ((s.withStream (namedStream c) (streamIndexed c)).rangePost (namedStream c)).complete 0 0 tag .ok
      (s.dget (streamIdx (namedStream c)) 0x0D)) :=
  does_onKiln exec_kilnStreamIndex hc ((if_neg h0).trans ((if_neg (by simp [State.indexCqOk, hq, h0])).trans
    (if_congr not_inHand_iff rfl rfl)))

end KilnStreamIndex

/-- Settles O37: each command by its outcomes, in the order of its checks. -/
theorem kilnStreamsManaged : Obligations.KilnStreamsManaged := by
  refine fun s tag c => ⟨fun hc => ?closes, fun list hc => ?keys, fun buf hc => ?gets, fun hc => ?indexes⟩
  case closes =>
    exact ⟨does_kilnStreamClose_wrongState hc, fun hst =>
      ⟨does_kilnStreamClose_segment hc hst, does_kilnStreamClose_noSegment hc hst⟩⟩
  case keys =>
    exact ⟨fun _ => does_kilnStreamKeys_noList hc, fun b hb => ⟨does_kilnStreamKeys_outOfRange hc hb,
      fun _ hrange => does_kilnStreamKeys_badKeys hc hb hrange,
      fun hrange hkeys => (does_branches (does_kilnStreamKeys_good hc hb hrange hkeys)).1,
      fun hrange hkeys hun hcl => (does_branches (does_kilnStreamKeys_good hc hb hrange hkeys)).2 (not_or.mpr ⟨hun, hcl⟩)⟩⟩
  case gets =>
    exact ⟨does_kilnStreamGet_notOwned hc, does_kilnStreamGet_short hc,
      fun hd hlen => (does_branches (does_kilnStreamGet_fits hc hd hlen)).1,
      fun hd hlen => (does_branches (does_kilnStreamGet_fits hc hd hlen)).2⟩
  case indexes =>
    exact ⟨does_kilnStreamIndex_zero hc, does_kilnStreamIndex_noCq hc,
      fun h0 hq => (does_branches (does_kilnStreamIndex_cq hc h0 hq)).1,
      fun h0 hq hun hcl => (does_branches (does_kilnStreamIndex_cq hc h0 hq)).2 (not_or.mpr ⟨hun, hcl⟩)⟩

end Sys2Proof.Laws
end

section
/-! PROOFS. What a cipher job gives (R316, R317). A key stream covers its message, so a message under it twice is the message again; the tag
of GCM and ChaCha20-Poly1305 is over the ciphertext, that of CCM over the plaintext, and both sides of a job know both. -/

namespace Sys2Proof.Laws

open Sys2Proof.Machine

/-! Byte strings: exclusive or, pieces, and their lengths -/

@[simp] theorem beBytes_length (k n : Nat) : (beBytes k n).length = k := by
  simp [beBytes]

theorem xorBytes_length (a b : Bytes) : (xorBytes a b).length = min a.length b.length := by
  simp [xorBytes]

theorem xorBytes_xorBytes {a k : Bytes} (h : a.length ≤ k.length) : xorBytes (xorBytes a k) k = a := by
  induction a generalizing k with
  | nil => rfl
  | cons x a ih =>
    cases k with
    | nil => simp at h
    | cons y k =>
      have htail := ih (k := k) (by simpa using h)
      simp only [xorBytes, List.zip_cons_cons, List.map_cons] at htail ⊢
      rw [htail, BitVec.xor_assoc, BitVec.xor_self, BitVec.xor_zero]

/-- The bytes of words that all have one length. -/
theorem flatten_length_of_forall {n : Nat} {l : List Bytes} (h : ∀ x ∈ l, x.length = n) : l.flatten.length = l.length * n := by
  rw [List.length_flatten, List.map_congr_left h, List.map_const', List.sum_replicate, smul_eq_mul]

section Chunks

variable {n : Nat} (hn : 0 < n)
include hn

/-- A string of m pieces of n bytes: a piece first, and a string of one piece less. -/
theorem chunks_succ {m f : Nat} {b : Bytes} (hb : b.length = n * (m + 1)) : chunks n (f + 1) b = b.take n :: chunks n f (b.drop n) := by
  have hpos : b.length ≠ 0 := by
    rw [hb]
    positivity
  rw [chunks, if_neg (by simpa using hpos)]

theorem chunks_length {m f : Nat} {b : Bytes} (hb : b.length = n * m) (hf : m ≤ f) : (chunks n f b).length = m := by
  induction m generalizing f b with
  | zero =>
    obtain rfl : b = [] := List.length_eq_zero_iff.mp (by simpa using hb)
    cases f <;> rfl
  | succ m ih =>
    obtain ⟨f, rfl⟩ : ∃ k, f = k + 1 := ⟨f - 1, by omega⟩
    rw [chunks_succ hn hb, List.length_cons, ih (by rw [List.length_drop, hb, Nat.mul_succ, Nat.add_sub_cancel]) (by omega)]

theorem length_of_mem_chunks {m f : Nat} {b : Bytes} (hb : b.length = n * m) : ∀ x ∈ chunks n f b, x.length = n := by
  induction f generalizing m b with
  | zero => simp [chunks]
  | succ f ih =>
    cases m with
    | zero =>
      obtain rfl : b = [] := List.length_eq_zero_iff.mp (by simpa using hb)
      simp [chunks]
    | succ m =>
      rw [chunks_succ hn hb, List.forall_mem_cons]
      rw [Nat.mul_succ] at hb
      exact ⟨by rw [List.length_take, hb]; omega, ih (by rw [List.length_drop, hb, Nat.add_sub_cancel])⟩

theorem chunksOf_length {m : Nat} {b : Bytes} (hb : b.length = n * m) : (chunksOf n b).length = m :=
  chunks_length hn hb (hb ▸ Nat.le_succ_of_le (Nat.le_mul_of_pos_left m hn))

theorem length_of_mem_chunksOf {m : Nat} {b : Bytes} (hb : b.length = n * m) : ∀ x ∈ chunksOf n b, x.length = n :=
  length_of_mem_chunks hn hb

end Chunks

/-! AES (FIPS 197): a key of a standard length expands to round keys of a block each, and a block is encrypted to a block -/

/-- A first and a last round key, all of them blocks. -/
def RoundKeys (ks : List Bytes) : Prop := 2 ≤ ks.length ∧ ∀ k ∈ ks, k.length = 16

/-- The key schedule adds one word of four bytes at a time, made from the newest and from the one nk words before. -/
theorem aesExpand_words {nk n i : Nat} {rc : Byte} {l : List Bytes} (hnk : 0 < nk) (hl : nk ≤ l.length) (hw : ∀ w ∈ l, w.length = 4) :
    (aesExpand nk n i rc l).length = l.length + n ∧ ∀ w ∈ aesExpand nk n i rc l, w.length = 4 := by
  induction n generalizing i rc l with
  | zero => exact ⟨rfl, hw⟩
  | succ n ih =>
    have word {k : Nat} (hk : k < l.length) : (l[k]?.getD []).length = 4 := by
      rw [List.getElem?_eq_getElem hk]
      exact hw _ (List.getElem_mem hk)
    have next {w : Bytes} {rc : Byte} (h : w.length = 4) := ih (i := i + 1) (rc := rc) (l := w :: l) (Nat.le_succ_of_le hl)
      (List.forall_mem_cons.mpr ⟨h, hw⟩)
    have hold := word (k := nk - 1) (by omega)
    have hprev := word (k := 0) (by omega)
    simp only [List.length_cons, Nat.succ_add_eq_add_succ] at next
    rw [aesExpand]
    split_ifs
    · exact next (by simp [xorBytes_length, hold, hprev])
    · exact next (by simp [xorBytes_length, hold, hprev])
    · exact next (by simp [xorBytes_length, hold, hprev])

theorem roundKeys_aesKeys {nk : Nat} {key : Bytes} (hnk : 0 < nk) (h : key.length = 4 * nk) : RoundKeys (aesKeys key) := by
  have hdiv : key.length / 4 = nk := by omega
  obtain ⟨hcount, hwords⟩ := aesExpand_words (n := 4 * (nk + 7) - nk) (i := nk) (rc := 1) (l := (chunksOf 4 key).reverse) hnk
    (by rw [List.length_reverse, chunksOf_length (by decide) h])
    (fun w hw => length_of_mem_chunksOf (by decide) h w (List.mem_reverse.mp hw))
  rw [List.length_reverse, chunksOf_length (by decide) h] at hcount
  have hbytes : (aesExpand nk (4 * (nk + 7) - nk) nk 1 (chunksOf 4 key).reverse).reverse.flatten.length = 16 * (nk + 7) := by
    rw [flatten_length_of_forall (fun w hw => hwords w (List.mem_reverse.mp hw)), List.length_reverse, hcount]
    omega
  simp only [RoundKeys, aesKeys, hdiv]
  exact ⟨by rw [chunksOf_length (by decide) hbytes]; omega, length_of_mem_chunksOf (by decide) hbytes⟩

@[simp] theorem shiftRows_length (s : Bytes) : (shiftRows s).length = 16 := by
  simp [shiftRows]

/-- ShiftRows lays out a block, whatever it is given. -/
theorem aesEnc_length {ks : List Bytes} (hk : RoundKeys ks) (b : Bytes) : (aesEnc ks b).length = 16 := by
  obtain ⟨htwo, hlen⟩ := hk
  match ks, htwo with
  | k0 :: k1 :: t, _ =>
    obtain ⟨h0, hrest⟩ := List.forall_mem_cons.mp hlen
    rw [aesEnc, List.getLastD_eq_getLast?, List.getLast?_eq_some_getLast (List.cons_ne_nil k1 t), Option.getD_some]
    simp [xorBytes_length, hrest _ (List.getLast_mem (List.cons_ne_nil k1 t))]

/-! Key streams -/

/-- A message under a key stream of blocks: as many as cover it. -/
def underStream (blk : Nat) (stream : Nat → Bytes) (m : Bytes) : Bytes := xorBytes m (stream (ceilDiv m.length blk))

theorem le_mul_ceilDiv {blk : Nat} (n : Nat) (h : 0 < blk) : n ≤ blk * ceilDiv n blk := by
  have hdiv := Nat.div_add_mod (n + blk - 1) blk
  have hmod := Nat.mod_lt (n + blk - 1) h
  rw [ceilDiv]
  omega

section UnderStream

variable {blk : Nat} {stream : Nat → Bytes} (hblk : 0 < blk) (hs : ∀ n, (stream n).length = blk * n)
include hblk hs

theorem underStream_length (m : Bytes) : (underStream blk stream m).length = m.length := by
  rw [underStream, xorBytes_length, hs, Nat.min_eq_left (le_mul_ceilDiv _ hblk)]

theorem underStream_underStream (m : Bytes) : underStream blk stream (underStream blk stream m) = m := by
  have hlen := underStream_length hblk hs m
  rw [underStream, hlen, underStream, xorBytes_xorBytes (by rw [hs]; exact le_mul_ceilDiv _ hblk)]

end UnderStream

theorem ctrStream_length {ks : List Bytes} (hk : RoundKeys ks) (w n c : Nat) : (ctrStream ks w n c).length = 16 * n := by
  induction n generalizing c with
  | zero => rfl
  | succ n ih => rw [ctrStream, List.length_append, aesEnc_length hk, ih, Nat.mul_succ, Nat.add_comm]

section Aes

variable {ks : List Bytes} (hk : RoundKeys ks) (w c : Nat) (m : Bytes)
include hk

theorem aesCtr_length : (aesCtr ks w c m).length = m.length :=
  underStream_length (stream := fun n => ctrStream ks w n c) (by decide) (fun n => ctrStream_length hk w n c) m

theorem aesCtr_aesCtr : aesCtr ks w c (aesCtr ks w c m) = m :=
  underStream_underStream (stream := fun n => ctrStream ks w n c) (by decide) (fun n => ctrStream_length hk w n c) m

end Aes

/-! ChaCha20 (RFC 8439): a key of 32 bytes and a nonce of 12 fill the state's sixteen words -/

theorem chachaDouble_length (s : List Nat) : (chachaDouble s).length = s.length := by
  simp [chachaDouble, chachaQuarter]

theorem chachaRounds_length {α : Type} (l : List α) (s : List Nat) : (l.foldl (fun s _ => chachaDouble s) s).length = s.length := by
  induction l generalizing s with
  | nil => rfl
  | cons _ l ih => rw [List.foldl_cons, ih, chachaDouble_length]

section ChaCha

variable {key nonce : Bytes} (hkey : key.length = 32) (hnonce : nonce.length = 12)
include hkey hnonce

theorem chachaBlock_length (ctr : Nat) : (chachaBlock key nonce ctr).length = 64 := by
  rw [chachaBlock, flatten_length_of_forall (n := 4) (List.forall_mem_map.mpr fun _ _ => leBytes_length 4 _)]
  simp [chachaRounds_length, chunksOf_length (n := 4) (m := 8) (by decide) hkey, chunksOf_length (n := 4) (m := 3) (by decide) hnonce]

theorem chachaStream_length (n c : Nat) : (chachaStream key nonce n c).length = 64 * n := by
  induction n generalizing c with
  | zero => rfl
  | succ n ih => rw [chachaStream, List.length_append, chachaBlock_length hkey hnonce, ih, Nat.mul_succ, Nat.add_comm]

end ChaCha

/-! Sealing and opening: the three modes with a tag -/

/-- What f seals of m, f opens: the ciphertext has the message's length, and opened it gives the message and the tag again. -/
structure OpensSealed (f : Bytes → Bool → Bytes × Bytes) (m : Bytes) : Prop where
  length : (f m true).1.length = m.length
  opened : f (f m true).1 false = (m, (f m true).2)

theorem aesGcm_opensSealed {key : Bytes} (hk : RoundKeys (aesKeys key)) (iv aad m : Bytes) : OpensSealed (aesGcm key iv aad) m where
  length := aesCtr_length hk _ _ m
  opened := by simp [aesGcm, aesCtr_aesCtr hk]

theorem aesCcm_opensSealed {key : Bytes} (hk : RoundKeys (aesKeys key)) (nonce aad m : Bytes) (tlen : Nat) :
    OpensSealed (fun x => aesCcm key nonce aad x tlen) m where
  length := aesCtr_length hk _ _ m
  opened := by
    have hundo := fun c => aesCtr_aesCtr hk (8 * (15 - nonce.length)) c m
    simp only [aesCtr] at hundo
    simp [aesCcm, hundo]

theorem chachaPoly_opensSealed {key nonce : Bytes} (hkey : key.length = 32) (hnonce : nonce.length = 12) (aad m : Bytes) :
    OpensSealed (chachaPoly key nonce aad) m := by
  have hs := fun n => chachaStream_length hkey hnonce n 1
  have hundo := underStream_underStream (by decide) hs m
  simp only [underStream] at hundo
  exact ⟨underStream_length (by decide) hs m, by simp [chachaPoly, hundo]⟩

/-! What a job answers from them (R316, R317) -/

/-- What a job that seals writes to DST. -/
def sealedOut (tl : Nat) (r : Bytes × Bytes) : Except (Status × Nat) Bytes := .ok (r.1 ++ r.2.take tl)

/-- What a job that opens n bytes answers, with the tag that it is to find. -/
def openedOut (tl : Nat) (want : Bytes) (n : Nat) (r : Bytes × Bytes) : Except (Status × Nat) Bytes :=
  if r.2.take tl = want then .ok r.1 else .error (.authTagMismatch, n)

/-- What a job that generates a tag writes to DST. -/
def generatedOut (tl : Nat) (t : Bytes) : Except (Status × Nat) Bytes := .ok (t.take tl)

/-- What a job that verifies a tag answers. -/
def verifiedOut (tl : Nat) (want t : Bytes) : Except (Status × Nat) Bytes :=
  if t.take tl = want then .ok [] else .error (.authTagMismatch, 0)

/-- The output of a job that seals, its tag taken off and wanted by the job that opens the rest. -/
theorem openedOut_sealedOut {f : Bytes → Bool → Bytes × Bytes} {src out want : Bytes} {tl : Nat} (hf : OpensSealed f src)
    (hout : sealedOut tl (f src true) = .ok out) :
    out.length = src.length + (out.drop src.length).length
    ∧ (want = out.drop src.length → openedOut tl want (out.take src.length).length (f (out.take src.length) false) = .ok src)
    ∧ (want ≠ out.drop src.length →
        openedOut tl want (out.take src.length).length (f (out.take src.length) false) = .error (.authTagMismatch, src.length)) := by
  obtain ⟨hlen, hopen⟩ := hf
  obtain rfl := Except.ok.inj hout
  have htake : ((f src true).1 ++ (f src true).2.take tl).take src.length = (f src true).1 := List.take_left' hlen
  have hdrop : ((f src true).1 ++ (f src true).2.take tl).drop src.length = (f src true).2.take tl := List.drop_left' hlen
  rw [htake, hdrop, hopen, hlen, openedOut]
  exact ⟨by rw [List.length_append, hlen], fun h => if_pos h.symm, fun h => if_neg (Ne.symm h)⟩

theorem verifiedOut_generatedOut {t out want : Bytes} {tl : Nat} (hout : generatedOut tl t = .ok out) :
    out.length ≤ tl ∧ (want = out → verifiedOut tl want t = .ok [])
    ∧ (want ≠ out → verifiedOut tl want t = .error (.authTagMismatch, 0)) := by
  obtain rfl := Except.ok.inj hout
  exact ⟨List.length_take_le _ _, fun h => if_pos h.symm, fun h => if_neg (Ne.symm h)⟩

/-- The HMAC of a slot's KEY_TYPE (Table 11-7). -/
def hmacOf (type : Nat) (key m : Bytes) : Bytes := if type = 7 then hmac sha256Hash 64 key m else hmac sha384Hash 128 key m

section Compute

variable {type : Nat} {e key m aad : Bytes}

theorem cipherCompute_gcmEncrypt : cipherCompute 0x60 type e key m aad = sealedOut (cjTagLen e) (aesGcm key (cjIv e) aad m true) := rfl

theorem cipherCompute_gcmDecrypt : cipherCompute 0x61 type e key m aad =
    openedOut (cjTagLen e) (sub e 96 (cjTagLen e)) m.length (aesGcm key (cjIv e) aad m false) := rfl

theorem cipherCompute_ccmEncrypt : cipherCompute 0x62 type e key m aad =
    sealedOut (cjTagLen e) (aesCcm key (cjIv e) aad m (cjTagLen e) true) := rfl

theorem cipherCompute_ccmDecrypt : cipherCompute 0x63 type e key m aad =
    openedOut (cjTagLen e) (sub e 96 (cjTagLen e)) m.length (aesCcm key (cjIv e) aad m (cjTagLen e) false) := rfl

theorem cipherCompute_ctr : cipherCompute 0x64 type e key m aad = .ok (aesCtr (aesKeys key) 128 (beNat (cjIv e)) m) := rfl

theorem cipherCompute_chachaEncrypt : cipherCompute 0x69 type e key m aad =
    sealedOut (cjTagLen e) (chachaPoly key (cjIv e) aad m true) := rfl

theorem cipherCompute_chachaDecrypt : cipherCompute 0x6A type e key m aad =
    openedOut (cjTagLen e) (sub e 96 (cjTagLen e)) m.length (chachaPoly key (cjIv e) aad m false) := rfl

theorem cipherCompute_cmacGenerate : cipherCompute 0x6B type e key m aad = generatedOut (cjTagLen e) (aesCmac key m) := rfl

theorem cipherCompute_cmacVerify : cipherCompute 0x6C type e key m aad =
    verifiedOut (cjTagLen e) (sub e 96 (cjTagLen e)) (aesCmac key m) := rfl

theorem cipherCompute_hmacGenerate : cipherCompute 0x6F type e key m aad = generatedOut (cjTagLen e) (hmacOf type key m) := rfl

theorem cipherCompute_hmacVerify : cipherCompute 0x70 type e key m aad =
    verifiedOut (cjTagLen e) (sub e 96 (cjTagLen e)) (hmacOf type key m) := rfl

end Compute

/-- Settles O40: each mode with a tag opens what it sealed, CTR undoes itself, and a tag is verified by making it again. -/
theorem cipherInverse : Obligations.CipherInverse := by
  intro type e d key src aad hiv htl hkey
  have hk : RoundKeys (aesKeys key) := by
    obtain h | h | h := hkey
    · exact roundKeys_aesKeys (nk := 4) (by decide) h
    · exact roundKeys_aesKeys (nk := 6) (by decide) h
    · exact roundKeys_aesKeys (nk := 8) (by decide) h
  simp only [List.forall_mem_cons]
  refine ⟨⟨fun _ out hout => ?gcm, fun _ out hout => ?ccm, fun hlen out hout => ?chacha, List.forall_mem_nil _⟩, fun out hout => ?ctr,
    fun out hout => ?cmac, fun out hout => ?hmac, List.forall_mem_nil _⟩
  case gcm =>
    rw [cipherCompute_gcmDecrypt, hiv, htl]
    exact openedOut_sealedOut (aesGcm_opensSealed hk (cjIv e) aad src) hout
  case ccm =>
    rw [cipherCompute_ccmDecrypt, hiv, htl]
    exact openedOut_sealedOut (aesCcm_opensSealed hk (cjIv e) aad src (cjTagLen e)) hout
  case chacha =>
    obtain ⟨hkey32, hiv12⟩ := hlen trivial
    rw [cipherCompute_chachaDecrypt, hiv, htl]
    exact openedOut_sealedOut (chachaPoly_opensSealed hkey32 hiv12 aad src) hout
  case ctr =>
    rw [cipherCompute_ctr] at hout ⊢
    obtain rfl := Except.ok.inj hout
    rw [hiv, aesCtr_aesCtr hk]
  case cmac =>
    rw [cipherCompute_cmacVerify, htl]
    exact verifiedOut_generatedOut hout
  case hmac =>
    rw [cipherCompute_hmacVerify, htl]
    exact verifiedOut_generatedOut hout

end Sys2Proof.Laws
end

section
/-! PROOFS. Cipher jobs and the engines (R310–R319, R322, R326, Tables 11-3 to 11-6, 11-10): the 17 commands by their checks, the checks of
an engine and of a slot, the start and the end of a job, and the writes to HST_ELOCKe. -/

namespace Sys2Proof.Laws

open Sys2Proof.Machine

/-! The 17 commands (Table 11-5) -/

/-- The opcodes of the cipher jobs with the rows that are theirs. -/
@[reducible] def cipherRows (n q tag : Nat) : List (Nat × Instr) :=
  [(0x60, .gcmEncrypt n q tag), (0x61, .gcmDecrypt n q tag), (0x62, .ccmEncrypt n q tag), (0x63, .ccmDecrypt n q tag),
    (0x64, .ctr n q tag), (0x65, .cbcEncrypt n q tag), (0x66, .cbcDecrypt n q tag), (0x67, .xtsEncrypt n q tag),
    (0x68, .xtsDecrypt n q tag), (0x69, .chacha20Poly1305Encrypt n q tag), (0x6A, .chacha20Poly1305Decrypt n q tag),
    (0x6B, .cmacGenerate n q tag), (0x6C, .cmacVerify n q tag), (0x6D, .sha256 n q tag), (0x6E, .sha384 n q tag),
    (0x6F, .hmacGenerate n q tag), (0x70, .hmacVerify n q tag)]

section Submit

variable {s : State} {n q tag op : Nat} {c : Ctx} {p : Nat × Instr}

theorem exec_cipherRow (hp : p ∈ cipherRows n q tag) :
    exec p.2 s = onCommand p.1 n q tag s fun c s => s.cipherSubmit c p.1 := by
  fin_cases hp <;> rfl

/-- Only a hash uses no slot. -/
theorem cipherRow_mode_eq_zero (hp : p ∈ cipherRows n q tag) : (cipherKind p.1).mode = 0 ↔ p.1 = 0x6D ∨ p.1 = 0x6E := by
  fin_cases hp <;> simp [cipherKind]

theorem does_cipherRow {u : State} (hp : p ∈ cipherRows n q tag) (hc : s.starting? p.1 n q tag = some c)
    (h : s.cipherSubmit c p.1 = u) : Does p.2 s u :=
  does_onCommand (exec_cipherRow hp) hc h

theorem cipherSubmit_badForm (hz : cipherZeroOk op c.entry = false) :
    s.cipherSubmit c op = s.complete c.fn c.queue c.tag .fieldInvalid := by
  simp [State.cipherSubmit, hz]

variable (hz : cipherZeroOk op c.entry = true)
include hz

theorem cipherSubmit_refused {st : Status} (h : s.cipherCheck c.fn op c.entry = some st) :
    s.cipherSubmit c op = s.complete c.fn c.queue c.tag st := by
  simp [State.cipherSubmit, hz, h]

/-- The job that a command leaves to wait for an engine. -/
def waitingJob (c : Ctx) (op : Nat) : CJob :=
  ⟨c.fn, c.queue, c.tag, if cjEngine c.entry = 31 then none else some (cjEngine c.entry), none,
    if (cipherKind op).mode = 0 then 0xFFFF else cjSlot c.entry, [], 0, 0, []⟩

theorem cipherSubmit_waits (h : s.cipherCheck c.fn op c.entry = none) :
    s.cipherSubmit c op = (s.markStarted c.fn c.queue c.tag).withCipher fun x => { x with jobs := x.jobs ++ [waitingJob c op] } := by
  simp only [State.cipherSubmit, hz, h]
  rfl

end Submit

/-! The checks of an engine (R313) and of a slot (Table 11-10) -/

theorem spent_eq_true_iff {x : KeySlot} : x.spent = true ↔ x.restoring = false ∧ x.limit ≤ x.count := by
  simp [KeySlot.spent]

theorem spent_eq_false_iff {x : KeySlot} : x.spent = false ↔ x.restoring = true ∨ x.count < x.limit := by
  simp [KeySlot.spent, imp_iff_not_or]

section Checks

variable {s : State} {n e m : Nat}

/-- A job that names no engine is refused while all 16 are locked. -/
theorem engineRefusal_any : s.engineRefusal n 31 = none ↔ ∃ k, k < 16 ∧ s.engineOwner k = none := by
  simp [State.engineRefusal, State.allLocked]

variable (he : e ≠ 31)
include he

theorem engineRefusal_unlocked (h : s.engineOwner e = none) : s.engineRefusal n e = some .notYourInstance := by
  simp [State.engineRefusal, he, h]

theorem engineRefusal_own (h : s.engineOwner e = some n) : s.engineRefusal n e = none := by
  simp [State.engineRefusal, he, h]

theorem engineRefusal_other (h : s.engineOwner e = some m) (hm : m ≠ n) : s.engineRefusal n e = some .engineLocked := by
  simp [State.engineRefusal, he, h, hm]

end Checks

section Slot

variable {s : State} {op k : Nat} (hm : (cipherKind op).mode ≠ 0)
include hm

theorem slotRefusal_empty (h : s.slot? k = none) : s.slotRefusal op k = some .keyEmpty := by
  simp [State.slotRefusal, hm, h]

/-- A slot serves the jobs of its mode and use, until it is spent; one that is RESTORING is not, whatever its COUNT. -/
theorem slotRefusal_eq_none_iff {x : KeySlot} (h : s.slot? k = some x) : s.slotRefusal op k = none ↔
    x.mode = (cipherKind op).mode ∧ (x.usage &&& (cipherKind op).need) ≠ 0 ∧ bit x.usage 6 = false
      ∧ (x.restoring = true ∨ x.count < x.limit) := by
  simp only [State.slotRefusal, hm, h, if_false, ← spent_eq_false_iff]
  split_ifs with hbad hs
  · refine iff_of_false (by simp) ?_
    rintro ⟨hmode, huse, hkiln, -⟩
    simp [hmode, huse, hkiln] at hbad
  · exact iff_of_false (by simp) fun ⟨_, _, _, hlive⟩ => by simp [hlive] at hs
  · exact iff_of_true rfl (by simpa [and_assoc] using And.intro hbad hs)

end Slot

/-! CIPHER_JOB_START (R313, R314, R322) -/

theorem exec_cipherJobStart {s : State} {n q tag : Nat} : exec (.cipherJobStart n q tag) s = execCipherJobStart n q tag s := rfl

theorem does_cipherJobStart_absent {s : State} {n q tag : Nat} (hj : s.cjob? n q tag = none) : Does (.cipherJobStart n q tag) s s := by
  rw [Does, exec_cipherJobStart, execCipherJobStart, hj]
  rfl

section Start

variable {s : State} {n q tag e : Nat} {j : CJob} {c : Ctx} (hj : s.cjob? n q tag = some j) (hc : s.ctx? n q tag = some c)
  (hw : j.on = none) (hd : s.domOn domCIPHER = true) (hk : s.kiln.stopped = false)
include hj hc hw hd hk

theorem does_cipherJobStart_noEngine (he : s.engineFor j = none) : Does (.cipherJobStart n q tag) s s := by
  simp [Does, exec_cipherJobStart, execCipherJobStart, hj, hc, hw, hd, hk, he, done]

variable (he : s.engineFor j = some e)
include he

theorem does_cipherJobStart_restoring (hr : s.slotWaits c.op j.slot = true) : Does (.cipherJobStart n q tag) s s := by
  simp [Does, exec_cipherJobStart, execCipherJobStart, hj, hc, hw, hd, hk, he, hr, done]

/-- A slot emptied or spent since the job's checks ends the job. -/
theorem does_cipherJobStart_refused {st : Status} (hr : s.slotWaits c.op j.slot = false) (h : s.slotRefusal c.op j.slot = some st) :
    Does (.cipherJobStart n q tag) s (s.cipherEnd j st 0) := by
  simp [Does, exec_cipherJobStart, execCipherJobStart, hj, hc, hw, hd, hk, he, hr, h, done]

/-- A job with a slot starts on its engine with the slot's key, begins to read its lists and takes one use of the slot. -/
theorem does_cipherJobStart {x : KeySlot} (hx : s.slot? j.slot = some x) (hr : x.restoring = false) (hl : x.leaseHolds = false)
    (h : s.slotRefusal c.op j.slot = none) (hm : (cipherKind c.op).mode ≠ 0) :
    let u := s.withCJob n q tag fun y => { y with on := some e, key := x.key, type := x.type, reads := s.listReads c.op c.entry }
    Does (.cipherJobStart n q tag) s ((if j.named = none then u.withCipher fun y => { y with turn := n } else u).keyUse j.slot) := by
  have hwaits : s.slotWaits c.op j.slot = false := by simp [State.slotWaits, hx, hr]
  simp [Does, exec_cipherJobStart, execCipherJobStart, hj, hc, hw, hd, hk, he, hwaits, h, hx, hl, hm, done]

end Start

/-! CIPHER_JOB_DONE (R317) -/

theorem exec_cipherJobDone {s : State} {e : Nat} : exec (.cipherJobDone e) s = execCipherJobDone e s := rfl

theorem does_cipherJobDone_idle {s : State} {e : Nat} (hj : s.engineJob e = none) : Does (.cipherJobDone e) s s := by
  rw [Does, exec_cipherJobDone, execCipherJobDone, hj]
  rfl

section Done

variable {s : State} {e : Nat} {j : CJob} {c : Ctx} (hj : s.engineJob e = some j) (hc : s.ctx? j.fn j.queue j.tag = some c)
  (hd : s.domOn domCIPHER = true) (hk : s.kiln.stopped = false)
include hj hc hd hk

/-- An engine ends its job when it has all its input. -/
theorem does_cipherJobDone : Does (.cipherJobDone e) s (if j.phase = 1 ∧ j.readsDone = true then s.cipherFinish j c e else s) := by
  simp only [Does, exec_cipherJobDone, execCipherJobDone, hj, hc, hd, hk, done, Bool.not_false, and_true]
  split <;> rfl

end Done

/-! HST_ELOCKe (R311, R313) -/

section Locks

variable {s : State} {n e : Nat}

theorem engineTake_free (ho : s.engineOwner e = none) (he : e < 16) (hst : (s.inst n).st = .active)
    (hlim : (s.enginesHeld n).length < s.limit n 14 1) :
    s.engineTake n e = ((s.withCipher fun c => { c with locks := c.locks.put e n }).event 224).lockedOut :=
  if_pos ⟨by rw [ho]; rfl, he, hst, hlim⟩

theorem engineTake_ignored
    (h : (s.engineOwner e).isSome = true ∨ 16 ≤ e ∨ (s.inst n).st ≠ .active ∨ s.limit n 14 1 ≤ (s.enginesHeld n).length) :
    s.engineTake n e = s := by
  refine if_neg ?_
  rintro ⟨ho, he, hst, hlim⟩
  obtain h | h | h | h := h
  · simp [Option.isNone_iff_eq_none.mp ho] at h
  · exact absurd he (not_lt.mpr h)
  · exact h hst
  · exact absurd hlim (not_lt.mpr h)

theorem engineRelease_held (ho : s.engineOwner e = some n) :
    s.engineRelease n e = (s.withCipher fun c => { c with locks := c.locks.del e }).event 224 :=
  if_pos ho

theorem engineRelease_ignored (ho : s.engineOwner e ≠ some n) : s.engineRelease n e = s := if_neg ho

variable {u : State} (hd : s.decodes n = true)
include hd

theorem does_engineLock_early (hr : s.boot.ready = false) :
    Does (.engineTake n e) s s.hostActivity ∧ Does (.engineRelease n e) s s.hostActivity :=
  ⟨congrArg done ((if_pos hd).trans (if_neg (by simp [hr]))), congrArg done ((if_pos hd).trans (if_neg (by simp [hr])))⟩

variable (hr : s.boot.ready = true)
include hr

theorem does_engineTake (h : s.hostActivity.engineTake n e = u) : Does (.engineTake n e) s u :=
  congrArg done ((if_pos hd).trans ((if_pos hr).trans h))

theorem does_engineRelease (h : s.hostActivity.engineRelease n e = u) : Does (.engineRelease n e) s u :=
  congrArg done ((if_pos hd).trans ((if_pos hr).trans h))

end Locks

/-- Settles O39: the commands by their checks, a job's start and end by what it waits for, the locks by their holder. -/
theorem cipherJobs : Obligations.CipherJobs := by
  refine ⟨⟨fun s n q tag c p hp hc => ?submits, fun s n e => ?engines, fun s op k hm => ?slots,
    fun s n q tag e j c hj hc hw hd hk => ?starts, fun s n q tag => does_cipherJobStart_absent, fun s e => ?ends⟩, fun s n e hd => ?locks⟩
  case submits =>
    exact ⟨fun hz => does_cipherRow hp hc (cipherSubmit_badForm hz), fun st hz h => does_cipherRow hp hc (cipherSubmit_refused hz h),
      fun hz h => ⟨waitingJob c p.1, rfl, rfl, rfl, rfl, rfl, if_congr (cipherRow_mode_eq_zero hp) rfl rfl, rfl, rfl,
        does_cipherRow hp hc (cipherSubmit_waits hz h)⟩⟩
  case engines =>
    exact ⟨engineRefusal_any, engineRefusal_unlocked, engineRefusal_own, fun m => engineRefusal_other⟩
  case slots =>
    exact ⟨slotRefusal_empty hm, fun x => slotRefusal_eq_none_iff hm⟩
  case starts =>
    exact ⟨does_cipherJobStart_noEngine hj hc hw hd hk, does_cipherJobStart_restoring hj hc hw hd hk,
      fun st he => does_cipherJobStart_refused hj hc hw hd hk he, fun x he => does_cipherJobStart hj hc hw hd hk he⟩
  case ends =>
    refine ⟨does_cipherJobDone_idle, fun j c hj hc hd hk => ⟨fun h => (does_branches (does_cipherJobDone hj hc hd hk)).2 ?_,
      fun hp hr => (does_branches (does_cipherJobDone hj hc hd hk)).1 ⟨hp, hr⟩⟩⟩
    rintro ⟨hp, hr⟩
    simp [hp, hr] at h
  case locks =>
    exact ⟨does_engineLock_early hd, fun hr => ⟨fun ho he hst hlim => does_engineTake hd hr (engineTake_free ho he hst hlim),
      fun h => does_engineTake hd hr (engineTake_ignored h), fun ho => does_engineRelease hd hr (engineRelease_held ho),
      fun ho => does_engineRelease hd hr (engineRelease_ignored ho)⟩⟩

end Sys2Proof.Laws
end

section
/-! PROOFS. The key commands (R320, R321, R324–R329, R331, Tables 11-9 to 11-11): each by its outcomes, in the order of Table 11-10. The
hypotheses of a section gather as the checks pass. -/

namespace Sys2Proof.Laws

open Sys2Proof.Machine

/-! What the six commands share: CIPHER on, and check 7 of the slot (R320) -/

/-- The opcodes of the key commands with the rows that are theirs. -/
@[reducible] def keyRows (n q tag : Nat) (r : HostRead) : List (Nat × Instr) :=
  [(0x78, .keyGenerate n q tag), (0x79, .keyImport n q tag r), (0x7A, .keyExport n q tag r), (0x7B, .keyClear n q tag),
    (0x7C, .keyInfo n q tag r), (0x7D, .keySetLimit n q tag)]

section Meanings

variable {s : State} {n q tag : Nat} {r : HostRead}

theorem exec_keyGenerate : exec (.keyGenerate n q tag) s = execKeyGenerate n q tag s := rfl

theorem exec_keyImport : exec (.keyImport n q tag r) s = execKeyImport n q tag r s := rfl

theorem exec_keyExport : exec (.keyExport n q tag r) s = execKeyExport n q tag r s := rfl

theorem exec_keyClear : exec (.keyClear n q tag) s = execKeyClear n q tag s := rfl

theorem exec_keyInfo : exec (.keyInfo n q tag r) s = execKeyInfo n q tag r s := rfl

theorem exec_keySetLimit : exec (.keySetLimit n q tag) s = execKeySetLimit n q tag s := rfl

theorem exec_keyRow {p : Nat × Instr} (hp : p ∈ keyRows n q tag r) : ∃ k, exec p.2 s = onKey p.1 n q tag s k := by
  fin_cases hp
  · exact ⟨_, exec_keyGenerate⟩
  · exact ⟨_, exec_keyImport⟩
  · exact ⟨_, exec_keyExport⟩
  · exact ⟨_, exec_keyClear⟩
  · exact ⟨_, exec_keyInfo⟩
  · exact ⟨_, exec_keySetLimit⟩

end Meanings

section OnKey

variable {s u : State} {n q tag op : Nat} {c : Ctx} {k : Ctx → Nat → State → State} {i : Instr}
  (hi : exec i s = onKey op n q tag s k) (hc : s.starting? op n q tag = some c)
include hi hc

theorem does_onKey_off (hd : s.domOn domCIPHER = false) : Does i s s :=
  does_onCommand hi hc (if_pos (by simp [hd]))

variable (hd : s.domOn domCIPHER = true)
include hd

theorem does_onKey_foreign (ho : s.ownsSlot n c.keySlot = false) : Does i s (s.complete n q tag .notYourInstance) :=
  does_onCommand hi hc ((if_neg (by simp [hd])).trans (if_pos (by simp [ho])))

theorem does_onKey (ho : s.ownsSlot n c.keySlot = true) (h : k c c.keySlot s = u) : Does i s u :=
  does_onCommand hi hc ((if_neg (by simp [hd])).trans ((if_neg (by simp [ho])).trans h))

end OnKey

/-! KEY_GENERATE (R321, R324) -/

section KeyGenerate

/-- KEY_TYPE of a KEY_GENERATE (Table 11-9). -/
@[reducible] def generateType (c : Ctx) : Nat := byteAt c.entry 8
/-- MODE. -/
@[reducible] def generateMode (c : Ctx) : Nat := byteAt c.entry 9
/-- USAGE. -/
@[reducible] def generateUsage (c : Ctx) : Nat := leAt c.entry 10 2
/-- LIMIT. -/
@[reducible] def generateLimit (c : Ctx) : Nat := leAt c.entry 16 8

/-- The type is one of HMAC, for which alone KEY_LEN is given. -/
def generateHmac (c : Ctx) : Bool := generateType c == 7 || generateType c == 8

/-- The key's length. -/
def generateLen (c : Ctx) : Nat := if generateHmac c then byteAt c.entry 12 else typeLen (generateType c)

theorem generateLen_eq (c : Ctx) :
    generateLen c = if generateType c = 7 ∨ generateType c = 8 then byteAt c.entry 12 else typeLen (generateType c) :=
  if_congr (by simp [generateHmac]) rfl rfl

theorem generateHmac_or_of {c : Ctx} (h : generateType c = 7 ∨ generateType c = 8 ∨ byteAt c.entry 12 = 0) :
    generateHmac c = true ∨ byteAt c.entry 12 = 0 := by
  simpa [generateHmac, or_assoc] using h

/-- A slot without PERSIST is filled in the store alone. -/
theorem fillSlot_volatile {s : State} {c : Ctx} {k : Nat} {x : KeySlot} (h : bit x.usage 8 = false) :
    s.fillSlot c k x = (s.setSlot k { x with warned := decide (x.limit * 9 ≤ x.count * 10) }).keyEnd c k false .ok 0 :=
  if_neg (by simp [h])

theorem random_length (s : State) (n : Nat) : (s.random n).1.length = n := by
  simp [State.random]

theorem limitCap_le (mode usage : Nat) : limitCap mode usage ≤ 2 ^ 48 := by
  unfold limitCap
  split_ifs <;> decide

/-- LIMIT 0 is the cap (R324). -/
def generatedLimit (c : Ctx) : Nat :=
  if generateLimit c = 0 then limitCap (generateMode c) (generateUsage c) else generateLimit c

/-- The slot that a KEY_GENERATE fills: random bytes, COUNT 0, and its LIMIT. -/
def generatedSlot (s : State) (c : Ctx) : KeySlot :=
  ⟨false, generateType c, generateMode c, generateUsage c, (s.random (generateLen c)).1, 0, generatedLimit c, 0,
    decide (generatedLimit c * 9 ≤ 0 * 10), 0⟩

variable {s : State} {n q tag : Nat} {c : Ctx} (hc : s.starting? 0x78 n q tag = some c) (hd : s.domOn domCIPHER = true)
  (ho : s.ownsSlot n c.keySlot = true)
include hc hd ho

theorem does_keyGenerate_outOfRange
    (h : attrsOutOfRange (generateType c) (generateMode c) (generateUsage c) = true ∨ 2 ^ 48 < generateLimit c) :
    Does (.keyGenerate n q tag) s (s.complete n q tag .outOfRange) :=
  does_onKey exec_keyGenerate hc hd ho (if_pos h)

variable (ha : attrsOutOfRange (generateType c) (generateMode c) (generateUsage c) = false)
include ha

theorem does_keyGenerate_filled (hl : generateLimit c ≤ 2 ^ 48) (hx : (s.slot? c.keySlot).isSome = true) :
    Does (.keyGenerate n q tag) s (s.complete n q tag .notInThisState) :=
  does_onKey exec_keyGenerate hc hd ho ((if_neg (not_or.mpr ⟨by simp [ha], not_lt.mpr hl⟩)).trans (if_pos hx))

theorem does_keyGenerate_ok (hl : generateLimit c ≤ limitCap (generateMode c) (generateUsage c)) (hx : s.slot? c.keySlot = none)
    (hagree : attrsAgree (generateType c) (generateMode c) (generateUsage c) (generateLen c) = true)
    (hlen : generateHmac c = true ∨ byteAt c.entry 12 = 0) (hp : bit (generateUsage c) 8 = false) :
    Does (.keyGenerate n q tag) s
      (({ s with free := s.free + 1 }.setSlot c.keySlot (generatedSlot s c)).keyEnd c c.keySlot false .ok 0) := by
  have hrange : ¬ (attrsOutOfRange (generateType c) (generateMode c) (generateUsage c) = true ∨ 2 ^ 48 < generateLimit c) :=
    not_or.mpr ⟨by simp [ha], not_lt.mpr (hl.trans (limitCap_le _ _))⟩
  have hform : ¬ ((!attrsAgree (generateType c) (generateMode c) (generateUsage c) (generateLen c)) = true
      ∨ ((!generateHmac c) = true ∧ byteAt c.entry 12 ≠ 0)) := by
    simpa [hagree, imp_iff_not_or] using hlen
  have hvolatile (P : Prop) : ¬ (bit (generateUsage c) 8 = true ∧ P) := by simp [hp]
  exact does_onKey exec_keyGenerate hc hd ho ((if_neg hrange).trans ((if_neg (by simp [hx])).trans ((if_neg hform).trans
    ((if_neg (not_lt.mpr hl)).trans ((if_neg (hvolatile _)).trans ((if_neg (hvolatile _)).trans ((if_neg (hvolatile _)).trans
      (fillSlot_volatile hp))))))))

end KeyGenerate

/-- A buffer that is a list, or long enough, passes the check of a single segment's length. -/
theorem not_short_of {d : Desc} {len : Nat} (h : d.list = true ∨ len ≤ d.len) : ¬ (d.list = false ∧ d.len < len) := by
  rintro ⟨hlist, hshort⟩
  obtain h | h := h
  · simp [hlist] at h
  · exact absurd hshort (not_lt.mpr h)

/-! KEY_IMPORT of FORM 0 (R328, R329) -/

section KeyImport

variable {s : State} {n q tag : Nat} {blob : HostRead} {c : Ctx} (hc : s.starting? 0x79 n q tag = some c)
  (hd : s.domOn domCIPHER = true) (ho : s.ownsSlot n c.keySlot = true) (hown : s.descOwn n (descAt c.entry 16) = true)
  (hform : byteAt c.entry 8 = 0) (hwrap : leAt c.entry 12 2 = 0)
  (hlen : ¬ ((descAt c.entry 16).list = false ∧ (descAt c.entry 16).len < 128))
include hc hd ho hown hform hwrap hlen

theorem does_keyImport_filled (hx : (s.slot? c.keySlot).isSome = true) :
    Does (.keyImport n q tag blob) s (s.complete n q tag .notInThisState) :=
  does_onKey exec_keyImport hc hd ho (by simp [hown, hform, hwrap, hlen, hx])

variable {b : Bytes} (hx : s.slot? c.keySlot = none) (hb : s.gather n (descAt c.entry 16) 128 0 blob = .ok b)
include hx hb

theorem does_keyImport_badForm (h : blobShaped b 0 = false) :
    Does (.keyImport n q tag blob) s (s.complete n q tag .fieldInvalid) :=
  does_onKey exec_keyImport hc hd ho (by simp [hown, hform, hwrap, hlen, hx, hb, h])

variable (hshape : blobShaped b 0 = true)
include hshape

/-- A clear key enters only where CLEAR_IMPORT permits it. -/
theorem does_keyImport_clear (hn : n ≠ 0) (h : s.dget (0x2840 + n) 1 = 0) :
    Does (.keyImport n q tag blob) s (s.complete n q tag .notYourInstance) :=
  does_onKey exec_keyImport hc hd ho (by simp [hown, hform, hwrap, hlen, hx, hb, hshape, hn, h])

theorem does_keyImport_ok {x : KeySlot} (hclear : ¬ (n ≠ 0 ∧ s.dget (0x2840 + n) 1 = 0))
    (hp : bit (leAt b 8 2 &&& leAt c.entry 10 2) 8 = false)
    (h : s.blobCheck n (blobSlot b (sub b 48 64)) (leAt c.entry 10 2) = .ok x) :
    Does (.keyImport n q tag blob) s (s.fillSlot c c.keySlot x) :=
  does_onKey exec_keyImport hc hd ho (by simp [hown, hform, hwrap, hlen, hx, hb, hshape, hclear, hp, h])

end KeyImport

/-! KEY_EXPORT of FORM 2 (R328) -/

section KeyExport

variable {s : State} {n q tag : Nat} {buf : HostRead} {c : Ctx} (hc : s.starting? 0x7A n q tag = some c)
  (hd : s.domOn domCIPHER = true) (ho : s.ownsSlot n c.keySlot = true) (hown : s.descOwn n (descAt c.entry 16) = true)
  (hform : byteAt c.entry 8 = 2) (hwrap : leAt c.entry 12 2 = 0)
  (hlen : ¬ ((descAt c.entry 16).list = false ∧ (descAt c.entry 16).len < 128))
include hc hd ho hown hform hwrap hlen

theorem does_keyExport_empty (hx : s.slot? c.keySlot = none) :
    Does (.keyExport n q tag buf) s (s.complete n q tag .notInThisState) :=
  does_onKey exec_keyExport hc hd ho (by simp [hown, hform, hwrap, hlen, hx])

variable {x : KeySlot} (hx : s.slot? c.keySlot = some x) (hr : x.restoring = false)
include hx hr

theorem does_keyExport_kept (h : bit x.usage 7 = false) : Does (.keyExport n q tag buf) s (s.complete n q tag .keyUsage) :=
  does_onKey exec_keyExport hc hd ho (by simp [hown, hform, hwrap, hlen, hx, hr, h])

variable (he : bit x.usage 7 = true)
include he

theorem does_keyExport_retired (h : s.sealStore.lifecycle = 2) :
    Does (.keyExport n q tag buf) s (s.complete n q tag .notInThisState) :=
  does_onKey exec_keyExport hc hd ho (by simp [hown, hform, hwrap, hlen, hx, hr, he, h])

theorem does_keyExport_ok {u : State} (hl : s.sealStore.lifecycle ≠ 2)
    (h : { s with free := s.free + 1 }.scatter n (descAt c.entry 16) 0 buf (sealBlob (formTwoKey n) 2 n (s.random 12).1 x) = (u, none)) :
    Does (.keyExport n q tag buf) s (u.keyEnd c c.keySlot false .ok 128) :=
  does_onKey exec_keyExport hc hd ho (by
    simp only [State.random] at h
    simp [hown, hform, hwrap, hlen, hx, hr, he, hl, State.random, State.blobKey, h])

end KeyExport

/-! KEY_CLEAR (R327) -/

section KeyClear

variable {s : State} {n q tag : Nat} {c : Ctx} (hc : s.starting? 0x7B n q tag = some c)
  (hd : s.domOn domCIPHER = true) (ho : s.ownsSlot n c.keySlot = true)
include hc hd ho

theorem does_keyClear_listed (h : s.slotListed c.keySlot = true) :
    Does (.keyClear n q tag) s (s.complete n q tag .notInThisState) :=
  does_onKey exec_keyClear hc hd ho (if_pos h)

variable (hl : s.slotListed c.keySlot = false)
include hl

theorem does_keyClear_volatile (hv : s.cipher.vault.get? c.keySlot = none) (hw : ∀ w ∈ s.cipher.writes, w.slot ≠ c.keySlot) :
    Does (.keyClear n q tag) s ((s.emptySlot c.keySlot).keyEnd c c.keySlot false .ok 0) :=
  does_onKey exec_keyClear hc hd ho ((if_neg (by simp [hl])).trans (if_neg (by simpa [hv] using hw)))

theorem does_keyClear_vaulted (hv : (s.cipher.vault.get? c.keySlot).isSome = true) : Does (.keyClear n q tag) s
    (((s.emptySlot c.keySlot).vaultPush ⟨c.keySlot, none, false, some (n, q, tag), none⟩).keyEnd c c.keySlot true .ok 0) :=
  does_onKey exec_keyClear hc hd ho ((if_neg (by simp [hl])).trans (if_pos (by simp [hv])))

end KeyClear

/-! KEY_INFO (R325) -/

theorem does_keyInfo {s u : State} {n q tag : Nat} {buf : HostRead} {c : Ctx} (hc : s.starting? 0x7C n q tag = some c)
    (hd : s.domOn domCIPHER = true) (ho : s.ownsSlot n c.keySlot = true) (hown : s.descOwn n (descAt c.entry 16) = true)
    (hlen : ¬ ((descAt c.entry 16).list = false ∧ (descAt c.entry 16).len < 48))
    (h : s.scatter n (descAt c.entry 16) 0 buf (blobHead (s.slotState c.keySlot) 0xFF []
      ((s.slot? c.keySlot).getD ⟨false, 0, 0, 0, [], 0, 0, 0, false, 0⟩)) = (u, none)) :
    Does (.keyInfo n q tag buf) s (u.keyEnd c c.keySlot false .ok 48) :=
  does_onKey exec_keyInfo hc hd ho (by simp [hown, hlen, h])

/-! KEY_SET_LIMIT (R324) -/

section KeySetLimit

/-- LIMIT of a KEY_SET_LIMIT (Table 11-9). -/
@[reducible] def newLimit (c : Ctx) : Nat := leAt c.entry 8 8

/-- The slot under the LIMIT that the command gives. -/
@[reducible] def limitedSlot (c : Ctx) (x : KeySlot) : KeySlot := { x with limit := newLimit c }

variable {s : State} {n q tag : Nat} {c : Ctx} (hc : s.starting? 0x7D n q tag = some c)
  (hd : s.domOn domCIPHER = true) (ho : s.ownsSlot n c.keySlot = true)
include hc hd ho

theorem does_keySetLimit_empty (hx : s.slot? c.keySlot = none) :
    Does (.keySetLimit n q tag) s (s.complete n q tag .notInThisState) :=
  does_onKey exec_keySetLimit hc hd ho (by simp only [hx])

variable {x : KeySlot} (hx : s.slot? c.keySlot = some x)
include hx

/-- What is done with a slot that is not EMPTY: the outcomes in the order of Table 11-10. -/
theorem does_keySetLimit : Does (.keySetLimit n q tag) s
    (if 2 ^ 48 < newLimit c then s.complete n q tag .outOfRange
    else if x.restoring = true ∨ x.spent = true ∨ s.slotListed c.keySlot = true then s.complete n q tag .notInThisState
    else if x.limit < newLimit c then s.complete n q tag .outOfRange
    else (if (limitedSlot c x).spent = true then (s.setSlot c.keySlot (limitedSlot c x)).slotSpent c.keySlot
      else s.setSlot c.keySlot (limitedSlot c x)).keyEnd c c.keySlot false .ok 0) :=
  does_onKey exec_keySetLimit hc hd ho (by simp only [hx])

theorem does_keySetLimit_outOfRange (h : 2 ^ 48 < newLimit c) : Does (.keySetLimit n q tag) s (s.complete n q tag .outOfRange) :=
  (does_branches (does_keySetLimit hc hd ho hx)).1 h

variable (hmax : newLimit c ≤ 2 ^ 48)
include hmax

theorem does_keySetLimit_wrongState (h : x.restoring = true ∨ x.limit ≤ x.count ∨ s.slotListed c.keySlot = true) :
    Does (.keySetLimit n q tag) s (s.complete n q tag .notInThisState) := by
  refine (does_branches ((does_branches (does_keySetLimit hc hd ho hx)).2 (not_lt.mpr hmax))).1 ?_
  rw [spent_eq_true_iff]
  cases hr : x.restoring
  · simpa [hr] using h
  · exact .inl rfl

variable (hr : x.restoring = false) (hcount : x.count < x.limit) (hlist : s.slotListed c.keySlot = false)
include hr hcount hlist

/-- A LIVE slot that no bound stream lists takes a LIMIT that is not above its own. -/
theorem does_keySetLimit_live : Does (.keySetLimit n q tag) s
    (if x.limit < newLimit c then s.complete n q tag .outOfRange
    else (if (limitedSlot c x).spent = true then (s.setSlot c.keySlot (limitedSlot c x)).slotSpent c.keySlot
      else s.setSlot c.keySlot (limitedSlot c x)).keyEnd c c.keySlot false .ok 0) :=
  (does_branches ((does_branches (does_keySetLimit hc hd ho hx)).2 (not_lt.mpr hmax))).2
    (by simp [hr, spent_eq_false_iff.mpr (.inr hcount), hlist])

theorem does_keySetLimit_raised (h : x.limit < newLimit c) : Does (.keySetLimit n q tag) s (s.complete n q tag .outOfRange) :=
  (does_branches (does_keySetLimit_live hc hd ho hx hmax hr hcount hlist)).1 h

variable (hle : newLimit c ≤ x.limit)
include hle

theorem does_keySetLimit_lowered (h : x.count < newLimit c) : Does (.keySetLimit n q tag) s
    ((s.setSlot c.keySlot (limitedSlot c x)).keyEnd c c.keySlot false .ok 0) := by
  have hset := (does_branches (does_keySetLimit_live hc hd ho hx hmax hr hcount hlist)).2 (not_lt.mpr hle)
  rwa [if_neg (by simp [spent_eq_true_iff, h])] at hset

theorem does_keySetLimit_spent (h : newLimit c ≤ x.count) : Does (.keySetLimit n q tag) s
    (((s.setSlot c.keySlot (limitedSlot c x)).slotSpent c.keySlot).keyEnd c c.keySlot false .ok 0) := by
  have hset := (does_branches (does_keySetLimit_live hc hd ho hx hmax hr hcount hlist)).2 (not_lt.mpr hle)
  rwa [if_pos (by simp [spent_eq_true_iff, hr, h])] at hset

end KeySetLimit

/-- Settles O41: each command by its outcomes, in the order of its checks. -/
theorem keyCommands : Obligations.KeyCommands := by
  refine fun s n q tag c => ⟨fun r p hp hc => ?shared, fun hd ho => ⟨fun hc => ?generates,
    fun blob hc hown hform _ hwrap hlen => ?imports, fun buf hc hown hform hwrap hlen => ?exports, fun hc => ?clears,
    fun buf hc hown hlen u => does_keyInfo hc hd ho hown (not_short_of hlen), fun hc => ?limits⟩⟩
  case shared =>
    obtain ⟨k, hk⟩ := exec_keyRow (s := s) hp
    exact ⟨does_onKey_off hk hc, does_onKey_foreign hk hc⟩
  case generates =>
    refine ⟨does_keyGenerate_outOfRange hc hd ho, does_keyGenerate_filled hc hd ho, fun ha hl hx hagree hlen hp =>
      ⟨generatedSlot s c, rfl, rfl, rfl, ?_, rfl, rfl, rfl, rfl, ?_⟩⟩
    · exact (random_length s _).trans (generateLen_eq c)
    · exact does_keyGenerate_ok hc hd ho ha hl hx (generateLen_eq c ▸ hagree) (generateHmac_or_of hlen) hp
  case imports =>
    have hlong := not_short_of hlen
    refine ⟨does_keyImport_filled hc hd ho hown hform hwrap hlong, fun b hx hb =>
      ⟨does_keyImport_badForm hc hd ho hown hform hwrap hlong hx hb, does_keyImport_clear hc hd ho hown hform hwrap hlong hx hb,
        fun x hshape hclear => does_keyImport_ok hc hd ho hown hform hwrap hlong hx hb hshape ?_⟩⟩
    exact fun ⟨hn, hz⟩ => hclear.elim hn fun h => h hz
  case exports =>
    have hlong := not_short_of hlen
    exact ⟨does_keyExport_empty hc hd ho hown hform hwrap hlong, fun x hx hr =>
      ⟨does_keyExport_kept hc hd ho hown hform hwrap hlong hx hr, does_keyExport_retired hc hd ho hown hform hwrap hlong hx hr,
        fun he hl => ⟨(s.random 12).1, random_length s 12, fun u => does_keyExport_ok hc hd ho hown hform hwrap hlong hx hr he hl⟩⟩⟩
  case clears =>
    exact ⟨does_keyClear_listed hc hd ho, does_keyClear_volatile hc hd ho, does_keyClear_vaulted hc hd ho⟩
  case limits =>
    exact ⟨does_keySetLimit_empty hc hd ho, fun x hx => ⟨does_keySetLimit_outOfRange hc hd ho hx, does_keySetLimit_wrongState hc hd ho hx,
      fun hmax hr hcount hlist => ⟨does_keySetLimit_raised hc hd ho hx hmax hr hcount hlist,
        does_keySetLimit_lowered hc hd ho hx hmax hr hcount hlist, does_keySetLimit_spent hc hd ho hx hmax hr hcount hlist⟩⟩⟩

end Sys2Proof.Laws
end

section
/-! PROOFS. A frame on a physical port (R341, R343, R345, R369, Table 12-2): each way in which it is taken, in the order of the checks, the
copies that a port does not send and the tag changes of R348. -/

namespace Sys2Proof.Laws

open Sys2Proof.Machine

theorem does_frameReceived {s u : State} {p stamp : Nat} {b : Bytes} {ok : Bool} (h : s.frameTake p b ok stamp = u) :
    Does (.frameReceived p b ok stamp) s u := h ▸ rfl

section FrameTaken

variable {s : State} {p stamp : Nat} {b : Bytes} {ok : Bool}

theorem frameTake_unheard (h : 20 ≤ p ∨ s.receives p = false) : s.frameTake p b ok stamp = s :=
  if_pos (by simpa using h)

variable (hp : p < 20) (hr : s.receives p = true)
include hp hr

theorem frameTake_draining (hd : s.draining = true) : s.frameTake p b ok stamp = s.dinc 0x2000 7 := by
  simp [State.frameTake, hp, hr, hd]

variable (hd : s.draining = false)
include hd

theorem frameTake_badFcs : s.frameTake p b false stamp = s.dinc (pIdx p 2) 3 := by
  simp [State.frameTake, hp, hr, hd]

theorem frameTake_badLength (h : b.length + 4 < 64 ∨ s.dget (pIdx p 0) 4 < b.length + 4) :
    s.frameTake p b true stamp = s.dinc (pIdx p 2) 4 := by
  simp [State.frameTake, wireLen, hp, hr, hd, h]

/-- The state in which a frame of a length has been counted with its bytes (Table 12-2). -/
@[reducible] def frameCounted (s : State) (p len : Nat) : State := (s.dinc (pIdx p 2) 1).dadd (pIdx p 2) 2 len

/-- The domain time at which a frame arrived: its stamp with the port's INGRESS_COMP (R381). -/
@[reducible] def arrivalTime (s : State) (p stamp : Nat) : Nat := ((stamp : Int) + s.dint (pIdx p 4) 2).toNat

variable (hmin : 64 ≤ b.length + 4) (hmax : b.length + 4 ≤ s.dget (pIdx p 0) 4)
include hmin hmax

/-- What is done with a frame whose FCS and length are good: by its EtherType (R341, R369). -/
theorem frameTake_whole : s.frameTake p b true stamp =
    if beAt b 12 2 = 0x8808 then s.dinc (pIdx p 2) 5
    else if beAt b 12 2 = 0x88B5 ∧ 4 ≤ p then (frameCounted s p (b.length + 4)).dinc (pIdx p 2) 6
    else match (if beAt b 12 2 = 0x88B5 then (frameCounted s p (b.length + 4)).ringOf p else none) with
      | some (r, east) => (frameCounted s p (b.length + 4)).zeludFrame p r east b (arrivalTime s p stamp)
      | none => (frameCounted s p (b.length + 4)).classify ⟨p, none, none, false⟩ b (arrivalTime s p stamp) := by
  have hlen : ¬ (b.length + 4 < 64 ∨ s.dget (pIdx p 0) 4 < b.length + 4) := by omega
  simp only [State.frameTake, wireLen, ge_iff_le, not_le.mpr hp, hr, hd, hlen, Bool.not_true, Bool.false_eq_true, or_self,
    if_false] <;> rfl

theorem frameTake_macControl (h : beAt b 12 2 = 0x8808) : s.frameTake p b true stamp = s.dinc (pIdx p 2) 5 :=
  (frameTake_whole hp hr hd hmin hmax).trans (if_pos h)

theorem frameTake_zeludOnAccessPort (h : beAt b 12 2 = 0x88B5) (hacc : 4 ≤ p) :
    s.frameTake p b true stamp = (frameCounted s p (b.length + 4)).dinc (pIdx p 2) 6 :=
  (frameTake_whole hp hr hd hmin hmax).trans ((if_neg (by simp [h])).trans (if_pos ⟨h, hacc⟩))

theorem frameTake_zeludOnRingPort (h : beAt b 12 2 = 0x88B5) (htrunk : p < 4) {r : Nat} {east : Bool}
    (hring : (frameCounted s p (b.length + 4)).ringOf p = some (r, east)) : s.frameTake p b true stamp =
      (frameCounted s p (b.length + 4)).zeludFrame p r east b (arrivalTime s p stamp) := by
  rw [frameTake_whole hp hr hd hmin hmax, if_neg (by simp [h]), if_neg (by omega), if_pos h, hring]

theorem frameTake_classified (hmac : beAt b 12 2 ≠ 0x8808) (hzelud : beAt b 12 2 ≠ 0x88B5) : s.frameTake p b true stamp =
    (frameCounted s p (b.length + 4)).classify ⟨p, none, none, false⟩ b (arrivalTime s p stamp) := by
  rw [frameTake_whole hp hr hd hmin hmax, if_neg hmac, if_neg (fun h => hzelud h.1), if_neg hzelud]

end FrameTaken

theorem copyPort_ingress {s : State} {d : Decided} : s.copyPort d d.origin.port = s := if_pos rfl

section Retag

variable {members untag b : Bytes} {f : Parsed} {vid : Nat}

theorem retag_notMember (h : inVlan members vid = false) : retag members untag b f vid = none := by
  simp [retag, h]

/-- A frame without tags leaves as it is, or with a tag of its VLAN added (R348). -/
theorem retag_untagged {c : Bytes} (hf : f.tagged = false) (h : retag members untag b f vid = some c) :
    c = b ∨ c = b.take 12 ++ [0x81, 0x00] ++ beBytes 2 vid ++ b.drop 12 := by
  have htag : beBytes 2 0x8100 = [0x81, 0x00] := by decide
  cases hm : inVlan members vid <;> cases hu : inVlan untag vid <;> simp [retag, hf, hm, hu, htag] at h
  · exact .inr (by simp [h])
  · exact .inl h.symm

end Retag

/-- Settles O43: the port that hears nothing, then the checks of a frame in their order, then the copies. -/
theorem framesTaken : Obligations.FramesTaken := by
  refine fun s p b ok stamp => ⟨fun h => does_frameReceived (frameTake_unheard h), fun hp hr =>
    ⟨fun hd => does_frameReceived (frameTake_draining hp hr hd), fun hd => ⟨?badFcs, ?badLength, ?whole⟩⟩,
    ?ingress, fun members untag f vid => retag_notMember, fun members untag vid c => retag_untagged⟩
  case badFcs =>
    rintro rfl
    exact does_frameReceived (frameTake_badFcs hp hr hd)
  case badLength =>
    rintro rfl h
    exact does_frameReceived (frameTake_badLength hp hr hd h)
  case whole =>
    rintro rfl hmin hmax
    exact ⟨fun h => does_frameReceived (frameTake_macControl hp hr hd hmin hmax h),
      fun h hacc => does_frameReceived (frameTake_zeludOnAccessPort hp hr hd hmin hmax h hacc),
      fun hmac hzelud => does_frameReceived (frameTake_classified hp hr hd hmin hmax hmac hzelud),
      fun r east h htrunk hring => does_frameReceived (frameTake_zeludOnRingPort hp hr hd hmin hmax h htrunk hring)⟩
  case ingress =>
    rintro d rfl
    exact copyPort_ingress

end Sys2Proof.Laws
end

section
/-! PROOFS. Packet I/O by commands (R365–R367, R406): VP_SEND, VP_RX_BIND and VP_RX_RETURN by their outcomes, in the order of their checks,
and when the head of the waiting sends goes. -/

namespace Sys2Proof.Laws

open Sys2Proof.Machine

section Meanings

variable {s : State} {n q tag : Nat} {buf : HostRead}

theorem exec_vpSend : exec (.vpSend n q tag buf) s = execVpSend n q tag buf s := rfl

theorem exec_vpRxBind : exec (.vpRxBind n q tag buf) s = execVpRxBind n q tag buf s := rfl

theorem exec_vpRxReturn : exec (.vpRxReturn n q tag) s = execVpRxReturn n q tag s := rfl

end Meanings

/-- A table or packet command that is in hand with the pipeline's domain on. -/
theorem does_onPipe {s u : State} {op n q tag : Nat} {c : Ctx} {k : Ctx → State → State} {i : Instr}
    (hi : exec i s = onPipe op n q tag s k) (hpipe : s.domOn domPIPE = true) (hc : s.starting? op n q tag = some c) (h : k c s = u) :
    Does i s u :=
  does_onCommand (hi.trans (if_pos hpipe)) hc h

/-! VP_SEND (R365, R366, R406) -/

section VpSend

variable {s : State} {n q tag : Nat} {buf : HostRead} {c : Ctx} (hpipe : s.domOn domPIPE = true)
  (hc : s.starting? 0x90 n q tag = some c)
include hpipe hc

theorem does_vpSend_notOwned (h : s.descOwn n (descAt c.entry 16) = false) :
    Does (.vpSend n q tag buf) s (s.complete n q tag .notYourInstance) :=
  does_onPipe exec_vpSend hpipe hc (if_pos (by simp [h]))

variable (hown : s.descOwn n (descAt c.entry 16) = true) {len : Nat} (hlen : s.bufLen n (descAt c.entry 16) 0 buf = .ok len)
include hown hlen

theorem does_vpSend_outOfRange (h : len < 60 ∨ 9596 < len) : Does (.vpSend n q tag buf) s (s.complete n q tag .outOfRange) :=
  does_onPipe exec_vpSend hpipe hc (by simp [hown, hlen, h])

theorem does_vpSend_waits (hmin : 60 ≤ len) (hmax : len ≤ 9596) {b : Bytes}
    (hb : s.gather n (descAt c.entry 16) len 0 buf = .ok b) : Does (.vpSend n q tag buf) s
      ((s.markStarted n q tag).withPipe fun p => { p with sends := p.sends ++ [⟨n, q, tag, b, false⟩] }) :=
  does_onPipe exec_vpSend hpipe hc (by simp [hown, hlen, not_lt.mpr hmin, not_lt.mpr hmax, hb])

end VpSend

/-- A send waits while the pipeline does not work, its shaper does not allow it, or buffer space lacks (R366, R406). -/
theorem vpSendHead_eq_none_iff {s : State} {v : VpSend} : s.vpSendHead v = none ↔ s.domOn domPIPE = false ∨ s.kiln.stopped = true
    ∨ s.vpAllows v.fn (wireLen v.frame + 20) = false ∨ s.bufferFree < wireLen v.frame := by
  simp only [State.vpSendHead, ite_eq_left_iff, reduceCtorEq, imp_false, not_not, Bool.not_eq_true']

/-! VP_RX_BIND (R367) -/

section VpRxBind

/-- The CQID of a VP_RX_BIND (Table 12-7); 0 unbinds. -/
@[reducible] def bindCq (c : Ctx) : Nat := bits (dw c.entry 1) 0 16
/-- Its number of buffers. -/
@[reducible] def bindCount (c : Ctx) : Nat := leAt c.entry 8 2
/-- The size of each, in units of 256 bytes. -/
@[reducible] def bindSize (c : Ctx) : Nat := leAt c.entry 10 2

/-- The operands of a VP_RX_BIND in their ranges, with a list or a single segment that is long enough. -/
theorem vpRxBind_inRange {c : Ctx} (hcmin : 16 ≤ bindCount c) (hcmax : bindCount c ≤ 4096) (hsmin : 8 ≤ bindSize c) (hsmax : bindSize c ≤ 40)
    (hlen : (descAt c.entry 16).list = true ∨ bindCount c * bindSize c * 256 ≤ (descAt c.entry 16).len) :
    ¬ (bindCount c < 16 ∨ 4096 < bindCount c ∨ bindSize c < 8 ∨ 40 < bindSize c
      ∨ ((!(descAt c.entry 16).list) = true ∧ (descAt c.entry 16).len < bindCount c * bindSize c * 256)) := by
  simp only [Bool.not_eq_true', not_or, not_lt]
  exact ⟨hcmin, hcmax, hsmin, hsmax, not_short_of hlen⟩

variable {s : State} {n q tag : Nat} {area : HostRead} {c : Ctx} (hpipe : s.domOn domPIPE = true)
  (hc : s.starting? 0x91 n q tag = some c)
include hpipe hc

theorem does_vpRxBind_unbinds (h : bindCq c = 0) : Does (.vpRxBind n q tag area) s
    ((s.withPipe fun p => { p with binds := p.binds.del n }).complete n q tag .ok) :=
  does_onPipe exec_vpRxBind hpipe hc (if_pos h)

variable (hcq : bindCq c ≠ 0)
include hcq

theorem does_vpRxBind_notOwned (h : s.descOwn n (descAt c.entry 16) = false) :
    Does (.vpRxBind n q tag area) s (s.complete n q tag .notYourInstance) :=
  does_onPipe exec_vpRxBind hpipe hc ((if_neg hcq).trans (if_pos (by simp [h])))

variable (hown : s.descOwn n (descAt c.entry 16) = true)
include hown

/-- What is done with a CQ named and an area that the function owns: the outcomes in the order of the checks. -/
theorem does_vpRxBind_owned : Does (.vpRxBind n q tag area) s
    (if bindCount c < 16 ∨ 4096 < bindCount c ∨ bindSize c < 8 ∨ 40 < bindSize c
        ∨ ((!(descAt c.entry 16).list) = true ∧ (descAt c.entry 16).len < bindCount c * bindSize c * 256) then
      s.complete n q tag .outOfRange
    else if (s.cq? n (bindCq c)).isNone then s.complete n q tag .fieldInvalid
    else match s.areaOf n (descAt c.entry 16) area with
      | .error st => s.complete n q tag st
      | .ok l =>
        if sumNat (l.map fun x => x.2.2) < bindCount c * bindSize c * 256 then s.complete n q tag .outOfRange
        else (s.withPipe fun p => { p with
          binds := p.binds.put n ⟨bindCq c, l, bindCount c, bindSize c * 256, 0, bindCount c⟩ }).complete n q tag .ok) :=
  does_onPipe exec_vpRxBind hpipe hc ((if_neg hcq).trans (if_neg (by simp [hown])))

theorem does_vpRxBind_outOfRange (h : bindCount c < 16 ∨ 4096 < bindCount c ∨ bindSize c < 8 ∨ 40 < bindSize c) :
    Does (.vpRxBind n q tag area) s (s.complete n q tag .outOfRange) :=
  (does_branches (does_vpRxBind_owned hpipe hc hcq hown)).1 (by tauto)

variable (hcmin : 16 ≤ bindCount c) (hcmax : bindCount c ≤ 4096) (hsmin : 8 ≤ bindSize c) (hsmax : bindSize c ≤ 40)
  (hlen : (descAt c.entry 16).list = true ∨ bindCount c * bindSize c * 256 ≤ (descAt c.entry 16).len)
include hcmin hcmax hsmin hsmax hlen

theorem does_vpRxBind_noCq (h : s.cq? n (bindCq c) = none) : Does (.vpRxBind n q tag area) s (s.complete n q tag .fieldInvalid) :=
  (does_branches ((does_branches (does_vpRxBind_owned hpipe hc hcq hown)).2
    (vpRxBind_inRange hcmin hcmax hsmin hsmax hlen))).1 (by simp [h])

variable (hq : (s.cq? n (bindCq c)).isSome = true) {l : List (Bool × Nat × Nat)} (hl : s.areaOf n (descAt c.entry 16) area = .ok l)
include hq hl

theorem does_vpRxBind_area : Does (.vpRxBind n q tag area) s
    (if sumNat (l.map fun x => x.2.2) < bindCount c * bindSize c * 256 then s.complete n q tag .outOfRange
    else (s.withPipe fun p => { p with
      binds := p.binds.put n ⟨bindCq c, l, bindCount c, bindSize c * 256, 0, bindCount c⟩ }).complete n q tag .ok) := by
  have h := (does_branches ((does_branches (does_vpRxBind_owned (area := area) hpipe hc hcq hown)).2
    (vpRxBind_inRange hcmin hcmax hsmin hsmax hlen))).2 (by simpa [Option.isSome_iff_ne_none] using hq)
  simpa only [hl] using h

end VpRxBind

/-! VP_RX_RETURN (R367) -/

section VpRxReturn

/-- The first buffer index of a VP_RX_RETURN (Table 12-7). -/
@[reducible] def returnFirst (c : Ctx) : Nat := bits (dw c.entry 1) 0 16
/-- The number of buffers that it returns. -/
@[reducible] def returnCount (c : Ctx) : Nat := leAt c.entry 8 2

variable {s : State} {n q tag : Nat} {c : Ctx} (hpipe : s.domOn domPIPE = true) (hc : s.starting? 0x92 n q tag = some c)
include hpipe hc

theorem does_vpRxReturn_notOwned (h : s.descOwn n (descAt c.entry 16) = false) :
    Does (.vpRxReturn n q tag) s (s.complete n q tag .notYourInstance) :=
  does_onPipe exec_vpRxReturn hpipe hc (if_pos (by simp [h]))

variable (hown : s.descOwn n (descAt c.entry 16) = true)
include hown

theorem does_vpRxReturn_outOfRange (h : returnCount c = 0 ∨ 4096 < returnCount c ∨ (descAt c.entry 16).len ≠ 0) :
    Does (.vpRxReturn n q tag) s (s.complete n q tag .outOfRange) :=
  does_onPipe exec_vpRxReturn hpipe hc ((if_neg (by simp [hown])).trans (if_pos h))

variable (hmin : returnCount c ≠ 0) (hmax : returnCount c ≤ 4096) (hlen : (descAt c.entry 16).len = 0)
include hmin hmax hlen

theorem does_vpRxReturn_unbound (h : s.vpBind? n = none) : Does (.vpRxReturn n q tag) s (s.complete n q tag .notInThisState) :=
  does_onPipe exec_vpRxReturn hpipe hc (by simp [hown, hmin, not_lt.mpr hmax, hlen, h])

variable {x : VpBind} (hx : s.vpBind? n = some x)
include hx

/-- What is done under a binding: the buffer named, the order and the number of those out, then the return. -/
theorem does_vpRxReturn_bound : Does (.vpRxReturn n q tag) s
    (if x.count ≤ returnFirst c then s.complete n q tag .outOfRange
    else if returnFirst c ≠ (x.next + x.free) % x.count ∨ x.count - x.free < returnCount c then s.complete n q tag .fieldInvalid
    else (s.withPipe fun p => { p with binds := p.binds.put n { x with free := x.free + returnCount c } }).complete n q tag .ok) :=
  does_onPipe exec_vpRxReturn hpipe hc (by simp [hown, hmin, not_lt.mpr hmax, hlen, hx])

theorem does_vpRxReturn_noBuffer (h : x.count ≤ returnFirst c) : Does (.vpRxReturn n q tag) s (s.complete n q tag .outOfRange) :=
  (does_branches (does_vpRxReturn_bound hpipe hc hown hmin hmax hlen hx)).1 h

variable (hfirst : returnFirst c < x.count)
include hfirst

theorem does_vpRxReturn_outOfOrder (h : returnFirst c ≠ (x.next + x.free) % x.count ∨ x.count - x.free < returnCount c) :
    Does (.vpRxReturn n q tag) s (s.complete n q tag .fieldInvalid) :=
  (does_branches ((does_branches (does_vpRxReturn_bound hpipe hc hown hmin hmax hlen hx)).2 (not_le.mpr hfirst))).1 h

theorem does_vpRxReturn_ok (horder : returnFirst c = (x.next + x.free) % x.count) (hout : returnCount c ≤ x.count - x.free) :
    Does (.vpRxReturn n q tag) s
      ((s.withPipe fun p => { p with binds := p.binds.put n { x with free := x.free + returnCount c } }).complete n q tag .ok) :=
  (does_branches ((does_branches (does_vpRxReturn_bound hpipe hc hown hmin hmax hlen hx)).2 (not_le.mpr hfirst))).2
    (not_or.mpr ⟨not_not.mpr horder, not_lt.mpr hout⟩)

end VpRxReturn

/-- Settles O46: each command by its outcomes, in the order of its checks. -/
theorem packetCommands : Obligations.PacketCommands := by
  refine fun s n q tag buf c hpipe => ⟨fun hc => ?sends, fun v => vpSendHead_eq_none_iff, fun hc => ?binds, fun hc => ?returns⟩
  case sends =>
    exact ⟨does_vpSend_notOwned hpipe hc, fun len hown hlen => does_vpSend_outOfRange hpipe hc hown hlen,
      fun len b hown hlen hmin hmax hb => does_vpSend_waits hpipe hc hown hlen hmin hmax hb⟩
  case binds =>
    refine ⟨does_vpRxBind_unbinds hpipe hc, does_vpRxBind_notOwned hpipe hc, does_vpRxBind_outOfRange hpipe hc,
      fun hcq hown hcmin hcmax hsmin hsmax hlen => ⟨does_vpRxBind_noCq hpipe hc hcq hown hcmin hcmax hsmin hsmax hlen,
        fun hq l hl => ?_⟩⟩
    have harea := does_branches (does_vpRxBind_area hpipe hc hcq hown hcmin hcmax hsmin hsmax hlen hq hl)
    exact ⟨harea.1, fun hroom => harea.2 (not_lt.mpr hroom)⟩
  case returns =>
    exact ⟨does_vpRxReturn_notOwned hpipe hc, does_vpRxReturn_outOfRange hpipe hc, fun hown hmin hmax hlen =>
      ⟨does_vpRxReturn_unbound hpipe hc hown hmin hmax hlen, fun x hx =>
        ⟨does_vpRxReturn_noBuffer hpipe hc hown hmin hmax hlen hx, does_vpRxReturn_outOfOrder hpipe hc hown hmin hmax hlen hx,
          fun horder hfirst hout => does_vpRxReturn_ok hpipe hc hown hmin hmax hlen hx hfirst horder hout⟩⟩⟩

end Sys2Proof.Laws
end

section
/-! PROOFS. The forwarding table (R353, R354): an insertion whose relocation moves an entry of the same key, found outside its two buckets, into
a slot that a lookup comes to before the new entry's. -/

namespace Sys2Proof.Laws

open Sys2Proof.Machine

/-- The entry of a MAC address in VLAN 1: physical port 0, owner 0. -/
def stationEntry (mac : Nat) : Bytes := padTo 64 (macKey 1 (beBytes 6 mac) ++ leBytes 1 1)

/-- Entries in the slots of a bucket, from its lowest on. -/
def bucketOfEntries (b : Nat) (entries : List Bytes) : SMap Bytes := (upFrom (4 * b) 4).zip entries

/-- Address 1 hashes to buckets 18221 and 60763. Both are full, and an entry of address 1 stands in bucket 23173, which is full as well and is
the other bucket of address 188408, the next victim of bucket 18221. -/
def strayed : State :=
  (State.reset.withInst 0 fun x => { x with record := overlay x.record 56 (leBytes 4 64) }).withTable fun t => { t with
    entries := bucketOfEntries 18221 ([24247, 126701, 183758, 188408].map stationEntry)
      ++ bucketOfEntries 23173 ([1, 2217, 4663, 54407].map stationEntry)
      ++ bucketOfEntries 60763 ([7612, 54697, 127824, 184435].map stationEntry)
    rr := [(18221, 3)] }

/-- The entry of address 1 is the only one outside both buckets of its key. -/
theorem strayed_misplaced : strayed.pipe.table.entries.sorted = true
    ∧ strayed.pipe.table.entries.filter (fun kv => !(keySlots (entryKey kv.2)).contains kv.1) = [(4 * 23173, stationEntry 1)] := by
  decide +kernel

/-- The insertion finds no entry of its key, and makes room in slot 3 of bucket 18221. -/
theorem strayed_tblInsert : (strayed.tblInsert 0 (stationEntry 1) false).1 = .done .ok (4 * 18221 + 3) := by
  decide +kernel

/-- The moves have brought the stray entry to slot 0 of that bucket, to which a lookup comes first. -/
theorem strayed_lookup :
    ((strayed.tblInsert 0 (stationEntry 1) false).2.pipe.table.lookup ((stationEntry 1).take 48)).map Prod.fst = some (4 * 18221) := by
  decide +kernel

/-- Refutes O44, by its clause on insertions: it is about every state, also one whose table holds an entry outside both buckets of its key.
The insertion answers with slot 3 of a bucket, and the lookup of the key gives slot 0. -/
theorem not_forwardingTable : ¬ Obligations.ForwardingTable := by
  rintro ⟨-, hfound, -⟩
  have hinserted := (hfound strayed _ 0 _ (stationEntry 1) (strayed_tblInsert ▸ Prod.mk.eta.symm)).1
  have hslot := strayed_lookup
  rw [hinserted] at hslot
  simp at hslot

end Sys2Proof.Laws
end

section
/-! PROOFS. Every command answers a next state (R501): each arm of exec ends in done, by the shape of its meaning, but AO_POWER_ON with
TEST_MODE high. -/

namespace Sys2Proof.Laws

open Sys2Proof.Machine

/-- The machine goes on: an outcome that is a next state. -/
def GoesOn (o : Host.Outcome State Fault Refusal) : Prop := ∃ t, o = .next t

theorem goesOn_done (s : State) : GoesOn (done s) := ⟨_, rfl⟩

theorem goesOn_ite {p : Prop} [Decidable p] {a b : Host.Outcome State Fault Refusal} (ha : GoesOn a) (hb : GoesOn b) :
    GoesOn (if p then a else b) := by
  split
  · exact ha
  · exact hb

section Commands

variable {op n q tag : Nat} {s : State} {k : Ctx → State → State}

/-- A queue's command, whether or not its context is there. -/
theorem goesOn_onCommand : GoesOn (onCommand op n q tag s k) := by
  unfold onCommand
  split
  · exact goesOn_done _
  · exact goesOn_done _

theorem goesOn_onKey {k : Ctx → Nat → State → State} : GoesOn (onKey op n q tag s k) := by
  unfold onKey
  exact goesOn_onCommand

theorem goesOn_onPipe : GoesOn (onPipe op n q tag s k) := goesOn_ite goesOn_onCommand (goesOn_done _)

end Commands

/-- The arms of exec by shape: no guard, one, two, a queue's command, the pipeline's; and those that look something up first. -/
theorem goesOn_exec (s : State) (c : Instr) (hc : ∀ straps, c ≠ .aoPowerOn straps true) : GoesOn (exec c s) := by
  cases c with
  | aoPowerOn straps testMode =>
    cases testMode with
    | false => exact goesOn_done _
    | true => exact absurd rfl (hc straps)
  | dictRead | dictWrite | dictInfo | dictNext | dictReadShadow | onsiaDatagram | onsiaSessionTimeout | usdoInitiateUpload | usdoInitiateDownload
    | usdoSegment | usdoTransferTimeout | groupCommit | groupDiscard | groupApply | writeMaskWrite | emberRestart | requestBlaze
    | requestGlow | requestBanked | requestEmber | wakeEdge | managerVote | forceStep | snapshot | vsenseSample
    | hostBufferDoubleBitError | engineTake | engineRelease | sqTailDoorbell | cqHeadDoorbell | adminEnable | adminDisable
    | adminRestart | rootPortLinkDown | kilnAdmission | segmentAgeExpiry | keyStoreDoubleBitError | frameReceived | tableDoubleBitError
    | portLinkDown | timeSet | gateIntervalEnd | gateListChange | trWait | trRxf | trTxf | trDma | trClaim | trPut | trCommit | trRecv
    | trDrop | ttimerWrite | tpetWrite | receiveCopyDone | dmaDone | txfDone | groupStart | groupStop | groupRestart | groupDelete
    | groupStopComplete | restartGroup | coreReloadDone | deliveryThreadWrite | clearTarget | sourceMap | logClear | firstOfKindClear
    | exportPull | alarmAck | ackAll | alarmDefine | peatOff | peatRing | peatOneShot | trigger | peatWindowWrite | replayArm
    | dmiAccess | ppsOutEdge | correctedInternalError | heartbeat | ignRise | pf0FunctionLevelReset | powerStateD3hot | powerStateD0
    | linkLossHoldExpiry | flushGatherExpiry | pfail | leaveWaitExpiry | ppsInEdge | peatFreeze | debugSessionDetach | pfailRelease
    | slowclk1024Cycles => exact goesOn_done _
  | shadowTimeout | hostLinkUp | bootGo | pllLockTimeout | ssdShutdownComplete | tinderAddressMatch | domainPowerUpStart
    | domainPowerGood | domainPowerGoodTimeout | hysteresisExpiry | domainPowerDownDone | damperTick | capReleaseHoldExpiry
    | shedPortSearch | meterSampleTimeout | busMasterEnableClear | busMasterEnableSet | functionLevelReset | interruptModeEnable
    | vectorUnmask | quiesceComplete | quiesceTimeout | ssdAsyncEvent | ageingSweep | portLinkUp | keepaliveTimer | hello | topology
    | fault | restore | leave | ringPortFail | ringPortSilence | steerHoldExpiry | ptpMessage | frameTransmitDone | threadInstruction
    | ttimerExpiry | threadWatchdogExpiry | stallDetected | threadFaultHandling | sliceDoubleBitError | coreFault | debugHalt
    | debugResume | claimRelease | egClaim | egEoi | egTctrlClear | egPset | egPclr | egSrcWrite | admissionTokenGain
    | alarmInhibitExpiry | peatCheckpoint | emberStartComplete | syncIntervalExpiry | emberWatchdogExpiry | mainPgRise
    | mainEnRetryExpiry | mainPgLoss | perstNAssert | perstNRelease | hostLinkDown | hotReset | hearthWatchdogExpiry | drainTimeout
    | ssdShutdownTimeout | emberWakeHoldExpiry | wakeAlarm | bankedMaxExpiry | vsenseEmberHoldExpiry | ignOffTimerExpiry
    | ignOffRetryExpiry | thermalTrip | thermalTripShutdown | descentHoldExpiry | ignOffAllowanceReached | vfEnableSet | vfEnableClear
    | l0sEntry | l1IdleExpiry | ltrIdleExpiry | pfSequenceBoundExpiry | pfailReleaseExpiry | learnInsert | helloTimer | topologyTimer
    | syncTimeout | ppsInTimeout | shaperRefresh | admissionSummary | udpPush | canExport | debugSessionAttach | resetReq | peatTrigger
    | egressDrainExpiry | mainPgFall =>
    exact goesOn_ite (goesOn_done _) (goesOn_done _)
  | rootPortLinkUp | controllerReady | controllerReadyTimeout | vaultRestore =>
    exact goesOn_ite (goesOn_done _) (goesOn_ite (goesOn_done _) (goesOn_done _))
  | mainPgTimeout | drainComplete => exact goesOn_ite (goesOn_ite (goesOn_done _) (goesOn_done _)) (goesOn_done _)
  | createCq | createSq | deleteSq | deleteCq | restartQueue | getErrorLog | abort | setModeration | getQueueStatus | nsCreate
    | nsDelete | nsIdentify | nsErase | evidenceRelease | ssdPrepare | ssdDetach | ssdAttach | read | write | flush | deallocate
    | writeZeroes | verify | evidenceAppend | gcmEncrypt | gcmDecrypt | ccmEncrypt | ccmDecrypt | ctr | cbcEncrypt | cbcDecrypt
    | xtsEncrypt | xtsDecrypt | chacha20Poly1305Encrypt | chacha20Poly1305Decrypt | cmacGenerate | cmacVerify | sha256 | sha384
    | hmacGenerate | hmacVerify | checkCompute | checkBlocks | checkVerifyBlocks | kilnStreamCreate | kilnStreamOpen | kilnStreamClose
    | kilnStreamKeys | kilnStreamDelete | kilnStreamGet | kilnStreamIndex | createInstance | modifyInstance | quiesceInstance
    | resumeInstance | resetInstance | destroyInstance | rearmInstance | getInstance =>
    dsimp only [exec]
    exact goesOn_onCommand
  | keyGenerate | keyImport | keyExport | keyClear | keyInfo | keySetLimit =>
    dsimp only [exec]
    exact goesOn_onKey
  | tblUnlock | tblRead | vpSend | vpRxBind | vpRxReturn | tblInsert | tblLock | tblDelete | tblLookup | tblStage =>
    exact goesOn_onPipe
  | bootWindowAccess | lpddr5TrainingDone | emberFwWrite | tinderTransferTaken | tinderRegisterWrite | flrQuiesceComplete
    | completionReceived | completionTimeout | quarantineWindowClose | registerWrite | sqFetch | aggTimeExpiry | backendCompletion
    | backendTimeout | catalogueCheckpoint | runAgeExpiry | leaseWritten | cipherJobStart | cipherJobDone | vaultWriteDone
    | checkSliceDone | lockHoldExpiry | restoreHoldExpiry | hostLinkError | ignFall | tinderStretchLimit =>
    simp only [exec, execBootWindowAccess, execLpddr5TrainingDone, execEmberFwWrite, execTinderTransferTaken, execTinderRegisterWrite,
      execFlrQuiesceComplete, execCompletionReceived, execCompletionTimeout, execQuarantineWindowClose, execRegisterWrite, execSqFetch,
      execAggTimeExpiry, execBackendCompletion, execBackendTimeout, execCatalogueCheckpoint, execRunAgeExpiry, execLeaseWritten,
      execCipherJobStart, execCipherJobDone, execVaultWriteDone, execCheckSliceDone, execLockHoldExpiry, execRestoreHoldExpiry,
      execHostLinkError, execIgnFall, execTinderStretchLimit]
    (repeat' split) <;> exact goesOn_done _

/-- A step takes the front command, or lets one nanosecond pass; neither faults. -/
theorem step_ne_fault (s : State) (f : Fault) : step s ≠ .fault f := by
  unfold step
  split
  next => simp
  next c rest hp =>
    by_cases hc : ∃ straps, c = .aoPowerOn straps true
    · obtain ⟨straps, rfl⟩ := hc
      exact nofun
    · obtain ⟨t, ht⟩ := goesOn_exec { s with pending := rest } c fun straps h => hc ⟨straps, h⟩
      simp [ht]

/-- Settles O5: AO_POWER_ON with TEST_MODE high is refused, every other command goes on. -/
theorem alwaysNext : Obligations.AlwaysNext := by
  refine ⟨fun c s => ?_, step_ne_fault⟩
  by_cases hc : ∃ straps, c = .aoPowerOn straps true
  · obtain ⟨straps, rfl⟩ := hc
    exact .inr ⟨⟨straps, rfl⟩, rfl⟩
  · exact .inl (goesOn_exec s c fun straps h => hc ⟨straps, h⟩)

end Sys2Proof.Laws
end

section
/-! PROOFS. The event gatherer's targets (R454–R460): what a claim takes and returns, what an end of service leaves, and that the priorities
on a stack stay in order. -/

namespace Sys2Proof.Laws

open Sys2Proof.Machine

/-! Pending bits (R451) -/

/-- A sparse map finds the keys that it lists. -/
theorem isSome_get?_iff_mem {α : Type} {m : SMap α} {k : Nat} : (m.get? k).isSome = true ↔ k ∈ m.map Prod.fst := by
  induction m with
  | nil => simp [SMap.get?]
  | cons kv m ih =>
    by_cases h : kv.1 = k
    · simp [SMap.get?, h]
    · simp [SMap.get?, h, ih, Ne.symm h]

@[simp] theorem isPending_put (g : Gatherer) (n m : Nat) :
    ({ g with pending := g.pending.put n () } : Gatherer).isPending m = (g.isPending m || m == n) := by
  by_cases h : m = n
  · simp [Gatherer.isPending, h, get?_put_same]
  · simp [Gatherer.isPending, h, get?_put_other]

@[simp] theorem isPending_del (g : Gatherer) (n m : Nat) :
    ({ g with pending := g.pending.del n } : Gatherer).isPending m = (g.isPending m && m != n) := by
  by_cases h : m = n
  · simp [Gatherer.isPending, h, get?_del_same]
  · simp [Gatherer.isPending, h, get?_del_other]

@[simp] theorem target_pending (g : Gatherer) (p : SMap Unit) (t : Nat) : ({ g with pending := p } : Gatherer).target t = g.target t := rfl

@[simp] theorem isPending_setTarget (g : Gatherer) (t n : Nat) (x : EgTarget) : (g.setTarget t x).isPending n = g.isPending n := rfl

@[simp] theorem event_isPending (s : State) (n m : Nat) : (s.event n).eg.isPending m = (s.eg.isPending m || m == n) :=
  isPending_put s.eg n m

@[simp] theorem event_target (s : State) (n t : Nat) : (s.event n).eg.target t = s.eg.target t := rfl

/-! Which source raises the line (R454) -/

theorem qualifies_iff {g : Gatherer} {t n : Nat} : g.qualifies t n = true ↔ g.isPending n = true ∧ (g.route n).target = t ∧
    ((n = 0 ∧ 0 < (g.target t).running) ∨ (n ≠ 0 ∧ (g.route n).priority ≠ 0 ∧ (g.route n).priority < (g.target t).running)) := by
  by_cases h : n = 0 <;> simp [Gatherer.qualifies, h, and_assoc]

/-- A source that raises a line stands above what runs there: source 0 has priority 0. -/
theorem priority_lt_of_qualifies {g : Gatherer} {t n : Nat} (h : g.qualifies t n = true) :
    (g.route n).priority < (g.target t).running := by
  obtain ⟨-, -, ⟨rfl, hr⟩ | ⟨-, -, hr⟩⟩ := qualifies_iff.mp h
  · exact hr
  · exact hr

/-! Which source a claim takes (R455) -/

/-- A source stands before another: by the lower priority number, then by the lower number. -/
def Precedes (g : Gatherer) (n m : Nat) : Prop :=
  (g.route n).priority < (g.route m).priority ∨ ((g.route n).priority = (g.route m).priority ∧ n ≤ m)

theorem precedes_refl (g : Gatherer) (n : Nat) : Precedes g n n := .inr ⟨rfl, le_rfl⟩

theorem precedes_trans {g : Gatherer} {a b c : Nat} (hab : Precedes g a b) (hbc : Precedes g b c) : Precedes g a c := by
  unfold Precedes at *
  omega

/-- The better of two sources is one of them and stands before both. -/
theorem better_precedes (g : Gatherer) (a b : Nat) :
    (g.better a b = a ∨ g.better a b = b) ∧ Precedes g (g.better a b) a ∧ Precedes g (g.better a b) b := by
  unfold Gatherer.better Precedes
  split <;> simp <;> omega

/-- One more source looked at for the best. -/
def pick (g : Gatherer) (t : Nat) (o : Option Nat) (n : Nat) : Option Nat :=
  if g.qualifies t n then some (match o with
    | none => n
    | some a => g.better a n) else o

theorem best_eq_foldl_pick (g : Gatherer) (t : Nat) : g.best t = (g.pending.map Prod.fst).foldl (pick g t) none := by
  rw [List.foldl_map]
  rfl

/-- The best of the sources looked at: none, where none qualifies. -/
def IsBest (g : Gatherer) (t : Nat) (seen : List Nat) : Option Nat → Prop
  | none => ∀ m ∈ seen, g.qualifies t m = false
  | some n => g.qualifies t n = true ∧ ∀ m ∈ seen, g.qualifies t m = true → Precedes g n m

theorem isBest_pick {g : Gatherer} {t n : Nat} {seen : List Nat} {o : Option Nat} (h : IsBest g t seen o) :
    IsBest g t (seen ++ [n]) (pick g t o n) := by
  by_cases hn : g.qualifies t n = true
  · cases o with
    | none =>
      simp only [pick, hn, if_true, IsBest, List.mem_append, List.mem_singleton, true_and]
      rintro m (hm | rfl) hq
      · exact absurd hq (by simp [h m hm])
      · exact precedes_refl g m
    | some a =>
      obtain ⟨ha, hseen⟩ := h
      obtain ⟨hor, hbefore, hn'⟩ := better_precedes g a n
      simp only [pick, hn, if_true, IsBest, List.mem_append, List.mem_singleton]
      refine ⟨?_, ?_⟩
      · obtain e | e := hor <;> rw [e] <;> assumption
      · rintro m (hm | rfl) hq
        · exact precedes_trans hbefore (hseen m hm hq)
        · exact hn'
  · cases o with
    | none => simpa [pick, hn, IsBest, or_imp, forall_and] using h
    | some a => simpa [pick, hn, IsBest, or_imp, forall_and] using h

theorem isBest_foldl_pick {g : Gatherer} {t : Nat} (l : List Nat) : ∀ {seen : List Nat} {o : Option Nat}, IsBest g t seen o →
    IsBest g t (seen ++ l) (l.foldl (pick g t) o) := by
  induction l with
  | nil => simp
  | cons n l ih =>
    intro seen o h
    simpa using ih (isBest_pick (n := n) h)

theorem isBest_best (g : Gatherer) (t : Nat) : IsBest g t (g.pending.map Prod.fst) (g.best t) := by
  rw [best_eq_foldl_pick]
  exact isBest_foldl_pick _ (seen := []) fun _ h => nomatch h

theorem mem_pending_of_qualifies {g : Gatherer} {t n : Nat} (h : g.qualifies t n = true) : n ∈ g.pending.map Prod.fst :=
  isSome_get?_iff_mem.mp (qualifies_iff.mp h).1

section Claimable

variable {g : Gatherer} {t n : Nat}

theorem claimable_open (hf : (g.target t).frozen = false) : g.claimable t = g.best t := by
  simp [Gatherer.claimable, hf]

theorem claimable_frozen (hf : (g.target t).frozen = true) (ht : t ≠ 0) : g.claimable t = none := by
  simp [Gatherer.claimable, hf, ht]

theorem claimable_frozen_hearth (hf : (g.target 0).frozen = true) (hp : g.isPending 0 = true) : g.claimable 0 = some 0 := by
  simp [Gatherer.claimable, hf, hp]

theorem open_of_claimable (ht : t ≠ 0) (h : g.claimable t = some n) : (g.target t).frozen = false := by
  cases hf : (g.target t).frozen with
  | false => rfl
  | true => simp [claimable_frozen hf ht] at h

theorem qualifies_of_claimable (hf : (g.target t).frozen = false) (h : g.claimable t = some n) : g.qualifies t n = true := by
  have hb := isBest_best g t
  rw [← claimable_open hf, h] at hb
  exact hb.1

/-- What is claimed stands before every other source that raises the line. -/
theorem precedes_of_claimable (hf : (g.target t).frozen = false) (h : g.claimable t = some n) {m : Nat} (hm : g.qualifies t m = true) :
    Precedes g n m := by
  have hb := isBest_best g t
  rw [← claimable_open hf, h] at hb
  exact hb.2 m (mem_pending_of_qualifies hm) hm

/-- The line of an unfrozen target is raised where some source raises it (R454). -/
theorem request_iff (hf : (g.target t).frozen = false) : g.request t = true ↔ ∃ n, g.qualifies t n = true := by
  cases h : g.claimable t with
  | some n => simpa [Gatherer.request, h] using ⟨n, qualifies_of_claimable hf h⟩
  | none =>
    have hb := isBest_best g t
    rw [← claimable_open hf, h] at hb
    simpa [Gatherer.request, h] using fun n => eq_false_of_ne_true fun hn => by simp [hb n (mem_pending_of_qualifies hn)] at hn

theorem claimable_of_not_request (h : g.request t = false) : g.claimable t = none := by
  simpa [Gatherer.request] using h

/-! The claim (R455, R458, R459) -/

theorem claim_none (h : g.claimable t = none) : g.claim t = (claimWord 0x3FF 0 (g.target t).stack.length, g) := by
  simp [Gatherer.claim, h]

theorem claim_open (hf : (g.target t).frozen = false) (h : g.claimable t = some n) :
    g.claim t = (claimWord n (g.route n).priority ((g.target t).stack.length + 1),
      ({ g with pending := g.pending.del n } : Gatherer).setTarget t
        ⟨(g.route n).priority, (n, (g.target t).running) :: (g.target t).stack, false⟩) := by
  simp only [Gatherer.claim, h, hf]
  rfl

theorem claim_frozen (hf : (g.target t).frozen = true) (h : g.claimable t = some n) :
    g.claim t = (claimWord n 0 (g.target t).stack.length, { g with pending := g.pending.del n }) := by
  simp [Gatherer.claim, h, hf]

theorem claim_target_other {k : Nat} (hk : k ≠ t) : (g.claim t).2.target k = g.target k := by
  cases h : g.claimable t with
  | none => rw [claim_none h]
  | some n =>
    cases hf : (g.target t).frozen with
    | false => rw [claim_open hf h, target_setTarget_other _ _ hk, target_pending]
    | true => rw [claim_frozen hf h, target_pending]

/-- The SOURCE field of the word that a claim returns (Table 15-7). -/
theorem claimWord_source (n p d : Nat) : claimWord n p d % 1024 = n % 1024 := by
  unfold claimWord
  omega

end Claimable

/-! Nesting (R457) -/

theorem nested_empty : (⟨16, [], false⟩ : EgTarget).Nested := by simp [EgTarget.Nested]

/-- Numbers that rise strictly from a on and stay within b are b - a at most. -/
theorem length_le_of_rising {l : List Nat} {a b : Nat} (hl : (a :: l).Pairwise (· < ·)) (hb : ∀ p ∈ a :: l, p ≤ b) : a + l.length ≤ b := by
  induction l generalizing a with
  | nil => simpa using hb
  | cons c l ih =>
    have hac : a < c := List.rel_of_pairwise_cons hl List.mem_cons_self
    have := ih (List.Pairwise.of_cons hl) fun p hp => hb p (List.mem_cons_of_mem a hp)
    simp only [List.length_cons]
    omega

section Nested

variable {x : EgTarget} {n p : Nat} {f : Bool}

theorem nested_room (h : x.Nested) : x.running + x.stack.length ≤ 16 := by
  simpa using length_le_of_rising h.1 h.2

/-- A claim takes a priority strictly above the running one, which the stack saves. -/
theorem nested_push (h : x.Nested) (hp : p < x.running) : (⟨p, (n, x.running) :: x.stack, f⟩ : EgTarget).Nested := by
  obtain ⟨hrise, hle⟩ := h
  refine ⟨List.pairwise_cons.mpr ⟨fun q hq => ?_, hrise⟩, fun q hq => ?_⟩
  · obtain rfl | hq := List.mem_cons.mp hq
    · exact hp
    · exact hp.trans (List.rel_of_pairwise_cons hrise hq)
  · obtain rfl | hq := List.mem_cons.mp hq
    · exact hp.le.trans (hle _ List.mem_cons_self)
    · exact hle q hq

/-- An end of service restores the priority that the top entry saved. -/
theorem nested_pop {saved : Nat} {rest : List (Nat × Nat)} (h : x.Nested) (hs : x.stack = (n, saved) :: rest) :
    (⟨saved, rest, f⟩ : EgTarget).Nested := by
  obtain ⟨hrise, hle⟩ := h
  rw [hs] at hrise hle
  exact ⟨hrise.of_cons, fun q hq => hle q (List.mem_cons_of_mem _ hq)⟩

end Nested

theorem nested_claim {g : Gatherer} {k : Nat} (t : Nat) (h : (g.target k).Nested) : ((g.claim t).2.target k).Nested := by
  by_cases hk : k = t
  · subst hk
    cases hc : g.claimable k with
    | none => rwa [claim_none hc]
    | some n =>
      cases hf : (g.target k).frozen with
      | true => rwa [claim_frozen hf hc]
      | false =>
        rw [claim_open hf hc, target_setTarget]
        exact nested_push h (priority_lt_of_qualifies (qualifies_of_claimable hf hc))
  · rwa [claim_target_other hk]

theorem nested_clear {g : Gatherer} {k : Nat} (t : Nat) (h : (g.target k).Nested) : ((g.clear t).target k).Nested := by
  by_cases hk : k = t
  · subst hk
    rw [Gatherer.clear, target_setTarget]
    exact nested_empty
  · rwa [Gatherer.clear, target_setTarget_other _ _ hk]

theorem nested_emptied {g : Gatherer} {k : Nat} (t : Nat) (h : (g.target k).Nested) : ((g.empty t).target k).Nested := by
  by_cases hk : k = t
  · subst hk
    rw [Gatherer.empty, target_setTarget]
    exact nested_empty
  · rwa [Gatherer.empty, target_setTarget_other _ _ hk]

/-! An end of service and the stack fault (R456, R458) -/

@[simp] theorem dadd_eg (s : State) (i k n : Nat) : (s.dadd i k n).eg = s.eg := rfl
@[simp] theorem dinc_eg (s : State) (i k : Nat) : (s.dinc i k).eg = s.eg := rfl

/-- A counter of an entry of 32 bits. -/
theorem dget_dinc_u32 (s : State) {i k : Nat} (h : (dictRow? i k).map (fun r => r.ty.len) = some 4) :
    (s.dinc i k).dget i k = (s.dget i k + 1) % 2 ^ 32 := by
  obtain ⟨r, hr, hlen⟩ := Option.map_eq_some_iff.mp h
  simp [State.dinc, State.dadd, hr, hlen]

section Eoi

variable {s : State} {t n : Nat}

/-- The stack fault of target t (R458). -/
def stackFault (s : State) (t : Nat) : State :=
  ((s.withGatherer fun g => g.setTarget t { s.eg.target t with frozen := true }).event 0).dinc 0x3900 4

theorem egEoiOp_frozen (hf : (s.eg.target t).frozen = true) : s.egEoiOp t n = s.dinc 0x3900 6 := by
  simp [State.egEoiOp, hf]

theorem egEoiOp_top {saved : Nat} {rest : List (Nat × Nat)} (hf : (s.eg.target t).frozen = false)
    (hs : (s.eg.target t).stack = (n, saved) :: rest) : s.egEoiOp t n = s.withGatherer fun g => g.setTarget t ⟨saved, rest, false⟩ := by
  simp [State.egEoiOp, hf, hs]

theorem egEoiOp_fault (hf : (s.eg.target t).frozen = false) (hs : ∀ saved rest, (s.eg.target t).stack ≠ (n, saved) :: rest) :
    s.egEoiOp t n = stackFault s t := by
  simp only [State.egEoiOp, hf]
  split
  · contradiction
  · split
    next source saved rest hstack => 
      have he : source ≠ n := fun he => hs saved rest (he ▸ hstack)
      exact if_neg he
    next => rfl

@[simp] theorem stackFault_target : (stackFault s t).eg.target t = { s.eg.target t with frozen := true } := by
  simp [stackFault]

theorem stackFault_target_other {k : Nat} (hk : k ≠ t) : (stackFault s t).eg.target k = s.eg.target k := by
  simp [stackFault, target_setTarget_other _ _ hk]

@[simp] theorem stackFault_pending : (stackFault s t).eg.isPending 0 = true := by
  simp [stackFault]

/-- The cases of an end of service: ignored at a frozen target, the top entry's, or a fault. -/
theorem egEoiOp_cases (s : State) (t n : Nat) :
    ((s.eg.target t).frozen = true ∧ s.egEoiOp t n = s.dinc 0x3900 6)
    ∨ (∃ saved rest, (s.eg.target t).stack = (n, saved) :: rest
        ∧ s.egEoiOp t n = s.withGatherer fun g => g.setTarget t ⟨saved, rest, false⟩)
    ∨ s.egEoiOp t n = stackFault s t := by
  cases hf : (s.eg.target t).frozen with
  | true => exact .inl ⟨rfl, egEoiOp_frozen hf⟩
  | false =>
    by_cases hs : ∃ saved rest, (s.eg.target t).stack = (n, saved) :: rest
    · obtain ⟨saved, rest, hs⟩ := hs
      exact .inr (.inl ⟨saved, rest, hs, egEoiOp_top hf hs⟩)
    · exact .inr (.inr (egEoiOp_fault hf fun saved rest h => hs ⟨saved, rest, h⟩))

theorem egEoiOp_target_other {k : Nat} (hk : k ≠ t) : (s.egEoiOp t n).eg.target k = s.eg.target k := by
  obtain ⟨-, h⟩ | ⟨saved, rest, -, h⟩ | h := egEoiOp_cases s t n
  · rw [h, dinc_eg]
  · rw [h, withGatherer_eg, target_setTarget_other _ _ hk]
  · rw [h, stackFault_target_other hk]

theorem nested_egEoiOp {k : Nat} (h : (s.eg.target k).Nested) : ((s.egEoiOp t n).eg.target k).Nested := by
  by_cases hk : k = t
  · subst hk
    obtain ⟨-, e⟩ | ⟨saved, rest, hs, e⟩ | e := egEoiOp_cases s k n
    · rwa [e, dinc_eg]
    · rw [e, withGatherer_eg, target_setTarget]
      exact nested_pop h hs
    · rwa [e, stackFault_target]
  · rwa [egEoiOp_target_other hk]

/-- FROZEN_TARGETS has the bit of each target that is frozen (Table 15-13). -/
theorem testBit_frozenTargets (ht : t ≤ 32) : (s.dictValue 0x3900 7).nat.testBit t = (s.eg.target t).frozen := by
  have hsorted : s.eg.frozenList.SortedLT := ((List.sortedLT_range 33).pairwise.filter _).sortedLT
  have hbits : (sumNat (s.eg.frozenList.map fun k => 2 ^ k)).bitIndices = s.eg.frozenList := by
    rw [sumNat, ← List.sum_eq_foldl]
    exact Nat.bitIndices_sum_map_two_pow hsorted
  have hrow : ∃ r, dictRow? 0x3900 7 = some r := Option.isSome_iff_exists.mp (by decide +kernel)
  obtain ⟨r, hr⟩ := hrow
  have hv : s.dictValue 0x3900 7 = .num (sumNat (s.eg.frozenList.map fun k => 2 ^ k)) := by
    simp [State.dictValue, hr, State.view, State.gathererView]
  rw [hv, Bool.eq_iff_iff, ← Nat.mem_bitIndices]
  show t ∈ (sumNat _).bitIndices ↔ _
  rw [hbits, Gatherer.frozenList, List.mem_filter, List.mem_range]
  simp only [and_iff_right_iff_imp]
  omega

end Eoi

/-- EG_EOI by the hearth (R456). -/
theorem does_egEoi {s : State} {t n : Nat} (ht : t ≤ 32) (hn : n < 1024) (hh : s.hearthRuns = true) : Does (.egEoi t n) s (s.egEoiOp t n) := by
  have hdoes : Does (.egEoi t n) s (s.egEoiOp t (n % 1024)) :=
    does_of_guard (P := t ≤ 32 ∧ s.hearthRuns = true) (v := s) rfl ⟨ht, hh⟩
  rwa [Nat.mod_eq_of_lt hn] at hdoes

/-- Settles O52: a claim pushes, an end of service pops, both by the order on the stack. -/
theorem claimsNest : Obligations.ClaimsNest := by
  refine ⟨fun x h => by have := nested_room h; omega, fun t => nested_empty, fun g t n h hf hc => ?_,
    fun g t k h => ⟨nested_claim t h, nested_clear t h, nested_emptied t h⟩, fun s t n k h => nested_egEoiOp h⟩
  have hlt := priority_lt_of_qualifies (qualifies_of_claimable hf hc)
  have hroom := nested_room h
  rw [claim_open hf hc, target_setTarget]
  exact ⟨hlt, by omega, rfl, rfl⟩

/-- Settles O51: an end of service by its cases, a frozen target by what it takes. -/
theorem stackFaults : Obligations.StackFaults := by
  intro s u t n ht hn x y
  refine ⟨?_, fun m hf => ?_, fun hf h0 => ?_, fun hh => does_of_not_guard rfl (by simp [hh])⟩
  · rintro rfl
    refine ⟨fun hh => ?_, fun k hk => ?_, fun saved rest hf hs => ?_, fun hf hs => ?_, fun hf => ?_, fun k hk => egEoiOp_target_other hk⟩
    · exact does_egEoi ht hn hh
    · simp [State.csrWrite, hk, Nat.mod_eq_of_lt hn]
    · simp only [y]
      rw [egEoiOp_top hf hs, withGatherer_eg, target_setTarget]
      exact ⟨rfl, rfl, rfl, rfl⟩
    · simp only [y]
      rw [egEoiOp_fault hf hs]
      refine ⟨stackFault_target, stackFault_pending, ?_, dget_dinc_u32 _ (by decide +kernel)⟩
      rw [testBit_frozenTargets ht, stackFault_target]
    · rw [egEoiOp_frozen hf]
      exact ⟨rfl, dget_dinc_u32 _ (by decide +kernel)⟩
  · simp
    rfl
  · have hnone := claimable_frozen hf h0
    simp [Gatherer.request, hnone, claim_none hnone, claimWord_source]

end Sys2Proof.Laws
end

section
/-! PROOFS. The event gatherer's registers (R451–R455, R459, R460, R463, R466, R467): the hearth's accesses by their guards, the words of
pending bits, and the two dictionary entries that act. -/

namespace Sys2Proof.Laws

open Sys2Proof.Machine

/-! The line and the claim (R454, R455) -/

section Claims

variable {g : Gatherer} {t n : Nat}

/-- What a claim takes stands strictly before every other source that raises the line. -/
theorem before_of_claimable (hf : (g.target t).frozen = false) (h : g.claimable t = some n) {m : Nat} (hm : g.qualifies t m = true)
    (hmn : m ≠ n) : (g.route n).priority < (g.route m).priority ∨ ((g.route n).priority = (g.route m).priority ∧ n < m) := by
  have := precedes_of_claimable hf h hm
  unfold Precedes at this
  omega

/-- A claim clears the pending bit of what it returns, and no other. -/
theorem claim_isPending (hf : (g.target t).frozen = false) (h : g.claimable t = some n) (m : Nat) :
    (g.claim t).2.isPending m = (g.isPending m && m != n) := by
  rw [claim_open hf h, isPending_setTarget, isPending_del]

end Claims

/-! Words of pending bits (R451, R466) -/

theorem mem_wordSources {k m : Nat} {mask : Word} : m ∈ wordSources k mask ↔ m / 32 = k ∧ bit mask.toNat (m % 32) = true := by
  simp only [wordSources, List.mem_map, List.mem_filter, List.mem_range]
  constructor
  · rintro ⟨j, ⟨hj, hbit⟩, rfl⟩
    rw [show (32 * k + j) / 32 = k by omega, show (32 * k + j) % 32 = j by omega]
    exact ⟨rfl, hbit⟩
  · rintro ⟨rfl, hbit⟩
    exact ⟨m % 32, ⟨by omega, hbit⟩, by omega⟩

theorem contains_wordSources (k m : Nat) (mask : Word) : (wordSources k mask).contains m = (m / 32 == k && bit mask.toNat (m % 32)) := by
  rw [Bool.eq_iff_iff]
  simpa using mem_wordSources

/-- Changes of the gatherer one after another are one change of it. -/
theorem foldl_withGatherer (f : Gatherer → Nat → Gatherer) (l : List Nat) (s : State) :
    l.foldl (fun (s : State) n => s.withGatherer fun g => f g n) s = s.withGatherer fun g => l.foldl f g := by
  induction l generalizing s with
  | nil => rfl
  | cons n l ih =>
    rw [List.foldl_cons, ih]
    rfl

/-- Sources set pending one after another. -/
def setPending (g : Gatherer) (l : List Nat) : Gatherer := l.foldl (fun g n => { g with pending := g.pending.put n () }) g

/-- Sources cleared one after another. -/
def clearPending (g : Gatherer) (l : List Nat) : Gatherer := l.foldl (fun g n => { g with pending := g.pending.del n }) g

theorem foldl_event (l : List Nat) (s : State) :
    l.foldl (fun (s : State) n => s.event n) s = s.withGatherer fun g => setPending g l :=
  foldl_withGatherer (fun g n => { g with pending := g.pending.put n () }) l s

theorem isPending_setPending (g : Gatherer) (l : List Nat) (m : Nat) : (setPending g l).isPending m = (g.isPending m || l.contains m) := by
  induction l generalizing g with
  | nil => simp [setPending]
  | cons n l ih =>
    refine (ih _).trans ?_
    rw [isPending_put, List.contains_cons, Bool.or_assoc]

theorem isPending_clearPending (g : Gatherer) (l : List Nat) (m : Nat) :
    (clearPending g l).isPending m = (g.isPending m && !l.contains m) := by
  induction l generalizing g with
  | nil => simp [clearPending]
  | cons n l ih =>
    refine (ih _).trans ?_
    rw [isPending_del, List.contains_cons, Bool.not_or, Bool.and_assoc]
    rfl

theorem setPending_frame (g : Gatherer) (l : List Nat) : (setPending g l).targets = g.targets ∧ (setPending g l).src = g.src := by
  induction l generalizing g with
  | nil => exact ⟨rfl, rfl⟩
  | cons n l ih => exact ih _

theorem clearPending_frame (g : Gatherer) (l : List Nat) : (clearPending g l).targets = g.targets ∧ (clearPending g l).src = g.src := by
  induction l generalizing g with
  | nil => exact ⟨rfl, rfl⟩
  | cons n l ih => exact ih _

/-! The hearth's accesses (R455, R460, R463, R466) -/

section Accesses

variable {s : State} {t k n : Nat} {mask v : Word} {firing : List Nat}

/-- While the hearth does not run none of its accesses happens. -/
theorem does_accesses_idle (hh : s.hearthRuns = false) : Does (.egClaim t) s s ∧ Does (.egTctrlClear t) s s ∧ Does (.egPset k mask) s s
    ∧ Does (.egPclr k mask firing) s s ∧ Does (.egSrcWrite n v) s s :=
  ⟨does_of_not_guard rfl (by simp [hh]), does_of_not_guard rfl (by simp [hh]), does_of_not_guard rfl (by simp [hh]),
    does_of_not_guard rfl (by simp [hh]), does_of_not_guard rfl (by simp [hh])⟩

variable (hh : s.hearthRuns = true)
include hh

theorem does_egClaim (ht : t ≤ 32) : Does (.egClaim t) s (s.claimRead t) :=
  does_of_guard (P := t ≤ 32 ∧ s.hearthRuns = true) (v := s) rfl ⟨ht, hh⟩

theorem does_egTctrlClear (ht : t ≤ 32) : Does (.egTctrlClear t) s (s.withGatherer fun g => g.clear t) :=
  does_of_guard (P := t ≤ 32 ∧ s.hearthRuns = true) (v := s) rfl ⟨ht, hh⟩

theorem does_egPset (hk : k < 20) : Does (.egPset k mask) s (s.withGatherer fun g => setPending g (wordSources k mask)) := by
  have hdoes := does_of_guard (c := .egPset k mask) (P := k < 20 ∧ s.hearthRuns = true) (v := s) rfl ⟨hk, hh⟩
  exact (foldl_event (wordSources k mask) s) ▸ hdoes

/-- The bits clear, then the sources that fire in the same cycle are set. -/
theorem does_egPclr (hk : k < 20) : Does (.egPclr k mask firing) s
    (s.withGatherer fun g => setPending (clearPending g (wordSources k mask)) (firing.filter fun n => decide (n < 640))) := by
  have hdoes := does_of_guard (c := .egPclr k mask firing) (P := k < 20 ∧ s.hearthRuns = true) (v := s) rfl ⟨hk, hh⟩
  rw [foldl_withGatherer (fun g n => { g with pending := g.pending.del n }), foldl_event] at hdoes
  exact hdoes

theorem does_egSrcWrite (hn : n < 640) (ha : Gatherer.acceptsRoute n (v.toNat % 16) (v.toNat / 256 % 64) = true) :
    Does (.egSrcWrite n v) s (s.withGatherer fun g => { g with src := g.src.put n ⟨v.toNat % 16, v.toNat / 256 % 64⟩ }) :=
  does_of_guard (P := n < 640 ∧ s.hearthRuns = true ∧ Gatherer.acceptsRoute n (v.toNat % 16) (v.toNat / 256 % 64) = true) (v := s) rfl
    ⟨hn, hh, ha⟩

omit hh in
theorem does_egSrcWrite_refused (ha : Gatherer.acceptsRoute n (v.toNat % 16) (v.toNat / 256 % 64) = false) : Does (.egSrcWrite n v) s s :=
  does_of_not_guard rfl (by simp [ha])

end Accesses

section ClaimRead

variable {s : State} {t m : Nat}

/-- A claim that returns no source is not counted. -/
theorem egClaimOp_none (h : s.eg.claimable t = none) : s.egClaimOp t = ((s.eg.claim t).1, s) := by
  have hsrc : (s.eg.claim t).1 % 0x400 = 0x3FF := by rw [claim_none h, claimWord_source]
  have he : s.egClaimOp t = ((s.eg.claim t).1, if (s.eg.claim t).1 % 0x400 = 0x3FF then s.withGatherer fun _ => (s.eg.claim t).2
    else (s.withGatherer fun _ => (s.eg.claim t).2).dinc 0x3903 (t + 1)) := rfl
  rw [he, if_pos hsrc, claim_none h]
  rfl

theorem egClaimOp_some (hf : (s.eg.target t).frozen = false) (h : s.eg.claimable t = some m) (hm : m < 640) :
    s.egClaimOp t = ((s.eg.claim t).1, (s.withGatherer fun _ => (s.eg.claim t).2).dinc 0x3903 (t + 1)) := by
  have hsrc : (s.eg.claim t).1 % 0x400 ≠ 0x3FF := by
    rw [claim_open hf h, claimWord_source]
    omega
  exact congrArg (Prod.mk _) (if_neg hsrc)

/-- A claim of a flow core's target returns its word, and nothing follows. -/
theorem claimRead_core (ht : t ≠ 0) : s.claimRead t = (s.egClaimOp t).2.emit (.claimed t (s.eg.claim t).1) := by
  have he : s.claimRead t = (let s' := (s.egClaimOp t).2.emit (.claimed t (s.eg.claim t).1)
    let s' := if t = 0 then s'.peatRecord 3 hearthHart (leBytes 4 0x24002000 ++ leBytes 4 (s.eg.claim t).1) else s'
    if t = 0 ∧ (s.eg.claim t).1 % 1024 = 0 then s'.stackFaultHandling else s') := rfl
  simp [he, ht]

/-- The hearth's own claim, its word sent: the state from which its load is recorded. -/
def hearthClaim (s : State) : State := (s.egClaimOp 0).2.emit (.claimed 0 (s.eg.claim 0).1)

theorem claimRead_hearth : s.claimRead 0 =
    (let r := (hearthClaim s).peatRecord 3 hearthHart (leBytes 4 0x24002000 ++ leBytes 4 (s.eg.claim 0).1)
    if (s.eg.claim 0).1 % 1024 = 0 then r.stackFaultHandling else r) := by
  have he : s.claimRead 0 = (let s' := hearthClaim s
    let s' := if (0 : Nat) = 0 then s'.peatRecord 3 hearthHart (leBytes 4 0x24002000 ++ leBytes 4 (s.eg.claim 0).1) else s'
    if 0 = 0 ∧ (s.eg.claim 0).1 % 1024 = 0 then s'.stackFaultHandling else s') := rfl
  simp [he]

theorem hearthClaim_frame : (hearthClaim s).eg = (s.eg.claim 0).2 ∧ (hearthClaim s).out = s.out ++ [.claimed 0 (s.eg.claim 0).1]
    ∧ (hearthClaim s).q = s.q ∧ (hearthClaim s).insts = s.insts := by
  have he : (s.egClaimOp 0).2 = if (s.eg.claim 0).1 % 0x400 = 0x3FF then s.withGatherer fun _ => (s.eg.claim 0).2
    else (s.withGatherer fun _ => (s.eg.claim 0).2).dinc 0x3903 1 := rfl
  unfold hearthClaim
  rw [he]
  split <;> exact ⟨rfl, rfl, rfl, rfl⟩

/-- A claim of source 0 names it, whether or not the hearth's target is frozen. -/
theorem claim_source_zero (h : s.eg.claimable 0 = some 0) : (s.eg.claim 0).1 % 1024 = 0 := by
  cases hf : (s.eg.target 0).frozen with
  | false => rw [claim_open hf h, claimWord_source]
  | true => rw [claim_frozen hf h, claimWord_source]

end ClaimRead

/-! Routing (R453, R463, R467) -/

theorem acceptsRoute_iff {n p t : Nat} :
    Gatherer.acceptsRoute n p t = true ↔ n ≠ 0 ∧ t ≤ 32 ∧ (routableSource n = true ∨ (t = 0 ∧ p ≠ 0)) := by
  simp [Gatherer.acceptsRoute, and_assoc]

/-- What a SOURCE_MAP must be to be applied (R453, R467). -/
theorem sourceMapCheck_ok_iff {b : Bytes} : sourceMapCheck b = .ok ↔ b.length = 1280 ∧ byteAt b 0 = 0 ∧ byteAt b 1 = 0 ∧ ∀ n, n < 640 →
    byteAt b (2 * n) ≤ 15 ∧ byteAt b (2 * n + 1) ≤ 32
    ∧ (routableSource n = false → byteAt b (2 * n + 1) = 0 ∧ (n ≠ 0 → byteAt b (2 * n) ≠ 0)) := by
  unfold sourceMapCheck
  split
  next h => simp [h]
  next h =>
    rw [not_not] at h
    have hbody : ∀ c d : Bool, (if c = true then Status.outOfRange else if d = true then .fieldInvalid else .ok) = .ok
        ↔ c = false ∧ d = false := by decide
    rw [hbody]
    simp only [List.any_eq_false, List.mem_range, Bool.or_eq_true, Bool.and_eq_true, decide_eq_true_eq, bne_iff_ne, beq_iff_eq,
      Bool.not_eq_true', not_or, not_and, not_lt, not_not]
    refine ⟨fun ⟨hrange, hfixed⟩ => ⟨h, ?_, ?_, fun n hn => ?_⟩, fun ⟨_, h0, h1, hall⟩ => ⟨fun n hn => ?_, fun n hn => ?_⟩⟩
    · exact ((hrange 0 (by decide)).1.2 rfl).1
    · exact ((hrange 0 (by decide)).1.2 rfl).2
    · obtain ⟨⟨⟨ht, hp⟩, -⟩, hnz⟩ := hrange n hn
      exact ⟨hp, ht, fun hr => ⟨hfixed n hn hr, fun h0 => hnz ⟨h0, hr⟩⟩⟩
    · obtain ⟨hp, ht, hr⟩ := hall n hn
      exact ⟨⟨⟨ht, hp⟩, fun _ => ⟨h0, h1⟩⟩, fun hz => (hr hz.2).2 hz.1⟩
    · exact fun hr => ((hall n hn).2.2 hr).1

/-! The two entries that act (R460, R463, R467) -/

theorem dec_num {ty : DTy} (hd : ty ≠ .domain) (hs : ty ≠ .vstr) (b : Bytes) : DVal.dec ty b = .num (leNat b) := by
  cases ty with
  | domain => exact absurd rfl hd
  | vstr => exact absurd rfl hs
  | _ => rfl

/-- A number's bytes, in the length of its type, give it again. -/
theorem dec_leBytes {ty : DTy} {v : Nat} (hd : ty ≠ .domain) (hs : ty ≠ .vstr) (hv : v < 256 ^ ty.len) :
    DVal.dec ty (leBytes ty.len v) = .num v := by
  rw [dec_num hd hs, leNat_leBytes, Nat.mod_eq_of_lt hv]

section Entries

variable {who : Requester} {s : State}

theorem answers_clearTarget {t : Nat} (ht : t ≤ 32) (hA : s.Asks (writeOf who 0x3900 8 t))
    (hok : (s.taken (writeOf who 0x3900 8 t)).Accepts (writeOf who 0x3900 8 t)) :
    Answers (.clearTarget who t) s (writeOf who 0x3900 8 t) .ok []
      ((s.taken (writeOf who 0x3900 8 t)).withGatherer fun g => g.clear t) := by
  have hty : entryType 0x3900 8 = .u8 := by decide +kernel
  refine answers_write rfl hA hok (by decide +kernel) rfl (by decide) ?_
  rw [dec_leBytes (by simp [hty]) (by simp [hty]) (by rw [hty, DTy.len]; omega)]
  rfl

variable {b : Bytes} (hA : s.Asks ⟨who, .write, 0x3901, 1, b, .plain⟩)
  (hok : (s.taken ⟨who, .write, 0x3901, 1, b, .plain⟩).Accepts ⟨who, .write, 0x3901, 1, b, .plain⟩)
include hA hok

theorem answers_sourceMap (hb : sourceMapCheck b = .ok) :
    Answers (.sourceMap who b) s ⟨who, .write, 0x3901, 1, b, .plain⟩ .ok []
      ((s.taken ⟨who, .write, 0x3901, 1, b, .plain⟩).withGatherer fun g => g.applyMap b) := by
  have hty : entryType 0x3901 1 = .domain := by decide +kernel
  refine answers_of rfl rfl hA (by simp) (serveWrite_ok (taken_ready hA) hok (by decide +kernel) rfl ?_)
  rw [hty]
  exact if_pos hb

/-- A map that R467 refuses changes nothing. -/
theorem answers_sourceMap_refused (hb : sourceMapCheck b ≠ .ok) :
    Answers (.sourceMap who b) s ⟨who, .write, 0x3901, 1, b, .plain⟩ (sourceMapCheck b) []
      (s.taken ⟨who, .write, 0x3901, 1, b, .plain⟩) := by
  have hty : entryType 0x3901 1 = .domain := by decide +kernel
  have he (u : State) : u.entryWrite 0x3901 1 (DVal.dec (entryType 0x3901 1) b) = (sourceMapCheck b, u) := by
    rw [hty]
    exact if_neg hb
  exact answers_of rfl rfl hA (by simp) (serveWrite_refused (taken_ready hA) hok (by decide +kernel) rfl hb (he _))

end Entries

/-- Settles O53: the line, the claim, the accesses and the entries by the cases above. -/
theorem gathererRegisters : Obligations.GathererRegisters := by
  refine ⟨fun g t hf => ?line, fun g hf hp => ?frozen, fun g => rfl, fun s t k n mask v firing ht hk hn => ?accesses,
    fun n p t => acceptsRoute_iff, fun g t => ?clear, fun who s t ht hA hok => answers_clearTarget ht hA hok,
    fun who s b hA hok => ⟨answers_sourceMap hA hok, answers_sourceMap_refused hA hok⟩, fun b => sourceMapCheck_ok_iff⟩
  case line =>
    refine ⟨by simp only [request_iff hf, qualifies_iff], fun n hc => ⟨qualifies_of_claimable hf hc, fun m hm hmn => ?_⟩,
      fun hr => claim_none (claimable_of_not_request hr), fun n hc => ⟨?_, ?_, fun m hmn => ?_, fun k hk => claim_target_other hk⟩⟩
    · exact .inr (before_of_claimable hf hc hm hmn)
    · rw [claim_open hf hc]
    · simp [claim_isPending hf hc]
    · simp [claim_isPending hf hc, hmn]
  case frozen =>
    rw [claim_frozen hf (claimable_frozen_hearth hf hp)]
    exact ⟨rfl, rfl⟩
  case clear =>
    exact ⟨target_setTarget g t _, rfl, rfl, fun k hk => target_setTarget_other g _ hk⟩
  case accesses =>
    refine ⟨does_accesses_idle, fun hh => ⟨fun h0 hr => ?none, fun m h0 hc hm => ?core, ?hearth, does_egTctrlClear hh ht, ?pset, ?pclr,
      does_egSrcWrite hh hn, does_egSrcWrite_refused⟩⟩
    case none =>
      have hdoes := does_egClaim hh ht
      rwa [claimRead_core h0, egClaimOp_none (claimable_of_not_request hr)] at hdoes
    case core =>
      have hdoes := does_egClaim hh ht
      rwa [claimRead_core h0, egClaimOp_some (open_of_claimable h0 hc) hc hm] at hdoes
    case hearth =>
      obtain ⟨heg, hout, hq, hinsts⟩ := hearthClaim_frame (s := s)
      have hdoes := does_egClaim (t := 0) hh (by decide)
      rw [claimRead_hearth] at hdoes
      refine ⟨hearthClaim s, heg, hout, hq, hinsts, fun _ hsrc => ?_, fun hc => ?_⟩
      · rwa [if_neg hsrc] at hdoes
      · rwa [if_pos (claim_source_zero hc)] at hdoes
    case pset =>
      refine ⟨_, does_egPset hh hk, rfl, rfl, (setPending_frame _ _).1, (setPending_frame _ _).2, fun m => ?_⟩
      rw [withGatherer_eg, isPending_setPending, contains_wordSources]
    case pclr =>
      refine ⟨_, does_egPclr hh hk, rfl, rfl, (setPending_frame _ _).1.trans (clearPending_frame _ _).1,
        (setPending_frame _ _).2.trans (clearPending_frame _ _).2, fun m hm => ?_⟩
      have hfiring : (firing.filter fun n => decide (n < 640)).contains m = firing.contains m := by
        rw [Bool.eq_iff_iff]
        simp [hm]
      rw [withGatherer_eg, isPending_setPending, isPending_clearPending, contains_wordSources, hfiring]

end Sys2Proof.Laws
end

section
/-! PROOFS. The supplies (R501, R503–R505, Table 17-4), the supply voltage and Banked's limits (R109, R509): each command under its own
guard, and what a start leaves of the counts in AO. -/

namespace Sys2Proof.Laws

open Sys2Proof.Machine

section Supply

variable {s : State}

/-! AO power-on (R501, Table 17-4) -/

/-- The state that AO power-on leaves, before what follows. -/
def powered (s : State) (straps : Nat) : State :=
  (((((s.startBase 0).withTime fun t => { t with slow := 0, slowFrac := 0, elapsed := 0 }).dset 0x3C11 1 0).dset 0x3C11 2 0).withPow
    fun p => { p with
      st := .starting, straps := straps % 4, emberBusy := true, emberRun := false, emberSlot := 0xFF, mainEn := true, mainPg := false
      mainReset := true, nextCause := 0, mainTries := 0, mainRetry := false, slowOk := false, wakeHist := [], lastWakeSrc := 0
      lastWakeLatched := 0, lastWakeTime := 0, wakesLatched := [], tinderHeld := none, hostWake := false }).pin "MAIN_EN" true

theorem does_aoPowerOn (straps : Nat) : Does (.aoPowerOn straps false) s (powered s straps) := rfl

theorem dget_powered (straps : Nat) : (powered s straps).dget 0x3C11 1 = 0 ∧ (powered s straps).dget 0x3C11 2 = 0 := by
  constructor
  · exact (dget_dset_other _ 0 (by decide)).trans (dget_dset_same _ _ _ _)
  · exact dget_dset_same _ _ _ _

/-! The rise of MAIN_PG, its time-out and the retries (R503, R504) -/

theorem does_mainPgRise (hen : s.pow.mainEn = true) (hpg : s.pow.mainPg = false) :
    Does .mainPgRise s (if s.pow.perst then s.withPow fun p => { p with mainPg := true, mainTries := 0 }
      else (s.withPow fun p => { p with mainPg := true, mainTries := 0 }).resetRelease) :=
  does_of_guard (P := s.pow.mainEn = true ∧ (!s.pow.mainPg) = true) (v := s) rfl (by simp [hen, hpg])

/-- Neither the rise nor its time-out means anything but while MAIN_EN is driven and MAIN_PG is low. -/
theorem not_rising (h : s.pow.mainEn = false ∨ s.pow.mainPg = true) : ¬ (s.pow.mainEn = true ∧ (!s.pow.mainPg) = true) := by
  obtain h | h := h <;> simp [h]

/-- MAIN_EN low, one more try counted. -/
def mainTried (s : State) : State :=
  (s.withPow fun p => { p with mainEn := false, mainTries := p.mainTries + 1 }).pin "MAIN_EN" false

theorem exec_mainPgTimeout (hen : s.pow.mainEn = true) (hpg : s.pow.mainPg = false) : exec .mainPgTimeout s =
    if (mainTried s).pow.mainTries = 3 then
      done (((mainTried s).wakeNote 0x81).withPow fun p => { p with mainTries := 0, mainRetry := false, st := .ember, stage := 0, trans := 0 })
    else done ((mainTried s).withPow fun p => { p with mainRetry := true }) :=
  if_pos (by simp [hen, hpg])

theorem does_mainPgTimeout_retry (hen : s.pow.mainEn = true) (hpg : s.pow.mainPg = false) (htries : s.pow.mainTries ≠ 2) :
    Does .mainPgTimeout s
      ((s.withPow fun p => { p with mainEn := false, mainTries := p.mainTries + 1, mainRetry := true }).pin "MAIN_EN" false) :=
  (exec_mainPgTimeout hen hpg).trans (if_neg fun h => htries (Nat.succ.inj h))

/-- The third time-out ends in Ember, with source byte 0x81 (R504). -/
theorem does_mainPgTimeout_third (hen : s.pow.mainEn = true) (hpg : s.pow.mainPg = false) (htries : s.pow.mainTries = 2) :
    Does .mainPgTimeout s ((s.withPow fun p => { p with
      mainEn := false, mainTries := 0, mainRetry := false, st := .ember, stage := 0, trans := 0
      wakeHist := ((s.time.slow, 0x81) :: p.wakeHist).take 16 }).pin "MAIN_EN" false) :=
  (exec_mainPgTimeout hen hpg).trans (if_pos (congrArg (· + 1) htries))

/-! The loss of MAIN_PG (R505) -/

/-- The entries 0x3C11 are kept by every start (R31). -/
theorem dget_startBase (s : State) (cause : Nat) {q : Nat} (hq : q < 256) : (s.startBase cause).dget 0x3C11 q = s.dget 0x3C11 q := by
  have hkey : dkey 0x3C11 q / 256 = 0x3C11 := by
    unfold dkey
    omega
  have hget : (s.startBase cause).dict.get? (dkey 0x3C11 q) = s.dict.get? (dkey 0x3C11 q) := by
    refine (keep_get? s.dict (fun k => k / 256 == 0x3C11 || ((cause == 3 || cause == 4) && decide (0x3A00 ≤ k / 256)
      && decide (k / 256 ≤ 0x3AFF))) _).trans ?_
    simp [hkey]
  rw [State.dget, State.dget, State.dval, State.dval, hget]

/-- The state that a loss of MAIN_PG leaves, before what follows. -/
def mainLost (s : State) : State :=
  ((((s.wakeNote 0x82).hostLinkLost.startBase 0).dinc 0x3C11 1).withBoot fun b => { b with
    phase := 0, ready := false, windowOpen := false }).withPow fun p => { p with
      st := .starting, mainPg := false, mainReset := true, nextCause := 0, trans := 0, stage := 0 }

theorem does_mainPgLoss (hen : s.pow.mainEn = true) (hpg : s.pow.mainPg = true) : Does .mainPgLoss s (mainLost s) :=
  does_of_guard (P := s.pow.mainEn = true ∧ s.pow.mainPg = true) (v := s) rfl ⟨hen, hpg⟩

theorem dget_mainLost : (mainLost s).dget 0x3C11 1 = (s.dget 0x3C11 1 + 1) % 2 ^ 32 := by
  have hcount := dget_dinc_u32 ((s.wakeNote 0x82).hostLinkLost.startBase 0) (i := 0x3C11) (k := 1) (by decide +kernel)
  rwa [dget_startBase _ 0 (by decide)] at hcount

/-! The supply voltage (R509) and the moves from Banked (R109) -/

/-- A sample stored: its code, its millivolts, and whether the supply is low. -/
def sampled (s : State) (c mv : Nat) : State :=
  ((s.dset 0x3C01 1 c).dset 0x2102 3 mv).withPow fun p => { p with
    vsense := mv, vsenseCode := c, vsenseLow := decide (mv < s.aoGet 0x2002 1) }

/-- The lowest sample stands in an entry of its own, which storing a sample leaves. -/
theorem dget_sampled (c mv : Nat) : (sampled s c mv).dget 0x2102 5 = s.dget 0x2102 5 :=
  (dget_dset_other _ mv (by decide)).trans (dget_dset_other _ c (by decide))

theorem does_vsenseSample (code : Nat) :
    let c := min code 4095
    let mv := (c * 9375 + 500) / 1000
    Does (.vsenseSample code) s (if mv < s.dget 0x2102 5 then (sampled s c mv).dset 0x2102 5 mv else sampled s c mv) := by
  intro c mv
  rw [← dget_sampled (s := s) c mv]
  rfl

end Supply

/-- Settles O10, command by command from the cases above. -/
theorem supplies : Obligations.Supplies := by
  refine ⟨fun s => ⟨fun straps => rfl, ?power, does_mainPgRise, fun h => does_of_not_guard rfl (not_rising h), does_mainPgTimeout_retry,
    does_mainPgTimeout_third, ?idle, fun h => does_of_guard rfl h, fun h => does_of_not_guard rfl (by simp [h]), ?loss, ?noLoss, rfl⟩,
    fun s => ⟨fun code => does_vsenseSample code, fun hst hrun hmax => does_of_guard rfl ⟨hst, hrun, hmax⟩, ?max,
      fun hst hrun hmin hlow => does_of_guard rfl ⟨hst, hrun, hmin, hlow⟩, ?hold, fun h => if_pos h, fun h => if_neg h⟩⟩
  case power =>
    intro straps
    obtain ⟨h1, h2⟩ := dget_powered (s := s) straps
    exact ⟨powered s straps, does_aoPowerOn straps, rfl, rfl, rfl, rfl, rfl, rfl, rfl, rfl, rfl, rfl, rfl, rfl, rfl, h1, h2, rfl, rfl, rfl, rfl,
      rfl, rfl, rfl, rfl, rfl⟩
  case idle =>
    exact fun h => if_neg (not_rising h)
  case loss =>
    intro hen hpg
    exact ⟨mainLost s, does_mainPgLoss hen hpg, rfl, rfl, hen, rfl, rfl, rfl, rfl, rfl, rfl, rfl, dget_mainLost, rfl, rfl, rfl, rfl, rfl, rfl,
      rfl, rfl, rfl⟩
  case noLoss =>
    exact fun h => does_of_not_guard rfl fun hg => by obtain h | h := h <;> simp [h] at hg
  case max =>
    exact fun h => does_of_not_guard rfl fun ⟨hst, hrun, hmax⟩ => by simp [hst, hrun, hmax] at h
  case hold =>
    exact fun h => does_of_not_guard rfl fun ⟨hst, hrun, hmin, hlow⟩ => by simp [hst, hrun, hmin, hlow] at h

end Sys2Proof.Laws
end

section
/-! PROOFS. The ash log (R471–R477): what the recorder and the alarms leave of it, the buckets and summaries, and the log that a clear
leaves. -/

namespace Sys2Proof.Laws

open Sys2Proof.Machine

/-! What the peat recorder leaves alone (R487, R491): every block but LPDDR5, the dictionary, the pending bits and the free values -/

/-- What a record, a freeze and a trigger leave: the ash log, the flow cores, what was sent, the functions. -/
def besideRecorder (s : State) : Ash × Flow × List Out × SMap Fn := (s.ash, s.flow, s.out, s.fns)

section Recorder

variable (s : State)

@[simp] theorem besideRecorder_withDram (f : Mem → Mem) : besideRecorder (s.withDram f) = besideRecorder s := rfl
@[simp] theorem besideRecorder_withPeat (f : Peat → Peat) : besideRecorder (s.withPeat f) = besideRecorder s := rfl
@[simp] theorem besideRecorder_dset (i k n : Nat) : besideRecorder (s.dset i k n) = besideRecorder s := rfl
@[simp] theorem besideRecorder_dadd (i k n : Nat) : besideRecorder (s.dadd i k n) = besideRecorder s := rfl
@[simp] theorem besideRecorder_event (n : Nat) : besideRecorder (s.event n) = besideRecorder s := rfl
@[simp] theorem besideRecorder_drawBits (w : Nat) : besideRecorder (s.drawBits w).2 = besideRecorder s := rfl

@[simp] theorem besideRecorder_peatFreeze : besideRecorder s.peatFreeze = besideRecorder s := by
  simp [State.peatFreeze]

@[simp] theorem besideRecorder_peatPlace (rec : Bytes) : besideRecorder (s.peatPlace rec) = besideRecorder s := by
  unfold State.peatPlace
  dsimp only
  split
  · split
    · simp
    · split <;> simp
  · split <;> simp

@[simp] theorem besideRecorder_peatRecord (type hart : Nat) (data : Bytes) :
    besideRecorder (s.peatRecord type hart data) = besideRecorder s := by
  unfold State.peatRecord
  split
  · rw [besideRecorder_peatPlace]
    split <;> simp
  · rfl

@[simp] theorem besideRecorder_peatTrigger (cause seq : Nat) : besideRecorder (s.peatTrigger cause seq) = besideRecorder s := by
  unfold State.peatTrigger
  dsimp only
  split
  · split
    · split <;> simp
    · simp
  · rfl

end Recorder

theorem peatTrigger_ash (s : State) (cause seq : Nat) : (s.peatTrigger cause seq).ash = s.ash :=
  congrArg Prod.fst (besideRecorder_peatTrigger s cause seq)

/-! What leaves the log's entries alone -/

/-- The log's entries and the SEQ of the next. -/
def logOf (s : State) : List AshEntry × Nat := (s.ash.log, s.ash.nextSeq)

section Entries

variable (s : State)

@[simp] theorem logOf_dset (i k n : Nat) : logOf (s.dset i k n) = logOf s := rfl
@[simp] theorem logOf_dinc (i k : Nat) : logOf (s.dinc i k) = logOf s := rfl
@[simp] theorem logOf_event (n : Nat) : logOf (s.event n) = logOf s := rfl
@[simp] theorem logOf_emit (o : Out) : logOf (s.emit o) = logOf s := rfl

theorem logOf_eq {t : State} (h : t.ash = s.ash) : logOf t = logOf s := by rw [logOf, logOf, h]

@[simp] theorem logOf_eventLimited (n k : Nat) : logOf (s.eventLimited n k) = logOf s := by
  unfold State.eventLimited
  split
  · split <;> rfl
  · rfl

theorem logOf_foldl {α : Type} {f : State → α → State} (hf : ∀ u x, logOf (f u x) = logOf u) (l : List α) (s : State) :
    logOf (l.foldl f s) = logOf s := by
  induction l generalizing s with
  | nil => rfl
  | cons x l ih => rw [List.foldl_cons, ih, hf]

@[simp] theorem logOf_sendAlarm (k : Nat) : logOf (s.sendAlarm k) = logOf s := by
  unfold State.sendAlarm
  dsimp only
  split <;> split <;> split <;> rfl

@[simp] theorem logOf_alarmHit (k cls time : Nat) : logOf (s.alarmHit k cls time) = logOf s := by
  unfold State.alarmHit
  dsimp only
  split
  · exact logOf_sendAlarm _ _
  · split
    · rfl
    · exact logOf_sendAlarm _ _

@[simp] theorem logOf_alarmsTest (sev cls code time : Nat) : logOf (s.alarmsTest sev cls code time) = logOf s := by
  refine logOf_foldl (fun u k => ?_) _ s
  split
  · exact logOf_alarmHit _ _ _ _
  · rfl

theorem logOf_setBacklog (p : Nat) (l : List Nat) : logOf (s.withAsh fun a => a.setBacklog p l) = logOf s := by
  simp only [logOf, withAsh_ash, Ash.setBacklog]
  split
  · rfl
  · split <;> rfl

@[simp] theorem logOf_ashExport (seq sev : Nat) : logOf (s.ashExport seq sev) = logOf s := by
  refine logOf_foldl (fun u p => ?_) _ s
  dsimp only
  split
  · cases backlogLimit sev with
    | none => exact logOf_setBacklog u p _
    | some n =>
      dsimp only
      split
      · simp
      · exact logOf_setBacklog u p _
  · rfl

end Entries

/-! An entry takes its place (R474) -/

theorem logOf_ashPlace (s : State) (e : AshEntry) :
    logOf (s.ashPlace e).1 = (s.ash.log ++ [{ e with seq := s.ash.nextSeq }], (s.ash.nextSeq + 1) % 2 ^ 32) := by
  unfold State.ashPlace
  dsimp only
  rw [logOf_ashExport]
  split <;> rfl

/-- An empty log has room for every entry. -/
theorem ashStore_empty {s : State} (h : s.ash.log = []) (e : AshEntry) : s.ashStore e = s.ashPlace e := by
  simp [State.ashStore, h]

/-- A bypassing entry takes no token. -/
theorem ashAdmit_bypass (s : State) (e : AshEntry) : s.ashAdmit e true true = ((s.ashStore { e with count := 0 }).1,
    { e with count := 0, seq := (s.ashStore { e with count := 0 }).2.getD 0xFFFFFFFF }) := rfl

/-- The recorder's triggers on an entry leave the log (R491, causes 2 and 3). -/
theorem logOf_recorded (s : State) (e : AshEntry) (seq : Nat) :
    logOf (if e.severity ≤ s.dget 0x3B01 2 ∧ s.dget 0x3B01 2 ≠ 0xFF then s.peatTrigger 2 seq
      else if s.dget 0x3B01 3 ≠ 0 ∧ e.code = s.dget 0x3B01 3 then s.peatTrigger 3 seq else s) = logOf s := by
  split
  · exact logOf_eq _ (peatTrigger_ash ..)
  · split
    · exact logOf_eq _ (peatTrigger_ash ..)
    · rfl

/-- An entry that bypasses the bucket is stored with COUNT 0, whatever else its submission does. -/
theorem logOf_ashTake_bypass (s : State) (e : AshEntry) :
    ∃ u : State, logOf u = logOf s ∧ logOf (s.ashTake e true) = logOf (u.ashStore { e with count := 0 }).1 := by
  unfold State.ashTake
  extract_lets tested isNew fokRoom missed counted admitted
  refine ⟨counted, ?_, ?_⟩
  · have htested : logOf tested = logOf s := logOf_alarmsTest ..
    have hmissed : logOf missed = logOf s := (logOf_dinc tested 0x3A00 7).trans htested
    simp only [counted]
    split
    · split
      · exact hmissed
      · simpa [logOf] using hmissed
    · exact htested
  · have hadmitted : admitted = true := by simp [admitted]
    rw [hadmitted, ashAdmit_bypass]
    dsimp only
    have hkind (u : State) (f : AshEntry) :
        logOf (if (isNew && fokRoom) = true then u.withAsh fun a => { a with fok := a.fok ++ [f] } else u) = logOf u := by
      split <;> rfl
    rw [if_pos rfl]
    exact (logOf_recorded _ _ _).trans (hkind _ _)

/-- LOG_CLEARED in an empty log whose SEQ restarts (R477). -/
theorem logOf_logCleared {s : State} (n : Nat) (hlog : s.ash.log = []) (hseq : s.ash.nextSeq = 1) :
    logOf (s.logCleared n) = ([⟨s.time.ns, 0xFFFF, 4, 15, 0x80F1, 0, 1, leBytes 4 n⟩], 2) := by
  obtain ⟨u, hu, htake⟩ := logOf_ashTake_bypass s ⟨s.time.ns, 0xFFFF, 4, 15, 0x80F1, 0, 0, leBytes 4 n⟩
  obtain ⟨hulog, huseq⟩ := Prod.mk.inj hu
  rw [State.logCleared, htake, ashStore_empty (hulog.trans hlog), logOf_ashPlace, hulog, huseq, hlog, hseq]
  rfl

/-- CLEAR = 1 leaves LOG_CLEARED alone. -/
theorem logClear_one (s : State) : s.logClear.ash.nextSeq = 2 ∧ s.logClear.ash.log.length = 1 := by
  have hone {t : State} {e : AshEntry} (h : logOf t = ([e], 2)) : t.ash.nextSeq = 2 ∧ t.ash.log.length = 1 := by
    obtain ⟨hlog, hseq⟩ := Prod.mk.inj h
    rw [hlog, hseq]
    exact ⟨rfl, rfl⟩
  unfold State.logClear
  exact hone (logOf_logCleared _ rfl rfl)

/-! The bucket and the grid (R471–R473) -/

section Admission

variable {s : State}

theorem logSubmit_filtered {e : AshEntry} (h : s.dget 0x3A03 (e.cls + 1) < e.severity) : s.logSubmit e = s := if_pos h

theorem does_admissionTokenGain {c : Nat} (hc : c < 16) (hw : s.awake = true) : Does (.admissionTokenGain c) s
    (s.withAsh fun a => { a with tokens := a.tokens.put c (min (s.dget 0x3A02 (c + 1)) (s.ashTokens c + 1)) }) :=
  does_of_guard (P := c < 16 ∧ s.awake = true) (v := s) rfl ⟨hc, hw⟩

theorem does_admissionTokenGain_idle {c : Nat} (h : 16 ≤ c ∨ s.awake = false) : Does (.admissionTokenGain c) s s :=
  does_of_not_guard rfl fun ⟨hc, hw⟩ => by
    obtain h | h := h
    · omega
    · simp [h] at hw

/-- There is no summary of a class without refusals. -/
theorem summary_none {c : Nat} (h : s.ash.interval.get? c = none) : s.summary c = s := by
  simp [State.summary, h]

theorem summaries_none (h : s.ash.interval = []) : s.summaries = s :=
  foldl_stays _ s _ fun c _ => summary_none (by rw [h]; rfl)

end Admission

end Sys2Proof.Laws
end

section
/-! PROOFS. The exports of the ash log and the alarms (R478–R484): the entries that act, what a path takes from its backlog, an
acknowledgement, the end of the inhibit time. -/

namespace Sys2Proof.Laws

open Sys2Proof.Machine

/-! The entries that act (R477, R483) -/

section Entries

variable {who : Requester} {s : State} {k q v : Nat}

theorem entryWrite_clear (s : State) (v : Nat) :
    s.entryWrite 0x3A00 3 (.num v) = (.ok, if v = 1 then s.logClear else s.fokClear) := rfl

theorem answers_logClear (hA : s.Asks (writeOf who 0x3A00 3 1))
    (hok : (s.taken (writeOf who 0x3A00 3 1)).Accepts (writeOf who 0x3A00 3 1)) :
    Answers (.logClear who) s (writeOf who 0x3A00 3 1) .ok [] (s.taken (writeOf who 0x3A00 3 1)).logClear := by
  have hty : entryType 0x3A00 3 = .u8 := by decide +kernel
  refine answers_write rfl hA hok (by decide +kernel) rfl (by decide) ?_
  rw [dec_leBytes (by simp [hty]) (by simp [hty]) (by rw [hty, DTy.len]; omega), entryWrite_clear, if_pos rfl]

theorem answers_firstOfKindClear (hA : s.Asks (writeOf who 0x3A00 3 2))
    (hok : (s.taken (writeOf who 0x3A00 3 2)).Accepts (writeOf who 0x3A00 3 2)) :
    Answers (.firstOfKindClear who) s (writeOf who 0x3A00 3 2) .ok [] (s.taken (writeOf who 0x3A00 3 2)).fokClear := by
  have hty : entryType 0x3A00 3 = .u8 := by decide +kernel
  refine answers_write rfl hA hok (by decide +kernel) rfl (by decide) ?_
  rw [dec_leBytes (by simp [hty]) (by simp [hty]) (by rw [hty, DTy.len]; omega), entryWrite_clear, if_neg (by decide)]

theorem answers_ackAll (hA : s.Asks (writeOf who 0x3A30 3 1))
    (hok : (s.taken (writeOf who 0x3A30 3 1)).Accepts (writeOf who 0x3A30 3 1)) :
    Answers (.ackAll who) s (writeOf who 0x3A30 3 1) .ok [] (s.taken (writeOf who 0x3A30 3 1)).ackAll :=
  answers_write rfl hA hok (by decide +kernel) rfl (by decide) rfl

/-- A row of the dictionary that reaches into the alarms' indexes holds numbers of no group. -/
def alarmRowPlain (r : DRow) : Bool :=
  decide (r.base + r.stride * (r.count - 1) < 0x3A40) || decide (0x3AC0 ≤ r.base) || (r.ty != .domain && r.ty != .vstr && r.acc != .rwc)

theorem dictRows_alarmRowPlain : ∀ r ∈ dictRows, alarmRowPlain r = true := by decide +kernel

/-- A row covers no index before its first and none after its last. -/
theorem range_of_covers {r : DRow} {i q : Nat} (h : r.covers i q = true) : r.base ≤ i ∧ i ≤ r.base + r.stride * (r.count - 1) := by
  have hpos : (r.pos i).isSome = true := by
    simp only [DRow.covers, Bool.and_eq_true] at h
    exact h.1.1
  unfold DRow.pos at hpos
  split at hpos
  · cases hpos
  · split at hpos
    · obtain rfl : i = r.base := by by_contra hne; simp [hne] at hpos
      omega
    · split at hpos
      next hlo _ hin =>
        have hdiv : r.stride * ((i - r.base) / r.stride) = i - r.base := Nat.mul_div_cancel' (Nat.dvd_of_mod_eq_zero hin.1)
        have hle : r.stride * ((i - r.base) / r.stride) ≤ r.stride * (r.count - 1) := Nat.mul_le_mul_left _ (by omega)
        omega
      · cases hpos

/-- The entries of an alarm are numbers of no group. -/
theorem entry_alarm (hk : k < 128) (q : Nat) : entryType (0x3A40 + k) q ≠ .domain ∧ entryType (0x3A40 + k) q ≠ .vstr
    ∧ entryAccess (0x3A40 + k) q ≠ .rwc := by
  unfold entryType entryAccess
  cases hr : dictRow? (0x3A40 + k) q with
  | none => exact ⟨by decide, by decide, by decide⟩
  | some r =>
    have hplain := dictRows_alarmRowPlain r (List.mem_of_find?_eq_some hr)
    have hrange := range_of_covers (List.find?_some (p := fun (r : DRow) => r.covers (0x3A40 + k) q) hr)
    simp only [alarmRowPlain, Bool.or_eq_true, Bool.and_eq_true, decide_eq_true_eq, bne_iff_ne] at hplain
    obtain (hbefore | hafter) | ⟨⟨hd, hs⟩, hw⟩ := hplain
    · omega
    · omega
    · exact ⟨hd, hs, hw⟩

/-- No table before that of Chapter 16 has an entry of an alarm. -/
theorem alarm_noOther (s : State) (v : DVal) (hk : k < 128) :
    s.powerWrite (0x3A40 + k) q v = none ∧ s.blockWrite (0x3A40 + k) q v = none := by
  constructor
  · unfold State.powerWrite
    split
    case h_5 => rfl
    all_goals omega
  · unfold State.blockWrite
    split
    case h_5 => rw [if_neg (by omega), if_neg (by omega)]
    all_goals omega

theorem watchWrite_alarm (s : State) (v : DVal) (hk : k < 128) : s.watchWrite (0x3A40 + k) q v =
    if q = 8 then some (.ok, s.alarmAck k) else if q ≤ 4 then some (.ok, (s.alarmAck k).dsetv (0x3A40 + k) q v) else none := by
  unfold State.watchWrite
  split
  case h_10 => rw [if_pos (by omega), Nat.add_sub_cancel_left]
  all_goals omega

theorem entryWrite_alarmAck (s : State) (v : DVal) (hk : k < 128) : s.entryWrite (0x3A40 + k) 8 v = (.ok, s.alarmAck k) := by
  obtain ⟨hpower, hblock⟩ := alarm_noOther (q := 8) s v hk
  rw [State.entryWrite, hpower, hblock, watchWrite_alarm s v hk]
  rfl

theorem entryWrite_alarmDefine (s : State) (v : DVal) (hk : k < 128) (hq : q ≤ 4) :
    s.entryWrite (0x3A40 + k) q v = (.ok, (s.alarmAck k).dsetv (0x3A40 + k) q v) := by
  obtain ⟨hpower, hblock⟩ := alarm_noOther (q := q) s v hk
  rw [State.entryWrite, hpower, hblock, watchWrite_alarm s v hk, if_neg (by omega), if_pos hq]

theorem groupAt_alarm (hk : k < 128) : groupAt (0x3A40 + k) = none := by
  rw [groupAt, if_neg (by omega), if_neg (by omega)]

theorem answers_alarmAck (hk : k < 128) (hA : s.Asks (writeOf who (0x3A40 + k) 8 1))
    (hok : (s.taken (writeOf who (0x3A40 + k) 8 1)).Accepts (writeOf who (0x3A40 + k) 8 1)) :
    Answers (.alarmAck who k) s (writeOf who (0x3A40 + k) 8 1) .ok [] ((s.taken (writeOf who (0x3A40 + k) 8 1)).alarmAck k) :=
  answers_write rfl hA hok (entry_alarm hk 8).2.2 rfl (by omega) (entryWrite_alarmAck _ _ hk)

/-- A new definition acts as an acknowledgement (R483). -/
theorem answers_alarmDefine (hk : k < 128) (hhi : q ≤ 4) (hv : v < 256 ^ (entryType (0x3A40 + k) q).len)
    (hA : s.Asks (writeOf who (0x3A40 + k) q v)) (hok : (s.taken (writeOf who (0x3A40 + k) q v)).Accepts (writeOf who (0x3A40 + k) q v)) :
    Answers (.alarmDefine who k q v) s (writeOf who (0x3A40 + k) q v) .ok []
      (((s.taken (writeOf who (0x3A40 + k) q v)).alarmAck k).dset (0x3A40 + k) q v) := by
  obtain ⟨hd, hs, hw⟩ := entry_alarm hk q
  refine answers_write rfl hA hok hw (by simp [groupAt_alarm hk]) (by omega) ?_
  rw [dec_leBytes hd hs hv, entryWrite_alarmDefine _ _ hk hhi]
  rfl

/-- A read of PULL is answered with what the mailbox path takes from its backlog. -/
theorem answers_exportPull (hA : s.Asks ⟨who, .read, 0x3A20, 9, [], .plain⟩) (hv : visible who 0x3A20 = true) :
    Answers (.exportPull who) s ⟨who, .read, 0x3A20, 9, [], .plain⟩ .ok
      (s.taken ⟨who, .read, 0x3A20, 9, [], .plain⟩).exportPull.1 (s.taken ⟨who, .read, 0x3A20, 9, [], .plain⟩).exportPull.2 := by
  have hrow : (dictRow? 0x3A20 9).isSome = true := by decide +kernel
  have hread (u : State) : u.dictRead 0x3A20 9 = u.exportPull := by
    obtain ⟨r, hr⟩ := Option.isSome_iff_exists.mp hrow
    rw [State.dictRead, hr]
    rfl
  have hw : entryAccess 0x3A20 9 ≠ .wo := by decide +kernel
  have hplace : placeCheck who 0x3A20 9 = .ok := placeCheck_ok hv (by decide +kernel) (by decide +kernel)
  exact answers_of rfl rfl hA (fun h => nomatch h.1) (by simp [State.serveRequest, taken_ready hA, hplace, hw, hread])

end Entries

/-! What a path takes from its backlog (R478, R480, R481) -/

section Exports

variable (s : State)

theorem awake_of_hearthRuns (h : s.hearthRuns = true) : s.awake = true := by
  simp [State.hearthRuns, State.live] at h
  simp_all

theorem dget_dadd_other {i k j l n : Nat} (h : dkey j l ≠ dkey i k) : (s.dadd i k n).dget j l = s.dget j l :=
  dget_dset_other s _ h

/-- What a path takes leaves its backlog, and every dictionary entry but SENT; nothing is sent yet, and the log stays. -/
theorem backlogTake_frame (p n : Nat) {i k : Nat} (h : dkey i k ≠ dkey (0x3A20 + p) 8) :
    (s.backlogTake p n).2.ash = s.ash.setBacklog p ((s.ash.backlog p).drop n) ∧ (s.backlogTake p n).2.out = s.out
    ∧ (s.backlogTake p n).2.dget i k = s.dget i k :=
  ⟨rfl, rfl, dget_dadd_other _ h⟩

theorem length_padTo (n : Nat) (b : Bytes) : (padTo n b).length = n := by
  simp [padTo, zeros]
  omega

/-- A datagram carries the sequence number of the path's pushes, which counts up. -/
theorem udpPush_sends (hwake : s.awake = true) (hpipe : s.domOn domPIPE = true) (hpf : s.kiln.pf = none) (hon : s.dget 0x1040 1 ≠ 0)
    (hto : s.dget 0x3A21 9 ≠ 0) (hlog : s.ash.back1 ≠ []) : s.udpPush.ash.back1 = s.ash.back1.drop 32
      ∧ s.udpPush.ash.pushSeq = (s.ash.pushSeq + 1) % 0x10000
      ∧ ∃ b, s.udpPush.out = s.out ++ [.datagram (s.dget 0x3A21 9) (s.dget 0x3A21 0x0B) (s.dget 0x1040 4) b] := by
  obtain ⟨hash, hout, haddr⟩ := backlogTake_frame s 1 32 (i := 0x3A21) (k := 9) (by decide)
  have hport := (backlogTake_frame s 1 32 (i := 0x3A21) (k := 0x0B) (by decide)).2.2
  have hown := (backlogTake_frame s 1 32 (i := 0x1040) (k := 4) (by decide)).2.2
  unfold State.udpPush
  rw [if_neg (by simp [hwake, hpipe, hpf, hon, hto, hlog])]
  dsimp only
  refine ⟨?_, ?_, ?_⟩
  · simp [hash, Ash.setBacklog, Ash.backlog]
  · simp [hash, Ash.setBacklog]
  · exact ⟨_, by rw [withAsh_out, emit_out, hout, haddr, hport, hown]⟩

theorem udpPush_silent (h : s.domOn domPIPE = false ∨ s.kiln.pf.isSome = true ∨ s.dget 0x1040 1 = 0 ∨ s.dget 0x3A21 9 = 0 ∨ s.ash.back1 = []) :
    s.udpPush = s := by
  refine if_pos ?_
  simpa using .inr h

theorem canExport_sends (hwake : s.awake = true) (hid : s.dget 0x3A22 9 ≠ 0) (hlog : s.ash.back2 ≠ []) :
    s.canExport.ash.back2 = s.ash.back2.drop 2
    ∧ ∃ b, b.length = 64 ∧ s.canExport.out = s.out ++ [.canFrame (s.dget 0x3A22 0x0B) (s.dget 0x3A22 9) b] := by
  obtain ⟨hash, hout, haddr⟩ := backlogTake_frame s 2 2 (i := 0x3A22) (k := 9) (by decide)
  have hport := (backlogTake_frame s 2 2 (i := 0x3A22) (k := 0x0B) (by decide)).2.2
  unfold State.canExport
  rw [if_neg (by simp [hwake, hid, hlog])]
  dsimp only
  refine ⟨?_, _, length_padTo _ _, by rw [emit_out, hout, haddr, hport]⟩
  simp [hash, Ash.setBacklog, Ash.backlog]

theorem canExport_silent (h : s.dget 0x3A22 9 = 0 ∨ s.ash.back2 = []) : s.canExport = s := by
  refine if_pos ?_
  simpa using .inr h

end Exports

/-! An acknowledgement and the end of the inhibit time (R483, R484) -/

section Alarms

variable {s : State} {j k : Nat}

theorem alarmAck_idle (h : s.dget (0x3A40 + k) 10 ≠ 1) : s.alarmAck k = s := if_neg h

theorem alarmAck_raised (h : s.dget (0x3A40 + k) 10 = 1) : s.alarmAck k =
    ((s.dset (0x3A40 + k) 9 (s.dget (0x3A40 + k) 5)).dset (0x3A40 + k) 5 0).dset (0x3A40 + k) 10 0 := if_pos h

/-- A key of one alarm's entry is that of another's only where both are the same. -/
theorem dkey_ne {i k j l : Nat} (hk : k < 256) (hl : l < 256) (h : i ≠ j ∨ k ≠ l) : dkey i k ≠ dkey j l := by
  rw [Ne, dkey_inj hk hl]
  omega

theorem alarmAck_kept (h : s.dget (0x3A40 + k) 10 = 1) : (s.alarmAck k).dget (0x3A40 + k) 9 = s.dget (0x3A40 + k) 5
    ∧ (s.alarmAck k).dget (0x3A40 + k) 5 = 0 ∧ (s.alarmAck k).dget (0x3A40 + k) 10 = 0 := by
  rw [alarmAck_raised h]
  refine ⟨?_, ?_, dget_dset_same ..⟩
  · rw [dget_dset_other _ _ (dkey_ne (by decide) (by decide) (.inr (by decide))),
      dget_dset_other _ _ (dkey_ne (by decide) (by decide) (.inr (by decide))), dget_dset_same]
  · rw [dget_dset_other _ _ (dkey_ne (by decide) (by decide) (.inr (by decide))), dget_dset_same]

/-- An acknowledgement leaves its own alarm not RAISED and every other as it was. -/
theorem alarmAck_raised_iff : (s.alarmAck j).dget (0x3A40 + k) 10 = 1 ↔ k ≠ j ∧ s.dget (0x3A40 + k) 10 = 1 := by
  by_cases h : s.dget (0x3A40 + j) 10 = 1
  · by_cases hkj : k = j
    · subst hkj
      simp [(alarmAck_kept h).2.2]
    · rw [alarmAck_raised h, dget_dset_other _ _ (dkey_ne (by decide) (by decide) (by omega)),
        dget_dset_other _ _ (dkey_ne (by decide) (by decide) (by omega)),
        dget_dset_other _ _ (dkey_ne (by decide) (by decide) (by omega))]
      simp [hkj]
  · rw [alarmAck_idle h]
    exact ⟨fun hr => ⟨fun hkj => h (hkj ▸ hr), hr⟩, And.right⟩

/-- After acknowledgements one after another the RAISED alarms are those not acknowledged. -/
theorem foldl_alarmAck_raised_iff (l : List Nat) (s : State) :
    (l.foldl State.alarmAck s).dget (0x3A40 + k) 10 = 1 ↔ k ∉ l ∧ s.dget (0x3A40 + k) 10 = 1 := by
  induction l generalizing s with
  | nil => simp
  | cons j l ih => rw [List.foldl_cons, ih, alarmAck_raised_iff, List.mem_cons, not_or]; tauto

theorem ackAll_notRaised (hk : k < 128) : s.ackAll.dget (0x3A40 + k) 10 ≠ 1 := fun h =>
  ((foldl_alarmAck_raised_iff _ s).mp h).1 (List.mem_range.mpr hk)

/-- The alarm's record, its inhibit time over. -/
def uninhibit (s : State) (k : Nat) : State :=
  s.withAsh fun a => { a with alarms := a.alarms.put k { s.ash.alarms.getD k ⟨0, 0, false⟩ with inhibit := false } }

theorem inhibitOver_idle (h : (s.ash.alarms.getD k ⟨0, 0, false⟩).inhibit = false) : s.inhibitOver k = s := by
  simp [State.inhibitOver, h]

theorem inhibitOver_ends (h : (s.ash.alarms.getD k ⟨0, 0, false⟩).inhibit = true) : s.inhibitOver k =
    if s.dget (0x3A40 + k) 10 = 1 ∧ s.dget (0x3A40 + k) 5 ≠ (s.ash.alarms.getD k ⟨0, 0, false⟩).sentCount
    then (uninhibit s k).sendAlarm k else uninhibit s k := by
  unfold State.inhibitOver
  dsimp only
  rw [h]
  rfl

theorem does_alarmInhibitExpiry (hk : k < 128) (hw : s.awake = true) : Does (.alarmInhibitExpiry k) s (s.inhibitOver k) :=
  does_of_guard (P := k < 128 ∧ s.awake = true) (v := s) rfl ⟨hk, hw⟩

theorem does_alarmInhibitExpiry_idle (h : 128 ≤ k ∨ s.awake = false ∨ (s.ash.alarms.getD k ⟨0, 0, false⟩).inhibit = false) :
    Does (.alarmInhibitExpiry k) s s := by
  by_cases hg : k < 128 ∧ s.awake = true
  · have hover : (s.ash.alarms.getD k ⟨0, 0, false⟩).inhibit = false := by
      obtain h | h | h := h
      · omega
      · simp [hg.2] at h
      · exact h
    simpa only [inhibitOver_idle hover] using does_alarmInhibitExpiry hg.1 hg.2
  · exact does_of_not_guard rfl hg

end Alarms

/-- Settles O54: the admission, the entries that act, the exports and the alarms by the cases above. -/
theorem ashLog : Obligations.AshLog := by
  refine ⟨fun s e => logSubmit_filtered, fun s c => does_admissionTokenGain, fun s c => does_admissionTokenGain_idle, fun s => ?summary,
    fun who s hA hok => answers_logClear hA hok, fun who s hA hok => answers_firstOfKindClear hA hok, fun s n hlog hseq => ?cleared,
    logClear_one, fun who s hA hv => answers_exportPull hA hv, fun s => ⟨rfl, rfl, rfl⟩, fun s => ?exports,
    fun who s k hk hA hok => answers_alarmAck hk hA hok, fun who s hA hok => answers_ackAll hA hok,
    fun who s k q v hk _ hhi hv hA hok => answers_alarmDefine hk hhi hv hA hok,
    fun s k hk => ⟨alarmAck_idle, alarmAck_kept, ackAll_notRaised hk⟩, fun s k => ⟨does_alarmInhibitExpiry_idle, fun hk hw hi => ?inhibit⟩⟩
  case summary =>
    exact ⟨fun hw => does_of_not_guard rfl (by simp [hw]), fun hw => does_of_guard (P := s.awake = true) (v := s) rfl hw,
      fun c => summary_none, summaries_none⟩
  case cleared =>
    obtain ⟨hone, hnext⟩ := Prod.mk.inj (logOf_logCleared n hlog hseq)
    exact ⟨hnext, _, hone, rfl, rfl, rfl, rfl, rfl, rfl, rfl⟩
  case exports =>
    have hpush (hh : s.hearthRuns = true) : Does .udpPush s s.udpPush := does_of_guard (P := s.hearthRuns = true) (v := s) rfl hh
    have hcan (hh : s.hearthRuns = true) : Does .canExport s s.canExport := does_of_guard (P := s.hearthRuns = true) (v := s) rfl hh
    refine ⟨fun h => ?_, fun hh hpipe hpf hon hto hlog => ?_, fun h => ?_, fun hh hid hlog => ?_⟩
    · by_cases hh : s.hearthRuns = true
      · simpa only [udpPush_silent s (h.resolve_left (by simp [hh]))] using hpush hh
      · exact does_of_not_guard rfl hh
    · obtain ⟨hback, hseq, b, hout⟩ := udpPush_sends s (awake_of_hearthRuns s hh) hpipe hpf hon hto hlog
      exact ⟨s.udpPush, b, hpush hh, hback, hseq, hout⟩
    · by_cases hh : s.hearthRuns = true
      · simpa only [canExport_silent s (h.resolve_left (by simp [hh]))] using hcan hh
      · exact does_of_not_guard rfl hh
    · obtain ⟨hback, b, hlen, hout⟩ := canExport_sends s (awake_of_hearthRuns s hh) hid hlog
      exact ⟨s.canExport, b, hcan hh, hlen, hback, hout⟩
  case inhibit =>
    have hdoes := does_alarmInhibitExpiry hk hw
    rw [inhibitOver_ends hi] at hdoes
    refine ⟨fun h => ?_, fun hr hc => ?_⟩
    · rwa [if_neg fun ⟨hr, hc⟩ => h.elim (· hr) hc] at hdoes
    · rwa [if_pos ⟨hr, hc⟩] at hdoes

end Sys2Proof.Laws
end

section
/-! PROOFS. What a thread runs of RV32IM (R411–R416, R428, R439): registers and the end of an instruction, what is issued, each
instruction's effect, the loads and the stores. -/

namespace Sys2Proof.Laws

open Sys2Proof.Machine

/-! Registers and the end of an instruction (R411) -/

theorem reg_setReg (x : Thread) (rd v k : Nat) : (x.setReg rd v).reg k = if k = rd ∧ k ≠ 0 then v % 2 ^ 32 else x.reg k := by
  unfold Thread.setReg
  by_cases hk : k = 0
  · simp [Thread.reg, hk]
  by_cases hrd : rd = 0
  · simp [hrd, hk]
  rw [if_neg hrd]
  by_cases hkr : k = rd
  · subst hkr
    by_cases hz : v % 2 ^ 32 = 0
    · rw [if_pos hz, if_pos ⟨rfl, hk⟩, hz]
      simp [Thread.reg, SMap.getD, hk, get?_del_same]
    · rw [if_neg hz, if_pos ⟨rfl, hk⟩]
      simp [Thread.reg, SMap.getD, hk, get?_put_same]
  · rw [if_neg (c := k = rd ∧ k ≠ 0) fun h => hkr h.1]
    split
    · simp [Thread.reg, SMap.getD, hk, get?_del_other _ hkr]
    · simp [Thread.reg, SMap.getD, hk, get?_put_other _ _ hkr]

section Retire

variable (s : State) (t : Nat)

theorem reg_putReg (rd v k : Nat) : ((s.putReg t rd v).thread t).reg k = if k = rd ∧ k ≠ 0 then v % 2 ^ 32 else (s.thread t).reg k := by
  rw [State.putReg, thread_withThread, reg_setReg]

theorem thread_retire_flow (npc slots k : Nat) : (s.retire t npc slots).thread k = (s.withThread t fun x =>
    { x with pc := npc % 2 ^ 32, instret := (x.instret + 1) % 2 ^ 64 }).thread k := rfl

theorem thread_retire (npc slots : Nat) : (s.retire t npc slots).thread t =
    { s.thread t with pc := npc % 2 ^ 32, instret := ((s.thread t).instret + 1) % 2 ^ 64 } := by
  rw [thread_retire_flow, thread_withThread]

theorem thread_retire_other {k : Nat} (npc slots : Nat) (h : k ≠ t) : (s.retire t npc slots).thread k = s.thread k := by
  rw [thread_retire_flow, thread_withThread_other _ _ h]

theorem retire_frame (npc slots : Nat) : (s.retire t npc slots).q = s.q ∧ (s.retire t npc slots).dram = s.dram
    ∧ (s.retire t npc slots).insts = s.insts ∧ (s.retire t npc slots).out = s.out := ⟨rfl, rfl, rfl, rfl⟩

end Retire

/-! What is issued (R411, R439) -/

section Issue

variable {s : State} {t : Nat}

theorem does_threadInstruction_idle (hp : s.peat.replay = false) (hi : s.threadIssues t = false) : Does (.threadInstruction t) s s := by
  have hstep : s.threadStep t = s := by simp [State.threadStep, hi]
  have hdoes := does_of_not_guard (c := .threadInstruction t) (P := s.peat.replay = true) (v := s.threadStep t) rfl (by simp [hp])
  rwa [hstep] at hdoes

/-- An instruction may not be fetched: a fault of cause 2. -/
theorem does_threadInstruction_noFetch (hp : s.peat.replay = false) (hi : s.threadIssues t = true) (hf : s.threadFetch t = none) :
    Does (.threadInstruction t) s (s.threadFault t 2) := by
  have hstep : s.threadStep t = s.threadFault t 2 := by simp [State.threadStep, hi, hf]
  have hdoes := does_of_not_guard (c := .threadInstruction t) (P := s.peat.replay = true) (v := s.threadStep t) rfl (by simp [hp])
  rwa [hstep] at hdoes

theorem does_threadInstruction {op : RvOp} {len : Nat} (hp : s.peat.replay = false) (hi : s.threadIssues t = true)
    (hf : s.threadFetch t = some (op, len)) : Does (.threadInstruction t) s (s.rvExec t op len) := by
  have hstep : s.threadStep t = s.rvExec t op len := by simp [State.threadStep, hi, hf]
  have hdoes := does_of_not_guard (c := .threadInstruction t) (P := s.peat.replay = true) (v := s.threadStep t) rfl (by simp [hp])
  rwa [hstep] at hdoes

end Issue

/-! Loads (Table 14-1, R414, R428) -/

section Loads

variable {s : State} {t a w : Nat}

theorem threadLoad_misaligned (h : a % w ≠ 0) : s.threadLoad t a w = .fault 5 := if_pos h

theorem threadLoad_imem (ha : a % w = 0) (h : a + w ≤ 0x10000) :
    s.threadLoad t a w = .value (leNat (Mem.readN (s.fcore (t / 8)).imem a w)) false := by
  simp [State.threadLoad, ha, h]

theorem threadLoad_slice (ha : a % w = 0) (h : 0x10000 < a + w) (hs : inSlice a w = true) :
    s.threadLoad t a w = if touches (s.thread t).filling a w then .stall else .value (leNat ((s.thread t).sliceRead a w)) false := by
  simp [State.threadLoad, ha, Nat.not_le.mpr h, hs]

theorem threadLoad_unmapped (ha : a % w = 0) (h : 0x10000 < a + w) (hs : inSlice a w = false)
    (hw : ¬ (0x11000000 ≤ a ∧ a + w ≤ 0x11040000)) : s.threadLoad t a w = .fault 3 := by
  simp only [State.threadLoad, ha, Nat.not_le.mpr h, hs, hw, ne_eq, not_true_eq_false, if_false, Bool.false_eq_true]

end Loads

/-! Each instruction's effect (R411–R416, R428) -/

/-- An address or a pc moved by a signed offset. -/
def offsetBy (base : Nat) (off : Int) : Nat := ofInt 32 ((base : Int) + off)

section Execute

variable {s : State} {t rd r1 r2 w len : Nat} {off : Int}

theorem rvExec_ebreak_fault (h : s.dget 0x3C10 2 ≠ 1) : s.rvExec t .ebreak len = s.threadFault t 7 := if_neg h

/-- With a debugger EBREAK halts the thread (R443). -/
theorem rvExec_ebreak_halts (h : s.dget 0x3C10 2 = 1) :
    s.rvExec t .ebreak len = s.withThread t fun y => { y with halted := true } := if_pos h

theorem rvExec_branch_taken {c : BrOp} (h : c.holds ((s.thread t).reg r1) ((s.thread t).reg r2) = true) :
    s.rvExec t (.branch c r1 r2 off) len = s.retire t (offsetBy (s.thread t).pc off) 1 := by
  simp [State.rvExec, h, offsetBy]

theorem rvExec_branch_passed {c : BrOp} (h : c.holds ((s.thread t).reg r1) ((s.thread t).reg r2) = false) :
    s.rvExec t (.branch c r1 r2 off) len = s.retire t ((s.thread t).pc + len) 1 := by
  simp [State.rvExec, h]

theorem rvExec_load_fault {sg : Bool} {c : Nat} (h : s.threadLoad t (offsetBy ((s.thread t).reg r1) off) w = .fault c) :
    s.rvExec t (.load w sg rd r1 off) len = s.threadFault t c := by
  unfold offsetBy at h
  simp [State.rvExec, h]

theorem rvExec_load_stall {sg : Bool} (h : s.threadLoad t (offsetBy ((s.thread t).reg r1) off) w = .stall) :
    s.rvExec t (.load w sg rd r1 off) len = s := by
  unfold offsetBy at h
  simp [State.rvExec, h]

theorem rvExec_load_value {sg : Bool} {v : Nat} (h : s.threadLoad t (offsetBy ((s.thread t).reg r1) off) w = .value v false) :
    s.rvExec t (.load w sg rd r1 off) len = (s.putReg t rd (extend w sg v)).retire t ((s.thread t).pc + len) 1 := by
  unfold offsetBy at h
  simp [State.rvExec, h]

theorem rvExec_store_misaligned (h : offsetBy ((s.thread t).reg r1) off % w ≠ 0) :
    s.rvExec t (.store w r1 r2 off) len = s.threadFault t 5 := if_pos h

theorem rvExec_store_outside (ha : offsetBy ((s.thread t).reg r1) off % w = 0) (h : inSlice (offsetBy ((s.thread t).reg r1) off) w = false) :
    s.rvExec t (.store w r1 r2 off) len = s.threadFault t 4 := by
  unfold offsetBy at ha h
  simp [State.rvExec, ha, h]

section Inside

variable (ha : offsetBy ((s.thread t).reg r1) off % w = 0) (hs : inSlice (offsetBy ((s.thread t).reg r1) off) w = true)
include ha hs

theorem rvExec_store_stall (h : touches (s.thread t).draining (offsetBy ((s.thread t).reg r1) off) w = true) :
    s.rvExec t (.store w r1 r2 off) len = s := by
  unfold offsetBy at ha hs h
  simp [State.rvExec, ha, hs, h]

theorem rvExec_store_writes (h : touches (s.thread t).draining (offsetBy ((s.thread t).reg r1) off) w = false) :
    s.rvExec t (.store w r1 r2 off) len = (s.withThread t fun y => y.sliceWrite (offsetBy ((s.thread t).reg r1) off)
      (leBytes w ((s.thread t).reg r2))).retire t ((s.thread t).pc + len) 1 := by
  unfold offsetBy at ha hs h
  simp [State.rvExec, ha, hs, h, offsetBy]

end Inside

theorem rvExec_csr_absent {f3 num : Nat} (h : s.csrAccess t num = none) : s.rvExec t (.csr f3 num rd r1) len = s.threadFault t 1 := by
  simp [State.rvExec, State.csrExec, h]

end Execute

end Sys2Proof.Laws
end

section
/-! PROOFS. The extension of the threads and what ends by itself (R426–R435, Table 14-2): how an instruction of the extension ends, the
result of each, the timer, the receive copy, the DMAs and a waiting tr.txf. -/

namespace Sys2Proof.Laws

open Sys2Proof.Machine

/-! How an instruction of the extension ends (R426) -/

section Ends

variable {c : Instr} {s u : State} {t rd r1 r2 v : Nat} {op : TrOp}

theorem does_trRow_idle (hc : exec c s = done (s.trRow t op rd r1 r2)) (hi : s.threadIssues t = false) : Does c s s := by
  have hrow : s.trRow t op rd r1 r2 = s := by simp [State.trRow, hi]
  rwa [hrow] at hc

theorem does_csrRow_idle {num : Nat} (hc : exec c s = done (s.csrRow t num v)) (hi : s.threadIssues t = false) : Does c s s := by
  have hrow : s.csrRow t num v = s := by simp [State.csrRow, hi]
  rwa [hrow] at hc

theorem does_csrRow {num : Nat} (hc : exec c s = done (s.csrRow t num v)) (hi : s.threadIssues t = true) :
    Does c s ((s.csrWrite t num (v % 2 ^ 32)).retire t ((s.thread t).pc + 4) 1) := by
  have hrow : s.csrRow t num v = (s.csrWrite t num (v % 2 ^ 32)).retire t ((s.thread t).pc + 4) 1 := by simp [State.csrRow, hi]
  rwa [hrow] at hc

/-- Only a refusal may end a replayable span. -/
theorem trBreak_ok : s.trBreak t op (.ok v u) = s := by
  cases op <;> rfl

theorem trBreak_stay : s.trBreak t op (.stay u) = s := by
  cases op <;> rfl

section Row

variable (hc : exec c s = done (s.trRow t op rd r1 r2)) (hi : s.threadIssues t = true) (hd : rd < 32) (h1 : r1 < 32) (h2 : r2 < 32)
include hc hi hd h1 h2

theorem does_trRow : Does c s (s.trExec t op rd r1 r2) := by
  have hrow : s.trRow t op rd r1 r2 = s.trExec t op rd r1 r2 := by
    simp [State.trRow, hi, Nat.mod_eq_of_lt hd, Nat.mod_eq_of_lt h1, Nat.mod_eq_of_lt h2]
  rwa [hrow] at hc

theorem does_tr_ok (h : s.trRun t op rd ((s.thread t).reg r1) ((s.thread t).reg r2) = .ok v u) : Does c s (u.trClose t op rd v) := by
  have hdoes := does_trRow hc hi hd h1 h2
  rw [State.trExec, h] at hdoes
  exact hdoes

theorem does_tr_stay (h : s.trRun t op rd ((s.thread t).reg r1) ((s.thread t).reg r2) = .stay u) : Does c s u := by
  have hdoes := does_trRow hc hi hd h1 h2
  rw [State.trExec, h] at hdoes
  exact hdoes

/-- A refusal, after what a replayable span's end leaves (Table 16-11, cause 2). -/
theorem does_tr_fail {st : Status} (h : s.trRun t op rd ((s.thread t).reg r1) ((s.thread t).reg r2) = .fail st)
    (hb : s.trBreak t op (.fail st) = u) : Does c s (u.trClose t op rd (0x80000000 + st.code)) := by
  have hdoes := does_trRow hc hi hd h1 h2
  rw [State.trExec, h, hb] at hdoes
  have hclose : u.trEnd t op rd (.fail st) = u.trClose t op rd (0x80000000 + st.code) := rfl
  rwa [hclose] at hdoes

end Row

end Ends

/-! The result of each (Tables 14-4 to 14-6) -/

section Results

variable {s : State} {t rd a b : Nat}

theorem trWait_refused (h : 63 < a ∨ (bit a 5 = true ∧ s.deliveryThread (t / 8) ≠ t)) : s.trWait t rd a = .fail .fieldInvalid := if_pos h

theorem trWait_park (h : a = 0) : s.trWait t rd a = .stay (s.withThread t fun x => { x with run := .parked }) := by
  subst h
  rfl

theorem trWait_armed (h0 : a ≠ 0) (h : a ≤ 63) (hdel : bit a 5 = false ∨ s.deliveryThread (t / 8) = t) :
    s.trWait t rd a = if Nat.land a (s.waitPending t) ≠ 0 then .stay (s.waitReturn t rd (Nat.land a (s.waitPending t)))
      else .stay (s.withThread t fun x => { x with run := .waiting, wait := some (a, rd) }) := by
  have hok : ¬ (63 < a ∨ (bit a 5 = true ∧ s.deliveryThread (t / 8) ≠ t)) := by
    rintro (hlt | ⟨hbit, hne⟩)
    · omega
    · obtain hb | he := hdel
      · simp [hb] at hbit
      · exact hne he
  exact (if_neg hok).trans (if_neg h0)

theorem trRxf_busy (h : (s.thread t).copy.isSome = true) : s.trRxf t a b = .fail .notInThisState := if_pos h

section Rxf

variable (hcopy : (s.thread t).copy.isSome = false)
include hcopy

theorem trRxf_outside (h : inSlice a 1 = false) : s.trRxf t a b = .fail .fieldInvalid := by
  simp [State.trRxf, hcopy, h]

variable (ha : inSlice a 1 = true)
include ha

theorem trRxf_empty (h : (s.thread t).rxq = []) : s.trRxf t a b = .ok 0 s := by
  simp [State.trRxf, hcopy, ha, h]

variable {f : RxFrame} {rest : List RxFrame} (hq : (s.thread t).rxq = f :: rest)
include hq

theorem trRxf_noRoom (h : b < 16 + f.data.length) : s.trRxf t a b = .fail .outOfRange := by
  simp [State.trRxf, hcopy, ha, hq, h]

theorem trRxf_copies (h : 16 + f.data.length ≤ b) (hin : inSlice a (16 + f.data.length) = true) : s.trRxf t a b =
    .ok (16 + f.data.length) (s.withThread t fun x => { x with
      rxq := rest
      copy := some (a - sliceBase, rxHeader (s.threadInst t) f ++ f.data) }) := by
  simp [State.trRxf, hcopy, ha, hq, Nat.not_lt.mpr h, hin]

end Rxf

theorem trTxf_outside (h : inSlice a 8 = false) : s.trTxf t rd a = .fail .fieldInvalid := by
  simp [State.trTxf, h]

section Txf

variable (ha : inSlice a 8 = true)
include ha

theorem trTxf_filling (h : touches (s.thread t).filling a 8 = true) : s.trTxf t rd a = .stay s := by
  simp [State.trTxf, ha, h]

variable (hf : touches (s.thread t).filling a 8 = false)
include hf

theorem trTxf_range (h : leAt ((s.thread t).sliceRead a 8) 0 2 < 60 ∨ 9596 < leAt ((s.thread t).sliceRead a 8) 0 2) :
    s.trTxf t rd a = .fail .outOfRange := by
  simp only [State.trTxf, ha, hf, h, Bool.not_true, Bool.false_eq_true, if_false, if_true]

variable (hlo : 60 ≤ leAt ((s.thread t).sliceRead a 8) 0 2) (hhi : leAt ((s.thread t).sliceRead a 8) 0 2 ≤ 9596)
include hlo hhi

theorem trTxf_field (h : 1 < byteAt ((s.thread t).sliceRead a 8) 2
    ∨ allZero (Sys2Proof.Machine.sub ((s.thread t).sliceRead a 8) 3 5) = false) : s.trTxf t rd a = .fail .fieldInvalid := by
  obtain h | h := h <;> simp [State.trTxf, ha, hf, Nat.not_lt.mpr hlo, Nat.not_lt.mpr hhi, h]

variable (hdir : byteAt ((s.thread t).sliceRead a 8) 2 ≤ 1)
  (hz : allZero (Sys2Proof.Machine.sub ((s.thread t).sliceRead a 8) 3 5) = true)
  (hin : inSlice (a + 8) (leAt ((s.thread t).sliceRead a 8) 0 2) = true)
  (hff : touches (s.thread t).filling (a + 8) (leAt ((s.thread t).sliceRead a 8) 0 2) = false)
include hdir hz hin hff

theorem trTxf_frame : s.trTxf t rd a =
    if !(byteAt ((s.thread t).sliceRead a 8) 2 == 1) ∧ (s.bufferFree < leAt ((s.thread t).sliceRead a 8) 0 2 + 4 ∨ !s.domOn domPIPE) then
      .stay (s.withThread t fun x => { x with txf := some (rd, byteAt ((s.thread t).sliceRead a 8) 2 == 1,
        (s.thread t).sliceRead (a + 8) (leAt ((s.thread t).sliceRead a 8) 0 2)) })
    else .ok 0 (s.threadSend t (byteAt ((s.thread t).sliceRead a 8) 2 == 1)
      ((s.thread t).sliceRead (a + 8) (leAt ((s.thread t).sliceRead a 8) 0 2))) := by
  simp only [State.trTxf, ha, hf, hff, hz, hin, Nat.not_lt.mpr hlo, Nat.not_lt.mpr hhi, Nat.not_lt.mpr hdir, Bool.not_true,
    Bool.false_eq_true, or_self, if_false]

theorem trTxf_waits (h0 : byteAt ((s.thread t).sliceRead a 8) 2 = 0)
    (h : s.bufferFree < leAt ((s.thread t).sliceRead a 8) 0 2 + 4 ∨ s.domOn domPIPE = false) : s.trTxf t rd a =
      .stay (s.withThread t fun x => { x with txf := some (rd, false,
        (s.thread t).sliceRead (a + 8) (leAt ((s.thread t).sliceRead a 8) 0 2)) }) := by
  rw [trTxf_frame ha hf hlo hhi hdir hz hin hff, if_pos (by simpa [h0] using h), h0]
  rfl

theorem trTxf_direct (h1 : byteAt ((s.thread t).sliceRead a 8) 2 = 1) : s.trTxf t rd a =
    .ok 0 (s.threadSend t true ((s.thread t).sliceRead (a + 8) (leAt ((s.thread t).sliceRead a 8) 0 2))) := by
  rw [trTxf_frame ha hf hlo hhi hdir hz hin hff, if_neg (by simp [h1]), h1]
  rfl

theorem trTxf_sends (h0 : byteAt ((s.thread t).sliceRead a 8) 2 = 0) (hroom : leAt ((s.thread t).sliceRead a 8) 0 2 + 4 ≤ s.bufferFree)
    (hon : s.domOn domPIPE = true) : s.trTxf t rd a =
      .ok 0 (s.threadSend t false ((s.thread t).sliceRead (a + 8) (leAt ((s.thread t).sliceRead a 8) 0 2))) := by
  rw [trTxf_frame ha hf hlo hhi hdir hz hin hff, if_neg (by simp [hon, hroom]), h0]
  rfl

end Txf

theorem trDma_outside (h : inSlice a 16 = false) : s.trDma t a = .fail .fieldInvalid := by
  simp [State.trDma, h]

section Dma

variable (ha : inSlice a 16 = true) (hf : touches (s.thread t).filling a 16 = false)
include ha hf

theorem trDma_range (h : leAt ((s.thread t).sliceRead a 16) 12 3 = 0 ∨ 0x8000 < leAt ((s.thread t).sliceRead a 16) 12 3) :
    s.trDma t a = .fail .outOfRange := by
  simp only [State.trDma, ha, hf, h, Bool.not_true, Bool.false_eq_true, if_false, if_true]

variable (h0 : leAt ((s.thread t).sliceRead a 16) 12 3 ≠ 0) (hlen : leAt ((s.thread t).sliceRead a 16) 12 3 ≤ 0x8000)
include h0 hlen

theorem trDma_field (h : 1 < byteAt ((s.thread t).sliceRead a 16) 15
    ∨ inSlice (leAt ((s.thread t).sliceRead a 16) 8 4) (leAt ((s.thread t).sliceRead a 16) 12 3) = false) :
    s.trDma t a = .fail .fieldInvalid := by
  obtain h | h := h <;> simp [State.trDma, ha, hf, h0, Nat.not_lt.mpr hlen, h]

variable (hdir : byteAt ((s.thread t).sliceRead a 16) 15 ≤ 1)
  (hin : inSlice (leAt ((s.thread t).sliceRead a 16) 8 4) (leAt ((s.thread t).sliceRead a 16) 12 3) = true)
include hdir hin

theorem trDma_foreign (h : (s.dramRegion (s.threadInst t)).2
    < leAt ((s.thread t).sliceRead a 16) 0 8 + leAt ((s.thread t).sliceRead a 16) 12 3) : s.trDma t a = .fail .notYourInstance := by
  simp [State.trDma, ha, hf, h0, Nat.not_lt.mpr hlen, Nat.not_lt.mpr hdir, hin, h]

variable (hown : leAt ((s.thread t).sliceRead a 16) 0 8 + leAt ((s.thread t).sliceRead a 16) 12 3 ≤ (s.dramRegion (s.threadInst t)).2)
include hown

theorem trDma_full (h : (s.thread t).freeTag = none) : s.trDma t a = .fail .poolExhausted := by
  simp [State.trDma, ha, hf, h0, Nat.not_lt.mpr hlen, Nat.not_lt.mpr hdir, hin, Nat.not_lt.mpr hown, h]

theorem trDma_begins {k : Nat} (h : (s.thread t).freeTag = some k) : s.trDma t a = .ok k (s.withThread t fun x => { x with
    dmas := x.dmas ++ [⟨k, (s.dramRegion (s.threadInst t)).1 + leAt ((s.thread t).sliceRead a 16) 0 8,
      leAt ((s.thread t).sliceRead a 16) 8 4 - sliceBase, leAt ((s.thread t).sliceRead a 16) 12 3,
      byteAt ((s.thread t).sliceRead a 16) 15 == 1⟩] }) := by
  simp [State.trDma, ha, hf, h0, Nat.not_lt.mpr hlen, Nat.not_lt.mpr hdir, hin, Nat.not_lt.mpr hown, h]

end Dma

theorem trClaim_range (h : 256 < a) : s.trClaim t a = .fail .outOfRange := if_pos h

section Claim

variable (ha : a ≤ 256)
include ha

theorem trClaim_foreign (h : (a = 256 ∧ s.threadInst t ≠ 0) ∨ (a < 256 ∧ s.threadInst a ≠ s.threadInst t)) :
    s.trClaim t a = .fail .notYourInstance := (if_neg (Nat.not_lt.mpr ha)).trans (if_pos h)

variable (hroot : a = 256 → s.threadInst t = 0) (hown : a < 256 → s.threadInst a = s.threadInst t)
include hroot hown

theorem trClaim_own : s.trClaim t a = if (s.claimOf t).isSome then .fail .notInThisState
    else if (s.channel a).claimant.isSome then .fail .channelBusy
    else .ok 0 (s.withChannel a fun x => { x with claimant := some t, staged := [] }) :=
  (if_neg (Nat.not_lt.mpr ha)).trans (if_neg fun h => h.elim (fun h => h.2 (hroot h.1)) fun h => h.2 (hown h.1))

theorem trClaim_second (h : (s.claimOf t).isSome = true) : s.trClaim t a = .fail .notInThisState :=
  (trClaim_own ha hroot hown).trans (if_pos h)

theorem trClaim_busy (hn : s.claimOf t = none) (h : (s.channel a).claimant.isSome = true) : s.trClaim t a = .fail .channelBusy := by
  rw [trClaim_own ha hroot hown, if_neg (by simp [hn]), if_pos h]

theorem trClaim_takes (hn : s.claimOf t = none) (h : (s.channel a).claimant = none) :
    s.trClaim t a = .ok 0 (s.withChannel a fun x => { x with claimant := some t, staged := [] }) := by
  rw [trClaim_own ha hroot hown, if_neg (by simp [hn]), if_neg (by simp [h])]

end Claim

theorem trPut_unheld (h : s.holds t a = false) : s.trPut t a b = .fail .notInThisState := if_pos (by simp [h])

theorem trCommit_unheld (h : s.holds t a = false) : s.trCommit t a = .fail .notInThisState := if_pos (by simp [h])

theorem trDrop_unheld (h : s.holds t a = false) : s.trDrop t a = .fail .notInThisState := if_pos (by simp [h])

section Held

variable (hh : s.holds t a = true)
include hh

theorem trPut_full (h : 16 ≤ (s.channel a).staged.length) : s.trPut t a b = .fail .outOfRange := by
  simp [State.trPut, hh, h]

theorem trPut_stages (h : (s.channel a).staged.length < 16) :
    s.trPut t a b = .ok 0 (s.withChannel a fun x => { x with staged := x.staged ++ [b] }) := by
  simp [State.trPut, hh, Nat.not_le.mpr h]

theorem trCommit_empty (h : (s.channel a).staged = []) : s.trCommit t a = .fail .fieldInvalid := by
  simp [State.trCommit, hh, h]

theorem trCommit_full (h : (s.channel a).staged ≠ []) (hm : 8 ≤ (s.channel a).msgs.length) : s.trCommit t a = .fail .channelFull := by
  simp [State.trCommit, hh, h, hm]

/-- A commit shows the reader the whole message, after those committed before it (R433). -/
theorem trCommit_appends (h : (s.channel a).staged ≠ []) (hm : (s.channel a).msgs.length < 8) :
    s.trCommit t a = .ok 0 (s.withChannel a fun x => ⟨x.msgs ++ [(t, x.staged)], none, []⟩) := by
  simp [State.trCommit, hh, h, Nat.not_le.mpr hm]

theorem trDrop_frees : s.trDrop t a = .ok 0 (s.withChannel a fun x => { x with claimant := none, staged := [] }) :=
  if_neg (by simp [hh])

end Held

theorem trRecv_outside (h : inSlice a 64 = false) : s.trRecv t a = .fail .fieldInvalid := by
  simp [State.trRecv, h]

section Recv

variable (ha : inSlice a 64 = true)
include ha

theorem trRecv_empty (h : (s.channel t).msgs = []) : s.trRecv t a = .ok 0 s := by
  simp [State.trRecv, ha, h]

variable {w : Nat} {m : List Nat} {rest : List (Nat × List Nat)} (hm : (s.channel t).msgs = (w, m) :: rest)
include hm

theorem trRecv_draining (h : touches (s.thread t).draining a 64 = true) : s.trRecv t a = .stay s := by
  simp [State.trRecv, ha, hm, h]

/-- The reader gets the oldest message whole (R435). -/
theorem trRecv_gives (h : touches (s.thread t).draining a 64 = false) : s.trRecv t a = .ok (m.length + w * 0x10000)
    (((s.withThread t fun x => x.sliceWrite a (padTo 64 ((m.map (leBytes 4)).flatten))).withChannel t fun x =>
      { x with msgs := rest }).peatFill t a (padTo 64 ((m.map (leBytes 4)).flatten))) := by
  simp [State.trRecv, ha, hm, h]

end Recv

end Results

end Sys2Proof.Laws
end

section
/-! PROOFS. What of the threads ends by itself (R416, R427, R429–R431), and ThreadsRun put together. -/

namespace Sys2Proof.Laws

open Sys2Proof.Machine

/-! The timer (Table 14-2, R427) -/

section Timer

variable {s : State} {t v : Nat}

theorem does_ttimerWrite (hi : s.threadIssues t = true) (hv : v < 2 ^ 31) :
    Does (.ttimerWrite t v) s ((s.timerWrite t v).retire t ((s.thread t).pc + 4) 1) := by
  have hdoes := does_csrRow (c := .ttimerWrite t v) rfl hi
  have hwrite : s.csrWrite t 0x8C2 (v % 2 ^ 32) = s.timerWrite t v := by
    rw [Nat.mod_eq_of_lt (by omega)]
    rfl
  rwa [hwrite] at hdoes

theorem timerWrite_off : s.timerWrite t 0 = s.withThread t fun x => { x with timer := none } := rfl

theorem timerWrite_starts (h0 : v ≠ 0) (hv : v < 2 ^ 31) :
    s.timerWrite t v = s.withThread t fun x => { x with timer := some (s.flow.fclkNs + v) } := (if_neg h0).trans (if_pos hv)

theorem does_tpetWrite (hi : s.threadIssues t = true) :
    Does (.tpetWrite t) s ((s.withThread t fun x => { x with petAt := s.flow.fclkNs }).retire t ((s.thread t).pc + 4) 1) := by
  have hdoes := does_csrRow (c := .tpetWrite t) rfl hi
  have hwrite : s.csrWrite t 0x8C3 (0 % 2 ^ 32) = s.withThread t fun x => { x with petAt := s.flow.fclkNs } := rfl
  rwa [hwrite] at hdoes

theorem does_ttimerExpiry_idle (h : (s.thread t).timer = none ∨ s.fclkOn = false) : Does (.ttimerExpiry t) s s :=
  does_of_not_guard (P := (s.thread t).timer.isSome = true ∧ s.fclkOn = true) rfl (by obtain h | h := h <;> simp [h])

theorem does_ttimerExpiry (h : (s.thread t).timer.isSome = true) (hclk : s.fclkOn = true) :
    Does (.ttimerExpiry t) s (s.withThread t fun y => { y with timer := none, timerPend := true }) :=
  does_of_guard (P := (s.thread t).timer.isSome = true ∧ s.fclkOn = true) (v := s) rfl ⟨h, hclk⟩

end Timer

/-! The receive copy (R429) -/

section Copy

variable {s : State} {t : Nat}

theorem does_receiveCopyDone : Does (.receiveCopyDone t) s (s.copyDone t) := rfl

theorem copyDone_none (h : (s.thread t).copy = none) : s.copyDone t = s := by
  simp [State.copyDone, h]

theorem copyDone_some {o : Nat} {d : Bytes} (h : (s.thread t).copy = some (o, d)) : s.copyDone t =
    (s.withThread t fun y => { (y.sliceWrite (sliceBase + o) d) with copy := none, rxdone := true }).peatFill t (sliceBase + o) d := by
  simp [State.copyDone, h]

end Copy

/-! The DMAs of a thread (R431) -/

section Dma

variable {s : State} {t : Nat}

theorem besideRecorder_peatFill (s : State) (t a : Nat) (b : Bytes) : besideRecorder (s.peatFill t a b) = besideRecorder s := by
  unfold State.peatFill
  dsimp only
  induction List.range (chunksOf 256 b).length generalizing s with
  | nil => rfl
  | cons i l ih => rw [List.foldl_cons, ih, besideRecorder_peatRecord]

/-- FILL records leave every thread as it is. -/
theorem thread_peatFill (a k : Nat) (b : Bytes) : (s.peatFill t a b).thread k = s.thread k := by
  have hflow : (s.peatFill t a b).flow = s.flow := congrArg (·.2.1) (besideRecorder_peatFill s t a b)
  rw [State.thread, State.thread, hflow]

/-- Nothing is recorded while the recorder is off. -/
theorem peatFill_off (h : s.peatOn = false) (a : Nat) (b : Bytes) : s.peatFill t a b = s :=
  foldl_stays _ s _ fun i _ => by simp [State.peatRecord, h]

/-- A DMA's tag is reported, its entry gone (R431). -/
def dmaClosed (s : State) (t tag : Nat) (d : ThreadDma) : State :=
  s.withThread t fun x => { x with
    dmas := x.dmas.filter (· != d)
    dmadone := setBit x.dmadone tag true
    dmaPend := true }

/-- What a DMA toward the thread leaves in its slice, recorded. -/
def dmaFilled (s : State) (t : Nat) (d : ThreadDma) : State :=
  (s.withThread t fun x => x.sliceWrite (sliceBase + d.slice) (s.dram.readN d.addr d.len)).peatFill t (sliceBase + d.slice)
    (s.dram.readN d.addr d.len)

theorem dmaEnd_none {tag : Nat} (h : ((s.thread t).dmas.find? fun d => d.tag == tag) = none) : s.dmaEnd t tag = s := by
  simp [State.dmaEnd, h]

theorem dmaEnd_outward {tag : Nat} {d : ThreadDma} (h : ((s.thread t).dmas.find? fun d => d.tag == tag) = some d)
    (hout : d.outward = true) : s.dmaEnd t tag =
      dmaClosed (s.withDram fun m => m.writeN d.addr (Mem.readN (s.thread t).slice d.slice d.len)) t tag d := by
  simp [State.dmaEnd, h, hout, dmaClosed]

theorem dmaEnd_inward {tag : Nat} {d : ThreadDma} (h : ((s.thread t).dmas.find? fun d => d.tag == tag) = some d)
    (hout : d.outward = false) : s.dmaEnd t tag = dmaClosed (dmaFilled s t d) t tag d := by
  simp [State.dmaEnd, h, hout, dmaClosed, dmaFilled]

theorem dmaClosed_thread (s : State) (t tag : Nat) (d : ThreadDma) :
    ((dmaClosed s t tag d).thread t).slice = (s.thread t).slice ∧ ((dmaClosed s t tag d).thread t).dmaPend = true
    ∧ bit ((dmaClosed s t tag d).thread t).dmadone tag = true ∧ d ∉ ((dmaClosed s t tag d).thread t).dmas
    ∧ ∀ k, k ≠ t → (dmaClosed s t tag d).thread k = s.thread k := by
  unfold dmaClosed
  rw [thread_withThread]
  exact ⟨rfl, rfl, bit_setBit_same _ _, by simp, fun k hk => thread_withThread_other _ _ hk⟩

theorem dmaFilled_slice (s : State) (t : Nat) (d : ThreadDma) :
    ((dmaFilled s t d).thread t).slice = Mem.writeN (s.thread t).slice d.slice (s.dram.readN d.addr d.len) := by
  rw [dmaFilled, thread_peatFill, thread_withThread, Thread.sliceWrite, Nat.add_sub_cancel_left]

theorem dmaFilled_other (s : State) (d : ThreadDma) {k : Nat} (h : k ≠ t) : (dmaFilled s t d).thread k = s.thread k := by
  rw [dmaFilled, thread_peatFill, thread_withThread_other _ _ h]

theorem dmaFilled_dram (s : State) (t : Nat) (d : ThreadDma) (h : s.peatOn = false) : (dmaFilled s t d).dram = s.dram := by
  have hoff (f : Thread → Thread) : (s.withThread t f).peatOn = false := h
  rw [dmaFilled, peatFill_off (hoff _)]
  rfl

theorem does_dmaDone (tag : Nat) : Does (.dmaDone t tag) s (s.dmaEnd t tag) := rfl

/-- A DMA's end at its thread: DMA is pending, its tag reported, its entry gone, no other thread changed. -/
def DmaEnded (s u : State) (t tag : Nat) (d : ThreadDma) : Prop :=
  (u.thread t).dmaPend = true ∧ bit (u.thread t).dmadone tag = true ∧ d ∉ (u.thread t).dmas ∧ (∀ k, k ≠ t → u.thread k = s.thread k)
    ∧ Does (.dmaDone t tag) s u

variable {tag : Nat} {d : ThreadDma} (h : ((s.thread t).dmas.find? fun d => d.tag == tag) = some d)
include h

theorem does_dmaDone_outward (hout : d.outward = true) : ∃ u : State,
    u.dram = s.dram.writeN d.addr (Mem.readN (s.thread t).slice d.slice d.len) ∧ (u.thread t).slice = (s.thread t).slice
    ∧ DmaEnded s u t tag d := by
  have hdoes := does_dmaDone (s := s) (t := t) tag
  rw [dmaEnd_outward h hout] at hdoes
  obtain ⟨hslice, hpend, hbit, hgone, hother⟩ :=
    dmaClosed_thread (s.withDram fun m => m.writeN d.addr (Mem.readN (s.thread t).slice d.slice d.len)) t tag d
  exact ⟨_, rfl, hslice, hpend, hbit, hgone, hother, hdoes⟩

theorem does_dmaDone_inward (hout : d.outward = false) : ∃ u : State, (s.peatOn = false → u.dram = s.dram)
    ∧ (u.thread t).slice = Mem.writeN (s.thread t).slice d.slice (s.dram.readN d.addr d.len) ∧ DmaEnded s u t tag d := by
  have hdoes := does_dmaDone (s := s) (t := t) tag
  rw [dmaEnd_inward h hout] at hdoes
  obtain ⟨hslice, hpend, hbit, hgone, hother⟩ := dmaClosed_thread (dmaFilled s t d) t tag d
  exact ⟨dmaClosed (dmaFilled s t d) t tag d, dmaFilled_dram s t d, hslice.trans (dmaFilled_slice s t d), hpend, hbit, hgone,
    fun k hk => (hother k hk).trans (dmaFilled_other s d hk), hdoes⟩

end Dma

/-! A tr.txf that waits (R430) -/

section Waiting

variable {s : State} {t r : Nat} {direct : Bool} {f : Bytes}

theorem txfDone_none (h : (s.thread t).txf = none) : s.txfDone t = s := by
  simp [State.txfDone, h]

theorem does_txfDone : Does (.txfDone t) s (s.txfDone t) := rfl

variable (h : (s.thread t).txf = some (r, direct, f))
include h

theorem txfDone_waits (hw : s.bufferFree < wireLen f ∨ s.domOn domPIPE = false ∨ s.fclkOn = false) : s.txfDone t = s := by
  simp only [State.txfDone, h]
  exact if_pos (by simpa using hw)

/-- The frame of a waiting tr.txf sent. -/
def txfSent (s : State) (t : Nat) (direct : Bool) (f : Bytes) : State :=
  (s.threadSend t direct f).withThread t fun y => { y with txf := none }

theorem txfDone_sends (hroom : wireLen f ≤ s.bufferFree) (hon : s.domOn domPIPE = true) (hclk : s.fclkOn = true) : s.txfDone t =
    if ((txfSent s t direct f).thread t).run = .running then (txfSent s t direct f).trClose t .txf r 0 else txfSent s t direct f := by
  simp only [State.txfDone, h]
  exact if_neg (by simp [hroom, hon, hclk])

end Waiting

/-! What is issued, in the terms of the statement -/

section Issued

variable {s : State} {t rd r1 r2 : Nat}

/-- A thread that does not issue now changes nothing. -/
theorem does_idle (hi : s.threadIssues t = false) :
    (s.peat.replay = false → Does (.threadInstruction t) s s) ∧ Does (.trWait t rd r1) s s ∧ Does (.trRxf t rd r1 r2) s s
    ∧ Does (.trTxf t rd r1) s s ∧ Does (.trDma t rd r1) s s ∧ Does (.trClaim t rd r1) s s ∧ Does (.trPut t rd r1 r2) s s
    ∧ Does (.trCommit t rd r1) s s ∧ Does (.trRecv t rd r1) s s ∧ Does (.trDrop t rd r1) s s ∧ Does (.tpetWrite t) s s
    ∧ ∀ v, Does (.ttimerWrite t v) s s :=
  ⟨fun hp => does_threadInstruction_idle hp hi, does_trRow_idle rfl hi, does_trRow_idle rfl hi, does_trRow_idle rfl hi,
    does_trRow_idle rfl hi, does_trRow_idle rfl hi, does_trRow_idle rfl hi, does_trRow_idle rfl hi, does_trRow_idle rfl hi,
    does_trRow_idle rfl hi, does_csrRow_idle rfl hi, fun _ => does_csrRow_idle rfl hi⟩

end Issued

/-- Settles O49: registers, instructions, the extension and what ends by itself, by the cases above. -/
theorem threadsRun : Obligations.ThreadsRun := by
  intro s t rd r1 r2 hrd hr1 hr2
  have hx0 : 0 < 32 := by decide
  refine ⟨fun k v => ?registers, does_idle, fun hi => ⟨fun hp hf => does_threadInstruction_noFetch hp hi hf, fun op len hp hf => ?base,
    ?waitRefused, ?waitPark, ?wait, ?rxfBusy, ?rxfOutside, ?rxfEmpty, ?rxf, ?txfOutside, ?txfFilling, ?txf, ?dmaOutside, ?dma, ?claimRange,
    ?claimForeign, ?claim, ?unheld, ?held, ?recvOutside, ?recvEmpty, ?recv, ?timerOff, ?timer, ?pet⟩, does_ttimerExpiry_idle,
    does_ttimerExpiry, ?copyNone, ?copy, ?dmaNone, ?dmaEnds, ?txfNone, ?txfWaits, ?txfSends⟩
  case registers =>
    exact ⟨reg_putReg s t rd v k, fun hk => ⟨thread_withThread_other _ _ hk, thread_retire_other s t v 1 hk⟩, thread_retire s t v k,
      retire_frame s t v k⟩
  case base =>
    have hdoes := does_threadInstruction hp hi hf
    refine ⟨?_, ?_, ?_, ?_, ?_, ?_, ?_, ?_, ?_, ?_, ?_, ?_, ?_, ?load, ?store, ?_, ?_⟩
    · rintro rfl; exact hdoes
    · rintro rfl; exact hdoes
    · rintro rfl hd; rwa [rvExec_ebreak_fault hd] at hdoes
    · rintro rfl hd; rwa [rvExec_ebreak_halts hd] at hdoes
    · rintro rfl; exact hdoes
    · rintro imm rfl; exact hdoes
    · rintro imm rfl; exact hdoes
    · rintro off rfl; exact hdoes
    · rintro off rfl; exact hdoes
    · rintro c off rfl h; rwa [rvExec_branch_taken h] at hdoes
    · rintro c off rfl h; rwa [rvExec_branch_passed h] at hdoes
    · rintro o rfl; exact hdoes
    · rintro o imm rfl; exact hdoes
    case load =>
      rintro w sg off rfl
      refine ⟨fun ha => ?_, fun ha hm => ?_, fun ha hm hs hf => ?_, fun ha hm hs hf => ?_, fun ha hm hs hw => ?_⟩
      · rwa [rvExec_load_fault (threadLoad_misaligned ha)] at hdoes
      · rwa [rvExec_load_value (threadLoad_imem ha hm)] at hdoes
      · rwa [rvExec_load_stall ((threadLoad_slice ha hm hs).trans (if_pos hf))] at hdoes
      · rwa [rvExec_load_value ((threadLoad_slice ha hm hs).trans (if_neg (ne_true_of_eq_false hf)))] at hdoes
      · rwa [rvExec_load_fault (threadLoad_unmapped ha hm hs hw)] at hdoes
    case store =>
      rintro w off rfl
      refine ⟨fun ha => ?_, fun ha hs => ?_, fun ha hs hd => ?_, fun ha hs hd => ?_⟩
      · rwa [rvExec_store_misaligned ha] at hdoes
      · rwa [rvExec_store_outside ha hs] at hdoes
      · rwa [rvExec_store_stall ha hs hd] at hdoes
      · rwa [rvExec_store_writes ha hs hd] at hdoes
    · rintro f3 num rfl h; rwa [rvExec_csr_absent h] at hdoes
    · rintro o rfl; exact hdoes
  case waitRefused => exact fun h => does_tr_fail rfl hi hrd hr1 hx0 (trWait_refused h) rfl
  case waitPark => exact fun h => does_tr_stay rfl hi hrd hr1 hx0 (trWait_park h)
  case wait =>
    intro h0 hle hdel
    refine ⟨?_, fun hz => ?_⟩
    · rintro p rfl hp
      exact does_tr_stay rfl hi hrd hr1 hx0 ((trWait_armed h0 hle hdel).trans (if_pos hp))
    · exact does_tr_stay rfl hi hrd hr1 hx0 ((trWait_armed h0 hle hdel).trans (if_neg (not_not.mpr hz)))
  case rxfBusy => exact fun h => does_tr_fail rfl hi hrd hr1 hr2 (trRxf_busy h) rfl
  case rxfOutside => exact fun hcopy h => does_tr_fail rfl hi hrd hr1 hr2 (trRxf_outside hcopy h) rfl
  case rxfEmpty => exact fun hcopy ha h => does_tr_ok rfl hi hrd hr1 hr2 (trRxf_empty hcopy ha h)
  case rxf =>
    exact fun f rest hcopy ha hq => ⟨fun h => does_tr_fail rfl hi hrd hr1 hr2 (trRxf_noRoom hcopy ha hq h) rfl,
      fun h hin => does_tr_ok rfl hi hrd hr1 hr2 (trRxf_copies hcopy ha hq h hin)⟩
  case txfOutside => exact fun h => does_tr_fail rfl hi hrd hr1 hx0 (trTxf_outside h) rfl
  case txfFilling => exact fun ha h => does_tr_stay rfl hi hrd hr1 hx0 (trTxf_filling ha h)
  case txf =>
    intro ha hf d len
    refine ⟨fun h => ?_, fun hlo hhi h => ?_, fun hlo hhi hdir hz hin hff => ⟨fun h0 h => ?_, fun h1 => ?_, fun h0 hroom hon => ?_⟩⟩
    · exact does_tr_fail rfl hi hrd hr1 hx0 (trTxf_range ha hf h) rfl
    · exact does_tr_fail rfl hi hrd hr1 hx0 (trTxf_field ha hf hlo hhi h) rfl
    · exact does_tr_stay rfl hi hrd hr1 hx0 (trTxf_waits ha hf hlo hhi hdir hz hin hff h0 h)
    · exact does_tr_ok rfl hi hrd hr1 hx0 (trTxf_direct ha hf hlo hhi hdir hz hin hff h1)
    · exact does_tr_ok rfl hi hrd hr1 hx0 (trTxf_sends ha hf hlo hhi hdir hz hin hff h0 hroom hon)
  case dmaOutside => exact fun h => does_tr_fail rfl hi hrd hr1 hx0 (trDma_outside h) rfl
  case dma =>
    intro ha hf d off sl len g
    refine ⟨fun h => ?_, fun h0 hlen h => ?_, fun h0 hlen hdir hin => ⟨fun h => ?_, fun hown h => ?_, fun k hown h => ?_⟩⟩
    · exact does_tr_fail rfl hi hrd hr1 hx0 (trDma_range ha hf h) rfl
    · exact does_tr_fail rfl hi hrd hr1 hx0 (trDma_field ha hf h0 hlen h) rfl
    · exact does_tr_fail rfl hi hrd hr1 hx0 (trDma_foreign ha hf h0 hlen hdir hin h) rfl
    · exact does_tr_fail rfl hi hrd hr1 hx0 (trDma_full ha hf h0 hlen hdir hin hown h) rfl
    · exact does_tr_ok rfl hi hrd hr1 hx0 (trDma_begins ha hf h0 hlen hdir hin hown h)
  case claimRange => exact fun h => does_tr_fail rfl hi hrd hr1 hx0 (trClaim_range h) rfl
  case claimForeign => exact fun ha h => does_tr_fail rfl hi hrd hr1 hx0 (trClaim_foreign ha h) rfl
  case claim =>
    exact fun ha hroot hown => ⟨fun h => does_tr_fail rfl hi hrd hr1 hx0 (trClaim_second ha hroot hown h) rfl,
      fun hn h => does_tr_fail rfl hi hrd hr1 hx0 (trClaim_busy ha hroot hown hn h) rfl,
      fun hn h => does_tr_ok rfl hi hrd hr1 hx0 (trClaim_takes ha hroot hown hn h)⟩
  case unheld =>
    exact fun h => ⟨does_tr_fail rfl hi hrd hr1 hr2 (trPut_unheld h) rfl, does_tr_fail rfl hi hrd hr1 hx0 (trCommit_unheld h) rfl,
      does_tr_fail rfl hi hrd hr1 hx0 (trDrop_unheld h) rfl⟩
  case held =>
    refine fun hh => ⟨fun h => ?_, fun h => ?_, fun h => ?_, fun h hm => ?_, fun h hm => ?_, ?_⟩
    · exact does_tr_fail rfl hi hrd hr1 hr2 (trPut_full hh h) rfl
    · exact does_tr_ok rfl hi hrd hr1 hr2 (trPut_stages hh h)
    · exact does_tr_fail rfl hi hrd hr1 hx0 (trCommit_empty hh h) rfl
    · exact does_tr_fail rfl hi hrd hr1 hx0 (trCommit_full hh h hm) rfl
    · exact does_tr_ok rfl hi hrd hr1 hx0 (trCommit_appends hh h hm)
    · exact does_tr_ok rfl hi hrd hr1 hx0 (trDrop_frees hh)
  case recvOutside => exact fun h => does_tr_fail rfl hi hrd hr1 hx0 (trRecv_outside h) rfl
  case recvEmpty => exact fun ha h => does_tr_ok rfl hi hrd hr1 hx0 (trRecv_empty ha h)
  case recv =>
    exact fun w m rest ha hm => ⟨fun h => does_tr_stay rfl hi hrd hr1 hx0 (trRecv_draining ha hm h),
      fun h => does_tr_ok rfl hi hrd hr1 hx0 (trRecv_gives ha hm h)⟩
  case timerOff =>
    have hdoes := does_ttimerWrite (v := 0) hi (by decide)
    rwa [timerWrite_off] at hdoes
  case timer =>
    intro v h0 hv
    have hdoes := does_ttimerWrite hi hv
    rwa [timerWrite_starts h0 hv] at hdoes
  case pet => exact does_tpetWrite hi
  case copyNone =>
    intro h
    have hdoes := does_receiveCopyDone (s := s) (t := t)
    rwa [copyDone_none h] at hdoes
  case copy =>
    intro o d h
    have hdoes := does_receiveCopyDone (s := s) (t := t)
    rwa [copyDone_some h] at hdoes
  case dmaNone =>
    intro tag h
    have hdoes := does_dmaDone (s := s) (t := t) tag
    rwa [dmaEnd_none h] at hdoes
  case dmaEnds => exact fun tag d h => ⟨does_dmaDone_outward h, does_dmaDone_inward h⟩
  case txfNone =>
    intro h
    have hdoes := does_txfDone (s := s) (t := t)
    rwa [txfDone_none h] at hdoes
  case txfWaits =>
    intro r direct f h hw
    have hdoes := does_txfDone (s := s) (t := t)
    rwa [txfDone_waits h hw] at hdoes
  case txfSends =>
    intro r direct f h hroom hon hclk u
    have hdoes := does_txfDone (s := s) (t := t)
    rw [txfDone_sends h hroom hon hclk] at hdoes
    refine ⟨fun hrun => ?_, fun hrun => ?_⟩
    · rwa [if_pos (c := ((txfSent s t direct f).thread t).run = .running) hrun] at hdoes
    · rwa [if_neg (c := ((txfSent s t direct f).thread t).run = .running) hrun] at hdoes

end Sys2Proof.Laws
end
